-- ==== Sys2Proof/Word.lean ====
section
/-! DEFINITION. The 128-bit word of the SL-5128's structures (R6, R7) and the units of time. -/

namespace Sys2Proof

/-- A 128-bit word: records, mailbox payload, image and descriptor words (R6). -/
abbrev Word := BitVec 128

/-- One byte of the basin (R424 judges every byte on its own). -/
abbrev Byte := BitVec 8

/-- Local time in units of 2^-16 ns, the unit of `FRACNS` (R194). -/
abbrev Time := Nat

/-- 1/256 ns, the unit of record timestamps (R188), in units of 2^-16 ns. -/
abbrev unit256 : Nat := 256
/-- One nanosecond. -/
abbrev nsU : Nat := 65536
/-- One microsecond. -/
abbrev usU : Nat := 65536000
/-- One millisecond. -/
abbrev msU : Nat := 65536000000
/-- One second. -/
abbrev secU : Nat := 65536000000000
/-- One modulator cycle of fMOD = 20.48 MHz: 12,500 units of 1/256 ns (R139). -/
abbrev cycU : Nat := 3200000

end Sys2Proof
end

