-- ==== Sys2Proof/Config.lean ====
section
/-! DEFINITION. What one part or one board fixes and the manual does not: the free values. None has a body that a proof
could use. -/

namespace Sys2Proof

/-- A calibration coefficient set of one converter and gain code, as *Coefficient set* lays it out (R165). -/
structure CoefSet where
  hgOffset : Int
  hgGain : Int
  lgOffset : Int
  lgGain : Int
  dfe : Nat
  calTemp : Int
  gainSlope : Int
  dfeSlope : Int
  ratioGain : Int
  calCount : Nat
  source : Nat
deriving DecidableEq, Repr, Inhabited

namespace Config

/-- FREE VALUE: the measured fields of the factory set of converter `c` (0 to 71) and gain code `g`; they differ from
part to part (R178). -/
opaque factorySet : Nat → Nat → CoefSet

/-- The factory set of a converter and gain code: `CAL_COUNT` and `SOURCE` are 0 (R178). -/
def factory (c g : Nat) : CoefSet := { factorySet c g with calCount := 0, source := 0 }

/-- FREE VALUE: the record type that firmware writes for a region of the NV store; R439 names the field and no values. -/
opaque nvType : Nat → BitVec 16

/-- FREE VALUE: the FIR coefficients of a preset, by mode code and coefficient index up to the centre of symmetry, in units
of 2^-23; R118 says that they are fixed in the device and gives none. -/
opaque presetCoef : Nat → Nat → Int

/-- FREE VALUE: the value that the alignment stage interpolates, for the delay phi in 1/256 ns, from the raw samples at an
edge and the seven edges before it, newest first; R114 gives its delay and its error bounds and no coefficients. -/
opaque align : Nat → List Int → Int

/-- FREE VALUE: the internal reference's factory curve coefficients a1 and a2 of a group, in 0.001 ppm (R176). -/
opaque refCurve : Nat → Int × Int

/-- FREE VALUE: the node unique identifier that Forribex fuses into the part (R466). -/
opaque uid : BitVec 64

/-- FREE VALUE: the SHA-384 of the Forribex release key in key slot 0, programmed at test (R465, R466). -/
opaque keyHash0 : BitVec 384

/-- FREE VALUE: the records per second, in 1/1000, that an address of another node delivers; the operator cost counts them
(R319), and nothing tells this node their rate. -/
opaque remoteRate : BitVec 16 → Nat → Nat

/-- FREE VALUE: the check bits of the extended Hamming (128,120) code for 120 information bits; R254 gives their place and
not the code's matrix. -/
opaque innerCheck : BitVec 120 → BitVec 8

/-- FREE VALUE: the exponent that a `RING_LOG2` outside 4 to 16 stands for (R331 states none). -/
opaque dmaLog2 : Nat → Nat

/-- FREE VALUE: where a word of the DRAM lies, by the sizes of the segments in MiB: segment and word index, or none in the
reserved area. R304 gives the sizes and no places. -/
opaque basinPlace : List Nat → Nat → Option (Nat × Nat)

/-- FREE VALUE: a choice the manual leaves open (R447: a RESET_N pulse from 100 ns to 1 us; R424: three bad bits). -/
opaque freeBool : Nat → Bool

/-- FREE VALUE: a word the manual does not fix, by the number of the draw. -/
opaque freeWord : Nat → BitVec 128

/-- FREE VALUE: a number the manual does not fix, by the number of the draw. -/
opaque freeNat : Nat → Nat

/-- FREE VALUE: a signed number the manual does not fix, by the number of the draw. -/
opaque freeInt : Nat → Int

end Config
end Sys2Proof
end

