-- ==== Sys2Proof/Syntax.lean ====
section
/-! DEFINITION. The commands: one constructor of `Instr` per row of spec/opcode_table.json, with the operands that the
outside brings (an instant, a request, a sampled value, a received frame). -/

namespace Sys2Proof

/-- The four paths by which a command reaches the firmware (R353 `AGENT`). -/
inductive Agent
  | host | spi | fabric | debug
deriving DecidableEq, Repr, Inhabited

/-- A mailbox request as the firmware takes it up (R334, R335, R339). -/
structure Request where
  agent : Agent
  mailbox : Fin 16
  /-- FABRIC: the requesting node (R353). -/
  srcNode : BitVec 16
  seq : BitVec 32
  /-- The value written to the doorbell (R335 step 1). -/
  bell : BitVec 32
  /-- Arrival time of the doorbell or frame, local time. -/
  arrival : Time
  len : Nat
  eventOnDone : Bool
  noMsix : Bool
  /-- `REMOTE` and `DEST` (R339). -/
  remote : Option (BitVec 16)
  /-- Payload words Q1 onwards. -/
  payload : List Word
  /-- The request is readable in the mailbox memory (R437). -/
  readable : Bool
deriving DecidableEq, Repr, Inhabited

/-- What the side channel of a lane has brought when a superframe ends (R253, R255, R258, R266): a request for one unit on
one transmit FIR tap, the shed notice, and the slot-use map where it is this lane that carries it. -/
structure SideMsg where
  firReq : Option (Fin 4 × Bool)
  shed : Bool
  map : List (Fin 5)
deriving DecidableEq, Repr, Inhabited

/-- What one modulator edge gives for a converter (R86, R113): the HG and the LG sample in 1/256 code of the HG scale
(R92), whether each is marked overloaded (R87), whether a pin of the selected input lies outside its operating range
(R34), and whether the common mode lies outside its own (R36). -/
structure ModSample where
  hg : Int
  lg : Int
  hgOver : Bool
  lgOver : Bool
  pinOut : Bool
  cmOut : Bool
deriving DecidableEq, Repr, Inhabited

/-- What the analog side gives when a filter instance reaches an output instant (R113, R115). -/
structure Sample where
  /-- Index of the output on the grid, outside a weave (R139). -/
  k : Int
  /-- The shadow instance reaches its output instant, not the primary (R113, R130). -/
  shadow : Bool
  /-- The modulator samples up to the output instant, newest first, one to each modulator edge. -/
  xs : List ModSample
  /-- Those of the other converter on the same edges, while an overlap runs (R170 step 2). -/
  other : Option (List ModSample)
  /-- A pin lies in the open-input band (R46). -/
  inBand : Bool
deriving DecidableEq, Repr, Inhabited

/-- A received TIME frame copy (R203, R205); instants in 2^-16 ns of the root's timebase. -/
structure TimeFrame where
  /-- 0 EAST, 1 WEST, 2 coupling. -/
  port : Nat
  root : BitVec 64
  origin : Nat
  /-- Residence accumulation, 1/256 ns. -/
  acc : Nat
  hops : Nat
  rootState : Nat
  leap61 : Bool
  leap59 : Bool
  utcValid : Bool
  utcOffset : Int
  leapTime : Nat
  /-- Payload CRC good and not stomped. -/
  good : Bool
deriving DecidableEq, Repr, Inhabited

/-- A Sync: the clock that sends it, its sequence number, origin time (2^-16 ns), correctionField (1/256 ns),
logMessageInterval, and whether a Follow_Up comes (R208). -/
structure PtpSync where
  src : BitVec 64
  seq : Nat
  origin : Nat
  corr : Int
  logInterval : Int
  twoStep : Bool
deriving DecidableEq, Repr, Inhabited

/-- An Announce: the clock that sends it, the grandmaster and its data (R208, R209). -/
structure PtpAnnounce where
  src : BitVec 64
  gm : BitVec 64
  prio1 : Nat
  clockClass : Nat
  accuracy : Nat
  variance : Nat
  prio2 : Nat
  ptpTimescale : Bool
  traceable : Bool
  utcOffset : Int
  leap59 : Bool
  leap61 : Bool
  utcValid : Bool
deriving DecidableEq, Repr, Inhabited

/-- A received PTP message (R208, R209). -/
inductive PtpMsg
  | sync (m : PtpSync)
  /-- The clock and sequence number of its Sync, the exact origin time (2^-16 ns) and its correctionField (1/256 ns). -/
  | followUp (src : BitVec 64) (seq : Nat) (origin : Nat) (corr : Int)
  | announce (m : PtpAnnounce)
  /-- A delay request or peer delay request of a partner. -/
  | delayReq (peer : Bool)
  /-- A delay response that yields the round trip, 1/256 ns. -/
  | delayResp (roundTrip : Int)
  | negotiation
  | altTimescale
  | management
  /-- An event message to carry on as transparent clock; its transit time in 1/256 ns. -/
  | transit (corr : Int) (transitTime : Int)
deriving DecidableEq, Repr, Inhabited

/-- A frame on a fabric link: the port it arrives on (0 EAST, 1 WEST, 2 coupling, 3 this node as originator) and its
flits (R271). `worn`: a flit of it is uncorrectable in the buffer of this node's XBAR, `true` for its header flit (R437). -/
structure Frame where
  port : Nat
  flits : List Word
  worn : Option Bool := none
deriving DecidableEq, Repr, Inhabited

/-- What a cold start finds outside: straps (R286), the references (R388) and the VCTL regulator (R402). -/
structure StartEnv where
  straps : BitVec 2
  /-- REFA and REFB lie within 6 % of nominal in 3 consecutive windows (R388 step 2). -/
  refA : Bool
  refB : Bool
  /-- They agree within 100 ppm (R388 step 3). -/
  agree : Bool
  /-- VCTL verified at 900 mV in one of the two attempts (R402). -/
  vctlOk : Bool
deriving DecidableEq, Repr, Inhabited

/-- A firmware image as fetched (R470, R471). -/
structure FwImage where
  release : BitVec 32
  sv : Nat
  keyHash : BitVec 384
  signatureOk : Bool
  fetchOk : Bool
deriving DecidableEq, Repr, Inhabited

/-- A configuration image as fetched on channel MBX: the words at the request's address, and whether every one was
correctable (R372). -/
structure ImageFetch where
  words : List Word
  ok : Bool
deriving DecidableEq, Repr, Inhabited

/-- The fields of a beacon (R299). -/
structure Beacon where
  node : BitVec 16
  activeGen : BitVec 16
  stagedGen : BitVec 16
  staged : Bool
  armed : Bool
  lastResult : Nat
  activeDigest : BitVec 64
  stagedDigest : BitVec 64
  word2 : Word
  commitTime : BitVec 96
  commitGen : BitVec 16
deriving DecidableEq, Repr, Inhabited

/-- How one step left open by a management restart stands (R354): sequence, agent and whether the step's effect is in
force. -/
structure OpenStep where
  agent : Agent
  seq : BitVec 32
  srcNode : BitVec 16
  inForce : Bool
deriving DecidableEq, Repr, Inhabited

/-- The results of the measurements of one calibration (R163, R170 step 4): one set per gain code. -/
abbrev CalResult := List CoefSet

/-- The commands of the block. `t` is the local instant, in 2^-16 ns, at which the step comes about. -/
inductive Instr
  -- resets, power and management (spec/20, spec/17)
  | powerOnReset (t : Time)
  | coldStartRelease (t : Time) (env : StartEnv)
  | bootImageVerify (t : Time) (sigA sigB : Bool)
  | basinInitDone (t : Time)
  | resetNAssert (t : Time) (lowNs : Nat)
  | resetNRelease (t : Time) (railsOk : Bool)
  | sagWarning (t : Time) (rail : Fin 8)
  | sagWarningClear (t : Time)
  | sagCommandTimeout (t : Time)
  | sagReset (t : Time) (rails : BitVec 8)
  | supplyRelease (t : Time)
  | warmReset (t : Time) (env : StartEnv)
  | hostReset (t : Time)
  | hibernateEntry (t : Time)
  | mgmtFault (t : Time) (standbyPair : Bool) (fetch : Bool)
  | watchdogExpiry (t : Time) (standbyPair : Bool)
  | mgmtTakeover (t : Time) (openSteps : List OpenStep)
  | standbyReady (t : Time) (pairB : Bool) (selfTestOk : Bool)
  | mgmtRestartAttempt (t : Time) (pairB : Bool)
  | aonThermalTrip (t : Time)
  | thermalRestart (t : Time)
  -- host interface (spec/14)
  | doorbell (t : Time) (n : Fin 16) (value : BitVec 32) (viaSpi : Bool)
  | longCommandComplete (t : Time) (agent : Agent) (seq : BitVec 32) (status : BitVec 16) (stepsDone : Nat)
  | registerWrite (t : Time) (offset : Nat) (value : BitVec 32)
  | bar0InvalidAccess (t : Time)
  | protoErrRead (t : Time)
  | evqLostRead (t : Time)
  | dmaDroppedRead (t : Time) (ring : Fin 8)
  | intStatusClear (t : Time) (mask : BitVec 32)
  | nmiCauseClear (t : Time) (mask : BitVec 32)
  | sagSeenClear (t : Time) (mask : BitVec 32)
  | evqHeadWrite (t : Time) (value : BitVec 32) (bad : List Nat)
  | dmaProdWrite (t : Time) (c : Fin 16) (value : BitVec 32)
  | dmaStart (t : Time) (c : Fin 16)
  | dmaStop (t : Time) (c : Fin 16)
  | dmaResume (t : Time) (c : Fin 16) (stillBad : Bool)
  | dmaResumeSkip (t : Time) (c : Fin 16)
  | bar2Read (t : Time) (word : Fin 67108864)
  | bar2Write (t : Time)
  | spiTransaction (t : Time) (cmd : BitVec 32) (data : List (BitVec 32))
  | dmaWrite (t : Time) (c : Fin 16) (desc : Word) (bad : Bool)
  | recBufferFlush (t : Time) (c : Fin 8)
  | evqModTimer (t : Time)
  -- mailbox commands: acquisition and time (spec/15)
  | chanConfig (t : Time) (rq : Request)
  | chanSetInput (t : Time) (rq : Request)
  | chanStatus (t : Time) (rq : Request)
  | chanSubstitute (t : Time) (rq : Request)
  | chanConfigBlank (t : Time) (rq : Request)
  | excConfig (t : Time) (rq : Request)
  | excStatus (t : Time) (rq : Request)
  | excLoopback (t : Time) (rq : Request)
  | filtConfig (t : Time) (rq : Request)
  | filtLoadBank (t : Time) (rq : Request)
  | filtSelectMode (t : Time) (rq : Request)
  | filtStart (t : Time) (rq : Request)
  | filtStop (t : Time) (rq : Request)
  | filtCrossfade (t : Time) (rq : Request)
  | filtSync (t : Time) (rq : Request)
  | filtStatus (t : Time) (rq : Request)
  | weaveLoad (t : Time) (rq : Request)
  | weaveStart (t : Time) (rq : Request)
  | weaveStop (t : Time) (rq : Request)
  | weaveStatus (t : Time) (rq : Request)
  | calConfig (t : Time) (rq : Request)
  | calStart (t : Time) (rq : Request)
  | calStop (t : Time) (rq : Request)
  | calRead (t : Time) (rq : Request) (readable : Bool)
  | calWrite (t : Time) (rq : Request)
  | calRestoreFactory (t : Time) (rq : Request)
  | recSubscribe (t : Time) (rq : Request)
  | recStatus (t : Time) (rq : Request)
  | timeGetTime (t : Time) (rq : Request)
  | timeStatus (t : Time) (rq : Request)
  | timeConfigDomain (t : Time) (rq : Request)
  | timeConfigServo (t : Time) (rq : Request)
  | timeSelectDomain (t : Time) (rq : Request)
  | timeClearFault (t : Time) (rq : Request)
  | timeSetAsym (t : Time) (rq : Request)
  | timeConfigRoot (t : Time) (rq : Request)
  | timeConfigHoldover (t : Time) (rq : Request)
  | timeConfigTod (t : Time) (rq : Request)
  | timeSetUtcOffset (t : Time) (rq : Request)
  | timeSet (t : Time) (rq : Request)
  | timeStepAccept (t : Time) (rq : Request)
  | timeStepLog (t : Time) (rq : Request)
  | tactArm (t : Time) (rq : Request)
  | tactCancel (t : Time) (rq : Request)
  | tactStatus (t : Time) (rq : Request)
  | tactConfigPin (t : Time) (rq : Request)
  | tactConfigPps (t : Time) (rq : Request)
  | tactConfigCapture (t : Time) (rq : Request)
  | tactReadCapture (t : Time) (rq : Request)
  -- mailbox commands: transport, fabric and system (spec/16)
  | sysIdentify (t : Time) (rq : Request)
  | sysCmdStatus (t : Time) (rq : Request)
  | sysReset (t : Time) (rq : Request)
  | sysIslandReset (t : Time) (rq : Request)
  | sysLoadFirmware (t : Time) (rq : Request) (img : FwImage)
  | cfgStage (t : Time) (rq : Request) (img : ImageFetch) (othersOk : Bool)
  | cfgCommitAt (t : Time) (rq : Request) (othersOk : Bool)
  | cfgCancelCommit (t : Time) (rq : Request) (othersOk : Bool)
  | cfgReport (t : Time) (rq : Request) (collected : Option (List Beacon))
  | cfgConfig (t : Time) (rq : Request)
  | laneConfig (t : Time) (rq : Request)
  | laneRetrain (t : Time) (rq : Request)
  | laneStatus (t : Time) (rq : Request)
  | slotStatus (t : Time) (rq : Request)
  | fabStatus (t : Time) (rq : Request)
  | fabProbe (t : Time) (rq : Request) (answer : Option (Nat × Nat))
  | ethmConfig (t : Time) (rq : Request)
  | ethmPtpConfig (t : Time) (rq : Request)
  | ethmStatus (t : Time) (rq : Request)
  | basinConfigSegment (t : Time) (rq : Request)
  | basinClear (t : Time) (rq : Request)
  | basinFreeze (t : Time) (rq : Request)
  | basinRelease (t : Time) (rq : Request)
  | basinExtract (t : Time) (rq : Request)
  | basinSetWindow (t : Time) (rq : Request)
  | basinExport (t : Time) (rq : Request)
  | basinStatus (t : Time) (rq : Request)
  | operConfig (t : Time) (rq : Request)
  | operStart (t : Time) (rq : Request)
  | operStop (t : Time) (rq : Request)
  | operStatus (t : Time) (rq : Request)
  | clkStatus (t : Time) (rq : Request)
  | clkCounter (t : Time) (rq : Request)
  | clkGate (t : Time) (rq : Request)
  | clkSetPriority (t : Time) (rq : Request)
  | pwrSetOp (t : Time) (rq : Request)
  | pwrStatus (t : Time) (rq : Request) (railMv : List Nat)
  | pwrSetState (t : Time) (rq : Request) (idle : Bool)
  | thermConfig (t : Time) (rq : Request)
  | thermStatus (t : Time) (rq : Request)
  | memStatus (t : Time) (rq : Request)
  | memCommitRepair (t : Time) (rq : Request) (verified : Bool)
  | nvsStatus (t : Time) (rq : Request)
  | nvsRefresh (t : Time) (rq : Request)
  | fuseRead (t : Time) (rq : Request)
  | fuseProgram (t : Time) (rq : Request) (unblown : BitVec 384) (cut : Option (BitVec 384))
  | fuseLock (t : Time) (rq : Request)
  | logConfig (t : Time) (rq : Request)
  | logRead (t : Time) (rq : Request)
  | diagLoopback (t : Time) (rq : Request)
  | diagSelftest (t : Time) (rq : Request) (passed : Bool)
  | diagCapture (t : Time) (rq : Request) (samples : List Word)
  | unknownCommand (t : Time) (rq : Request) (opcode : BitVec 16)
  -- acquisition events (spec/02 to spec/08)
  | filterOutput (t : Time) (ch : Fin 64) (o : Sample)
  | recordDispatch (t : Time) (ch : Fin 64)
  | pendingSettingApply (t : Time) (ch : Fin 64)
  | settlingDelayEnd (t : Time) (ch : Fin 64)
  | blankAssert (t : Time) (pin : Fin 4) (widthNs : Nat)
  | blankRelease (t : Time) (pin : Fin 4)
  | blankStuck (t : Time) (src : Fin 8)
  | tblkWindowEnd (t : Time) (line : Fin 4)
  | syncNEdge (t : Time) (lowNs : Nat)
  | groupSync (t : Time) (g : Fin 8)
  | channelFailureDetect (t : Time) (g : Fin 8) (ch : Option (Fin 8)) (detector : Fin 5) (firstBad : Time)
  | spareConnect (t : Time) (g : Fin 8)
  | spareSettleEnd (t : Time) (g : Fin 8)
  | substituteBistDone (t : Time) (g : Fin 8) (passed : Bool)
  | refValidityChange (t : Time) (gen : Option (Fin 16)) (valid : Bool)
  | pathMismatchCheck (t : Time) (ch : Fin 64) (meanHg meanLg : Int)
  | excComplianceChange (t : Time) (n : Fin 16) (entry : Bool)
  | excTrip (t : Time) (n : Fin 16) (pins : Fin 3)
  | excOverload (t : Time) (n : Fin 16) (averageMa : Nat) (belowFor : Nat)
  | leadDropMeasure (t : Time) (n : Fin 16) (dropP dropN : Int)
  | acPolaritySwap (t : Time) (n : Fin 16)
  | acDeadTimeEnd (t : Time) (n : Fin 16)
  | loopbackEnd (t : Time) (ch : Fin 64) (mean rms : Int) (count : Nat)
  | weaveArmedStart (t : Time) (ch : Fin 64)
  | strokeBoundary (t : Time) (ch : Fin 64)
  | roundStart (t : Time) (ch : Fin 64)
  | calSlotStart (t : Time) (g : Fin 8) (tempChange : Nat)
  | calSpareCheckDone (t : Time) (g : Fin 8)
  | calOverlapClose (t : Time) (g : Fin 8)
  | calHandoverSwitch (t : Time) (g : Fin 8)
  | calMeasurementDone (t : Time) (g : Fin 8) (sets : CalResult) (inLimits : Bool)
  | spareRecheckDone (t : Time) (g : Fin 8) (good : Bool)
  | calOverlapLimit (t : Time) (g : Fin 8)
  | calHandbackDelayed (t : Time) (g : Fin 8)
  | tempCompUpdate (t : Time) (g : Fin 8)
  -- time (spec/09)
  | timeFrameRx (t : Time) (f : TimeFrame)
  | ptpMessageRx (t : Time) (port : Fin 2) (domainNum : Nat) (udp : Bool) (tags : Nat) (m : PtpMsg)
  | ptpMessageTimer (t : Time) (port : Fin 2) (kind : Fin 3)
  | ppsInEdge (t : Time)
  | todMessageRx (t : Time) (bytes : List Byte)
  | domainSignalLoss (t : Time) (d : Fin 2)
  | timeCopySwitch (t : Time) (d : Fin 2)
  | timebaseStep (t : Time)
  | slewComplete (t : Time)
  | revertiveSwitch (t : Time)
  | faultRecovery (t : Time) (d : Fin 2)
  | holdoverLearn (t : Time)
  | holdoverTableWrite (t : Time)
  | holdoverBoundExpiry (t : Time)
  | leapEvent (t : Time)
  | timeFrameTx (t : Time)
  | ppsOutPulse (t : Time)
  | ppsPulseEnd (t : Time)
  | todTxMessage (t : Time)
  | linkDelayUpdate (t : Time) (port : Fin 3) (lane : Fin 8)
  | linkDelayEventTimer (t : Time) (port : Fin 3) (lane : Fin 8)
  | aonSecondsLoad (t : Time)
  -- timed actions (spec/10)
  | actionFire (t : Time) (slot : Fin 64)
  | tevPulseEnd (t : Time) (pin : Fin 16)
  | tcapEdge (t : Time) (input : Fin 8) (falling : Bool) (pulse : Nat)
  -- clocks and power (spec/17)
  | clockSourceFailure (t : Time) (src : Fin 32) (stopped : Bool)
  | clockForcedSwitch (t : Time) (src : Fin 32)
  | refQualified (t : Time) (refB : Bool)
  | clockQualifyTimeout (t : Time)
  | tbRefSwitchUp (t : Time) (entry : Fin 3)
  | pllLocked (t : Time) (src : Fin 32)
  | pllHoldExpiry (t : Time)
  | counterGateClose (t : Time) (c : Fin 4) (measCount : Nat)
  | vctlVerify (t : Time) (readingMv : Nat)
  | avsTimeout (t : Time)
  | pmbusPoll (t : Time) (currents : List (Option Nat)) (oscTemp : Int)
  -- thermal (spec/18)
  | sensorRead (t : Time) (readings : List Int) (openShort : BitVec 17)
  | sensorBrokenChange (t : Time) (sensor : Fin 17)
  | zoneThresholdCrossing (t : Time) (zone : Fin 7)
  | zoneRisingFastChange (t : Time) (zone : Fin 7)
  | graceTimeExpiry (t : Time)
  | l2HotTimer (t : Time)
  | zoneAllBrokenTimer (t : Time) (zone : Fin 7)
  -- lanes and slots (spec/11)
  | laneSignalDetect (t : Time) (port : Fin 2) (lane : Fin 8)
  | laneRxConverged (t : Time) (port : Fin 2) (lane : Fin 8)
  | laneNegotiationDone (t : Time) (port : Fin 2) (lane : Fin 8) (sameRate : Bool)
  | laneAligned (t : Time) (port : Fin 2) (lane : Fin 8) (laneField : Fin 8)
  | laneTrainingTimeout (t : Time) (port : Fin 2) (lane : Fin 8)
  | laneRetryTimer (t : Time) (port : Fin 2) (lane : Fin 8)
  | laneFailure (t : Time) (port : Fin 2) (lane : Fin 8)
  | framingCodewordRx (t : Time) (port : Fin 3) (lane : Fin 8) (cw : Word) (side : Option SideMsg)
  | laneJustification (t : Time) (port : Fin 2) (lane : Fin 8) (bufferHigh : Bool) (beyondRange : Bool)
  | ctleReevaluate (t : Time) (port : Fin 2) (lane : Fin 8) (better : Nat)
  | firTapRequest (t : Time) (port : Fin 2) (lane : Fin 8) (tap : Fin 4) (up : Bool) (gainDb100 : Nat)
  | laneDegradedChange (t : Time) (port : Fin 2) (lane : Fin 8) (ber : Nat)
  | laneShedPowerdown (t : Time) (port : Fin 2) (lane : Fin 8)
  | expressCodeword (t : Time) (port : Fin 2) (lane : Fin 8) (j : Fin 1088) (cw : Word) (resolved : Option (BitVec 120))
  | circuitAdd (t : Time) (circuit : BitVec 16) (codewords : List (BitVec 120))
  | circuitDrop (t : Time) (circuit : BitVec 16) (working protecting : Option (List (BitVec 120))) (skewNs : Nat)
      (diffDelayUs : Nat)
  | circuitRegen (t : Time) (port : Fin 2) (slot : Fin 64) (info : BitVec 120)
  -- fabric (spec/12)
  | frameForward (t : Time) (f : Frame) (residence : Nat)
  | helloRx (t : Time) (port : Fin 3) (uid heard : BitVec 64) (sameRing : Bool)
  | helloTx (t : Time) (port : Fin 3)
  | adjacencyTimeout (t : Time) (port : Fin 3)
  | tokenRx (t : Time) (port : Fin 2) (payload1 payload2 : Word)
  | tokenTx (t : Time)
  | secondaryAnchorTakeover (t : Time)
  | linkStateRx (t : Time) (port : Fin 2) (up : Bool) (pos : Fin 1024) (brokenPort : Fin 3)
  | beaconTx (t : Time)
  | beaconRx (t : Time) (b : Beacon)
  | configFrameRx (t : Time) (gen : BitVec 16) (offset : Nat) (words : List Word) (last : Bool) (digest64 : BitVec 64)
  | mgmtReqRx (t : Time) (src : BitVec 16) (headerOnly : Bool) (opcode : BitVec 16) (rq : Request)
  | mgmtRspRx (t : Time) (mailbox : Fin 16) (seq : BitVec 32) (status : BitVec 16) (words : List Word)
  | remoteCommandTimeout (t : Time) (mailbox : Fin 16)
  | recordsFrameRx (t : Time) (f : Frame) (mark : Option Bool)
  | dataFrameRx (t : Time) (f : Frame)
  | reorderHoldExpiry (t : Time) (src : BitVec 16)
  | sourceForget (t : Time) (src : BitVec 16)
  | originationHoldEnd (t : Time)
  | exportFrameClose (t : Time) (g : Fin 10)
  | limiterExtensionEnd (t : Time)
  | catchupTrigger (t : Time) (node : BitVec 16)
  | catchupCommit (t : Time)
  | ethmFrameRx (t : Time) (port : Fin 2) (bytes : Nat) (fcsOk pause ptpEvent : Bool) (words : List Word)
  | ethmLinkChange (t : Time) (port : Fin 2) (up : Bool)
  | macAgeing (t : Time) (group : Fin 16) (mac : BitVec 48)
  -- basin and operators (spec/13)
  | basinRecordWrite (t : Time) (seg : Fin 1024)
  | segmentIdleFreeze (t : Time) (seg : Fin 1024)
  | mirrorOriginLost (t : Time) (seg : Fin 1024)
  | operatorInput (t : Time) (slot : Fin 32)
  | operatorHoldExpiry (t : Time) (slot : Fin 32)
  -- memories (spec/19)
  | scrubWord (t : Time) (mem : Fin 3) (badBits : List Nat) (tagOk : Bool)
  | softRepairComplete (t : Time) (mem : Fin 3) (row : Nat)
  | nvWriteCountStore (t : Time)
  | nvRefreshCheck (t : Time)
  | rollbackAdvance (t : Time)
  -- islands and links
  | islandResetDrainEnd (t : Time) (openShakes : List (Fin 21))
  | gateCloseDrainEnd (t : Time) (idle : Bool)
  | gateOpenDone (t : Time)
  | pcieLinkChange (t : Time) (up : Bool)
  | spareRecalibrationDone (t : Time) (g : Fin 8) (sets : CalResult)
  | originationLimitRelease (t : Time)
deriving DecidableEq, Repr, Inhabited

end Sys2Proof
end

