-- ==== Sys2Proof/Decode.lean ====
section
/-! DEFINITION. Words that spell a command. spec/opcode_table.json gives no row any bits: the commands of this block come as
events and register or mailbox accesses, so no word spells one. -/

namespace Sys2Proof

/-- The command that a word spells by the table's bits; the table gives bits to no row. -/
def decodeTableWord (_nbits _w : Nat) : Option Instr := none

end Sys2Proof
end

