-- ==== Sys2Proof/Machine/State.lean ====
section
/-! DEFINITION. The state of the SL-5128 as plain data: every register, queue, buffer, counter, mode and pin that spec/
gives the device, the queue of waiting commands, the faults and refusals, and the state right after power-on reset. -/

namespace Sys2Proof.Machine

/-- Why a step stops with a fault. -/
inductive Fault
  /-- Raised by every event of a lane 4 to 7 on an SL-5128-V, which has no such lane (R3): the part that the event names
  does not exist. Safe: the model stops where the hardware has nothing. -/
  | absentPart
deriving DecidableEq, Repr, Inhabited

/-- Why a step is refused. -/
inductive Refusal
  /-- Raised by an arm of `exec` that has no meaning yet; safe, since the model stops. No arm of this model uses it. -/
  | notModelled (mnemonic : String)
deriving DecidableEq, Repr, Inhabited

/-! ### Islands (R12, R14, R15) -/

/-- The islands of *Island map* (R12). -/
inductive Island
  | aon | mgmtA | mgmtB | hostif | time
  | daq (g : Fin 8)
  | lineE | lineW | drop | xbar | basin | oper | nvs | ethm
deriving DecidableEq, Repr, Inhabited

/-- How an island stands: running, gated, held in reset, or draining its handshakes before a reset or a gate (R14, R15,
R395). -/
inductive IslandPhase
  | run | gated | inReset | draining | closing | opening
deriving DecidableEq, Repr, Inhabited

/-- One island: its phase, the requests towards it answered ABSENT, which their senders discarded and counted (R14), and the
handshakes of its own that a partner's reset closed by an ABORT completion (R15). -/
structure IslandSt where
  phase : IslandPhase
  discards : Nat
  aborts : Nat
deriving DecidableEq, Repr, Inhabited

/-! ### Host interface (R326 to R354) -/

/-- One mailbox: its registers and payload words 1 to 255 (R331); words past the list are 0. -/
structure Mailbox where
  seq : BitVec 32
  opcode : BitVec 16
  len : Nat
  remote : Bool
  eventOnDone : Bool
  noMsix : Bool
  dest : BitVec 16
  status : BitVec 16
  rspLen : Nat
  done : Bool
  pending : Bool
  duplicate : Bool
  payload : List Word
  /-- The value written to the doorbell, its arrival and whether it came over SPI (R334, R345). -/
  bell : BitVec 32
  arrival : Time
  viaSpi : Bool
deriving DecidableEq, Repr, Inhabited

/-- The event queue registers (R331) and the device's event buffer (R342, R343). -/
structure EvqSt where
  baseLo : BitVec 32
  baseHi : BitVec 32
  log2 : BitVec 5
  tail : Nat
  head : Nat
  enable : Bool
  modCount : Nat
  modTime : Nat
  lost : Nat
  phase : Bool
  /-- Events held, oldest first, each with word 0 first (R343). -/
  held : List (List Word)
  /-- Events were discarded since the last one written (R343). -/
  lostDue : Bool
  unsignalled : Nat
  firstUnsignalled : Option Time
deriving DecidableEq, Repr, Inhabited

/-- The states of a DMA channel (R331 `STATE`). -/
inductive DmaState
  | idle | running | starved | haltedUe | aborted | stopped
deriving DecidableEq, Repr, Inhabited

/-- The buffer that a DMA channel is filling: its descriptor, the words written, the generation of its records, when its
first record came, and whether it holds poison (R347, R348). -/
structure DmaBuf where
  desc : Word
  words : Nat
  gen : Nat
  first : Time
  poison : Bool
deriving DecidableEq, Repr, Inhabited

/-- One DMA channel (R331, R347 to R351). -/
structure DmaCh where
  ringLo : BitVec 32
  ringHi : BitVec 32
  log2 : BitVec 5
  flushUs : Nat
  prod : Nat
  cons : Nat
  state : DmaState
  haltDesc : Nat
  haltWord : Nat
  dropped : Nat
  buf : Option DmaBuf
  /-- The word whose read halted the channel, while it is halted (R349). -/
  badWord : Option Word
  /-- The node that formed that word: none for this one. -/
  badNode : Option (BitVec 16)
  /-- Words that wait for this channel: LOG and SPARE their data, BASIN channels the metadata of the last buffer (R346, R348). -/
  feed : List Word
deriving DecidableEq, Repr, Inhabited

/-- HOSTIF: BAR0, mailboxes, DMA, the SPI port and the PCIe link. -/
structure HostSt where
  nmiCause : BitVec 5
  sagSeen : BitVec 8
  intStatus : BitVec 20
  intEnable : BitVec 20
  irqPinEn : Bool
  protoErr : Nat
  evq : EvqSt
  dma : List DmaCh
  mbox : List Mailbox
  /-- `MGMT_RUN`, `STANDBY_READY` and `ACTIVE_PAIR` follow the management complex; `FW_RELEASE` is written at start. -/
  fwRelease : BitVec 16
  /-- Address-error bit of the previous SPI transaction and what the last one returned on MISO (R344). -/
  spiAddrErr : Bool
  spiMiso : List (BitVec 32)
  linkUp : Bool
  /-- MSI-X function mask, per-vector masks and pending bits (R329). -/
  msixFnMask : Bool
  msixMask : BitVec 64
  msixPending : BitVec 64
  /-- BAR2 accesses: writes discarded, reads that returned all ones (R315). -/
  bar2Discards : Nat
  bar2Poison : Nat
  /-- What the last BAR2 read returned (R315). -/
  bar2Data : Word
  /-- What the last read of a read-to-clear register returned (R8). -/
  rcData : Nat
deriving DecidableEq, Repr, Inhabited

/-! ### The management complex (R22, R23, R353, R354, R452, R453, R470) -/

/-- Journal states (R353). -/
inductive JState
  | notFound | queued | running | done | partially | abandoned
deriving DecidableEq, Repr, Inhabited

/-- One journal entry (R353). -/
structure JEntry where
  seq : BitVec 32
  opcode : BitVec 16
  agent : Agent
  mailbox : Nat
  srcNode : BitVec 16
  steps : Nat
  stepsDone : Nat
  state : JState
  status : BitVec 16
  arrival : Nat
  durationUs : Nat
  /-- Local arrival instant, from which the duration counts. -/
  arrivalLocal : Time
deriving DecidableEq, Repr, Inhabited

/-- The resources a long command holds until it ends (R352). -/
inductive Resource
  | channel (n : Nat) | generator (n : Nat) | group (g : Nat) | slot (n : Nat) | segment (n : Nat) | lane (p n : Nat)
  | port (p : Nat) | operSlot (n : Nat) | nvRegion (n : Nat) | config | fuses | counter (n : Nat) | op | island (n : Nat)
  | firmware | report | power | log | selftest | capture | basinDma (n : Nat)
deriving DecidableEq, Repr, Inhabited

/-- A long command that has answered `ACCEPTED` and runs on (R338, R352). -/
structure Running where
  agent : Agent
  srcNode : BitVec 16
  seq : BitVec 32
  opcode : BitVec 16
  steps : Nat
  holds : List Resource
  /-- The request, where the command answers only when it ends (R352). -/
  ask : Option Request
  /-- A host reset has taken the mailbox that would answer (R351). -/
  mute : Bool
deriving DecidableEq, Repr, Inhabited

/-- A command that waits for a sag warning to clear (R353, R406). -/
structure Waiting where
  opcode : BitVec 16
  rq : Request
deriving DecidableEq, Repr, Inhabited

/-- A remote command that waits for its MGMT_RSP (R290, R339). -/
structure RemotePending where
  rq : Request
  opcode : BitVec 16
  dest : BitVec 16
  sentAt : Time
deriving DecidableEq, Repr, Inhabited

/-- A management pair (R452, R453). -/
inductive PairState
  | active | standby | reloading | out
deriving DecidableEq, Repr, Inhabited

/-- One pair: its state and the restarts that AON has tried since it was lost (R453). -/
structure Pair where
  state : PairState
  attempts : Nat
  lastAttempt : Time
deriving DecidableEq, Repr, Inhabited

/-- The management complex and its firmware. -/
structure MgmtSt where
  pairA : Pair
  pairB : Pair
  /-- The number of the pair last active: 0 MGMT-A, 1 MGMT-B (R331 `ACTIVE_PAIR`). -/
  active : Nat
  /-- A pair serves commands (`MGMT_RUN`). -/
  run : Bool
  /-- Firmware has still to start the data plane: no image has been accepted since the last start (R448, R470). -/
  starting : Bool
  /-- Neither firmware image was accepted (R470). -/
  recovery : Bool
  /-- A pair has become active after a restart and has not yet taken over (R354). -/
  takeoverDue : Bool
  /-- Both pairs are lost (R453). -/
  lost : Bool
  /-- The running image: 0 A, 1 B; its release and security version; since when it runs undisturbed (R471). -/
  image : Nat
  release : BitVec 32
  sv : Nat
  since : Time
  running : List Running
  waiting : List Waiting
  /-- FABRIC requests taken in and not yet executed (R352: at most 64). -/
  fabricQueue : List Waiting
  remotes : List RemotePending
  /-- When the warm reset or HIBERNATE asked for by a command is due (R450, R458). -/
  warmDue : Option Time
  hibernateDue : Option Time
deriving DecidableEq, Repr, Inhabited

/-! ### Outputs -/

/-- What the block has put out: messages, host-memory writes, frames and pulses, oldest first. -/
inductive Out
  /-- An MSI-X message (R329). -/
  | msix (vector : Nat)
  /-- A 128-bit word written to host memory (R342, R347). -/
  | hostWrite (addr : Nat) (word : Word)
  /-- A completion record written to a DMA descriptor: channel, descriptor index, completion entry (R347). -/
  | completion (channel : Nat) (index : Nat) (entry : Word)
  /-- A frame of this node sent on a port (0 EAST, 1 WEST, 2 coupling), flit by flit, each in its container (R269, R271). -/
  | frame (port : Nat) (containers : List (BitVec 136))
  /-- A whole frame forwarded on a port (R279). -/
  | forward (port : Nat) (containers : List (BitVec 136))
  /-- A request to the neighbour's transmitter for a one-unit change of a FIR tap, over the side channel (R253). -/
  | firRequest (port : Nat) (lane : Nat) (tap : Nat) (up : Bool)
  /-- A TEV pin is not driven from a local instant on. -/
  | tevOff (pin : Nat) (at_ : Int)
  /-- A PTP message of an ETHM port: UDP/IPv4 or IEEE 802.3, the VID and PCP of its tag, kind, content word (R208). -/
  | ptp (port : Nat) (udp : Bool) (tag : Option (Nat × Nat)) (kind : Nat) (content : Int)
  /-- An Ethernet frame out of an ETHM port (R295), and what is added to the correctionField of a PTP event message it
  holds, 1/256 ns (R209). -/
  | ether (port : Nat) (words : List Word) (corr : Int)
  /-- An edge on a TEV pin at an instant in 2^-16 ns (local), level after it (R233). -/
  | tev (pin : Nat) (at_ : Int) (level : Bool)
  /-- An edge on PPS_OUT (R244). -/
  | pps (at_ : Int) (level : Bool)
  /-- A time-of-day message on TOD_TX (R212). -/
  | tod (bytes : List Byte)
  /-- A framing codeword sent on a lane of a port (R255, R256). -/
  | framing (port : Nat) (lane : Nat) (codeword : BitVec 128)
  /-- A codeword of the inner code sent on a slot of a port (R254, R260, R261, R264), or the stream to a drop interface. -/
  | codeword (port : Nat) (slot : Nat) (hops : Nat) (codeword : BitVec 128)
  | drop (circuit : BitVec 16) (codewords : List (BitVec 120)) (fault : Bool)
  /-- A mark of a freeze or a release in a segment's mirror stream (R316). -/
  | mirrorMark (port : Nat) (seg : Nat) (freeze : Bool)
  /-- Data words delivered to host memory by a BASIN, LOG or DIAG channel (R312). -/
  | dma (channel : Nat) (words : List Word)
deriving DecidableEq, Repr, Inhabited
/-! ### Time (R194 to R227, R497, R498) -/

/-- The sources of a time domain (R201): FABRIC names ACTIVE_ANCHOR or a unique identifier; PTP names an ETHM port. -/
inductive DomSource
  | off | fabric (anchor : Bool) (root : BitVec 64) | ptp (port : Nat) | pps
deriving DecidableEq, Repr, Inhabited

/-- *Domain states* (R216). -/
inductive DomState
  | disabled | noSignal | acquiring | locked | faulty
deriving DecidableEq, Repr, Inhabited

/-- *Servo settings* (R214); thresholds in the units of the table. -/
structure ServoSet where
  kp : Nat
  ki : Nat
  lockNs : Nat
  lockCount : Nat
  unlockNs : Nat
  stepUs : Nat
  agreeNs : Nat
  recoveryS : Nat
deriving DecidableEq, Repr, Inhabited

/-- The last valid copy of a TIME frame from one port (R205). -/
structure TimeCopy where
  hops : Nat
  last : Time
  alive : Bool
deriving DecidableEq, Repr, Inhabited

/-- One time domain. Offsets are in 2^-48 ns, the integrator in 2^-80 ns and `y` in 2^-80 ppb, so that no servo result is
rounded. -/
structure Domain where
  source : DomSource
  state : DomState
  servo : ServoSet
  /-- Settings that take effect at the next measurement (R214). -/
  servoNext : Option ServoSet
  theta : Int
  thetaTb : Int
  integ : Int
  y : Int
  lockRun : Nat
  unlockRun : Nat
  missRun : Nat
  largeRun : Nat
  lockedSince : Time
  /-- How long the domain had been LOCKED when it last left LOCKED (R222). -/
  lockedFor : Nat
  /-- FAULTY: since when |theta_tb| has stayed within the lock threshold (R216). -/
  withinSince : Option Time
  copies : List (Option TimeCopy)
  /-- The port whose copy is in use. -/
  copyPort : Nat
  lastMeas : Option Time
  /-- The last 16 spacings of copies in use (R497). -/
  spacings : List Nat
  /-- tau = 2^-tauExp seconds. -/
  tauExp : Int
  rootUncertain : Bool
  hops : Nat
  dPps : Int
  /-- The shadow clock minus the timebase at the instant `shadowAt` (R202). -/
  shadowOff : Int
  shadowAt : Time
  /-- The Δ of the step-pending event while it stands, in 2^-16 ns (R219, R221). -/
  pendingDelta : Option Int
deriving DecidableEq, Repr, Inhabited

/-- What the timebase does (R217). -/
inductive TbMode
  | follow | holdover | freeRun
deriving DecidableEq, Repr, Inhabited

/-- The causes of a step, in the order of `STEP_LOG` (R220). -/
inductive StepCause
  | initialSet | agreedStep | hostAccept | hostSet
deriving DecidableEq, Repr, Inhabited

/-- One entry of the step log (R220). -/
structure StepEntry where
  epoch : Nat
  before : Nat
  after : Nat
  cause : StepCause
deriving DecidableEq, Repr, Inhabited

/-- A step that a measurement or a command has decided and whose tick has not come, in 2^-16 ns (R220). -/
structure StepDue where
  delta : Int
  cause : StepCause
  /-- The domain whose source the step sets the timebase to. -/
  origin : Option Nat
deriving DecidableEq, Repr, Inhabited

/-- The UTC information beside the timebase (R197). -/
structure UtcSt where
  offset : Int
  leap61 : Bool
  leap59 : Bool
  leapTime : Nat
  valid : Bool
  /-- The active source supplies the values (R197). -/
  supplied : Bool
deriving DecidableEq, Repr, Inhabited

/-- The round trip of one lane (R207). -/
structure LinkRt where
  /-- The four timestamps of the last markers, timebase modulo 2^40 in 1/256 ns: this node's transmission and the
  neighbour's reception of one marker, the neighbour's transmission and this node's reception of another. -/
  stamps : Option (Nat × Nat × Nat × Nat)
  raw : Option Int
  /-- The last raw results, newest first, at most 64. -/
  window : List Int
  /-- While the second after an event runs: its end, and the largest further change. -/
  holdUntil : Option Time
  largest : Option Int
deriving DecidableEq, Repr, Inhabited

/-- The PTP side of one ETHM port (R208, R209). -/
structure PtpPort where
  /-- 0 OFF, 1 slave, 2 master, 3 transparent clock (`ETHM.PTP_CONFIG`). -/
  role : Nat
  /-- 0 IEEE 802.3, 1 UDP/IPv4. -/
  transport : Nat
  /-- 0 end to end, 1 peer to peer. -/
  delayMech : Nat
  twoStep : Bool
  masterOnly : Bool
  slaveOnly : Bool
  domainNumber : Nat
  logSync : Int
  logDelay : Int
  logAnnounce : Int
  prio1 : Nat
  prio2 : Nat
  classLocked : Nat
  classHoldover : Nat
  classUncertain : Nat
  /-- The master's Announce data in use: grandmaster, ptpTimescale, timeTraceable. -/
  gm : Option (BitVec 64)
  /-- Rank of that grandmaster under the default best master clock algorithm, lower better (R208). -/
  gmRank : Nat
  gmTimescale : Bool
  gmTraceable : Bool
  /-- The clock that announces it, and when it last did. -/
  master : BitVec 64
  gmHeard : Time
  /-- A Sync of two steps that waits for its Follow_Up, and the timebase value of its arrival (R208). -/
  syncWaits : Option (PtpSync × Nat)
  /-- Measured round trip, 1/256 ns (R207). -/
  roundTrip : Option Int
  /-- Messages ignored and counted: other domain numbers, negotiation TLVs, alternate timescale TLVs, management. -/
  otherDomain : Nat
  negotiation : Nat
  altTimescale : Nat
  management : Nat
  rejected : Nat
  sent : Nat
  received : Nat
deriving DecidableEq, Repr, Inhabited

/-- The PPS_TOD receiver and TOD_TX (R210 to R212). -/
structure TodSt where
  baud : Nat
  txEnable : Bool
  /-- Timebase value and local instant of the last PPS_IN edge. -/
  lastEdge : Option (Nat × Time)
  /-- The message that waits for its edge: PPS_SECONDS, EDGE_CORR, RX_STATE. -/
  message : Option (Nat × Int × Nat)
  /-- The edge after which that message arrived (timebase value). -/
  messageEdge : Nat
  prevSeconds : Option Nat
  invalid : Nat
  /-- When the next TOD_TX message is due, local time (R212). -/
  txDue : Option Time
deriving DecidableEq, Repr, Inhabited

/-- TIME: timebase, domains, holdover, UTC, link delay, PTP and time of day. -/
structure TimeSt where
  /-- Timebase minus local time: the start value and the sum of all steps (R220). -/
  stepSum : Int
  epoch : Nat
  stepLog : List StepEntry
  stepDue : Option StepDue
  dom : List Domain
  active : Nat
  activeSince : Time
  mode : TbMode
  preferred : Nat
  revertive : Bool
  /-- `SWITCH_MODE`: true for DECLARED_OFFSET (R218). -/
  declareMode : Bool
  /-- Slew rate in 0.1 us/s. -/
  slewRate : Nat
  everLocked : Bool
  /-- The servo's or holdover's part of y, 2^-80 ppb. -/
  y : Int
  /-- The part of δ (timebase minus shadow clock) that a slew had still to remove at `slewAt`, and the declared offset,
  both in 2^-48 ns (R202, R218). -/
  slewLeft : Int
  slewAt : Time
  declared : Int
  /-- The values y took and when, newest first, over the last 64 s (R222). -/
  yHist : List (Time × Int)
  holdoverSince : Time
  holdoverQualified : Bool
  holdoverExpired : Bool
  holdoverEntryY : Int
  boundS : Nat
  tempSrc : Nat
  /-- Learned bins: temperature in °C and y, rising (R222). -/
  table : List (Int × Int)
  /-- The table changed since it was last stored (R222). -/
  tableDirty : Bool
  /-- The bin in °C that the temperature is in, since when, and when a bin last learned (R222). -/
  binNow : Int
  binSince : Time
  binLearned : Time
  utc : UtcSt
  /-- Root advertising: follows the anchor role, or as set (R203). -/
  rootFollowAnchor : Bool
  rootAdvertise : Bool
  rootRateN : Nat
  /-- A_in and A_out of EAST, WEST, coupling, ETHM0, ETHM1 (R207). -/
  asym : List (Int × Int)
  /-- Round trips by port (EAST, WEST, coupling) and lane. -/
  links : List (List LinkRt)
  ptp : List PtpPort
  tod : TodSt
deriving DecidableEq, Repr, Inhabited

/-! ### Timed actions, TEV, 1PPS and TCAP (R228 to R247) -/

/-- The kinds of a slot, with their parameters (R228). -/
inductive SlotKind
  | tevPulse (pin : Nat) (width : Nat)
  | sync (groups : BitVec 8)
  | weaveStart (chans : BitVec 64)
  | weaveStop (chans : BitVec 64) (mode : Nat)
  | commit
  | blankWindow (line : Nat) (lenUs : Nat)
  | basinFreeze (seg : Nat)
  | hostEvent (user : BitVec 64)
deriving DecidableEq, Repr, Inhabited

/-- An armed slot (R228, R235). Targets are timebase values in 2^-16 ns. -/
structure SlotArm where
  target : Nat
  /-- Period in 1/256 ns, 0 one-shot. -/
  period : Nat
  count : Nat
  kind : SlotKind
  late : Nat
  reportEach : Bool
  tag : BitVec 32
  agent : Agent
  /-- Index of the next occurrence. -/
  next : Nat
  fired : Nat
  skipped : Nat
  skippedSinceEvent : Nat
  lastIndex : Option Nat
  /-- FIRE_LATE: an occurrence fires late at this timebase value, that of the arming (R237). -/
  lateAt : Option Nat
deriving DecidableEq, Repr, Inhabited

/-- A TEV pulse in progress, merged ones included: its local end and the settings under which it started (R233, R242). -/
structure TevPulse where
  until_ : Time
  drive : Bool
  activeLow : Bool
  dTev : Int
deriving DecidableEq, Repr, Inhabited

/-- One TEV pin (R242) with its pulses in progress: local end instants (2^-16 ns) and the settings they started under
(R233). -/
structure TevPin where
  drive : Bool
  /-- 0 SLOTS, 1 STATIC_LOW, 2 STATIC_HIGH, 3 PPS. -/
  mode : Nat
  activeLow : Bool
  dTev : Int
  pulse : Option TevPulse
  merges : Nat
  ignored : Nat
deriving DecidableEq, Repr, Inhabited

/-- The 1PPS settings and the pulse in progress (R244). Width and offset in 1/256 ns. -/
structure PpsSt where
  width : Nat
  offset : Int
  squelch : Bool
  pulseEnd : Option Time
  /-- The whole second (timebase) whose pulse was last issued, and the epoch of that pulse. -/
  last : Option (Nat × Nat)
deriving DecidableEq, Repr, Inhabited

/-- One TCAP input (R245 to R247). -/
structure TcapIn where
  /-- 0 OFF, 1 RISING, 2 FALLING, 3 BOTH. -/
  edge : Nat
  dCap : Int
  event : Bool
  queue : List Word
  lastCapture : Option Time
  overflowDue : Bool
  missed : Nat
  discarded : Nat
deriving DecidableEq, Repr, Inhabited

/-- The action slots and the pins of TIME. -/
structure TactSt where
  slots : List (Option SlotArm)
  tev : List TevPin
  pps : PpsSt
  tcap : List TcapIn
deriving DecidableEq, Repr, Inhabited
/-! ### Acquisition (R30 to R193, R496, R499) -/

/-- The reference of a channel (R69). -/
inductive RefSel
  | internal | refin | ratio
deriving DecidableEq, Repr, Inhabited

/-- The path mode (R97). -/
inductive PathMode
  | auto | hgOnly | lgOnly
deriving DecidableEq, Repr, Inhabited

/-- The channel settings of `CHAN.CONFIG` (R42, R69, R97). Burn-out: 0 off, 1 0.5 uA, 2 2 uA, 3 10 uA. -/
structure ChanCfg where
  enable : Bool
  openDet : Bool
  gain : Nat
  burnout : Nat
  ref : RefSel
  path : PathMode
  blankGap : Bool
  blankMask : BitVec 8
  guardUs : Nat
  settleUs : Nat
deriving DecidableEq, Repr, Inhabited

/-- The merger of a filter instance: in LG, and the return count (R94). -/
structure Merger where
  lg : Bool
  count : Nat
deriving DecidableEq, Repr, Inhabited

/-- A coefficient bank image: words 0 to 77 (R125). -/
structure Bank where
  d1Code : Nat
  d2 : Nat
  taps : Nat
  declaredDelay : Nat
  tag : BitVec 32
  coefs : List Int
deriving DecidableEq, Repr, Inhabited

/-- Run state of an instance (R123, R133): a start or stop asked for waits for the next output boundary. -/
inductive RunState
  | stopped | starting | running | stopping
deriving DecidableEq, Repr, Inhabited

/-- One filter instance (R113, R123). -/
structure FiltInst where
  mode : Nat
  run : RunState
  bankA : Option Bank
  bankB : Option Bank
  /-- The instant from which samples fill the filter, and whether a sync made that start (R141 to R143). -/
  start : Time
  bySync : Bool
  merger : Merger
  /-- Output instant of the last output formed, local. -/
  lastOut : Option Int
deriving DecidableEq, Repr, Inhabited

/-- Filter change state (R129). -/
inductive Fade
  | normal | pending (n : Nat) | fading (j n : Nat)
deriving DecidableEq, Repr, Inhabited

/-- One instance's output while a cross-fade needs it: timestamp and output instant (local), merged value, flags, and
whether the output instant lies in a blank interval (R131, R132). -/
structure HalfOut where
  k : Int
  ts : Int
  out : Int
  value : Int
  flags : BitVec 12
  inBl : Bool
deriving DecidableEq, Repr, Inhabited

/-- The value and value flags of the last record of a channel (R53, R107). -/
structure LastRec where
  value : Int
  flags : BitVec 12
deriving DecidableEq, Repr, Inhabited

/-- A blank interval of one source on one channel, local times, end still open while the source is asserted (R49, R51). -/
structure BlankIv where
  src : Nat
  start : Time
  end_ : Option Time
deriving DecidableEq, Repr, Inhabited

/-- The open-input detector of one position (R46): outputs in a row in or outside the band, and the flag. -/
structure OpenDet where
  count : Nat
  flag : Bool
deriving DecidableEq, Repr, Inhabited

/-- A stroke of a weave image (R146). -/
structure Stroke where
  pos : Nat
  burnCheck : Bool
  gain : Nat
  mode : Nat
  settleUs : Nat
  keep : Nat
  /-- 0 unchanged, 1 OFF, 2 DC+, 3 DC-. -/
  exc : Nat
  excMv : Nat
deriving DecidableEq, Repr, Inhabited

/-- A weave image (R146). -/
structure WeaveImg where
  endAction : Nat
  resync : Bool
  checkCurrent : Nat
  rounds : Nat
  periodUs : Nat
  tag : BitVec 32
  strokes : List Stroke
deriving DecidableEq, Repr, Inhabited

/-- The conversions of one stroke in progress: where it began (local), conversions formed, those that count for a
burn-out check, and the restart after which its windows must begin (R151, R158, R162). -/
structure StrokeRun where
  index : Nat
  stroke : Stroke
  begin_ : Time
  formed : Nat
  counted : Nat
  notBefore : Time
  merger : Merger
  /-- The burn-out current of the stroke, fixed at its boundary: 0 off, 1 0.5 uA, 2 2 uA, 3 10 uA (R161). -/
  burn : Nat
  /-- The detector of the position within a check stroke, and its changes, until the fourth conversion (R162). -/
  openWork : OpenDet
  openEvs : List (Bool × Int)
deriving DecidableEq, Repr, Inhabited

/-- How a running weave ends when asked to (R154). -/
inductive StopMode
  | roundEnd | strokeEnd
deriving DecidableEq, Repr, Inhabited

/-- Weave states (R157). -/
inductive WeaveState
  | idle | loaded | armed | running
deriving DecidableEq, Repr, Inhabited

/-- The settings of a channel at `T_start`, which RESTORE returns to (R155). -/
structure SavedSet where
  pos : Nat
  gain : Nat
  settleUs : Nat
  burnout : Nat
  mode : Nat
deriving DecidableEq, Repr, Inhabited

/-- The sequencer of one channel (R146 to R162). Times are local. -/
structure WeaveSt where
  state : WeaveState
  image : Option WeaveImg
  /-- ARMED: the start register, or none while it waits for a sync or an action slot (R152). -/
  armedAt : Option Time
  armedSync : Bool
  armedSlot : Bool
  tStart : Time
  round : Nat
  roundStart : Time
  /-- The stroke in progress; none while idle between rounds (R150). -/
  cur : Option StrokeRun
  /-- The stroke before, while its last conversion is still to be formed (R148, R151). -/
  tail : Option StrokeRun
  lastStroke : Nat
  stop : Option StopMode
  saved : Option SavedSet
  /-- Incomplete burn-out checks per position (R162). -/
  incomplete : List Nat
deriving DecidableEq, Repr, Inhabited

/-- How the spare serves a channel (R106, R170, R360 `SUBST`). -/
inductive Subst
  | none | calibration | failure | softFault
deriving DecidableEq, Repr, Inhabited

/-- A record formed and not yet copied to its destinations (R19, R105): its word without `GAP_BEFORE`, its generation, its
output instant (local), and whether `GAP_BEFORE` is due on it at every destination. -/
structure FormedRec where
  word : Word
  gen : Nat
  out : Int
  gap : Bool
deriving DecidableEq, Repr, Inhabited

/-- One measuring channel. -/
structure Chan where
  cfg : ChanCfg
  /-- Settings accepted and waiting for the next output boundary, with the `UPDATE` bits of the fields that change (R43). -/
  pendingCfg : Option (ChanCfg × BitVec 10)
  pos : Nat
  /-- `CHAN.SET_INPUT` waiting for the next output boundary (R38). -/
  pendingPos : Option Nat
  /-- End of the multiplexer settling delay in progress (R38). -/
  settleEnd : Option Time
  primary : FiltInst
  shadow : FiltInst
  markMode : Bool
  /-- `SYNC_MODE` waiting for the next sync (R123). -/
  markNext : Option Bool
  fade : Fade
  /-- The latest end among change spans and settle restarts (R73, R75), when the last of them took effect, and what the
  latest end was before it. -/
  settlingUntil : Time
  settlingAt : Time
  settlingPrev : Time
  /-- The boundary of the last gain change by command (R100). -/
  rangeAt : Option Time
  /-- Since when samples are taken without a valid reference, and until when they last were (R70, R89). -/
  refBadFrom : Option Time
  refBadUntil : Time
  last : Option LastRec
  open_ : List OpenDet
  blanks : List BlankIv
  blankedRecs : Nat
  gapRecs : Nat
  failed : Bool
  failedBy : Nat
  /-- Failed with no substitute (R110). -/
  unsubstituted : Bool
  softFaulted : Bool
  subst : Subst
  /-- While the spare or a channel taken back fills its filter: since when (R106, R107, R109). -/
  changeover : Option Time
  /-- Consecutive 1 s comparisons of the path means beyond 10 ppm (R99). -/
  mismatchCount : Nat
  loopback : Option Time
  weave : WeaveSt
  formed : List FormedRec
  /-- The last record that left for its destinations since the last multiplexer change, sync or start (R105, R107). -/
  sent : Option Word
  /-- Outputs of the primary and of the shadow that a cross-fade holds, oldest first (R132). -/
  held : List HalfOut
  shadowHeld : List HalfOut
  /-- Consecutive outputs whose HG and LG values lie grossly apart (R104). -/
  disagree : Nat
  /-- Timestamp of the last fade record (R132, R134). -/
  lastFadeTs : Option Int
  /-- When the command that waits for its fade took effect, local (R130). -/
  fadeFrom : Time
  /-- Acquisition temperature whose corrections are in force, in 1/256 degC (R176). -/
  temp : Option Int
  /-- A loop-back that waits for the output boundary: its duration in ms (R82). -/
  pendingLoop : Option Nat
  /-- Throttle level L3 caps the primary: its mode before (R418, R419). -/
  capped : Option Nat
deriving DecidableEq, Repr, Inhabited

/-- Generator modes (R62). -/
inductive ExcMode
  | off | dcPlus | dcMinus | ac | level
deriving DecidableEq, Repr, Inhabited

/-- The generator settings of `EXC.CONFIG` (R71). -/
structure ExcCfg where
  mode : ExcMode
  amplMv : Nat
  level : Int
  swapK : Nat
  deadCyc : Nat
  combine : Bool
  follow : Bool
  window : Option (Nat × Nat)
deriving DecidableEq, Repr, Inhabited

/-- What an AC cycle has gathered for one fed channel's address (R79). -/
structure AcAccu where
  addr : Nat
  posSum : Int
  posN : Nat
  negSum : Int
  negN : Nat
  tsSum : Int
  flags : BitVec 12
  blanked : Bool
deriving DecidableEq, Repr, Inhabited

/-- The last loop-back of a generator (R82, R362). -/
structure LoopRes where
  chan : Nat
  mean : Int
  rms : Int
  count : Nat
  devUv : Int
  at_ : Nat
deriving DecidableEq, Repr, Inhabited

/-- One excitation generator. -/
structure Gen where
  cfg : ExcCfg
  /-- TRIPPED; `cfg` keeps the settings in force at the trip (R65). -/
  tripped : Bool
  pending : Option ExcCfg
  compliance : Bool
  overload : Bool
  dropP : Int
  dropN : Int
  senseCount : Nat
  /-- |V_S| is at least 0.4 V (R70). -/
  vsOk : Bool
  /-- AC: the phase is negative; where it began; the end of its dead time (R76, R77). Local times. -/
  acNeg : Bool
  acPhaseAt : Time
  acDeadEnd : Option Time
  /-- A new cycle begins at the next output boundary of the new grid (R144). -/
  acRestart : Bool
  /-- Samples of the phase count from here: after the dead time, or from the change into AC (R77). -/
  acFrom : Time
  /-- `EXC_POL` before the last change of polarity, and when that was (R62). -/
  prevPol : Bool
  polAt : Time
  acc : List AcAccu
  loopRes : Option LoopRes
deriving DecidableEq, Repr, Inhabited

/-- Phases of a calibration slot or release (R168, R170, R173). -/
inductive CalPhase
  | idle | spareCheck | connect | calibrating | overlapOut | recheckIn | recheckOut | spareRecal | bist
deriving DecidableEq, Repr, Inhabited

/-- What waits for an output boundary: the connection of the spare, the switch to it, the reconnection of the channel, the
handback with the new or the old coefficients (R170). -/
inductive HandoverDue
  | connect | toSpare | reconnect | backNew | backOld
deriving DecidableEq, Repr, Inhabited

/-- The calibration of one group (R163 to R175). Times are local. -/
structure CalSt where
  cycleEnable : Bool
  /-- The cycle runs, that is, is not stopped under R169; and why it last stopped (0 command, 1 management, 2 L3, 3 spare). -/
  running : Bool
  stopCause : Nat
  phase : CalPhase
  chan : Nat
  nextChan : Nat
  slotIndex : Nat
  nextSlotAt : Option Time
  /-- A slot out of turn postponed for the temperature is tested again here (R168). -/
  retryAt : Option Time
  slotStart : Time
  outOfTurn : List Nat
  /-- Whether the slot in progress is out of turn, a release, a second try after a spare recalibration. -/
  slotOut : Bool
  release : Bool
  secondTry : Bool
  secondCal : Bool
  overlapStart : Time
  firstPair : Option Time
  pairs : Nat
  /-- Sum of spare minus channel, under the new and the previous coefficients, in 1/256 code. -/
  sumNew : Int
  sumOld : Int
  /-- The merger of the converter that runs in parallel (R170). -/
  otherMerger : Merger
  due : Option HandoverDue
  newSets : List CoefSet
  outSince : Time
  /-- When the overlap last closed (R173). -/
  closeAt : Time
  delayedRaised : Bool
  abandoned : Bool
  /-- The re-check after a second calibration found the spare bad: it fails at the handback (R173). -/
  spareBad : Bool
deriving DecidableEq, Repr, Inhabited

/-- The spare of a group (R106, R110). -/
inductive SpareState
  | free | calibrating | connecting (c : Nat) (at_ : Time) | settling (c : Nat) (at_ : Time) | substituting (c : Nat)
  | failed
deriving DecidableEq, Repr, Inhabited

/-- One channel group: grid, syncs, spare, calibration, temperature compensation. -/
structure Group where
  /-- Grid origin, local, a multiple of 1/256 ns (R136, R137). -/
  tSync : Time
  /-- That origin is a sync's, not the start's (R136, R137). -/
  synced : Bool
  syncN : Bool
  /-- Syncs that wait, local instants (R137). -/
  syncs : List Time
  spare : SpareState
  cal : CalSt
  /-- Acquisition temperature last applied, in 1/256 degC, and the last read (R176, R423). -/
  tApplied : Option Int
  tRead : Option Int
  compFrozen : Bool
  /-- SSn is unlocked: the group emits no records (R391, R463). -/
  ssLost : Bool
  /-- First record after the island started (R167). -/
  firstRecord : Option Time
deriving DecidableEq, Repr, Inhabited

/-- Calibration settings of a channel (R167). -/
structure CalSet where
  periodS : Nat
  included : Bool
  overlapUs : Nat
deriving DecidableEq, Repr, Inhabited

/-- A blank source: BLANK0 to 3, TBLK0 to 3 (R48, R59, R60). -/
structure BlankSrc where
  asserted : Bool
  since : Time
  stuckMs : Nat
  stuckRaised : Bool
  intervals : Nat
  /-- Asserted time of the ended assertions, in 2^-16 ns, and the end of the last one before guard (R49, R50, R60). -/
  assertedFu : Nat
  released : Time
  /-- Rising edge of the assertion (R59, R60). -/
  riseAt : Time
  /-- TBLK: end of the window, local (R50). -/
  windowEnd : Option Time
deriving DecidableEq, Repr, Inhabited

/-- Destinations of records (R19, R190). -/
inductive Dest
  | ring (n : Nat) | basin (seg : Nat) | export_ (node : BitVec 16) | oper (slot : Nat)
deriving DecidableEq, Repr, Inhabited

/-- A subscription (R190, R366). -/
structure Sub where
  rings : BitVec 8
  basin : Option Nat
  export_ : Option (BitVec 16)
  exportTc : Nat
deriving DecidableEq, Repr, Inhabited

/-- The record path of one address (R19, R186, R366): subscription, the change that waits for the next output boundary,
GAP_BEFORE due per destination, and counts. A record whose output instant is not after `subAt` follows `oldSub` (R190).
`gapNext` holds the instants at which `GAP_BEFORE` became due on the next record at every destination. -/
structure AddrSt where
  sub : Sub
  pending : Option Sub
  oldSub : Sub
  subAt : Time
  gapNext : List Time
  gapDue : List Dest
  delivered : Nat
  discarded : Nat
  genIgnored : Nat
  gaps : Nat
deriving DecidableEq, Repr, Inhabited

/-- A subscription to an address of another node (R190). -/
structure RemoteSub where
  node : BitVec 16
  addr : Nat
  st : AddrSt
deriving DecidableEq, Repr, Inhabited

/-- A record in a destination queue, with its generation (R19, R191). -/
structure QRec where
  word : Word
  gen : Nat
  readable : Bool
  /-- The node that formed the record: none for this one (R190). -/
  node : Option (BitVec 16)
  /-- Local instant of arrival at the queue (R307). -/
  at_ : Time
deriving DecidableEq, Repr, Inhabited

/-- The queue of one group (or of received records, group 8, or of operators, group 9) for one destination (R19). -/
structure DestQueue where
  group : Nat
  dest : Dest
  recs : List QRec
  dropped : Nat
deriving DecidableEq, Repr, Inhabited

/-- Acquisition as a whole. -/
structure DaqSt where
  chans : List Chan
  gens : List Gen
  groups : List Group
  blank : List BlankSrc
  calSet : List CalSet
  /-- Sets in force: 72 converters by 9 gain codes (R165). -/
  coef : List (List CoefSet)
  /-- Sets accepted and waiting for the output boundary: converter, gain code, set (R166, R178). -/
  coefPending : List (Nat × Nat × CoefSet)
  autoLock : Bool
  autoStep : Bool
  lastSyncN : Option Time
  refinValid : Bool
  /-- Phase of the modulator edges, one for all groups, on the local axis (R17, R139 `eref`). -/
  eref : Time
  /-- Converters whose sets wait to be stored in the NV store, and whether as a completed calibration (R178). -/
  calStoreDue : List (Nat × Bool)
  addrs : List AddrSt
  remoteSubs : List RemoteSub
  queues : List DestQueue
deriving DecidableEq, Repr, Inhabited
/-! ### Supplies, clocks and temperature (R385 to R423) -/

/-- The rails of *Supply rails*, in the order of `SAG_NOW` (R331). -/
abbrev railCount : Nat := 8

/-- A voltage change in progress (R399): raising or lowering, to which operating point, and the setpoints written. -/
structure AvsChange where
  target : Nat
  fromOp : Nat
  /-- Millivolts set before and asked for now. -/
  fromMv : Nat
  toMv : Nat
  tries : Nat
  since : Time
deriving DecidableEq, Repr, Inhabited

/-- Power states (R455). -/
inductive PowerState
  | run | quiet | hibernate
deriving DecidableEq, Repr, Inhabited

/-- Supplies and operating point (R398 to R407, R455). -/
structure PwrSt where
  op : Nat
  /-- Operating point before level L1 forced another (R417). -/
  opBeforeL1 : Option Nat
  change : Option AvsChange
  /-- The operating point that the device itself is to take, while a change or a sag warning keeps it waiting (R401, R420). -/
  opWanted : Option Nat
  vctlMv : Nat
  /-- VCTL has verified at a setpoint since the start; until then the sag thresholds are those of OP3 (R402). -/
  vctlConfirmed : Bool
  state : PowerState
  /-- Regulator currents, 0xFFFF while unread (R404). -/
  currents : List Nat
  oscTemp : Int
  sagNow : BitVec 8
  sagSince : Time
  /-- SAGWARN_N is asserted. -/
  sagWarn : Bool
  sagTimedOut : Bool
  /-- The device is held in reset by RESET_N or by its supplies (R407, R447). -/
  resetNLow : Bool
  supplyHold : Bool
deriving DecidableEq, Repr, Inhabited

/-- One reference input (R386, R388, R389). -/
structure RefIn where
  qualified : Bool
  failed : Bool
  /-- Since when it is qualified (R392); of a failed one, when it failed (R386). -/
  qualSince : Time
deriving DecidableEq, Repr, Inhabited

/-- A PLL or synthesizer (R387, R391): locked, holding its last control word, or unlocked. -/
inductive PllState
  | locked | hold | unlocked
deriving DecidableEq, Repr, Inhabited

/-- A frequency counter (R397). -/
structure Counter where
  running : Bool
  meas : Nat
  ref : Nat
  lane : Nat
  gateMs : Nat
  measCount : Nat
  refCount : Nat
  ppm : Int
deriving DecidableEq, Repr, Inhabited

/-- Clocks (R385 to R397). -/
structure ClkSt where
  refA : RefIn
  refB : RefIn
  preferB : Bool
  /-- Timebase reference in use: `TB_REF` 0 to 3 (R392). -/
  tbRef : Nat
  /-- `LANE_SOURCE` (0 EAST, 1 WEST, 2 none) and `LANE` (R392). -/
  laneSource : Nat
  lane : Nat
  /-- The control tree runs on the RC oscillator (R391). -/
  ctlInternal : Bool
  /-- By source code 4 to 17: PLL_TB, PLL_SYS, PLL_LE, PLL_LW, PLL_DP, PLL_MEM, SS0 to SS7. -/
  plls : List PllState
  /-- PLL_TB holds: since when (R463). -/
  tbHoldSince : Option Time
  /-- PLL_TB has not relocked within 10 s: groups and lanes stopped (R463). -/
  tbHoldExpired : Bool
  /-- One bit per source code: declared failed (R389). -/
  failed : BitVec 32
  forced : Nat
  /-- Islands whose gates are closed on command, by the codes of `CLK.GATE` (R395, R378). -/
  gated : BitVec 12
  counters : List Counter
deriving DecidableEq, Repr, Inhabited

/-- One temperature sensor (R410, R411): TS0 to TS15 and the DRAM sensor; in 1/128 degC. -/
structure Sensor where
  reading : Int
  openShort : Bool
  read : Bool
  badRun : Nat
  goodRun : Nat
  broken : Bool
deriving DecidableEq, Repr, Inhabited

/-- One thermal zone (R410 to R414). Runs are counts of consecutive readings. -/
structure Zone where
  temp : Int
  /-- Temperatures of the last 4 s, newest first (R414). -/
  history : List Int
  warmUp : Nat
  warmDown : Nat
  warm : Bool
  hotUp : Nat
  hotDown : Nat
  hot : Bool
  l3Up : Nat
  l3Down : Nat
  l3 : Bool
  critUp : Nat
  crit : Bool
  riseUp : Nat
  riseDown : Nat
  rising : Bool
  hotSince : Option Time
  /-- Every sensor of the zone is broken: since when (R412). -/
  allBrokenSince : Option Time
deriving DecidableEq, Repr, Inhabited

/-- Thermal management (R409 to R420). -/
structure ThermSt where
  sensors : List Sensor
  zones : List Zone
  /-- THERM_N is asserted: the throttle demand, since when (R416). -/
  demandSince : Option Time
  graceMs : Nat
  /-- The grace time of the demand in progress (R416). -/
  graceNow : Nat
  level : Nat
deriving DecidableEq, Repr, Inhabited

/-! ### Memories, NV store, fuses, AON, log and diagnostics (R424 to R474) -/

/-- A repaired row: memory, row, spare row (R434, R435). -/
structure Repair where
  row : Nat
  spare : Nat
  /-- Seconds of the second hard classification (R434). -/
  seen : Nat
deriving DecidableEq, Repr, Inhabited

/-- An entry of the field-repair queue (R436). -/
structure QueueEntry where
  mem : Nat
  row : Nat
  spare : Nat
  firstSeen : Nat
deriving DecidableEq, Repr, Inhabited

/-- One protected memory: on-die SRAM, basin, NV store (R424 to R436). -/
structure MemSt where
  corrected : Nat
  uncorrectable : Nat
  /-- The word the scrubber reads next. -/
  scrub : Nat
  /-- Corrected words under watch (R432, R433). -/
  watch : List Nat
  /-- Hard-faulted words by row (R433, R434). -/
  hardWords : List Nat
  repairs : List Repair
  /-- Rows being copied to a spare (R434). -/
  copying : List Repair
  /-- Uncorrectable words known (R432). -/
  badWords : List Nat
  /-- When event 0x5301 last told of a corrected word (R431). -/
  lastCorrected : Option Time
deriving DecidableEq, Repr, Inhabited

/-- A firmware image slot of the NV store (R438, R470). -/
structure FwSlot where
  valid : Bool
  release : BitVec 32
  sv : Nat
  keyHash : BitVec 384
  signatureOk : Bool
deriving DecidableEq, Repr, Inhabited

/-- A configuration image slot of the NV store (R438, R441): its words and generation. -/
structure CfgSlot where
  /-- Header and commit word of the record (R439), which lie in the metadata region. -/
  header : Word
  commit : Word
  gen : Nat
  digest : BitVec 256
  words : List Word
deriving DecidableEq, Repr, Inhabited

/-- A record of the calibration ring (R178, R439): the sets of one converter by gain code, with header and commit word. -/
structure CalRec where
  conv : Nat
  sets : List (Nat × CoefSet)
  header : Word
  commit : Word
deriving DecidableEq, Repr, Inhabited

/-- What the calibration region holds (R111, R178, R222). -/
structure CalRegion where
  valid : Bool
  /-- The records of the ring, newest first; a converter and gain code with none has its factory set in force. -/
  ring : List CalRec
  /-- `SEQ` of the next record, and the word offset in the region at which it begins (R439). -/
  seq : Nat
  at_ : Nat
  /-- History: converter, gain code, sets newest first, at most 16. -/
  history : List (Nat × Nat × List CoefSet)
  failed : List Nat
  softFaulted : List Nat
  holdover : List (Int × Int)
deriving DecidableEq, Repr, Inhabited

/-- The non-volatile store (R438 to R444). -/
structure NvSt where
  cfgA : CfgSlot
  cfgB : CfgSlot
  /-- The active configuration copy: 0 A, 1 B; and `SEQ` of the next configuration record (R439). -/
  activeCfg : Nat
  cfgSeq : Nat
  autoload : Bool
  catchup : Bool
  fwA : FwSlot
  fwB : FwSlot
  /-- The preferred image: 0 A, 1 B. -/
  preferred : Nat
  cal : CalRegion
  journal : List JEntry
  journalValid : Bool
  /-- Repair table kept between starts (R435). -/
  repairTable : List QueueEntry
  /-- Regions without a valid copy (R441, R443). -/
  invalid : BitVec 7
  /-- Seconds of the last refresh of each region (R444). -/
  refreshed : List Nat
  maxWrites : Nat
  /-- The write count as last stored (R443). -/
  storedWrites : Nat
  writesSince : Nat
  lastCountStore : Time
  lastRefreshCheck : Option Time
deriving DecidableEq, Repr, Inhabited

/-- The fuses (R465, R466): bank contents, and the shadow copy sensed at the last cold start. -/
structure FuseBank where
  uid : BitVec 64
  variantV : Bool
  factoryRepairs : Nat
  keyHash0 : BitVec 384
  rollback : BitVec 64
  protDeny : BitVec 96
  debugLock : BitVec 2
  anchorCap : Bool
  laneCap : Bool
  keyRevoke : BitVec 3
  sealed : Bool
  keyHash1 : BitVec 384
  keyHash2 : BitVec 384
  /-- Bank 2: entries blown, as memory, row, spare row (R436, R466). -/
  repairs : List (Nat × Nat × Nat)
deriving DecidableEq, Repr, Inhabited

/-- AON (R422, R445, R446, R449). -/
structure AonSt where
  resetCause : Nat
  sagResetRails : BitVec 8
  /-- The coarse seconds at the local instant `coarseAt`. -/
  coarse : Nat
  coarseAt : Time
  /-- AON loads its seconds from the timebase (LOCKED). -/
  loading : Bool
  /-- Instants of thermal shutdowns. -/
  shutdowns : List Time
  /-- The device is shut down by temperature and not yet restarted. -/
  thermalOff : Bool
  /-- A start is due: reset is released when the row COLD_START_RELEASE comes. -/
  startDue : Bool
  /-- The next start is one after POR (R449). -/
  fromPor : Bool
deriving DecidableEq, Repr, Inhabited

/-- LOG and DIAG. -/
structure DiagSt where
  level : Nat
  stream : Bool
  /-- Loopbacks of EAST, WEST, DROP, ETHM0, ETHM1: 0 off, 1 near-end, 2 far-end (R380). -/
  loopback : List Nat
deriving DecidableEq, Repr, Inhabited
/-! ### Line ports (R248 to R268) -/

/-- *Lane states* (R252). -/
inductive LaneState
  | down | signal | negotiate | align | up | failed | shed
deriving DecidableEq, Repr, Inhabited

/-- *Per-lane settings* (R251). -/
structure LaneSet where
  enable : Bool
  half : Bool
  swing : Nat
  firHost : Bool
  cM2 : Int
  cM1 : Int
  cP1 : Int
  cP2 : Int
  lev1 : Int
  lev2 : Int
  ctleHost : Bool
  ctleDb : Nat
  ffeFreeze : Bool
  /-- 0 ADAPT, 1 FREEZE, 2 OFF. -/
  dfeMode : Nat
  mlse : Bool
  trBw : Nat
deriving DecidableEq, Repr, Inhabited

/-- One lane of a line port (R248 to R257, R267, R268). Times are local. -/
structure Lane where
  /-- The settings accepted, those in force, and when the accepted ones come into force: the next cycle boundary (R251). -/
  set : LaneSet
  cur : LaneSet
  curAt : Option Time
  /-- Rate and MLSE in use, taken from the settings at training (R251). -/
  half : Bool
  mlse : Bool
  state : LaneState
  since : Time
  /-- Entry into SIGNAL of the training in progress (R252). -/
  signalAt : Time
  /-- When training begins again after a failure (R252). -/
  retryAt : Option Time
  /-- Training failures in a row. -/
  failRun : Nat
  /-- Transmit FIR taps as trained, and CTLE peaking as adapted (R252, R253). -/
  fir : List Int
  ctle : Nat
  lastFir : Option Time
  lastCtle : Option Time
  /-- The draws at which the FFE taps and the DFE tap stand (R253, R267). -/
  ffeAt : Nat
  dfeAt : Nat
  degraded : Bool
  /-- Seconds in a row above, and at or below, the ratio of R268. -/
  berHigh : Nat
  berLow : Nat
  /-- Estimated ratio over the last second, in units of 10^-18. -/
  berEst : Nat
  /-- `LANE` and `SEQ` of the last framing codeword received, the timebase value of its arrival in 1/256 ns, its arrival
  (local), and whether it announced a cycle without one (R255). -/
  laneRx : Option Nat
  seqRx : Option Nat
  rxTs : Nat
  lastCw : Time
  rxDelete : Bool
  /-- The last justification; the cycle that goes without a framing codeword; the end of the loss of a slip (R256). -/
  lastJust : Option Time
  omitCycle : Option Nat
  slipUntil : Time
  framingLosses : Nat
  slips : Nat
  justifications : Nat
  attempts : Nat
  trainFailures : Nat
  /-- Codewords and bits that the inner decoder corrected, and codewords that it could not resolve (R254). -/
  corrected : Nat
  correctedBits : Nat
  uncorrectable : Nat
  /-- Since when a shed notice stands, this node's or its neighbour's (R266). -/
  shedAt : Option Time
deriving DecidableEq, Repr, Inhabited

/-- *Slot uses* (R258). -/
inductive SlotUse
  | unused | fabric | express | terminate | regen
deriving DecidableEq, Repr, Inhabited

/-- One slot of a line port (R249, R258, R259, R263). -/
structure Slot where
  use : SlotUse
  /-- EXPRESS, REGEN: the slot of the other line port. -/
  other : Nat
  circuit : BitVec 16
  hopsIn : Nat
  /-- Until when the slot keeps the use, the other slot and the circuit it had before the last commit: the lane's next cycle
  boundary (R258). -/
  was : Option (Time × SlotUse × Nat × BitVec 16)
  /-- The neighbour's use of the slot, from the side channel. -/
  neigh : Option Nat
  mismatch : Bool
  alignLost : Bool
  protecting : Bool
  lastBudget : Option Time
deriving DecidableEq, Repr, Inhabited

/-- A circuit of the image (R261, R263 to R266, R382). -/
structure Circuit where
  id : BitVec 16
  slots : Nat
  prot : Bool
  workWest : Bool
  sheddable : Bool
  declaredUs : Nat
  dropIf : Nat
  shed : Bool
  aligned : Bool
  degraded : Bool
  measuredUs : Nat
  /-- The last delivery fell back to the protecting copy. -/
  onProtecting : Bool
deriving DecidableEq, Repr, Inhabited

/-- LINE-E, LINE-W and DROP. -/
structure LineSt where
  lanes : List (List Lane)
  slots : List (List Slot)
  circuits : List Circuit
  /-- 0 off, 1 to 7 *Drop port configurations*, 8 COUPLING (R261). -/
  drop : Nat
  /-- The last slot-mismatch event of each port named these slots (R259). -/
  mismatchSeen : List (BitVec 64)
deriving DecidableEq, Repr, Inhabited
/-! ### Fabric (R269 to R296) -/

/-- One port of the fabric: 0 EAST, 1 WEST, 2 coupling (R285, R292). -/
structure FabPort where
  adjacent : Bool
  looped : Bool
  refused : Bool
  /-- The identifier last heard, and whether that neighbour named this node as heard. -/
  neigh : Option (BitVec 64)
  lastHello : Option Time
  lastSent : Option Time
deriving DecidableEq, Repr, Inhabited

/-- A position that tokens of one direction give, and how many times in a row (R287). -/
structure PosRun where
  pos : Nat
  run : Nat
deriving DecidableEq, Repr, Inhabited

/-- The duplicate window of one source (R281); `gate` marks a gateway's window for the frames it forwards (R291). -/
structure DupWin where
  src : BitVec 16
  gate : Bool
  h : Nat
  /-- Numbers accepted within the window, apart from h. -/
  seen : List Nat
  last : Time
deriving DecidableEq, Repr, Inhabited

/-- A frame held for order (R284). -/
structure HeldFrame where
  seq : Nat
  arrived : Time
  frame : Frame
deriving DecidableEq, Repr, Inhabited

/-- The order of one source (R284): the next number to deliver, held frames, arrivals of first copies awaiting their
second, and the differences seen over the last second. -/
structure SrcOrder where
  src : BitVec 16
  next : Nat
  held : List HeldFrame
  arrivals : List (Nat × Time)
  diffs : List (Time × Nat)
  /-- Addresses whose next record carries `GAP_BEFORE`; none means every address not yet listed in `gapDone`. -/
  gapAll : Bool
  gapDone : List Nat
deriving DecidableEq, Repr, Inhabited

/-- A break, by the positions on its two sides (R293). -/
structure Break where
  west : Nat
  east : Nat
deriving DecidableEq, Repr, Inhabited

/-- An entry of the ring routing table (R291). -/
inductive Route
  | own | unreachable | gateways (a b : Option (BitVec 16))
deriving DecidableEq, Repr, Inhabited

/-- An originated frame of TC1 to TC3 that waits for the limiter (R283). -/
structure WaitFrame where
  cls : Nat
  ftype : Nat
  dest : BitVec 16
  gen : Nat
  /-- `END` (R272). -/
  last : Bool
  words : List Word
  /-- TC1: the ETHM port in whose queue it waits, and its bytes there (R296); port 2 for other frames. -/
  port : Nat
  bytes : Nat
deriving DecidableEq, Repr, Inhabited

/-- Anchor roles (R286). -/
inductive Role
  | none | primary | secondary
deriving DecidableEq, Repr, Inhabited

/-- The egress side of one XBAR port (R270, R278): the end of the last flit time counted (local), flit times left in the
window of 256, flits that each class has used in it, the class served last, and per class the flits still to leave of each
frame in its buffer, the one in flight first. `drops` counts the frames a full buffer discarded, per class. -/
structure Egress where
  at_ : Time
  left : Nat
  used : List Nat
  served : Nat
  queue : List (List Nat)
  drops : List Nat
deriving DecidableEq, Repr, Inhabited

/-- XBAR and the fabric as firmware and hardware hold it. -/
structure FabSt where
  ports : List FabPort
  /-- Ports 0 EAST, 1 WEST, 2 coupling. -/
  egress : List Egress
  role : Role
  /-- Position on the ring; the ring identifier; the ring size when known. -/
  pos : Option Nat
  ring : Nat
  n : Option Nat
  noAddress : Bool
  eastRun : PosRun
  westRun : PosRun
  /-- Tokens in a row that closed the ring with one N (the anchor, R287). -/
  closure : PosRun
  anchorActive : Bool
  anchorPos : Nat
  anchorUid : BitVec 64
  lastPrimary : Option Time
  lastToken : Option Time
  lastTokenTx : Option Time
  /-- Ring generation and digest64 of the latest token (R302, R376). -/
  ringGen : Option (Nat × BitVec 64)
  breaks : List Break
  routes : List Route
  seq : Nat
  wins : List DupWin
  order : List SrcOrder
  /-- Per class. -/
  stomps : List Nat
  discards : List Nat
  duplicates : Nat
  lost : Nat
  stale : Nat
  invalid : Nat
  /-- Per port and class (8 x port + class): stomps since the last event, and when that was (R279). -/
  stompSince : List Nat
  stompEvent : List (Option Time)
  /-- Originations of TC0 to TC3 in the last 2 ms, newest first (R283). -/
  orig : List Time
  extended : Bool
  waiting : List WaitFrame
  holdUntil : Time
deriving DecidableEq, Repr, Inhabited

/-- One ETHM port (R295, R296). -/
structure EthPort where
  enable : Bool
  /-- false 25GBASE-R, true 10GBASE-R. -/
  slow : Bool
  link : Bool
  bridge : Bool
  group : Nat
  framesIn : Nat
  framesOut : Nat
  fcsDiscards : Nat
  queueDiscards : Nat
  queued : Nat
  vlan : Bool
  vid : Nat
  pcp : Nat
  ipv4 : BitVec 32
deriving DecidableEq, Repr, Inhabited

/-- A learned MAC address (R296): the node that learned it, or this node's port. -/
structure MacEntry where
  group : Nat
  mac : BitVec 48
  node : BitVec 16
  port : Option Nat
  seen : Time
deriving DecidableEq, Repr, Inhabited

/-- ETHM bridging. -/
structure EthSt where
  ports : List EthPort
  /-- Scope of each of the 16 groups: none when undefined, false ring, true fabric. -/
  groups : List (Option Bool)
  macs : List MacEntry
deriving DecidableEq, Repr, Inhabited
/-! ### Basin and operators (R304 to R325) -/

/-- *Segment states* (R306). -/
inductive SegState
  | unconfigured | empty | recording | postTrigger | frozen
deriving DecidableEq, Repr, Inhabited

/-- A metadata entry (R308): index and time of its first record. -/
structure MetaEntry where
  /-- Serial of the first record, and its word index. -/
  serial : Nat
  index : Nat
  gen : Nat
  epoch : Nat
  time : Nat
deriving DecidableEq, Repr, Inhabited

/-- One segment (R304 to R311, R316). Words are numbered by `serial`, the count of records written since `BASIN.CLEAR`;
the word index is the serial modulo the size. -/
structure Segment where
  sizeMib : Nat
  spillStop : Bool
  preMs : Nat
  postMs : Nat
  sources : BitVec 34
  /-- 0 off, 1 EAST, 2 WEST. -/
  mirror : Nat
  mirrorTc : Nat
  target : Bool
  state : SegState
  truncated : Bool
  /-- Serial of the next word and number of words held. -/
  serial : Nat
  held : Nat
  written : Nat
  overwritten : Nat
  refused : Nat
  ignored : Nat
  shortfallMs : Nat
  /-- t_trig (timebase, 2^-16 ns), its source, and the serial from which stamped words are protected. -/
  tTrig : Nat
  trigSource : Nat
  protSerial : Nat
  /-- Timebase value of the last write. -/
  lastWrite : Nat
  metas : List MetaEntry
  /-- Generation and epoch of the metadata entry that is open. -/
  metaDue : Bool
  /-- Addresses still to carry `GAP_BEFORE`: all but those listed (after a release or reset), and those refused. -/
  gapAllBut : Option (List Nat)
  gapAddrs : List Nat
  /-- MIRROR_TARGET: the last frame from the origin; ORIGIN: mirroring is paused (R316). -/
  lastMirror : Option Time
  mirrorGapBut : Option (List Nat)
deriving DecidableEq, Repr, Inhabited

/-- An extraction or export that runs (R312 to R314). -/
structure Extract where
  seg : Nat
  /-- BASIN0 to BASIN3 for a DMA extraction, none for an export. -/
  channel : Option Nat
  dest : BitVec 16
  tc : Nat
  next : Nat
  stop : Nat
  release : Bool
  delivered : Nat
  skipped : Nat
  gapAllBut : Option (List Nat)
  /-- Addresses whose next record extracted carries `GAP_BEFORE` (R193). -/
  gapAddrs : List Nat
  agent : Agent
  srcNode : BitVec 16
  seq : BitVec 32
deriving DecidableEq, Repr, Inhabited

/-- BASIN: the segments, the words they hold, extractions and the window. -/
structure BasinSt where
  segs : List Segment
  /-- The words of the segments as bytes; the byte address is 16 x (2^30 x segment + word index) + byte. -/
  cells : List Host.Cell
  /-- Words that are uncorrectable or whose tag does not match (R313), by the same word number. -/
  badWords : List Nat
  extracts : List Extract
  window : Nat
  /-- The DRAM has been initialised after a cold start (R448). -/
  ready : Bool
deriving DecidableEq, Repr, Inhabited

/-- *Operator kinds* with their parameters (R319). -/
inductive OpKind
  | stats (k : Nat)
  | thresh (u lo : Int)
  | combine (coefs : List Int) (offset : Int)
  | decim (taps : List Int) (dec : Nat)
  | spectrum (log2 : Nat)
  | eventTime (le he : Int)
  | correlate (minUs maxUs dMm shift gMs : Nat)
deriving DecidableEq, Repr, Inhabited

/-- An input: an address of this node or of a named node (R318). -/
structure OpIn where
  addr : Nat
  node : Option (BitVec 16)
deriving DecidableEq, Repr, Inhabited

/-- *Operator slot settings* (R318). -/
structure OpCfg where
  kind : OpKind
  inputs : List OpIn
  outBase : Nat
  prio : Nat
  keepL2 : Bool
  incl : Bool
  holdUs : Nat
  sub : Sub
deriving DecidableEq, Repr, Inhabited

/-- A record as an operator holds it: input number, value, timestamp (timebase, 2^-16 ns), flags, arrival. -/
structure OpRec where
  input : Nat
  value : Int
  time : Nat
  flags : BitVec 12
  arrived : Time
deriving DecidableEq, Repr, Inhabited

/-- The event in progress of EVENT_TIME: its time, peak and flags. -/
structure OpEvent where
  time : Nat
  peak : Int
  flags : BitVec 12
deriving DecidableEq, Repr, Inhabited

/-- Slot states (`OPER.STATUS`). -/
inductive OpRun
  | stopped | running | paused (cause : Nat)
deriving DecidableEq, Repr, Inhabited

/-- One operator slot. -/
structure OpSlot where
  cfg : Option OpCfg
  run : OpRun
  /-- Records that wait at the slot, with the input each belongs to. -/
  inq : List (Nat × QRec)
  /-- Working state: the window or the waiting records, the last record, THRESH's level, the event in progress, CORRELATE's
  last paired A event. -/
  buf : List OpRec
  last : Option OpRec
  above : Option Bool
  event : Option OpEvent
  lastPair : Option Nat
  /-- Outputs formed and not yet dispatched go to the queues at once; the next output of each address carries
  `GAP_BEFORE` through its address's due list. -/
  recsIn : Nat
  recsOut : Nat
  ignored : Nat
  lost : Nat
deriving DecidableEq, Repr, Inhabited
/-! ### Configuration (R297 to R303) -/

/-- An image with its generation and digest. -/
structure Image where
  gen : Nat
  digest : BitVec 256
  words : List Word
deriving DecidableEq, Repr, Inhabited

/-- The commit that slot 63 is armed for (R300, R303). -/
structure Commit where
  time : Nat
  gen : Nat
  digest : BitVec 256
  catchup : Bool
deriving DecidableEq, Repr, Inhabited

/-- An image that arrives in CONFIG frames (R275, R298). -/
structure Transfer where
  gen : Nat
  digest64 : BitVec 64
  words : List Word
deriving DecidableEq, Repr, Inhabited

/-- A beacon with when it was heard (R302, R376). -/
structure HeardBeacon where
  beacon : Beacon
  at_ : Time
deriving DecidableEq, Repr, Inhabited

/-- Configuration. -/
structure CfgSt where
  activeGen : Nat
  activeDigest : BitVec 256
  /-- The committed image, where one is in force. -/
  active : Option Image
  staged : Option Image
  armed : Option Commit
  /-- `LAST_RESULT` (R299). -/
  lastResult : Nat
  lastBeacon : Option Time
  beacons : List HeardBeacon
  /-- The last collected fabric report (R376). -/
  report : Option (List Beacon)
  rx : Option Transfer
  /-- Since when the active generation or digest differs from the ring generation (R303). -/
  divergedSince : Option Time
  /-- The staged image came by catch-up. -/
  catchingUp : Bool
  /-- Channels whose shadow firmware has started for the staged image (R135). -/
  prepared : List Nat
  /-- An armed commit whose staged image and slot a restart has lost (R300). -/
  lostCommit : Option Commit
deriving DecidableEq, Repr, Inhabited
/-! ### The whole state -/

/-- The state of the block. -/
structure State where
  /-- Commands waiting, first in first out (the model's own queue). -/
  pending : List Instr
  /-- The local instant of the last command. -/
  now : Time
  /-- Draws of free values made (the model's own counter). -/
  free : Nat
  islands : List IslandSt
  host : HostSt
  mgmt : MgmtSt
  time : TimeSt
  tact : TactSt
  daq : DaqSt
  pwr : PwrSt
  clk : ClkSt
  therm : ThermSt
  cfg : CfgSt
  line : LineSt
  fab : FabSt
  eth : EthSt
  basin : BasinSt
  oper : List OpSlot
  mems : List MemSt
  tagMismatch : Nat
  /-- `SOFT_REPAIRS` (R434). -/
  softRepairs : Nat
  repairQueue : List QueueEntry
  nv : NvSt
  fuses : FuseBank
  fuseShadow : FuseBank
  aon : AonSt
  diag : DiagSt
  out : List Out
deriving DecidableEq, Repr


/-! ### The state right after power-on reset (R445, R459 column POR) -/

namespace Reset

/-- HOSTIF after POR (R331). -/
def mailbox : Mailbox :=
  { seq := 0, opcode := 0, len := 0, remote := false, eventOnDone := false, noMsix := false, dest := 0, status := 0,
    rspLen := 0, done := false, pending := false, duplicate := false, payload := [], bell := 0, arrival := 0,
    viaSpi := false }

/-- A DMA channel after POR: `RING_LOG2` 4, `FLUSH_US` 100 (R331). -/
def dmaCh : DmaCh :=
  { ringLo := 0, ringHi := 0, log2 := 4, flushUs := 100, prod := 0, cons := 0, state := .idle, haltDesc := 0,
    haltWord := 0, dropped := 0, buf := none, badWord := none, badNode := none, feed := [] }

/-- The event queue after POR: `EVQ_LOG2` 6, `EVQ_MOD_COUNT` 1; the first pass writes `PHASE` 1 (R331, R340). -/
def evq : EvqSt :=
  { baseLo := 0, baseHi := 0, log2 := 6, tail := 0, head := 0, enable := false, modCount := 1, modTime := 0, lost := 0,
    phase := true, held := [], lostDue := false, unsignalled := 0, firstUnsignalled := none }

/-- HOSTIF after POR. The PCIe link is down; no command writes the MSI-X table, which is taken as unmasked (DESIGN
CHOICE). -/
def host : HostSt :=
  { nmiCause := 0, sagSeen := 0, intStatus := 0, intEnable := 0, irqPinEn := false, protoErr := 0, evq := evq,
    dma := List.replicate 16 dmaCh, mbox := List.replicate 16 mailbox, fwRelease := 0, spiAddrErr := false, spiMiso := [],
    linkUp := false, msixFnMask := false, msixMask := 0, msixPending := 0, bar2Discards := 0,
    bar2Poison := 0, bar2Data := 0, rcData := 0 }

/-- A pair that no start has yet loaded. -/
def pair : Pair := { state := .reloading, attempts := 0, lastAttempt := 0 }

/-- The management complex after POR. -/
def mgmt : MgmtSt :=
  { pairA := pair, pairB := pair, active := 0, run := false, starting := true, recovery := false, takeoverDue := false, lost := false,
    image := 0, release := 0, sv := 0, since := 0, running := [], waiting := [], fabricQueue := [], remotes := [],
    warmDue := none, hibernateDue := none }

/-- *Servo settings* after POR (R214). -/
def servo : ServoSet :=
  { kp := 0x02000000, ki := 0x00020000, lockNs := 100, lockCount := 64, unlockNs := 1000, stepUs := 1000,
    agreeNs := 10000, recoveryS := 60 }

/-- A domain after POR: OFF (R201, R216). -/
def domain : Domain :=
  { source := .off, state := .disabled, servo := servo, servoNext := none, theta := 0, thetaTb := 0, integ := 0, y := 0,
    lockRun := 0, unlockRun := 0, missRun := 0, largeRun := 0, lockedSince := 0, lockedFor := 0, withinSince := none,
    copies := [none, none, none], copyPort := 0, lastMeas := none, spacings := [], tauExp := 6, rootUncertain := false,
    hops := 0, dPps := 0, shadowOff := 0, shadowAt := 0, pendingDelta := none }

/-- The PTP side of a port: OFF; clockClass 248 (R209); priorities and rates of the default profile (PRESUMED). -/
def ptp : PtpPort :=
  { role := 0, transport := 0, delayMech := 0, twoStep := false, masterOnly := false, slaveOnly := false,
    domainNumber := 0, logSync := 0, logDelay := 0, logAnnounce := 1, prio1 := 128, prio2 := 128, classLocked := 248,
    classHoldover := 248, classUncertain := 248, gm := none, gmRank := 0, gmTimescale := false, gmTraceable := false,
    master := 0, gmHeard := 0, syncWaits := none,
    roundTrip := none, otherDomain := 0, negotiation := 0, altTimescale := 0, management := 0, rejected := 0, sent := 0,
    received := 0 }

/-- TOD after POR: 115,200 baud, transmitter off (R212). -/
def tod : TodSt :=
  { baud := 115200, txEnable := false, lastEdge := none, message := none, messageEdge := 0, prevSeconds := none,
    invalid := 0, txDue := none }

/-- UTC data after POR (R197). -/
def utc : UtcSt :=
  { offset := 0, leap61 := false, leap59 := false, leapTime := 0, valid := false, supplied := false }

/-- A lane's round trip before any result. -/
def linkRt : LinkRt := { stamps := none, raw := none, window := [], holdUntil := none, largest := none }

/-- TIME after POR (R202, R203, R214, R217, R218, R222, R449): preferred D0, SLEW at 10 us/s, bound 4 h, TS12, 2^6 frames. -/
def time : TimeSt :=
  { stepSum := 0, epoch := 0, stepLog := [], stepDue := none, dom := [domain, domain], active := 0, activeSince := 0,
    mode := .freeRun, preferred := 0, revertive := false, declareMode := false, slewRate := 100, everLocked := false,
    y := 0, slewLeft := 0, slewAt := 0, declared := 0, yHist := [], holdoverSince := 0, holdoverQualified := false,
    holdoverExpired := false, holdoverEntryY := 0, boundS := 14400, tempSrc := 12, table := [], tableDirty := false,
    binNow := 0, binSince := 0, binLearned := 0,
    utc := utc, rootFollowAnchor := true, rootAdvertise := false, rootRateN := 6, asym := List.replicate 5 (0, 0),
    links := List.replicate 3 (List.replicate 8 linkRt), ptp := [ptp, ptp], tod := tod }

/-- A TEV pin after POR: high impedance, SLOTS, active high (R242). -/
def tev : TevPin :=
  { drive := false, mode := 0, activeLow := false, dTev := 0, pulse := none, merges := 0, ignored := 0 }

/-- A TCAP input after POR: OFF, event on (R245). -/
def tcap : TcapIn :=
  { edge := 0, dCap := 0, event := true, queue := [], lastCapture := none, overflowDue := false, missed := 0,
    discarded := 0 }

/-- The action slots and pins after POR; the 1PPS width is 100 ms, in 1/256 ns (R228, R242, R244, R245). -/
def tact : TactSt :=
  { slots := List.replicate 64 none, tev := List.replicate 16 tev,
    pps := { width := 25600000000, offset := 0, squelch := false, pulseEnd := none, last := none },
    tcap := List.replicate 8 tcap }

/-- Channel settings after POR (R42, R69, R97). -/
def chanCfg : ChanCfg :=
  { enable := false, openDet := true, gain := 0, burnout := 0, ref := .internal, path := .auto, blankGap := false,
    blankMask := 0, guardUs := 0, settleUs := 50 }

/-- The merger starts in HG (R94). -/
def merger : Merger := { lg := false, count := 0 }

/-- A filter instance after POR: CASCADE; the primary runs and the shadow is stopped (R123). -/
def inst (r : RunState) : FiltInst :=
  { mode := 1, run := r, bankA := none, bankB := none, start := 0, bySync := false, merger := merger, lastOut := none }

/-- A sequencer after POR: IDLE (R157). -/
def weave : WeaveSt :=
  { state := .idle, image := none, armedAt := none, armedSync := false, armedSlot := false, tStart := 0, round := 0,
    roundStart := 0, cur := none, tail := none, lastStroke := 0, stop := none, saved := none,
    incomplete := List.replicate 8 0 }

/-- A channel after POR. -/
def chan : Chan :=
  { cfg := chanCfg, pendingCfg := none, pos := 0, pendingPos := none, settleEnd := none, primary := inst .running,
    shadow := inst .stopped, markMode := false, markNext := none, fade := .normal, settlingUntil := 0, settlingAt := 0,
    settlingPrev := 0, rangeAt := none, refBadFrom := none, refBadUntil := 0, last := none,
    open_ := List.replicate 8 { count := 0, flag := false }, blanks := [],
    blankedRecs := 0, gapRecs := 0, failed := false, failedBy := 0, unsubstituted := false, softFaulted := false,
    subst := .none, changeover := none, mismatchCount := 0, loopback := none, weave := weave, formed := [],
    sent := none, held := [], shadowHeld := [], disagree := 0, lastFadeTs := none,
    fadeFrom := 0, temp := none, pendingLoop := none, capped := none }

/-- DESIGN CHOICE (log 96): |V_S| counts as at least 0.4 V until a row says otherwise. A generator after POR: OFF,
2,500 mV, k 16, dead time 2,048 cycles, ownership SCHEDULE, window off (R71). -/
def gen : Gen :=
  { cfg := { mode := .off, amplMv := 2500, level := 0, swapK := 16, deadCyc := 2048, combine := false, follow := false,
             window := none },
    tripped := false, pending := none, compliance := false, overload := false, dropP := 0, dropN := 0, senseCount := 0,
    vsOk := true, acNeg := false, acPhaseAt := 0, acDeadEnd := none, acRestart := false, acFrom := 0, prevPol := false,
    polAt := 0, acc := [], loopRes := none }

/-- The calibration of a group after POR: the cycle is on and no slot has run (R167). -/
def cal : CalSt :=
  { cycleEnable := true, running := true, stopCause := 0, phase := .idle, chan := 0, nextChan := 0, slotIndex := 0,
    nextSlotAt := none, retryAt := none, slotStart := 0, outOfTurn := [], slotOut := false, release := false, secondTry := false,
    secondCal := false, overlapStart := 0, firstPair := none, pairs := 0, sumNew := 0, sumOld := 0, otherMerger := merger,
    due := none, newSets := [], outSince := 0, closeAt := 0, delayedRaised := false, abandoned := false, spareBad := false }

/-- A group after POR. -/
def group : Group :=
  { tSync := 0, synced := false, syncN := false, syncs := [], spare := .free, cal := cal, tApplied := none, tRead := none,
    compFrozen := false, ssLost := false, firstRecord := none }

/-- A blank source after POR: stuck limit 10 s (R59). -/
def blank : BlankSrc :=
  { asserted := false, since := 0, stuckMs := 10000, stuckRaised := false, intervals := 0, assertedFu := 0, released := 0,
    riseAt := 0, windowEnd := none }

/-- The subscription of an address after POR: a local address of group g goes to ring g (R190). -/
def sub (a : Nat) : Sub :=
  { rings := if a < 512 then BitVec.ofNat 8 (2 ^ (a / 64)) else 0, basin := none, export_ := none, exportTc := 2 }

/-- The record path of an address after POR. -/
def addrSt (a : Nat) : AddrSt :=
  { sub := sub a, pending := none, oldSub := sub a, subAt := 0, gapNext := [], gapDue := [], delivered := 0,
    discarded := 0, genIgnored := 0, gaps := 0 }

/-- Acquisition after POR: factory sets (R178), automatic syncs on (R123), REFIN valid until judged. -/
def daq : DaqSt :=
  { chans := List.replicate 64 chan, gens := List.replicate 16 gen, groups := List.replicate 8 group,
    blank := List.replicate 8 blank, calSet := List.replicate 64 { periodS := 80, included := true, overlapUs := 100 },
    coef := (List.range 72).map (fun c => (List.range 9).map (Config.factory c)), coefPending := [], autoLock := true,
    autoStep := true, lastSyncN := none, refinValid := true, eref := 0, calStoreDue := [],
    addrs := (List.range 1024).map addrSt, remoteSubs := [], queues := [] }

/-- Supplies after POR: OP0, 900 mV, held until every rail has stayed above its clearing level (R398, R404, R477). -/
def pwr : PwrSt :=
  { op := 0, opBeforeL1 := none, change := none, opWanted := none, vctlMv := 900, vctlConfirmed := false, state := .run,
    currents := List.replicate 8 0xFFFF,
    oscTemp := 0, sagNow := 0, sagSince := 0, sagWarn := false, sagTimedOut := false, resetNLow := false,
    supplyHold := true }

/-- A reference before it is qualified (R388). -/
def refIn : RefIn := { qualified := false, failed := false, qualSince := 0 }

/-- A frequency counter after POR. -/
def counter : Counter :=
  { running := false, meas := 0, ref := 0, lane := 0, gateMs := 0, measCount := 0, refCount := 0,
    ppm := 0 }

/-- Clocks after POR: the control tree on the RC oscillator, REFA preferred, lane 0 of WEST (R386, R388, R392). -/
def clk : ClkSt :=
  { refA := refIn, refB := refIn, preferB := false, tbRef := 3, laneSource := 1, lane := 0, ctlInternal := true,
    plls := List.replicate 14 .unlocked, tbHoldSince := none, tbHoldExpired := false, failed := 0, forced := 0, gated := 0,
    counters := List.replicate 4 counter }

/-- A sensor before its first reading. -/
def sensor : Sensor :=
  { reading := 0, openShort := false, read := false, badRun := 0, goodRun := 0, broken := false }

/-- A zone before its first reading. -/
def zone : Zone :=
  { temp := 0, history := [], warmUp := 0, warmDown := 0, warm := false, hotUp := 0, hotDown := 0, hot := false, l3Up := 0,
    l3Down := 0, l3 := false, critUp := 0, crit := false, riseUp := 0, riseDown := 0, rising := false, hotSince := none,
    allBrokenSince := none }

/-- Thermal management after POR: grace time 1,000 ms (R416). -/
def therm : ThermSt :=
  { sensors := List.replicate 17 sensor, zones := List.replicate 7 zone, demandSince := none, graceMs := 1000,
    graceNow := 1000, level := 0 }

/-- Configuration after POR: generation 0, nothing staged (R297). -/
def cfg : CfgSt :=
  { activeGen := 0, activeDigest := 0, active := none, staged := none, armed := none, lastResult := 0, lastBeacon := none,
    beacons := [], report := none, rx := none, divergedSince := none, catchingUp := false
    prepared := [], lostCommit := none }

/-- *Per-lane settings* after POR (R251). -/
def laneSet (half : Bool) : LaneSet :=
  { enable := true, half := half, swing := 200, firHost := false, cM2 := 0, cM1 := -4, cP1 := -6, cP2 := 0, lev1 := 0,
    lev2 := 0, ctleHost := false, ctleDb := 0, ffeFreeze := false, dfeMode := 0, mlse := false, trBw := 4 }

/-- A lane after POR: DOWN (R252). -/
def lane (half : Bool) : Lane :=
  { set := laneSet half, cur := laneSet half, curAt := none, half := half, mlse := false, state := .down, since := 0,
    signalAt := 0, retryAt := none, failRun := 0, fir := [0, -4, -6, 0], ctle := 0, lastFir := none, lastCtle := none,
    ffeAt := 0, dfeAt := 0, degraded := false, berHigh := 0, berLow := 0, berEst := 0, laneRx := none, seqRx := none,
    rxTs := 0, lastCw := 0, rxDelete := false, lastJust := none, omitCycle := none, slipUntil := 0, framingLosses := 0,
    slips := 0, justifications := 0, attempts := 0, trainFailures := 0, corrected := 0, correctedBits := 0,
    uncorrectable := 0, shedAt := none }

/-- A slot after POR: slots 0, 8, 16 and 24 are FABRIC, the others UNUSED (R258); a slot that has received nothing keeps
the highest hop count. -/
def slot (i : Nat) : Slot :=
  { use := if i == 0 || i == 8 || i == 16 || i == 24 then .fabric else .unused, other := 0, circuit := 0, hopsIn := 127,
    was := none, neigh := none, mismatch := false, alignLost := false, protecting := false, lastBudget := none }

/-- The line ports after POR: no circuit, the drop port off (R261). -/
def line (half : Bool) : LineSt :=
  { lanes := List.replicate 2 (List.replicate 8 (lane half)), slots := List.replicate 2 ((List.range 64).map slot),
    circuits := [], drop := 0, mismatchSeen := [0, 0] }

/-- An egress port after POR: empty buffers (R278). -/
def egress : Egress :=
  { at_ := 0, left := 256, used := List.replicate 8 0, served := 7, queue := List.replicate 8 [],
    drops := List.replicate 8 0 }

/-- The fabric after POR: nothing learned (R286, R287). -/
def fab : FabSt :=
  { ports := List.replicate 3 { adjacent := false, looped := false, refused := false, neigh := none, lastHello := none,
                                lastSent := none },
    egress := List.replicate 3 egress,
    role := .none, pos := none, ring := 0, n := none, noAddress := false, eastRun := { pos := 0, run := 0 },
    westRun := { pos := 0, run := 0 }, closure := { pos := 0, run := 0 }, anchorActive := false, anchorPos := 0,
    anchorUid := 0, lastPrimary := none, lastToken := none, lastTokenTx := none, ringGen := none, breaks := [],
    routes := List.replicate 64 .unreachable, seq := 0, wins := [], order := [], stomps := List.replicate 8 0,
    discards := List.replicate 8 0, duplicates := 0, lost := 0, stale := 0, invalid := 0,
    stompSince := List.replicate 24 0, stompEvent := List.replicate 24 none, orig := [], extended := false, waiting := [],
    holdUntil := 0 }

/-- An ETHM port after POR: off, 25GBASE-R, no bridge. -/
def ethPort : EthPort :=
  { enable := false, slow := false, link := false, bridge := false, group := 0, framesIn := 0, framesOut := 0,
    fcsDiscards := 0, queueDiscards := 0, queued := 0, vlan := false, vid := 0, pcp := 0, ipv4 := 0 }

/-- ETHM after POR: no bridge group is defined. -/
def eth : EthSt := { ports := [ethPort, ethPort], groups := List.replicate 16 none, macs := [] }

/-- *Segment settings* after POR (R305): size 0, freeze sources command and timed action. -/
def segment : Segment :=
  { sizeMib := 0, spillStop := false, preMs := 0, postMs := 0, sources := 3, mirror := 0, mirrorTc := 5, target := false,
    state := .unconfigured, truncated := false, serial := 0, held := 0, written := 0, overwritten := 0, refused := 0,
    ignored := 0, shortfallMs := 0, tTrig := 0, trigSource := 0, protSerial := 0, lastWrite := 0, metas := [],
    metaDue := false, gapAllBut := none, gapAddrs := [], lastMirror := none, mirrorGapBut := none }

/-- The basin after POR: empty and not yet initialised (R448). -/
def basin : BasinSt :=
  { segs := List.replicate 1024 segment, cells := [], badWords := [], extracts := [], window := 0, ready := false }

/-- An operator slot after POR: free (R318). -/
def opSlot : OpSlot :=
  { cfg := none, run := .stopped, inq := [], buf := [], last := none, above := none, event := none, lastPair := none,
    recsIn := 0, recsOut := 0, ignored := 0, lost := 0 }

/-- A memory after POR. -/
def mem : MemSt :=
  { corrected := 0, uncorrectable := 0, scrub := 0, watch := [], hardWords := [], repairs := [], copying := [],
    badWords := [], lastCorrected := none }

/-- An empty configuration slot. -/
def cfgSlot : CfgSlot := { header := 0, commit := 0, gen := 0, digest := 0, words := [] }

/-- The firmware image as the part ships: signed with the Forribex key, release 0, SV 0 (DESIGN CHOICE). -/
def fwSlot : FwSlot := { valid := true, release := 0, sv := 0, keyHash := Config.keyHash0, signatureOk := true }

/-- The NV store as the part ships: no configuration image, both firmware slots filled, factory calibration. -/
def nv : NvSt :=
  { cfgA := cfgSlot, cfgB := cfgSlot, activeCfg := 0, cfgSeq := 0, autoload := true, catchup := true, fwA := fwSlot, fwB := fwSlot,
    preferred := 0,
    cal := { valid := true, ring := [], seq := 0, at_ := 0, history := [], failed := [], softFaulted := [], holdover := [] },
    journal := [], journalValid := true, repairTable := [], invalid := 0, refreshed := List.replicate 7 0, maxWrites := 0,
    storedWrites := 0, writesSince := 0, lastCountStore := 0, lastRefreshCheck := none }

/-- The fuses as the part ships: bank 1 and bank 2 unblown; an SL-5128-W (DESIGN CHOICE). -/
def fuses : FuseBank :=
  { uid := Config.uid, variantV := false, factoryRepairs := 0, keyHash0 := Config.keyHash0, rollback := 0, protDeny := 0,
    debugLock := 0, anchorCap := false, laneCap := false, keyRevoke := 0, sealed := false, keyHash1 := 0, keyHash2 := 0,
    repairs := [] }

/-- AON right after POR: cause 0, 0 s, a start due (R445, R446, R449). -/
def aon : AonSt :=
  { resetCause := 0, sagResetRails := 0, coarse := 0, coarseAt := 0, loading := false, shutdowns := [], thermalOff := false,
    startDue := true, fromPor := true }

/-- LOG and DIAG after POR: level 0, no streaming, loopbacks off (R459). -/
def diag : DiagSt := { level := 0, stream := false, loopback := List.replicate 5 0 }

/-- The islands right after POR: AON runs, every other island is held in reset (R445). -/
def islands : List IslandSt :=
  { phase := .run, discards := 0, aborts := 0 } ::
    List.replicate 20 { phase := .inReset, discards := 0, aborts := 0 }

end Reset

/-- The machine right after power-on reset, before its start (R445, R459). -/
def State.reset : State :=
  { pending := [], now := 0, free := 0, islands := Reset.islands, host := Reset.host, mgmt := Reset.mgmt,
    time := Reset.time, tact := Reset.tact, daq := Reset.daq, pwr := Reset.pwr, clk := Reset.clk, therm := Reset.therm,
    cfg := Reset.cfg, line := Reset.line false, fab := Reset.fab, eth := Reset.eth, basin := Reset.basin,
    oper := List.replicate 32 Reset.opSlot, mems := List.replicate 3 Reset.mem, tagMismatch := 0, softRepairs := 0, repairQueue := [],
    nv := Reset.nv, fuses := Reset.fuses, fuseShadow := Reset.fuses, aon := Reset.aon, diag := Reset.diag, out := [] }

end Sys2Proof.Machine
end

