-- ==== Sys2Proof/Machine/Base.lean ====
section
/-! DEFINITION. The first named operations that the meanings share: bit fields, time, islands, outputs. -/

namespace Sys2Proof.Machine

/-- The three outcomes of a step of this block. -/
abbrev Outcome := Host.Outcome State Fault Refusal

/-! ### Bit fields (R7, R356) -/

/-- Bits `[lo + len - 1 : lo]` of a word, unsigned. -/
def fld (w : Word) (lo len : Nat) : Nat := (w.toNat >>> lo) % 2 ^ len

/-- One bit of a word. -/
def fbit (w : Word) (i : Nat) : Bool := w.getLsbD i

/-- Bits `[lo + len - 1 : lo]` of a word, two's complement. -/
def sfld (w : Word) (lo len : Nat) : Int :=
  if fld w lo len < 2 ^ (len - 1) then (fld w lo len : Int) else (fld w lo len : Int) - 2 ^ len

/-- An integer as an unsigned field of `len` bits, two's complement. -/
def asField (i : Int) (len : Nat) : Nat := (i % (2 ^ len : Nat)).toNat

/-- A word from its fields: lowest bit, width, value. -/
def mkWord (fs : List (Nat × Nat × Nat)) : Word :=
  BitVec.ofNat 128 (fs.foldl (fun acc f => acc ||| ((f.2.2 % 2 ^ f.2.1) <<< f.1)) 0)

/-- A Bool as a bit. -/
def b2n (b : Bool) : Nat := if b then 1 else 0

/-- No bit of a word is set outside the ranges given (R10: reserved bits must be 0). -/
def onlyBits (w : Word) (ranges : List (Nat × Nat)) : Bool :=
  w.toNat == ranges.foldl (fun acc r => acc ||| (fld w r.1 r.2 <<< r.1)) 0

/-- A payload word Q(n), n from 1; a word past the payload reads 0. -/
def qword (rq : Request) (n : Nat) : Word := rq.payload.getD (n - 1) 0

/-- A count that saturates at `2^len - 1`. -/
def satAdd (len a b : Nat) : Nat := min (a + b) (2 ^ len - 1)

/-- Set bit `i` of a vector. -/
def setBit {n : Nat} (v : BitVec n) (i : Nat) (b : Bool) : BitVec n :=
  if b then v ||| (1#n <<< i) else v &&& ~~~(1#n <<< i)

/-- Replace the element whose key matches, or add it at the end. -/
def upsert {α : Type} (l : List α) (same : α → Bool) (new : α) : List α :=
  if l.any same then l.map (fun x => if same x then new else x) else l ++ [new]

/-- Division rounded to nearest, ties away from zero (R92). -/
def roundDiv (n : Int) (d : Nat) : Int :=
  if 0 ≤ n then (2 * n + d) / (2 * d) else -((2 * (-n) + d) / (2 * d))

/-! ### Time (R194, R195, R220) -/

/-- A command at the local instant `t` moves the model's clock there, never back. -/
def tick (t : Time) (s : State) : State := { s with now := max s.now t }

/-- The timebase at a local instant, in 2^-16 ns: local time plus the start value and all steps (R220). -/
def tbAt (s : State) (t : Time) : Nat := ((t : Int) + s.time.stepSum).toNat

/-- The timebase now. -/
def tbNow (s : State) : Nat := tbAt s s.now

/-- The local instant of a timebase value, as the step sum now in force gives it. -/
def localOf (s : State) (tb : Nat) : Time := ((tb : Int) - s.time.stepSum).toNat

/-- The 96 bits of a T96 time (R194): `FRACNS`, `NS`, `SECONDS`. -/
def t96 (tb : Nat) : Nat :=
  tb % nsU + ((tb % secU) / nsU) * 2 ^ 16 + ((tb / secU) % 2 ^ 48) * 2 ^ 48

/-- A T96 time word with its epoch (R194). -/
def t96Word (tb epoch : Nat) : Word := BitVec.ofNat 128 (t96 tb + (epoch % 65536) * 2 ^ 96)

/-- The timebase value that a T96 time word names. -/
def ofT96 (w : Word) : Nat := fld w 0 16 + fld w 16 32 * nsU + fld w 48 48 * secU

/-- The difference of two timebase values (R198), in 2^-16 ns: the seconds are subtracted in 32 bits, so that beyond 2^31 s
the result is off by a multiple of 2^32 s. -/
def tbDiff (a b : Nat) : Int :=
  (BitVec.ofNat 32 (a / secU) - BitVec.ofNat 32 (b / secU)).toInt * (secU : Int) + (a % secU : Nat) - (b % secU : Nat)

/-- A time argument is in form: `NS` below 1,000,000,000, `EPOCH` ignored, reserved bits 0 (R194, R195). -/
def t96Form (w : Word) : Bool := fld w 16 32 < 1000000000 && fld w 112 16 == 0

/-- A time argument whose seconds differ from the timebase's by 2^31 or more is rejected (R199). -/
def t96Near (s : State) (w : Word) : Bool :=
  let a := fld w 48 48
  let b := tbNow s / secU
  a < b + 2 ^ 31 && b < a + 2 ^ 31

/-- Word A1 of a status response: the snapshot instant (R357). -/
def snap (s : State) : Word := t96Word (tbNow s) s.time.epoch

/-! ### Islands (R12, R14) -/

/-- The place of an island in the list. -/
def islandIx : Island → Nat
  | .aon => 0 | .mgmtA => 1 | .mgmtB => 2 | .hostif => 3 | .time => 4
  | .daq g => 5 + g.val
  | .lineE => 13 | .lineW => 14 | .drop => 15 | .xbar => 16 | .basin => 17 | .oper => 18 | .nvs => 19 | .ethm => 20

/-- One island. -/
def islandOf (s : State) (i : Island) : IslandSt := s.islands.getD (islandIx i) default

/-- An island runs, that is, answers its handshakes (R14). -/
def isUp (s : State) (i : Island) : Bool :=
  match (islandOf s i).phase with
  | .run => true
  | .closing => true
  | _ => false

/-- Change one island. -/
def modIsland (s : State) (i : Island) (f : IslandSt → IslandSt) : State :=
  { s with islands := s.islands.modify (islandIx i) f }

/-- Put an island into a phase. -/
def setPhase (s : State) (i : Island) (p : IslandPhase) : State := modIsland s i (fun x => { x with phase := p })

/-- A request towards an absent island is discarded and counted (R14). -/
def countDiscard (s : State) (i : Island) : State := modIsland s i (fun x => { x with discards := x.discards + 1 })

/-- What arrives for an island that is absent is discarded and counted (R14). -/
def arriveAt (i : Island) (s : State) (f : State → Outcome) : Outcome := if isUp s i then f s else .next (countDiscard s i)

/-- The island of a channel group. -/
def daqIsland (g : Nat) : Island := .daq (Fin.ofNat 8 g)

/-- The island of a line port: 0 EAST, 1 WEST. -/
def lineIsland (p : Nat) : Island := if p = 0 then .lineE else .lineW

/-- The part is an SL-5128-V (R2). -/
def isV (s : State) : Bool := s.fuseShadow.variantV

/-- No DIAG loopback is on at a port: 0 EAST, 1 WEST, 2 DROP, 3 ETHM0, 4 ETHM1 (R380). -/
def loopFree (s : State) (k : Nat) : Bool := s.diag.loopback.getD k 0 == 0

/-- Put something out. -/
def emitOut (o : Out) (s : State) : State := { s with out := s.out ++ [o] }

end Sys2Proof.Machine
end

