-- ==== Sys2Proof/Machine/Digest.lean ====
section
/-! DEFINITION. SHA-256, the digest of a configuration image (R297), as FIPS 180-4 defines it. -/

namespace Sys2Proof.Machine

/-- The integer `k`-th root of `n` over `r`, found bit by bit from bit `b - 1` down. -/
def rootFrom (k n : Nat) : Nat → Nat → Nat
  | 0, r => r
  | b + 1, r => rootFrom k n b (if (r + 2 ^ b) ^ k ≤ n then r + 2 ^ b else r)

/-- The first 64 primes: 2 to 311. -/
def digestPrimes : List Nat :=
  (List.range 312).filter (fun p => decide (2 ≤ p) && (List.range 18).all (fun d => d < 2 || p ≤ d || p % d != 0))

/-- The first 32 bits of the fraction of a prime's `k`-th root. -/
def rootFraction (k p : Nat) : BitVec 32 := BitVec.ofNat 32 (rootFrom k (p * 2 ^ (32 * k)) 35 0)

/-- The constants of the 64 rounds, from cube roots, and the start, from square roots. -/
def roundConstants : List (BitVec 32) := digestPrimes.map (rootFraction 3)
def startWords : List (BitVec 32) := (digestPrimes.take 8).map (rootFraction 2)

/-- The exclusive or of a word turned right by several amounts. -/
def turned (ks : List Nat) (x : BitVec 32) : BitVec 32 := (ks.map x.rotateRight).foldl (· ^^^ ·) 0

/-- The message schedule: the 64 words of a block, from the newest 16, which stand first, and `n` more. -/
def scheduleFrom (ws : List (BitVec 32)) : Nat → List (BitVec 32)
  | 0 => ws
  | n + 1 =>
    let l := scheduleFrom ws n
    let back := fun (i : Nat) => l.getD (i - 1) 0
    (back 16 + (turned [7, 18] (back 15) ^^^ back 15 >>> 3) + back 7 + (turned [17, 19] (back 2) ^^^ back 2 >>> 10)) :: l

/-- The working variables as four rows, newest first: a and e, b and f, c and g, d and h. -/
abbrev DigestRows := List (BitVec 32 × BitVec 32)

/-- One round: a row in front, the oldest one gone. -/
def digestRound (v : DigestRows) (kw : BitVec 32) : DigestRows :=
  let up := fun (i : Nat) => (v.getD i (0, 0)).1
  let low := fun (i : Nat) => (v.getD i (0, 0)).2
  let pick := low 2 ^^^ (low 0 &&& (low 1 ^^^ low 2))
  let most := (up 0 &&& up 1) ||| (up 2 &&& (up 0 ||| up 1))
  let mix := low 3 + turned [6, 11, 25] (low 0) + pick + kw
  (mix + turned [2, 13, 22] (up 0) + most, up 3 + mix) :: v.take 3

/-- Bytes cut into pieces of `n`. -/
def pieces (n : Nat) : Nat → List Byte → List (List Byte)
  | 0, _ => []
  | k + 1, bs => bs.take n :: pieces n k (bs.drop n)

/-- A number written in bytes, the highest first. -/
def bigEndian (bs : List Byte) : Nat := bs.foldl (fun a b => 256 * a + b.toNat) 0

/-- One block of 64 bytes. -/
def digestBlock (v : DigestRows) (block : List Byte) : DigestRows :=
  let first := ((pieces 4 16 block).map (fun p => BitVec.ofNat 32 (bigEndian p))).reverse
  let keyed := roundConstants.zip (scheduleFrom first 48).reverse
  let last := (keyed.map (fun p => p.1 + p.2)).foldl digestRound v
  (v.zip last).map (fun p => (p.1.1 + p.2.1, p.1.2 + p.2.2))

/-- What follows a message of `n` bytes: a one bit, zeros up to a whole block, and its length in bits as eight bytes. -/
def padding (n : Nat) : List Byte :=
  let zeros := (64 - (n + 9) % 64) % 64
  0x80#8 :: List.replicate zeros 0 ++ (List.range 8).reverse.map (fun i => BitVec.ofNat 8 (8 * n / 256 ^ i))

/-- The digest, byte 0 in bits [7:0] (R297, R375). -/
def sha256 (bs : List Byte) : BitVec 256 :=
  let whole := bs ++ padding bs.length
  let v := (pieces 64 (whole.length / 64) whole).foldl digestBlock ((startWords.take 4).zip (startWords.drop 4))
  let words := v.map (·.1) ++ v.map (·.2)
  let bytes := words.flatMap (fun w => [3, 2, 1, 0].map (fun i => w.toNat / 256 ^ i % 256))
  BitVec.ofNat 256 (bytes.foldr (fun b a => b + 256 * a) 0)

end Sys2Proof.Machine
end

