-- ==== Sys2Proof/Machine/Frame.lean ====
section
/-! DEFINITION. Fabric frames: their CRCs, header and trailer flits (R271 to R274), where nodes lie (R289 to R294), and how
a node originates a frame under the limiter (R276, R277, R281 to R283, R290, R291). -/

namespace Sys2Proof.Machine

/-! ### CRCs (R273, R274) -/

/-- The 16 bytes of a word, lowest first (R7). -/
def wordBytes (w : Word) : List Byte := (List.range 16).map (fun i => w.extractLsb' (8 * i) 8)

/-- One step of the reflected CRC-32C. -/
def crc32Bit (c : BitVec 32) : BitVec 32 := if c.getLsbD 0 then (c >>> 1) ^^^ 0x82F63B78#32 else c >>> 1

/-- One byte into the CRC. -/
def crc32Byte (c : BitVec 32) (b : Byte) : BitVec 32 :=
  crc32Bit (crc32Bit (crc32Bit (crc32Bit (crc32Bit (crc32Bit (crc32Bit (crc32Bit (c ^^^ b.setWidth 32))))))))

/-- CRC-32C: polynomial 0x1EDC_6F41, reflected, initial and final 0xFFFF_FFFF (R274). -/
def crc32c (bs : List Byte) : BitVec 32 := bs.foldl crc32Byte 0xFFFFFFFF#32 ^^^ 0xFFFFFFFF#32

/-- One step of the CRC-8 of the trailer. -/
def crc8Bit (c : BitVec 8) : BitVec 8 := if c.getLsbD 7 then (c <<< 1) ^^^ 0x07#8 else c <<< 1

/-- CRC-8: polynomial 0x07, initial 0 (R273). -/
def crc8 (bs : List Byte) : BitVec 8 :=
  bs.foldl (fun c b => crc8Bit (crc8Bit (crc8Bit (crc8Bit (crc8Bit (crc8Bit (crc8Bit (crc8Bit (c ^^^ b))))))))) 0#8

/-- `HCRC` of a header flit: over bits [127:32]. -/
def hcrcOf (h : Word) : BitVec 32 := crc32c ((wordBytes h).drop 4)

/-- `PCRC` of the payload flits. -/
def pcrcOf (ws : List Word) : BitVec 32 := crc32c (ws.flatMap wordBytes)

/-- `TCHK` of a trailer flit: over bits [55:32] and [127:64], lowest byte first (R274). -/
def tchkOf (t : Word) : BitVec 8 := crc8 (((wordBytes t).drop 4).take 3 ++ (wordBytes t).drop 8)

/-- A header flit with its `HCRC` put in. -/
def sealHeader (h : Word) : Word := (h >>> 32 <<< 32) ||| (hcrcOf h).setWidth 128

/-- A trailer flit with its `TCHK` put in. -/
def sealTrailer (t : Word) : Word :=
  BitVec.ofNat 128 (t.toNat - fld t 56 8 * 2 ^ 56) ||| ((tchkOf t).setWidth 128 <<< 56)

/-! ### Fields of a header and a trailer (R272, R273) -/

/-- What a header flit says besides its CRC. -/
structure Hdr where
  dest : BitVec 16
  src : BitVec 16
  tc : Nat
  kind : Nat
  seq : Nat
  gen : Nat
  lenM1 : Nat
  hop : Nat
  westward : Bool
  link : Bool
  xring : Bool
  last : Bool
deriving DecidableEq, Repr, Inhabited

/-- The header flit of these fields. -/
def hdrWord (h : Hdr) : Word :=
  sealHeader (mkWord [(112, 16, h.dest.toNat), (96, 16, h.src.toNat), (92, 4, h.tc), (88, 4, h.kind), (72, 16, h.seq),
    (56, 16, h.gen), (47, 9, h.lenM1), (37, 10, h.hop), (32, 1, b2n h.westward), (33, 1, b2n h.link),
    (34, 1, b2n h.xring), (35, 1, b2n h.last)])

/-- The fields of a header flit. -/
def hdrOf (w : Word) : Hdr :=
  { dest := BitVec.ofNat 16 (fld w 112 16), src := BitVec.ofNat 16 (fld w 96 16), tc := fld w 92 4, kind := fld w 88 4,
    seq := fld w 72 16, gen := fld w 56 16, lenM1 := fld w 47 9, hop := fld w 37 10, westward := fbit w 32,
    link := fbit w 33, xring := fbit w 34, last := fbit w 35 }

/-- A trailer flit: payload CRC, `STOMP`, `PATH_DIR`, `PATH_RING`, `RESIDENCE`. -/
def trailerWord (pcrc : BitVec 32) (stomp pathDir ring residence : Nat) : Word :=
  sealTrailer (mkWord [(0, 32, pcrc.toNat), (32, 8, stomp), (40, 2, pathDir), (42, 6, ring), (64, 64, residence)])

/-- A whole frame from its header and payload (R271): a frame of one flit has neither payload nor trailer. -/
def mkFrame (h : Hdr) (pathDir ring residence : Nat) (words : List Word) : List Word :=
  if words.isEmpty then [hdrWord { h with lenM1 := 0 }]
  else hdrWord { h with lenM1 := words.length + 1 } :: words ++ [trailerWord (pcrcOf words) 0 pathDir ring residence]

/-- The containers of a frame's flits on a link (R269): an 8-bit tag (class, first and last flit) before each. How a link's bit
stream cuts containers into codewords is not held (log 115). -/
def containersOf (tc : Nat) (flits : List Word) : List (BitVec 136) :=
  flits.mapIdx (fun i w =>
    w ++ BitVec.ofNat 8 (tc % 8 + 8 * b2n (i == 0) + 16 * b2n (i + 1 == flits.length)))

/-- Flits of a frame with this payload (R271). -/
def flitsOf (words : List Word) : Nat := if words.isEmpty then 1 else words.length + 2

/-- The classes that a kind travels in (R275). -/
def kindClassOk (kind tc : Nat) : Bool :=
  match kind with
  | 0 => tc == 1 || (decide (5 ≤ tc) && decide (tc ≤ 7))
  | 1 => tc == 2 || (decide (5 ≤ tc) && decide (tc ≤ 7))
  | 2 => tc == 3
  | 3 => tc == 3
  | 4 => tc == 0
  | 5 => tc == 4
  | 6 => tc == 4
  | 7 => tc == 3
  | _ => false

/-! ### Lanes and slots (R248 to R250, R255, R257, R258) -/

/-- Change the line ports. -/
def modLine (f : LineSt → LineSt) (s : State) : State := { s with line := f s.line }

/-- One lane; change one. -/
def laneOf (s : State) (p l : Nat) : Lane := (s.line.lanes.getD p []).getD l default
def modLane (p l : Nat) (f : Lane → Lane) (s : State) : State :=
  modLine (fun x => { x with lanes := x.lanes.modify p (fun ls => ls.modify l f) }) s

/-- A slot as the committed image has it; change one. -/
def slotSet (s : State) (p i : Nat) : Slot := (s.line.slots.getD p []).getD i default
def modLineSlot (p i : Nat) (f : Slot → Slot) (s : State) : State :=
  modLine (fun x => { x with slots := x.slots.modify p (fun l => l.modify i f) }) s

/-- A slot as it is in use: until its lane's first cycle boundary at or after the commit, as before (R258). -/
def slotInUse (x : Slot) (t : Time) : Slot :=
  match x.was with
  | some (until_, u, o, c) => if t < until_ then { x with use := u, other := o, circuit := c } else x
  | none => x

/-- One slot in use. -/
def lineSlot (s : State) (p i : Nat) : Slot := slotInUse (slotSet s p i) s.now

/-- Lanes of a port that the part has (R3). -/
def laneCount (s : State) : Nat := if isV s then 4 else 8

/-- A lane of the part (R3). -/
def lanePresent (s : State) (l : Nat) : Bool := decide (l < laneCount s)

/-- The position of a slot fits the rate of a lane (R249, R250). -/
def fitsRate (x : Lane) (i : Nat) : Bool := !x.half || decide (i % 8 < 4)

/-- Slot `i` of a port exists: its lane is present and its position fits the lane's rate (R249, R250). -/
def slotPresent (s : State) (p i : Nat) : Bool := lanePresent s (i / 8) && fitsRate (laneOf s p (i / 8)) i

/-- The receive lane in UP that carries a `LANE` value: it brings that lane's slots, whichever physical lane it is (R248,
R249). -/
def rxLane (s : State) (p f : Nat) : Option Nat :=
  (List.range 8).find? (fun k => (laneOf s p k).state == .up && (laneOf s p k).laneRx == some f)

/-- A port's lanes run, and no loopback takes them (R380). -/
def portOpen (s : State) (p : Nat) : Bool := isUp s (lineIsland p) && loopFree s p

/-- Slot `i` arrives: the receive lane of its `LANE` value is UP (R249, R257). -/
def slotIn (s : State) (p i : Nat) : Bool :=
  portOpen s p && lanePresent s (i / 8) && (match rxLane s p (i / 8) with | some k => fitsRate (laneOf s p k) i | none => false)

/-- Slot `i` leaves: its own lane is UP (R249, R257). -/
def slotOut (s : State) (p i : Nat) : Bool :=
  portOpen s p && slotPresent s p i && (laneOf s p (i / 8)).state == .up

/-- The slot of a lane carries codewords both ways (R257). -/
def slotUp (s : State) (p i : Nat) : Bool := slotIn s p i && slotOut s p i

/-- A FABRIC slot that carries the port's fabric link: both ends hold it as FABRIC, as far as maps have come (R259). -/
def fabricSlot (s : State) (p i : Nat) : Bool :=
  let x := lineSlot s p i
  x.use == .fabric && slotUp s p i && (x.neigh.isNone || x.neigh == some 1)

/-! The calendar of a lane (R250, R255): the cycles of every lane are counted from the origin of the local axis; a slip or a
justification does not move them (DESIGN CHOICE, log entry 106). -/

/-- Ten times a calendar cycle: 614.4 ns at full rate, 1,228.8 ns at half rate. -/
def cycle10 (half : Bool) : Nat := (if half then 12288 else 6144) * nsU

/-- The cycle in progress, and when a cycle begins. -/
def cycleIx (half : Bool) (t : Time) : Nat := 10 * t / cycle10 half
def cycleAt (half : Bool) (n : Nat) : Time := (n * cycle10 half + 9) / 10

/-- The first cycle boundary at or after an instant. -/
def nextCycle (half : Bool) (t : Time) : Time :=
  let n := cycleIx half t
  if cycleAt half n = t then t else cycleAt half (n + 1)

/-! ### Where nodes lie (R289 to R294) -/

/-- This node's address (R289); without a position, the ring's number with position 1,022, which is reserved. -/
def myAddr (s : State) : BitVec 16 := BitVec.ofNat 16 (s.fab.ring * 1024 + s.fab.pos.getD 1022)

/-- Hops from `p` to `q` in one direction, where the ring's size or the order of positions gives them (R287, R290). -/
def ringHops (n : Option Nat) (p q : Nat) (east : Bool) : Option Nat :=
  match n with
  | some n =>
    if n = 0 ∨ n ≤ p ∨ n ≤ q then none
    else some (if east then (q + n - p) % n else (p + n - q) % n)
  | none => if east then (if p ≤ q then some (q - p) else none) else (if q ≤ p then some (p - q) else none)

/-- A break lies on the way of `h` hops from `p` (R290, R293). -/
def brokenWay (bs : List Break) (n : Option Nat) (p h : Nat) (east : Bool) : Bool :=
  bs.any (fun b =>
    match n with
    | some n => if n = 0 then false
        else if east then decide ((b.west + n - p % n) % n < h) else decide ((p + n - b.east % n) % n < h)
    | none => if east then decide (p ≤ b.west ∧ b.west < p + h) else decide (b.east ≤ p ∧ p < b.east + h))

/-- A position of the own ring is reached in a direction: the port is ADJACENT and no break lies on the way. -/
def reachDir (s : State) (q : Nat) (east : Bool) : Option Nat :=
  match s.fab.pos with
  | none => none
  | some p =>
    match ringHops s.fab.n p q east with
    | none => none
    | some 0 => some 0
    | some h =>
      if ((s.fab.ports.getD (if east then 0 else 1) default).adjacent && !brokenWay s.fab.breaks s.fab.n p h east) then
        some h else none

/-- The direction of a single-path frame within the own ring: fewer hops, east when equal, the other one around a break
(R290). `true` is east. -/
def chooseDir (s : State) (q : Nat) : Option Bool :=
  match reachDir s q true, reachDir s q false with
  | some e, some w => some (decide (e ≤ w))
  | some _, none => some true
  | none, some _ => some false
  | none, none => none

/-- Ring and position of an address. -/
def addrRing (a : BitVec 16) : Nat := a.toNat / 1024
def addrPos (a : BitVec 16) : Nat := a.toNat % 1024

/-- The address lies in the own ring (R289: 63 means the receiver's own ring). -/
def ownRing (s : State) (a : BitVec 16) : Bool := addrRing a == 63 || addrRing a == s.fab.ring

/-- A gateway of the own ring is reached. -/
def gateReach (s : State) (g : Option (BitVec 16)) : Bool :=
  match g with
  | none => false
  | some a => ownRing s a && (chooseDir s (addrPos a)).isSome

/-- A destination is reached (R290, R291). -/
def routedTo (a : BitVec 16) (s : State) : Bool :=
  if 1000 ≤ addrPos a then false
  else if ownRing s a then (chooseDir s (addrPos a)).isSome
  else match s.fab.routes.getD (addrRing a) .unreachable with
    | .gateways g h => gateReach s g || gateReach s h
    | .own => (chooseDir s (addrPos a)).isSome
    | .unreachable => false

/-! ### Originating frames (R276, R277, R281 to R283) -/

/-- Change the fabric. -/
def modFab (f : FabSt → FabSt) (s : State) : State := { s with fab := f s.fab }

/-- Change one port. -/
def modPort (p : Nat) (f : FabPort → FabPort) (s : State) : State :=
  modFab (fun x => { x with ports := x.ports.modify p f }) s

/-- One fabric port. -/
def portOf (s : State) (p : Nat) : FabPort := s.fab.ports.getD p default

/-- The address of the neighbour on a ring port, as the positions give it (R287). -/
def neighAddr (s : State) (p : Nat) : BitVec 16 :=
  let n := s.fab.n.getD 1000
  let q := s.fab.pos.getD 1022
  BitVec.ofNat 16 (s.fab.ring * 1024 + (if p = 0 then (q + 1) % n else (q + n - 1) % n))

/-- A port carries frames: its neighbour is ADJACENT (R285). -/
def portUp (s : State) (p : Nat) : Bool := (portOf s p).adjacent && !(portOf s p).looped && !(portOf s p).refused

/-- Count a discard of a class (R278, R279, R283). -/
def countDiscardClass (c : Nat) (s : State) : State :=
  modFab (fun x => { x with discards := x.discards.modify (min c 7) (· + 1) }) s

/-! ### Egress (R270, R276, R278) -/

/-- *Traffic classes*: the link share of a class in per cent (R276). -/
def classShare (c : Nat) : Nat :=
  match c with
  | 0 => 2 | 1 => 25 | 2 => 40 | 3 => 3 | 4 => 2 | 5 => 14 | 6 => 9 | _ => 5

/-- A class has a flit waiting. -/
def flitWaits (e : Egress) (c : Nat) : Bool := !(e.queue.getD c []).isEmpty

/-- The class that the arbiter serves next: in turn, from the class after the one served last, those within their share of
the window; else the lowest that waits (R270). -/
def nextClass (e : Egress) : Option Nat :=
  let within := fun (c : Nat) => flitWaits e c && decide (e.used.getD c 0 * 100 < classShare c * 256)
  match ((List.range 8).map (fun i => (e.served + 1 + i) % 8)).find? within with
  | some c => some c
  | none => (List.range 8).find? (flitWaits e)

/-- One flit time of the window passes; after 256 a new window begins. -/
def windowStep (e : Egress) : Egress :=
  if e.left ≤ 1 then { e with left := 256, used := List.replicate 8 0 } else { e with left := e.left - 1 }

/-- One flit of a class leaves. -/
def flitLeaves (l : List Nat) : List Nat :=
  match l with
  | [] => []
  | n :: rest => if n ≤ 1 then rest else (n - 1) :: rest

/-- One flit time of the link (R270). -/
def sendFlit (e : Egress) : Egress :=
  match nextClass e with
  | none => windowStep e
  | some c => windowStep { e with
      served := c, used := e.used.modify c (· + 1), queue := e.queue.modify c flitLeaves }

/-- So many flit times in which something waits. -/
def sendFlits : Nat → Egress → Egress
  | 0, e => e
  | n + 1, e => sendFlits n (sendFlit e)

/-- So many flit times in which nothing waits. -/
def idleFlits (k : Nat) (e : Egress) : Egress :=
  if k < e.left then { e with left := e.left - k }
  else { e with left := 256 - (k - e.left) % 256, used := List.replicate 8 0 }

/-- Flits that a class of a port has in its buffer, and all classes together. -/
def held (e : Egress) (c : Nat) : Nat := (e.queue.getD c []).sum
def heldAll (e : Egress) : Nat := (e.queue.map List.sum).sum

/-- FABRIC slots, or their equal, that carry the flits of a port: those of the fabric link, or four on each lane of a coupling
port (R261, R262, R269). -/
def linkSlots (s : State) (p : Nat) : Nat :=
  if p = 2 then 4 * laneCount s else ((List.range 64).filter (fabricSlot s p)).length

/-- The time of `k` flits in 2^-16 ns, 5.12 ns over the number of slots each (R269). -/
def flitTime (slots k : Nat) : Nat := k * 33554432 / (100 * slots)

/-- One egress port; change one. -/
def egressOf (s : State) (p : Nat) : Egress := s.fab.egress.getD p default
def modEgress (p : Nat) (f : Egress → Egress) (s : State) : State :=
  modFab (fun x => { x with egress := x.egress.modify p f }) s

/-- The arbiter of a port up to now: flits that waited have left as fast as the link takes them (R269, R270). -/
def egressNow (s : State) (p : Nat) : Egress :=
  let e := egressOf s p
  let n := linkSlots s p
  let k := (s.now - e.at_) * (100 * n) / 33554432
  if k = 0 then e
  else
    let sent := min k (heldAll e)
    { idleFlits (k - sent) (sendFlits sent e) with at_ := e.at_ + flitTime n k }

/-- Flit times until the header flit of the last frame of a class leaves: `n` bounds the search. -/
def headerWait (c : Nat) : Nat → Egress → Nat
  | 0, _ => 0
  | n + 1, e =>
    if nextClass e = some c ∧ (e.queue.getD c []).length ≤ 1 then 0 else headerWait c n (sendFlit e) + 1

/-- The island that a port of the XBAR sends to. -/
def portIsland (p : Nat) : Island := if p = 0 then .lineE else if p = 1 then .lineW else .drop

/-- A frame of `len` flits enters the class buffer of an egress port, and `leave` puts it out with the time its header flit
waits there, in 1/256 ns. Without room for its whole length it is discarded and counted (R278); towards an absent island it is
discarded and counted (R14); where the port has no fabric link, discarded without error (R277). -/
def toPort (p c len : Nat) (up : Bool) (leave : Nat → Out) (s : State) : State :=
  if !isUp s (portIsland p) then countDiscard s (portIsland p)
  else if !up then s
  else
    let e := egressNow s p
    if 4096 < held e c + len then
      countDiscardClass c (modEgress p (fun _ => { e with drops := e.drops.modify c (· + 1) }) s)
    else
      let e1 := { e with queue := e.queue.modify c (· ++ [len]) }
      let wait := headerWait c (heldAll e1) e1
      emitOut (leave (flitTime (max 1 (linkSlots s p)) wait / 256)) (modEgress p (fun _ => e1) s)

/-- What waits at a port whose fabric link is gone is lost (R268). -/
def clearEgress (p : Nat) (s : State) : State :=
  modEgress p (fun e => { Reset.egress with at_ := s.now, drops := e.drops }) s

/-! ### Copies of a frame (R277, R290, R291) -/

/-- This node's address as a gateway towards a ring (R291). -/
def isGateway (s : State) (ring : Nat) : Bool :=
  match s.fab.routes.getD ring .unreachable with
  | .gateways a b => a == some (myAddr s) || b == some (myAddr s)
  | _ => false

/-- A frame for this destination leaves this node over its coupling port as well (R291). -/
def crosses (s : State) (dest : BitVec 16) : Bool :=
  portUp s 2 && (dest == 0xFFFF#16 || (!ownRing s dest && isGateway s (addrRing dest)))

/-- The two copies of a dual-path frame of this node, and one over the coupling port where the destination lies beyond it
(R277, R291). The root of a TIME frame writes the time from its reference instant to the egress of the header flit (R204). -/
def sendDual (h : Hdr) (words : List Word) (s : State) : State :=
  let go := fun (acc : State) (p : Nat) =>
    toPort p h.tc (flitsOf words) (portUp acc p) (fun wait =>
      .frame p (containersOf h.tc (mkFrame { h with westward := p == 1, xring := p == 2 } (if p = 2 then 0 else p)
        acc.fab.ring (if h.tc = 0 then wait else 0) words))) acc
  (if crosses s h.dest then [0, 1, 2] else [0, 1]).foldl go s

/-- The position in the own ring towards which a single-path frame goes (R290, R291): the destination's, or the nearer
gateway's. -/
def singleTarget (s : State) (dest : BitVec 16) : Option Nat :=
  if ownRing s dest then some (addrPos dest)
  else match s.fab.routes.getD (addrRing dest) .unreachable with
    | .own => some (addrPos dest)
    | .unreachable => none
    | .gateways a b =>
      let hops := fun (g : Option (BitVec 16)) => match g with
        | none => none
        | some g => match reachDir s (addrPos g) true, reachDir s (addrPos g) false with
          | some e, some w => some (min e w)
          | some e, none => some e
          | none, w => w
      match hops a, hops b with
      | some x, some y => if x ≤ y then a.map addrPos else b.map addrPos
      | some _, none => a.map addrPos
      | none, some _ => b.map addrPos
      | none, none => none

/-- The port by which a single-path frame leaves this node: east or west around the ring, the coupling port at its gateway,
or none where no direction reaches (R290, R291). -/
def singlePort (s : State) (dest : BitVec 16) : Option Nat :=
  if !ownRing s dest && isGateway s (addrRing dest) && portUp s 2 then some 2
  else match singleTarget s dest with
    | none => none
    | some q => (chooseDir s q).map (fun east => if east then 0 else 1)

/-- A frame of TC5 to TC7: one copy on a single shortest path, or discarded and counted where no direction reaches (R277,
R290). The manual numbers TC0 to TC3 frames only; a free value stands in `SEQ`. -/
def sendSingle (tc kind : Nat) (dest : BitVec 16) (gen : Nat) (last : Bool) (words : List Word) (s : State) : State :=
  match singlePort s dest with
  | none => countDiscardClass tc s
  | some p =>
    toPort p tc (flitsOf words) (portUp s p) (fun _ => .frame p (containersOf tc (mkFrame
      { dest := dest, src := myAddr s, tc := tc, kind := kind, seq := Config.freeNat s.free % 65536, gen := gen, lenM1 := 0,
        hop := 1022, westward := p == 1, link := false, xring := p == 2, last := last } 2 s.fab.ring 0 words)))
      { s with free := s.free + 1 }

/-- A frame to the neighbour on a port: TC4 frames and mirror frames (R285, R287, R299, R316). -/
def sendNext (p tc kind : Nat) (up : Bool) (dest : BitVec 16) (link : Bool) (gen : Nat) (words : List Word) (s : State) : State :=
  toPort p tc (flitsOf words) up (fun _ => .frame p (containersOf tc (mkFrame
    { dest := dest, src := myAddr s, tc := tc, kind := kind, seq := Config.freeNat s.free % 65536, gen := gen, lenM1 := 0,
      hop := 1022, westward := p == 1, link := link, xring := false, last := true } (if p = 2 then 2 else p) s.fab.ring
      0 words)))
    { s with free := s.free + 1 }

/-- Originations of TC0 to TC3 in the millisecond up to an instant (R283). -/
def origCount (s : State) (t : Time) : Nat :=
  (s.fab.orig.filter (fun x => decide (t < x + msU) && decide (x ≤ t))).length

/-- A frame of TC0 to TC3 is admitted: numbered, counted and sent (R281, R283); once the count reaches 600, live record
export frames are extended. -/
def admitFrame (w : WaitFrame) (s : State) : State :=
  let s1 := modFab (fun x => { x with
    seq := (x.seq + 1) % 65536
    orig := s.now :: x.orig.filter (fun o => decide (s.now < o + 2 * msU)) }) s
  let s2 := if 600 ≤ origCount s1 s1.now then modFab (fun x => { x with extended := true }) s1 else s1
  sendDual { dest := w.dest, src := myAddr s, tc := w.cls, kind := w.ftype, seq := s.fab.seq, gen := w.gen, lenM1 := 0,
             hop := 1022, westward := false, link := false, xring := false, last := w.last } w.words s2

/-- The node may originate a frame of TC1 to TC3 now (R282, R283). -/
def mayOriginate (s : State) : Bool := decide (s.fab.holdUntil ≤ s.now) && decide (origCount s s.now < 1000)

/-- Originate a frame of TC0 to TC3 (R277, R282, R283): TC0 frames are admitted unless the node holds after an XBAR reset;
one of TC1 to TC3 waits, in its class's order, while the node may not originate. -/
def originate (w : WaitFrame) (s : State) : State :=
  if !isUp s .xbar then countDiscard s .xbar
  else if w.cls = 0 then (if s.fab.holdUntil ≤ s.now then admitFrame w s else countDiscardClass 0 s)
  else if mayOriginate s && !(s.fab.waiting.any (fun x => x.cls == w.cls)) then admitFrame w s
  else modFab (fun x => { x with waiting := x.waiting ++ [w] }) s

/-- A frame that firmware or the time path originates (R275): its class, kind, destination and payload. -/
def frameFor (cls kind : Nat) (dest : BitVec 16) (gen : Nat) (words : List Word) : WaitFrame :=
  { cls := cls, ftype := kind, dest := dest, gen := gen, last := true, words := words, port := 2, bytes := 0 }

/-- The waiting frame that goes next: lowest class first, oldest within it (R283). -/
def nextWaiting (s : State) : Option WaitFrame :=
  match s.fab.waiting.find? (fun w => w.cls == 1) with
  | some w => some w
  | none => match s.fab.waiting.find? (fun w => w.cls == 2) with
    | some w => some w
    | none => s.fab.waiting.find? (fun w => w.cls == 3)

/-- Admit waiting frames while the node may originate (R283); the port queue of a TC1 frame shrinks. -/
def releaseWaiting : Nat → State → State
  | 0, s => s
  | n + 1, s =>
    if !mayOriginate s then s
    else match nextWaiting s with
      | none => s
      | some w =>
        let s1 := modFab (fun x => { x with waiting := x.waiting.erase w }) s
        let s2 := { s1 with eth := { s1.eth with ports := s1.eth.ports.modify w.port (fun p =>
          { p with queued := p.queued - w.bytes }) } }
        releaseWaiting n (admitFrame w s2)

end Sys2Proof.Machine
end

