-- ==== Sys2Proof/Machine/Ops.lean ====
section
/-! DEFINITION. The named operations that the meanings share: interrupts, events, the journal, and the one way in which a
mailbox command is checked, executed and answered (R334 to R343, R352 to R358). -/

namespace Sys2Proof.Machine

/-! ### Outputs, MSI-X, interrupts (R329, R330) -/

/-- Change HOSTIF. -/
def modHost (f : HostSt → HostSt) (s : State) : State := { s with host := f s.host }

/-- Send an MSI-X vector, or leave it pending under the PCIe masks (R329) or while the PCIe link is down. -/
def msix (v : Nat) (s : State) : State :=
  if !s.host.linkUp || s.host.msixFnMask || s.host.msixMask.getLsbD v then
    modHost (fun h => { h with msixPending := setBit h.msixPending v true }) s
  else emitOut (.msix v) s

/-- Set a bit of `INT_STATUS`. -/
def setInt (k : Nat) (s : State) : State :=
  modHost (fun h => { h with intStatus := setBit h.intStatus k true }) s

/-- Raise a vector that is marked "enabled bit" (R329): only while bit `k` of `INT_ENABLE` is 1. -/
def msixIf (k v : Nat) (s : State) : State := if s.host.intEnable.getLsbD k then msix v s else s

/-- Set a bit of `NMI_CAUSE`; vector 0 when the bit becomes set (R329, R330). -/
def raiseNmi (k : Nat) (s : State) : State :=
  if s.host.nmiCause.getLsbD k then s
  else msix 0 (modHost (fun h => { h with nmiCause := setBit h.nmiCause k true }) s)

/-- IRQ_N is driven low (R330). -/
def irqLow (s : State) : Bool := s.host.irqPinEn && (s.host.intStatus &&& s.host.intEnable != 0)

/-- NMI_N is driven low (R330). -/
def nmiLow (s : State) : Bool := s.host.nmiCause != 0

/-! ### The event queue (R340 to R343) -/

/-- Entries of the event queue (R331: a size out of 6 to 16 is treated as 6). -/
def evqSize (e : EvqSt) : Nat := if 6 ≤ e.log2.toNat ∧ e.log2.toNat ≤ 16 then 2 ^ e.log2.toNat else 64

/-- Free entries: the queue is full when `EVQ_TAIL` + 1 = `EVQ_HEAD` modulo the size (R342). -/
def evqFree (e : EvqSt) : Nat := (e.head % evqSize e + evqSize e - 1 - e.tail % evqSize e) % evqSize e

/-- Word 0 of an event without `PHASE` and `LOST` (R340). -/
def eventWord0 (code argB arg nExtra : Nat) (tb : Nat) : Word :=
  mkWord [(0, 16, code), (18, 3, nExtra), (24, 8, argB), (32, 32, arg), (64, 32, tb / secU),
    (96, 30, (tb % secU) / nsU)]

/-- Host address of an entry of the event queue. -/
def evqAddr (e : EvqSt) (i : Nat) : Nat := e.baseHi.toNat * 2 ^ 32 + e.baseLo.toNat + 16 * (i % evqSize e)

/-- Write one event of the device's buffer: the extra words first, word 0 last (R340), then advance `EVQ_TAIL`, turning
`PHASE` when the ring wraps. -/
def writeEvent (e : EvqSt) (ws : List Word) (t : Time) : EvqSt × List Out :=
  match ws with
  | [] => (e, [])
  | w0 :: xs =>
    let w := w0 ||| mkWord [(16, 1, b2n e.phase), (17, 1, b2n e.lostDue)]
    let extra := (List.range xs.length).map (fun i => Out.hostWrite (evqAddr e (e.tail + 1 + i)) (xs.getD i 0))
    let next := e.tail % evqSize e + ws.length
    ({ e with
        tail := next % evqSize e
        phase := if evqSize e ≤ next then !e.phase else e.phase
        lostDue := false
        unsignalled := e.unsignalled + 1
        firstUnsignalled := some (e.firstUnsignalled.getD t) },
      extra ++ [Out.hostWrite (evqAddr e e.tail) w])

/-- Write held events in order while the queue has room (R342). -/
def flushEvents (t : Time) : List (List Word) → EvqSt → EvqSt × List Out
  | [], e => ({ e with held := [] }, [])
  | ws :: rest, e =>
    if e.enable && decide (ws.length ≤ evqFree e) then
      let (e1, o1) := writeEvent e ws t
      let (e2, o2) := flushEvents t rest e1
      (e2, o1 ++ o2)
    else ({ e with held := ws :: rest }, [])

/-- Vector 33 once `EVQ_MOD_COUNT` events are unsignalled (R342). -/
def evqSignal (s : State) : State :=
  if max 1 s.host.evq.modCount ≤ s.host.evq.unsignalled then
    msixIf 16 33
      (modHost (fun h => { h with evq := { h.evq with unsignalled := 0, firstUnsignalled := none } }) s)
  else s

/-- Write what can be written of the held events, set `EVQ` of `INT_STATUS` when any was, and signal; nothing is written while
the PCIe link is down. -/
def evqDrain (s : State) : State :=
  if !s.host.linkUp then s
  else
    let r := flushEvents s.now s.host.evq.held s.host.evq
    let s1 := { modHost (fun h => { h with evq := r.1 }) s with out := s.out ++ r.2 }
    if r.2.isEmpty then s1 else evqSignal (setInt 16 s1)

/-- Words held. -/
def heldWords (e : EvqSt) : Nat := (e.held.map List.length).sum

/-- Raise an event (R340 to R343): it enters the device's buffer, or is discarded whole and counted when 256 words are
held; what the queue has room for is written. `tb` is the event instant. -/
def emit (code argB arg : Nat) (extra : List Word) (tb : Nat) (s : State) : State :=
  let ws := eventWord0 code argB arg extra.length tb :: extra
  if !isUp s .hostif then countDiscard s .hostif
  else if heldWords s.host.evq + ws.length ≤ 256 then
    evqDrain (modHost (fun h => { h with evq := { h.evq with held := h.evq.held ++ [ws] } }) s)
  else
    modHost (fun h => { h with evq := { h.evq with lost := satAdd 32 h.evq.lost 1, lostDue := true } }) s

/-- Raise an event now. -/
def emitNow (code argB arg : Nat) (extra : List Word) (s : State) : State := emit code argB arg extra (tbNow s) s

/-! ### Status codes (R333) -/

abbrev stOk : BitVec 16 := 0x0000#16
abbrev stAccepted : BitVec 16 := 0x0001#16
abbrev stPartial : BitVec 16 := 0x0002#16
abbrev stBusy : BitVec 16 := 0x0010#16
abbrev stNotStopped : BitVec 16 := 0x0011#16
abbrev stTimePast : BitVec 16 := 0x0012#16
abbrev stCrossfadeActive : BitVec 16 := 0x0013#16
abbrev stDenied : BitVec 16 := 0x0020#16
abbrev stBadParam : BitVec 16 := 0x0021#16
abbrev stBadLength : BitVec 16 := 0x0022#16
abbrev stUnknownOpcode : BitVec 16 := 0x0023#16
abbrev stGenMismatch : BitVec 16 := 0x0030#16
abbrev stNotStaged : BitVec 16 := 0x0031#16
abbrev stUncorrectable : BitVec 16 := 0x0040#16
abbrev stResourceFailed : BitVec 16 := 0x0041#16
abbrev stThermalLimit : BitVec 16 := 0x0050#16
abbrev stSupplyLimit : BitVec 16 := 0x0051#16
abbrev stUnreachable : BitVec 16 := 0x0060#16
abbrev stTimeout : BitVec 16 := 0x0061#16
abbrev stRestarting : BitVec 16 := 0x0070#16

/-! ### The protection map (R355, R371, R467, R468, R472) -/

/-- Group codes in ascending order; a group's position is its number in the protection map (R467). -/
def groupCodes : List Nat :=
  [0x01, 0x02, 0x10, 0x11, 0x12, 0x13, 0x14, 0x15, 0x20, 0x21, 0x30, 0x31, 0x32, 0x33, 0x40, 0x41, 0x50, 0x51, 0x52,
    0x53, 0x54, 0x55, 0x56, 0x5F]

/-- Position of a group in the protection map. -/
def groupIx (code : Nat) : Nat := groupCodes.findIdx (· == code)

/-- Agent number (R353, R467). -/
def agentIx : Agent → Nat
  | .host => 0 | .spi => 1 | .fabric => 2 | .debug => 3

/-- The default map: FUSE is denied to FABRIC and DEBUG, DIAG to FABRIC (R355, R371). -/
def defaultAllows (group : Nat) (a : Agent) : Bool :=
  match a with
  | .fabric => group != 0x55 && group != 0x5F
  | .debug => group != 0x55
  | _ => true

/-- Whether the protection map allows an opcode to an agent (R467, R468, R472). -/
def allowed (s : State) (op : Nat) (a : Agent) : Bool :=
  let group := op / 256
  if (op == 0x0101 || op == 0x0102) && (a == .host || a == .spi) then true
  else if a == .debug && s.fuseShadow.debugLock.getLsbD 1 then false
  else defaultAllows group a && !(s.fuseShadow.protDeny.getLsbD (4 * groupIx group + agentIx a))

/-! ### The journal (R353) -/

/-- The mailbox that a journal entry names: 0 for FABRIC and DEBUG (R353). -/
def journalMailbox (rq : Request) : Nat :=
  match rq.agent with
  | .host => rq.mailbox.val
  | .spi => rq.mailbox.val
  | _ => 0

/-- A request and a journal entry are of the same command (R337). -/
def sameCommand (a : Agent) (src : BitVec 16) (seq : BitVec 32) (e : JEntry) : Bool :=
  e.agent == a && e.seq == seq && (a != .fabric || e.srcNode == src)

/-- The journal entry of a command. -/
def journalFind (s : State) (a : Agent) (src : BitVec 16) (seq : BitVec 32) : Option JEntry :=
  s.nv.journal.find? (sameCommand a src seq)

/-- Microseconds from arrival to now, saturating (R353). -/
def durationUs (s : State) (arrival : Time) : Nat := min ((s.now - arrival) / usU) (2 ^ 32 - 1)

/-- Journal a command: newest first, the last 1,024 (R353). -/
def journalAdd (e : JEntry) (s : State) : State :=
  { s with nv := { s.nv with journal := (e :: s.nv.journal).take 1024, writesSince := s.nv.writesSince + 1 } }

/-- Change the journal entry of a command. -/
def journalMod (a : Agent) (src : BitVec 16) (seq : BitVec 32) (f : JEntry → JEntry) (s : State) : State :=
  { s with nv := { s.nv with journal := s.nv.journal.map (fun e => if sameCommand a src seq e then f e else e),
                             writesSince := s.nv.writesSince + 1 } }

/-- Journal words (R353 *Journal entry*). -/
def jstateCode : JState → Nat
  | .notFound => 0 | .queued => 1 | .running => 2 | .done => 3 | .partially => 4 | .abandoned => 5

/-- Words 0 and 1 of a journal entry (R353). -/
def journalWords (e : JEntry) : List Word :=
  [mkWord [(0, 32, e.seq.toNat), (32, 16, e.opcode.toNat), (48, 2, agentIx e.agent), (50, 4, e.mailbox),
      (64, 16, e.srcNode.toNat), (80, 8, e.steps), (88, 8, e.stepsDone), (96, 3, jstateCode e.state),
      (99, 16, e.status.toNat)],
    mkWord [(0, 96, t96 e.arrival), (96, 32, e.durationUs)]]

/-! ### Answering (R334, R337, R338) -/

/-- Change one mailbox. -/
def modMbox (n : Nat) (f : Mailbox → Mailbox) (s : State) : State :=
  modHost (fun h => { h with mbox := h.mbox.modify n f }) s

/-- Response words over the payload; words beyond `RSP_LEN` keep what they held (R334). -/
def overlay (old new : List Word) : List Word := new ++ old.drop new.length

/-- The response of a HOST or SPI request: payload, `RSP_LEN`, `STATUS`, `SEQ`, then `DONE`, `MBX_DONE` and the vector
(R334 step 4). -/
def mboxDone (n : Nat) (seq : BitVec 32) (noMsix : Bool) (status : BitVec 16) (words : List Word) (dup : Bool)
    (s : State) : State :=
  let s1 := setInt n (modMbox n (fun m => { m with
    payload := overlay m.payload words
    rspLen := words.length
    status := status
    seq := seq
    done := true
    pending := false
    duplicate := dup }) s)
  if noMsix then s1 else msixIf n (1 + n) s1

/-- The mailbox header as one word (R331): `SEQ`, `OPCODE`, `LEN`, `STATUS`, `RSP_LEN`, `DONE`, `DUPLICATE`. It is word 1 of
a MGMT_REQ or MGMT_RSP frame, before the payload (R339). -/
def mboxHeader (seq : BitVec 32) (op len : Nat) (status : BitVec 16) (rspLen : Nat) (done dup : Bool) : Word :=
  mkWord [(0, 32, seq.toNat), (32, 16, op), (48, 16, len), (96, 16, status.toNat), (112, 8, rspLen), (120, 1, b2n done),
    (122, 1, b2n dup)]

/-- Answer a request by the way it came: its mailbox, a MGMT_RSP frame for FABRIC (R339), mailbox 0's form for DEBUG. -/
def answer (rq : Request) (seq : BitVec 32) (status : BitVec 16) (words : List Word) (dup : Bool) (s : State) : State :=
  match rq.agent with
  | .fabric => originate (frameFor 3 3 rq.srcNode s.cfg.activeGen (mboxHeader seq 0 0 status words.length true dup :: words)) s
  | .debug => modMbox 0 (fun m => { m with
      payload := overlay m.payload words, rspLen := words.length, status := status, seq := seq, duplicate := dup }) s
  | _ => mboxDone rq.mailbox.val seq rq.noMsix status words dup s

/-- The completion event of a command, for the HOST agent only (R338, R340). -/
def completionEvent (a : Agent) (op : Nat) (seq : BitVec 32) (status : BitVec 16) (s : State) : State :=
  if a == .host then emitNow (op / 256 * 256) (status.toNat % 256) seq.toNat [] s else s

/-- What a command's own part answers. -/
structure Reply where
  status : BitVec 16
  words : List Word
  st : State
  steps : Nat
  done : Nat
  /-- A long command that has started: it holds these resources until it ends (R338, R352). -/
  long : Bool
  holds : List Resource
  /-- The command is answered only when it ends, though it is no long command (R334). -/
  late : Bool

/-- A refusal by an own check: nothing changes (R335, R358). -/
def deny (status : BitVec 16) (s : State) : Reply :=
  { status := status, words := [], st := s, steps := 1, done := 0, long := false, holds := [], late := false }

/-- `OK` at once, one step done. -/
def okay (words : List Word) (s : State) : Reply :=
  { status := stOk, words := words, st := s, steps := 1, done := 1, long := false, holds := [], late := false }

/-- `OK` at once, with several steps done. -/
def okaySteps (n : Nat) (words : List Word) (s : State) : Reply :=
  { status := stOk, words := words, st := s, steps := n, done := n, long := false, holds := [], late := false }

/-- A long command that has started (R338). -/
def accepted (steps : Nat) (holds : List Resource) (words : List Word) (s : State) : Reply :=
  { status := stAccepted, words := words, st := s, steps := steps, done := 0, long := true, holds := holds,
    late := false }

/-- A command that is answered at its end and has begun (R334, R352): the journal shows it running, and a duplicate of it
reads `BUSY`. -/
def begun (steps : Nat) (holds : List Resource) (s : State) : Reply :=
  { status := stBusy, words := [], st := s, steps := steps, done := 0, long := true, holds := holds, late := true }

/-- The outcome as the journal holds it (R353, R358). -/
def outcomeState (r : Reply) : JState :=
  if r.long then .running
  else if r.done = 0 then .abandoned
  else if r.done < r.steps then .partially
  else .done

/-- The entry of a command as it is taken up (R353). -/
def entryOf (s : State) (op : Nat) (rq : Request) : JEntry :=
  { seq := rq.seq, opcode := BitVec.ofNat 16 op, agent := rq.agent, mailbox := journalMailbox rq, srcNode := rq.srcNode,
    steps := 1, stepsDone := 0, state := .queued, status := 0, arrival := tbAt s rq.arrival, durationUs := 0,
    arrivalLocal := rq.arrival }

/-- Journal the outcome, note a long command that runs on, answer, and raise the completion event that
`EVENT_ON_DONE` asks for (R338, R353). -/
def settle (op : Nat) (rq : Request) (r : Reply) : State :=
  let e := { entryOf r.st op rq with
    steps := r.steps, stepsDone := r.done, state := outcomeState r, status := r.status,
    durationUs := durationUs r.st rq.arrival }
  let s1 := journalAdd e r.st
  let s2 := if r.long then
      { s1 with mgmt := { s1.mgmt with running := s1.mgmt.running ++
        [{ agent := rq.agent, srcNode := rq.srcNode, seq := rq.seq, opcode := BitVec.ofNat 16 op, steps := r.steps,
           holds := r.holds, ask := if r.late then some rq else none, mute := false }] } }
    else s1
  if r.late then s2 else
  let s3 := answer rq rq.seq r.status r.words false s2
  if rq.eventOnDone && !r.long then completionEvent rq.agent op rq.seq r.status s3 else s3

/-- A request refused by a check of R335 before its own ones. -/
def refuse (op : Nat) (rq : Request) (status : BitVec 16) (s : State) : State := settle op rq (deny status s)

/-- A duplicate: answered with the recorded outcome, not executed again, not journalled again (R337). -/
def answerDuplicate (rq : Request) (e : JEntry) (s : State) : State := answer rq rq.seq e.status [] true s

/-- Write the request into its mailbox, as the host does before the doorbell (R334 step 1); FABRIC and DEBUG requests
have no mailbox (R353). -/
def loadRequest (op : Nat) (rq : Request) (s : State) : State :=
  match rq.agent with
  | .host => modMbox rq.mailbox.val (fun m => { m with
      seq := rq.seq, opcode := BitVec.ofNat 16 op, len := rq.len, eventOnDone := rq.eventOnDone, noMsix := rq.noMsix,
      remote := rq.remote.isSome, dest := rq.remote.getD m.dest, payload := overlay m.payload rq.payload,
      bell := rq.bell, arrival := rq.arrival }) s
  | .spi => modMbox 15 (fun m => { m with
      seq := rq.seq, opcode := BitVec.ofNat 16 op, len := rq.len, eventOnDone := rq.eventOnDone, noMsix := rq.noMsix,
      remote := rq.remote.isSome, dest := rq.remote.getD m.dest, payload := overlay m.payload rq.payload,
      bell := rq.bell, arrival := rq.arrival }) s
  | _ => s

/-- A management pair serves commands and the request's way in exists (R23, R334, R470). -/
def serves (s : State) (rq : Request) : Bool :=
  (s.mgmt.run || s.mgmt.recovery) &&
    (match rq.agent with
     | .host => isUp s .hostif
     | .spi => isUp s .hostif && rq.mailbox.val == 15
     | .fabric => isUp s .xbar && s.mgmt.run
     | .debug => s.mgmt.run)

/-- Opcodes that the boot code serves in recovery (R470). -/
def bootServes (op : Nat) : Bool := op == 0x0101 || op == 0x0102 || op == 0x0105 || op == 0x5501

/-- A request that waits for a sag warning to clear (R353, R406). -/
def park (op : Nat) (rq : Request) (s : State) : State :=
  let same := fun (w : Waiting) => w.rq.agent == rq.agent && w.rq.seq == rq.seq && w.rq.srcNode == rq.srcNode
  { s with mgmt := { s.mgmt with
      waiting := if s.mgmt.waiting.any same then s.mgmt.waiting
        else s.mgmt.waiting ++ [{ opcode := BitVec.ofNat 16 op, rq := rq }] } }

/-- A request taken up is no longer waiting, neither for a warning to clear nor in the FABRIC queue (R352). -/
def unpark (rq : Request) (s : State) : State :=
  let keep := fun (w : Waiting) => !(w.rq.agent == rq.agent && w.rq.seq == rq.seq && w.rq.srcNode == rq.srcNode)
  { s with mgmt := { s.mgmt with waiting := s.mgmt.waiting.filter keep, fabricQueue := s.mgmt.fabricQueue.filter keep } }

/-- The request goes to another node as a MGMT_REQ (R339). `routed` says whether a route exists (R290). -/
def sendRemote (op : Nat) (rq : Request) (dest : BitVec 16) (routed : Bool) (s : State) : State :=
  if routed then
    let s1 := journalAdd { entryOf s op rq with state := .running, status := stAccepted } s
    originate (frameFor 3 2 dest s.cfg.activeGen (mboxHeader rq.seq op rq.len 0 0 false false :: rq.payload))
      { s1 with mgmt := { s1.mgmt with remotes := s1.mgmt.remotes ++
        [{ rq := rq, opcode := BitVec.ofNat 16 op, dest := dest, sentAt := s1.now }] } }
  else refuse op rq stUnreachable s

/-- How a command is checked, executed and answered, in the order of R335. `known` is false for an opcode that does not
exist, `lenOk` judges `LEN` for the opcode, `ownSupply` says that the command judges a sag warning itself (R358, R406),
`routed` whether a route to `DEST` exists, and `own` is the command's own part. -/
def serve (op : Nat) (known : Bool) (lenOk : Nat → Bool) (ownSupply : Bool) (routed : BitVec 16 → State → Bool)
    (own : State → Reply) (t : Time) (rq : Request) (s0 : State) : State :=
  let s := tick t s0
  if !serves s rq then s
  else
    let s := unpark rq (loadRequest op rq s)
    if !rq.readable then answer rq rq.seq stUncorrectable [] false s
    else if rq.seq = 0 ∨ rq.bell ≠ rq.seq then answer rq rq.bell stBadParam [] false s
    else match journalFind s rq.agent rq.srcNode rq.seq with
      | some e => answerDuplicate rq e s
      | none =>
        if 255 < rq.len then refuse op rq stBadLength s
        else match rq.remote with
          | some dest => sendRemote op rq dest (routed dest s) s
          | none =>
            if !known || (s.mgmt.recovery && !bootServes op) then refuse op rq stUnknownOpcode s
            else if !allowed s op rq.agent then refuse op rq stDenied s
            else if !lenOk rq.len then refuse op rq stBadLength s
            else if s.pwr.sagWarn && !ownSupply then park op rq s
            else settle op rq (own s)

/-- A resource is held by a long command that still runs (R352). -/
def isHeld (s : State) (r : Resource) : Bool := s.mgmt.running.any (fun x => x.holds.contains r)

/-- A long command ends: the journal gets its outcome, its resources are free, and a HOST command gets its completion
event; a command that answers at its end is answered now (R338, R353). -/
def endWith (a : Agent) (src : BitVec 16) (seq : BitVec 32) (status : BitVec 16) (stepsDone : Nat) (words : List Word)
    (s : State) : State :=
  match s.mgmt.running.find? (fun x => x.agent == a && x.seq == seq && (a != .fabric || x.srcNode == src)) with
  | none => s
  | some r =>
    let s1 := { s with mgmt := { s.mgmt with running := s.mgmt.running.filter (fun x => x != r) } }
    let k := min stepsDone r.steps
    let js : JState := if k = 0 then .abandoned else if k < r.steps then .partially else .done
    let s2 := journalMod a src seq (fun e => { e with
      stepsDone := k, state := js, status := status, durationUs := durationUs s1 e.arrivalLocal }) s1
    match r.ask with
    | none => completionEvent a r.opcode.toNat seq status s2
    | some rq =>
      let s3 := if r.mute then s2 else answer rq seq status words false s2
      if rq.eventOnDone then completionEvent a r.opcode.toNat seq status s3 else s3

/-- A command ends without response words. -/
def endLong (a : Agent) (src : BitVec 16) (seq : BitVec 32) (status : BitVec 16) (stepsDone : Nat) (s : State) : State :=
  endWith a src seq status stepsDone [] s

/-- The long command that holds a resource. -/
def holderOf (s : State) (r : Resource) : Option Running := s.mgmt.running.find? (fun x => x.holds.contains r)

/-- The command that holds a resource ends, with the words of its response. -/
def endHolderWith (res : Resource) (status : BitVec 16) (stepsDone : Nat) (words : List Word) (s : State) : State :=
  match holderOf s res with
  | none => s
  | some r => endWith r.agent r.srcNode r.seq status stepsDone words s

/-- The long command that holds a resource ends. -/
def endHolder (res : Resource) (status : BitVec 16) (stepsDone : Nat) (s : State) : State :=
  endHolderWith res status stepsDone [] s

/-! ### Free values -/

/-- Draw the next free word; the draw's number is plain data of the state. -/
def drawWord (s : State) : Word × State := (Config.freeWord s.free, { s with free := s.free + 1 })

/-- Draw the next free Bool. -/
def drawBool (s : State) : Bool × State := (Config.freeBool s.free, { s with free := s.free + 1 })

/-- Draw the next free signed number. -/
def drawInt (s : State) : Int × State := (Config.freeInt s.free, { s with free := s.free + 1 })

/-- Draw the next free number. -/
def drawNat (s : State) : Nat × State := (Config.freeNat s.free, { s with free := s.free + 1 })

end Sys2Proof.Machine
end

