-- ==== Sys2Proof/Machine/Operands.lean ====
section
/-! DEFINITION. Operand forms: the images and settings that payload words carry, read from their bits and checked as the
rules of spec/ say, and the same settings written back as words. -/

namespace Sys2Proof.Machine

/-! ### Filter modes and timing (R118, R121, R123, R127) -/

/-- A mode code that exists (R123). -/
def modeValid (m : Nat) : Bool := m ≤ 4 || (8 ≤ m && m ≤ 11) || m == 14 || m == 15

/-- A mode that a stroke may name (R146). -/
def strokeModeValid (m : Nat) : Bool := m ≤ 4 || (8 ≤ m && m ≤ 11)

/-- A single-cycle-settling mode (R121). -/
def isScs (m : Nat) : Bool := 8 ≤ m && m ≤ 11

/-- Cycles per conversion of a single-cycle-settling mode (R121). -/
def scsN (m : Nat) : Nat :=
  match m with
  | 8 => 819200 | 9 => 81920 | 10 => 8192 | _ => 2048

/-- First-stage decimation of a bank image (R125). -/
def bankD1 (b : Bank) : Nat := 16 * 2 ^ b.d1Code

/-- Cycles per output P of a mode (R118, R121, R126); `b` is the bank that a bank mode names. -/
def cyclesPer (m : Nat) (b : Option Bank) : Nat :=
  match m with
  | 0 => 64 | 1 => 256 | 2 => 2048 | 3 => 20480 | 4 => 409600
  | _ => if isScs m then scsN m else match b with
    | some b => bankD1 b * b.d2
    | none => 64

/-- Twice the group delay in half cycles, that is, the window span L - 1 in cycles (R118, R127). A bank whose taps are
even has an odd span; `DECLARED_DELAY` / 256 x D1 is (taps - 1) x D1 / 2 cycles. -/
def spanOf (m : Nat) (b : Option Bank) : Nat :=
  match m with
  | 0 => 4139 | 1 => 16571 | 2 => 99067 | 3 => 396283 | 4 => 3170299
  | _ => if isScs m then scsN m else match b with
    | some b => 5 * (bankD1 b - 1) + (b.taps - 1) * bankD1 b
    | none => 0

/-- ceil(S x 20.48) modulator cycles, at least 2 (R38). -/
def settleCycles (us : Nat) : Nat := max 2 ((us * 2048 + 99) / 100)

/-! ### Coefficient banks (R125, R126) -/

/-- Coefficient `i` of a bank payload whose word 0 is `ws`'s first (R125). -/
def bankCoef (ws : List Word) (i : Nat) : Int := sfld (ws.getD (1 + i / 5) 0) (24 * (i % 5)) 24

/-- A bank from its image words. -/
def bankOf (ws : List Word) : Bank :=
  let w0 := ws.getD 0 0
  let taps := fld w0 16 9 + 1
  { d1Code := fld w0 0 4, d2 := fld w0 8 8, taps := taps, declaredDelay := fld w0 32 24,
    tag := BitVec.ofNat 32 (fld w0 64 32), coefs := (List.range taps).map (bankCoef ws) }

/-- The checks of R126 in their order: `none` when the image is good. -/
def bankCheck (ws : List Word) : Option (BitVec 16) :=
  let w0 := ws.getD 0 0
  let taps := fld w0 16 9 + 1
  let b := bankOf ws
  if 384 < taps then some stBadParam
  else if ws.length < 1 + (taps + 4) / 5 then some stBadLength
  else
    let cyc := bankD1 b * b.d2
    let sum := b.coefs.foldl (· + ·) 0
    let symmetric := b.coefs == b.coefs.reverse
    let restZero := (List.range (5 * (ws.length - 1) - taps)).all (fun i => bankCoef ws (taps + i) == 0)
    let reserved := onlyBits w0 [(0, 4), (8, 8), (16, 9), (32, 24), (64, 32)] &&
      (ws.drop 1).all (fun w => fld w 120 8 == 0)
    if b.d1Code ≤ 9 && 1 ≤ b.d2 && 64 ≤ cyc && cyc ≤ 409600 && symmetric && decide (8388592 ≤ sum) &&
        decide (sum ≤ 8388624) && b.declaredDelay == (taps - 1) * 128 && restZero && reserved then none
    else some stBadParam

/-! ### Coefficient sets (R165, R166) -/

/-- A coefficient set from its two words. -/
def coefOf (w0 w1 : Word) : CoefSet :=
  { hgOffset := sfld w0 0 32, hgGain := sfld w0 32 32, lgOffset := sfld w0 64 32, lgGain := sfld w0 96 32,
    dfe := fld w1 0 24, calTemp := sfld w1 32 16, gainSlope := sfld w1 48 16, dfeSlope := sfld w1 64 16,
    ratioGain := sfld w1 80 16, calCount := fld w1 96 16, source := fld w1 112 8 }

/-- The two words of a coefficient set. -/
def coefWords (c : CoefSet) : List Word :=
  [mkWord [(0, 32, asField c.hgOffset 32), (32, 32, asField c.hgGain 32), (64, 32, asField c.lgOffset 32),
      (96, 32, asField c.lgGain 32)],
    mkWord [(0, 24, c.dfe), (32, 16, asField c.calTemp 16), (48, 16, asField c.gainSlope 16),
      (64, 16, asField c.dfeSlope 16), (80, 16, asField c.ratioGain 16), (96, 16, c.calCount), (112, 8, c.source)]]

/-! ### Weave images (R146, R147) -/

/-- A stroke from its word. -/
def strokeOf (w : Word) : Stroke :=
  { pos := fld w 0 3, burnCheck := fbit w 3, gain := fld w 4 4, mode := fld w 8 4, settleUs := fld w 16 16,
    keep := fld w 32 16, exc := fld w 48 2, excMv := fld w 52 12 }

/-- A weave from its words. -/
def weaveOf (ws : List Word) : WeaveImg :=
  let h := ws.getD 0 0
  { endAction := fld h 8 2, resync := fbit h 10, checkCurrent := fld h 11 2, rounds := fld h 16 32,
    periodUs := fld h 48 32, tag := BitVec.ofNat 32 (fld h 96 32),
    strokes := (List.range (fld h 0 7)).map (fun i => strokeOf (ws.getD (1 + i) 0)) }

/-- Conversions of a stroke: `KEEP`, at least 4 in a burn-out check (R149). -/
def convOf (k : Stroke) : Nat := if k.burnCheck then max k.keep 4 else k.keep

/-- Duration of a stroke in modulator cycles (R149). -/
def strokeCycles (k : Stroke) : Nat :=
  settleCycles k.settleUs +
    (if isScs k.mode then convOf k * scsN k.mode
     else spanOf k.mode none + 1 + (convOf k - 1) * cyclesPer k.mode none)

/-- Round duration in cycles (R149). -/
def roundCycles (w : WeaveImg) : Nat := (w.strokes.map strokeCycles).sum

/-- A stroke obeys the excitation rules: a state other than "unchanged" only for a channel that may command its generator
(R83), the amplitude in range for DC+ and DC-, and 0 otherwise (R147). -/
def strokeExcOk (mayCommand : Bool) (k : Stroke) : Bool :=
  (k.exc == 0 || mayCommand) &&
    (if k.exc == 2 || k.exc == 3 then decide (500 ≤ k.excMv) && decide (k.excMv ≤ 2500) else k.excMv == 0)

/-- The image checks of *Weave load checks* after the first row (R147), for a channel that may or may not command its
generator and has the burn-out current given: `none` when the image loads. -/
def weaveCheck (ws : List Word) (mayCommand : Bool) (burnout : Nat) : Option (BitVec 16) :=
  let h := ws.getD 0 0
  let n := fld h 0 7
  let w := weaveOf ws
  if ws.length < 1 + n then some stBadLength
  else if n = 0 ∨ 64 < n ∨ fld h 8 2 = 3 ∨
      !onlyBits h [(0, 7), (8, 2), (10, 1), (11, 2), (16, 32), (48, 32), (96, 32)] ∨
      !((List.range n).all (fun i => onlyBits (ws.getD (1 + i) 0)
        [(0, 3), (3, 1), (4, 4), (8, 4), (16, 16), (32, 16), (48, 2), (52, 12)])) ∨
      !((ws.drop (1 + n)).all (· == 0)) then some stBadParam
  else if !(w.strokes.all (fun k => decide (k.gain ≤ 8) && strokeModeValid k.mode && k.keep != 0)) then
    some stBadParam
  else if !(w.strokes.all (strokeExcOk mayCommand)) then some stBadParam
  else if w.checkCurrent = 0 && burnout == 0 && w.strokes.any (·.burnCheck) then some stBadParam
  else if w.periodUs ≠ 0 ∧ w.periodUs * usU < roundCycles w * cycU then some stBadParam
  else none

/-! ### Action slot images (R228, R229) -/

/-- Round a width in 1/256 ns to the nearest multiple of 10 (39.0625 ps), ties up (R228). -/
def roundWidth (w : Nat) : Nat := (w + 5) / 10 * 10

/-- The kind and parameters of a slot image, when they are in range and no unused bit of word 2 is set (R228, R229). -/
def slotKindOf (kind : Nat) (p : Word) : Option SlotKind :=
  match kind with
  | 0 =>
    let w := fld p 8 38
    if onlyBits p [(0, 4), (8, 38)] && decide (2048 ≤ w) && decide (w ≤ 256000000000) then
      some (.tevPulse (fld p 0 4) (roundWidth w)) else none
  | 1 => if onlyBits p [(0, 8)] then some (.sync (BitVec.ofNat 8 (fld p 0 8))) else none
  | 2 => if onlyBits p [(0, 64)] then some (.weaveStart (BitVec.ofNat 64 (fld p 0 64))) else none
  | 3 =>
    if onlyBits p [(0, 64), (64, 2)] && decide (fld p 64 2 ≤ 2) then
      some (.weaveStop (BitVec.ofNat 64 (fld p 0 64)) (fld p 64 2)) else none
  | 5 =>
    if onlyBits p [(0, 2), (8, 24)] && decide (1 ≤ fld p 8 24) then
      some (.blankWindow (fld p 0 2) (fld p 8 24)) else none
  | 6 => if onlyBits p [(0, 16)] && decide (fld p 0 16 < 1024) then some (.basinFreeze (fld p 0 16)) else none
  | 7 => if onlyBits p [(0, 64)] then some (.hostEvent (BitVec.ofNat 64 (fld p 0 64))) else none
  | _ => none

/-- A slot image in form, apart from R199: the armed slot it describes (R229). -/
def slotOf (w0 w1 w2 : Word) (a : Agent) : Option SlotArm :=
  let period := fld w1 0 56
  let count := fld w1 56 32
  let late := fld w1 92 2
  match slotKindOf (fld w1 88 4) w2 with
  | none => none
  | some k =>
    let periodOk := period == 0 || (decide (256000 ≤ period) && decide (period ≤ 22118400000000000))
    let pulseOk := match k with
      | .tevPulse _ _ => period == 0 || decide (fld w2 8 38 + 2048 < period)
      | _ => true
    if t96Form w0 && periodOk && pulseOk && !(late == 3 && period == 0) && !(count != 0 && period == 0) &&
        fld w1 95 1 == 0 then
      some { target := ofT96 w0, period := period, count := count, kind := k, late := late,
             reportEach := fbit w1 94, tag := BitVec.ofNat 32 (fld w1 96 32), agent := a, next := 0, fired := 0,
             skipped := 0, skippedSinceEvent := 0, lastIndex := none, lateAt := none }
    else none

end Sys2Proof.Machine
end

