-- ==== Sys2Proof/Machine/Nv.lean ====
section
/-! DEFINITION. Two-phase records of the NV store (R439 to R442): header word, payload, commit word with its CRC-32C. -/

namespace Sys2Proof.Machine

/-- The header word of a record (R439). -/
def nvHeader (region seq len offset : Nat) : Word :=
  mkWord [(0, 16, (Config.nvType region).toNat), (32, 32, seq), (64, 25, len), (96, 32, offset)]

/-- `MARK` of a commit word (R439). -/
def nvMark : Nat := 0xA5C33C5A

/-- CRC-32C over the header word and the payload (R274, R439). -/
def nvCrc (header : Word) (payload : List Word) : BitVec 32 := pcrcOf (header :: payload)

/-- The commit word, written last (R439, R440). -/
def nvCommit (header : Word) (payload : List Word) : Word :=
  mkWord [(0, 32, fld header 32 32), (32, 32, (nvCrc header payload).toNat), (64, 32, nvMark)]

/-- A record is valid: `MARK`, `SEQ` and `CRC` agree (R441). -/
def nvValid (header : Word) (payload : List Word) (commit : Word) : Bool :=
  fld commit 64 32 == nvMark && fld commit 0 32 == fld header 32 32 &&
    fld commit 32 32 == (nvCrc header payload).toNat

/-- A configuration copy is valid (R441). -/
def cfgSlotValid (c : CfgSlot) : Bool := nvValid c.header c.words c.commit

/-- The payload words of a calibration record: two for each gain code (R165, R442). -/
def calPayload (sets : List (Nat × CoefSet)) : List Word := sets.flatMap (fun e => coefWords e.2)

/-- A record of the calibration ring is valid (R441). -/
def calRecValid (r : CalRec) : Bool := nvValid r.header (calPayload r.sets) r.commit

/-- Words of the calibration region, 512 KiB (R438). -/
def calWords : Nat := 32768

/-- A record goes into the calibration ring: at the next place with room for header, payload and commit word, over what lies
there (R438, R440, R442). -/
def calAppend (conv : Nat) (sets : List (Nat × CoefSet)) (r : CalRegion) : CalRegion :=
  let len := 2 * sets.length
  let from_ := if calWords < r.at_ + len + 2 then 0 else r.at_
  let header := nvHeader 2 r.seq len (from_ + 1)
  let kept := r.ring.filter (fun e =>
    let a := fld e.header 96 32
    decide (a + fld e.header 64 25 < from_) || decide (from_ + len + 2 < a))
  { r with
    ring := { conv := conv, sets := sets, header := header, commit := nvCommit header (calPayload sets) } :: kept
    seq := (r.seq + 1) % 2 ^ 32, at_ := from_ + len + 2 }

/-- The set of a converter and gain code that the newest valid record naming it holds (R178, R441). -/
def storedSet (r : CalRegion) (conv code : Nat) : Option CoefSet :=
  match r.ring.find? (fun e => e.conv == conv && e.sets.any (·.1 == code) && calRecValid e) with
  | some e => (e.sets.find? (·.1 == code)).map (·.2)
  | none => none

/-- A converter and gain code of which no valid copy exists although one was written (R178). -/
def storedLost (r : CalRegion) (conv code : Nat) : Bool :=
  !r.valid || (r.ring.any (fun e => e.conv == conv && e.sets.any (·.1 == code)) && (storedSet r conv code).isNone)

end Sys2Proof.Machine
end

