-- ==== Sys2Proof/Machine/Dsp.lean ====
section
/-! DEFINITION. From modulator samples to filter outputs (R113): the window without its blanked samples (R52), the alignment
stage (R114), the sinc5 and FIR stages of presets and banks (R113, R118, R125), and the sinc4 filter of single-cycle
settling (R121). Values are kept exact, as a numerator and a denominator; R92 alone rounds. -/

namespace Sys2Proof.Machine

/-- The instant lies in a blank interval: its start is included, its end is not (R49). -/
def inBlank (bs : List BlankIv) (t : Int) : Bool :=
  bs.any (fun b => decide ((b.start : Int) ≤ t) && (match b.end_ with | none => true | some e => decide (t < (e : Int))))

/-! ### Kernels (R113, R118, R121, R125) -/

/-- Coefficient `i` of 1 / (1 - z)^r, that is, the number of ways to write `i` as a sum of `r` terms. -/
def runCoef (r i : Nat) : Int :=
  (((List.range (r - 1)).foldl (fun a q => a * (i + q + 1)) 1 / (r - 1).factorial : Nat) : Int)

/-- Weight `i` of `r` boxcars of `d` samples each, one after the other. -/
def boxcars (r d i : Nat) : Int :=
  (List.range (r + 1)).foldl (fun acc j =>
    if j * d ≤ i then acc + (-1) ^ j * (r.choose j : Int) * runCoef r (i - j * d) else acc) 0

/-- First-stage decimation and FIR taps of a preset (R118). -/
def presetD1 (m : Nat) : Nat := match m with | 0 => 16 | 1 => 64 | 2 => 256 | 3 => 1024 | _ => 8192
def presetTaps (m : Nat) : Nat := if m ≤ 1 then 255 else 383

/-- First-stage decimation, number of FIR taps and FIR coefficient `i` of a mode that has these stages. -/
def firOf (m : Nat) (b : Option Bank) : Nat × Nat × (Nat → Int) :=
  if m ≤ 4 then (presetD1 m, presetTaps m, fun i => Config.presetCoef m (min i (presetTaps m - 1 - i)))
  else match b with
    | some b => (bankD1 b, b.taps, fun i => b.coefs.getD i 0)
    | none => (1, 0, fun _ => 0)

/-- Weight of aligned sample `i` of a window. -/
def kernel (m : Nat) (b : Option Bank) (i : Nat) : Int :=
  if isScs m then boxcars 4 (scsN m / 4) i
  else
    let (d1, taps, coef) := firOf m b
    (List.range taps).foldl (fun acc t => if t * d1 ≤ i then acc + coef t * boxcars 5 d1 (i - t * d1) else acc) 0

/-- What the weights are to be divided by. -/
def kernelDen (m : Nat) (b : Option Bank) : Nat :=
  if isScs m then (scsN m / 4) ^ 4 else (firOf m b).1 ^ 5 * 2 ^ 23

/-- Aligned samples of a window: L, or N - 3 in single-cycle settling (R118, R121, R127). -/
def alignedCount (m : Nat) (b : Option Bank) : Nat := if isScs m then scsN m - 3 else spanOf m b + 1

/-- Edges between the last aligned sample and the output instant (R115, R121). -/
def lastSkip (m : Nat) : Nat := if isScs m then 2 else 0

/-! ### Windows (R34, R36, R52, R87, R114, R142) -/

/-- A sample of a raw extent with what the pins' monitor says of it. -/
structure Taken where
  hg : Int
  lg : Int
  hgOver : Bool
  lgOver : Bool
  pins : Bool
  cm : Bool
deriving DecidableEq, Repr, Inhabited

/-- The sample was taken while a pin lay outside its range, or within 20 us of both being back: 411 edges (R34). -/
def recovering (xs : List ModSample) : Bool := (xs.take 411).any (·.pinOut)

/-- The `need` latest unblanked samples at or before `t`, newest first (R52); one from before `start` was cleared and
counts as zero (R142). -/
def takeWindow (bs : List BlankIv) (start : Int) : List ModSample → Nat → Int → List Taken
  | _, 0, _ => []
  | [], _, _ => []
  | x :: rest, need + 1, t =>
    if inBlank bs t then takeWindow bs start rest (need + 1) (t - (cycU : Nat))
    else
      (if t < start then { hg := 0, lg := 0, hgOver := false, lgOver := false, pins := false, cm := false }
       else { hg := x.hg, lg := x.lg, hgOver := x.hgOver, lgOver := x.lgOver, pins := recovering (x :: rest), cm := x.cmOut }) ::
        takeWindow bs start rest need (t - (cycU : Nat))

/-- The alignment stage over a raw extent, newest first (R114). -/
def alignAll (phi : Nat) : List Int → List Int
  | [] => []
  | x :: rest => Config.align phi ((x :: rest).take 8) :: alignAll phi rest

/-- Sum of weight times value, from weight `i` on. -/
def weigh (w : Nat → Int) : Nat → List Int → Int
  | _, [] => 0
  | i, a :: rest => w i * a + weigh w (i + 1) rest

/-- One output of both paths of a converter before correction, in 1/256 code times `den`, and the monitors' verdicts over
its window. -/
structure Filtered where
  hg : Int
  lg : Int
  den : Nat
  hgOver : Bool
  lgOver : Bool
  pins : Bool
  cm : Bool
deriving DecidableEq, Repr, Inhabited

/-- Stages 1 to 3 of R113 for the output at `out`: mode `m` with bank `b`, alignment delay `phi`, filter empty before
`start`. Window and raw extent are symmetric, so that the newest sample may count first. -/
def filterOf (m : Nat) (b : Option Bank) (phi : Nat) (bs : List BlankIv) (start out : Int) (xs : List ModSample) : Filtered :=
  let n := alignedCount m b
  let skip := lastSkip m
  let w := takeWindow bs start (xs.drop skip) (n + 7) (out - ((skip * cycU : Nat) : Int))
  let path := fun (l : List Int) => weigh (kernel m b) 0 ((alignAll phi l).take n)
  { hg := path (w.map (·.hg)), lg := path (w.map (·.lg)), den := kernelDen m b, hgOver := w.any (·.hgOver),
    lgOver := w.any (·.lgOver), pins := w.any (·.pins), cm := w.any (·.cm) }

end Sys2Proof.Machine
end

