-- ==== Sys2Proof/Machine/Flags.lean ====
section
/-! DEFINITION. Flag computations: the flags of sample records (R183), the timebase states behind them (R224), and the
forming of record words (R179). -/

namespace Sys2Proof.Machine

/-! ### Bits of FLAGS (R183) -/

abbrev fSettling : Nat := 0
abbrev fPath : Nat := 1
abbrev fOverrange : Nat := 2
abbrev fOpen : Nat := 3
abbrev fBlanked : Nat := 4
abbrev fExcPol : Nat := 5
abbrev fRange : Nat := 6
abbrev fSubst : Nat := 7
abbrev fDomain : Nat := 8
abbrev fUncertain : Nat := 9
abbrev fDerived : Nat := 10
abbrev fGap : Nat := 11

/-- FLAGS from the bits that are set. -/
def flagsOf (bits : List (Nat × Bool)) : BitVec 12 :=
  bits.foldl (fun acc b => if b.2 then acc ||| (1#12 <<< b.1) else acc) 0

/-- The value flags that a held record repeats (R53). -/
def valueFlags : BitVec 12 := flagsOf [(fPath, true), (fOverrange, true), (fSettling, true), (fRange, true),
  (fExcPol, true), (fSubst, true)]

/-! ### The timebase's state (R202, R217, R218, R224) -/

/-- One domain. -/
def domOf (s : State) (d : Nat) : Domain := s.time.dom.getD d default

/-- The timebase follows this domain. -/
def follows (s : State) (d : Nat) : Bool := s.time.mode == .follow && s.time.active == d

/-- The limit of y, 200 ppm, in 2^-80 ppb (R200). -/
abbrev yMax : Int := 200000 * 2 ^ 80

/-- The clamp of y (R200). -/
def clampY (y : Int) : Int := max (-yMax) (min yMax y)

/-- The slew in progress, as a part of y (R218). The slew rate is in 0.1 us/s, that is, 100 ppb. -/
def slewY (s : State) : Int :=
  let rate : Int := s.time.slewRate * 100 * 2 ^ 80
  if s.time.slewLeft = 0 then 0 else if 0 < s.time.slewLeft then -rate else rate

/-- What one unit of the increment, 2^-48 ns, is of y, in 2^-80 ppb: 2^-48 / 1.25 (R200). -/
abbrev yUnit : Nat := 200000000 * 2 ^ 34

/-- The increment INC that holds a y, in 2^-48 ns (R200); to the nearest unit (DESIGN CHOICE, log 110). -/
def incOf (y : Int) : Int := 5 * 2 ^ 46 + roundDiv y yUnit

/-- The y that an increment makes. -/
def yOfInc (inc : Int) : Int := (inc - 5 * 2 ^ 46) * (yUnit : Int)

/-- y with the slew in progress: the sum that drives the timebase, clamped, as the increment holds it (R200, R218). -/
def yTotal (s : State) : Int := yOfInc (incOf (clampY (s.time.y + slewY s)))

/-- y is clamped while the timebase follows a domain with this servo correction (R200). -/
def yClamped (y slew : Int) : Bool := decide (yMax < ((y + slew).natAbs : Int))

/-- The difference that a slew has still to remove at a local instant, in 2^-48 ns (R218). -/
def slewLeftAt (s : State) (t : Time) : Int :=
  let moved : Int := ((yTotal s - s.time.y).natAbs * (t - s.time.slewAt) / (2 ^ 48 * 1000000000) : Nat)
  let left := s.time.slewLeft
  if left.natAbs ≤ moved.natAbs then 0 else if 0 ≤ left then left - moved else left + moved

/-- Nanoseconds as 2^-48 ns. -/
def nsOff (n : Nat) : Int := (n : Int) * 2 ^ 48

/-- Records carry `TIME_UNCERTAIN` and the timebase state reads UNCERTAIN (R224, R391). -/
def uncertain (s : State) : Bool :=
  !s.time.everLocked || s.clk.tbRef == 3 || s.clk.tbHoldSince.isSome ||
    (match s.time.mode with
     | .freeRun => true
     | .holdover => !s.time.holdoverQualified || s.time.holdoverExpired ||
         decide (s.time.boundS * secU < s.now - s.time.holdoverSince)
     | .follow => (domOf s s.time.active).state != .locked || (domOf s s.time.active).rootUncertain) ||
    decide (nsOff (domOf s s.time.active).servo.lockNs < (slewLeftAt s s.now).natAbs)

/-- `TB_STATE`: 0 LOCKED, 1 HOLDOVER, 2 UNCERTAIN (R367). -/
def tbState (s : State) : Nat := if uncertain s then 2 else if s.time.mode == .holdover then 1 else 0

/-- The time flags of a record (R187): the timebase follows D1, and the uncertain state. -/
def timeFlags (s : State) : BitVec 12 := flagsOf [(fDomain, follows s 1), (fUncertain, uncertain s)]

/-! ### Records (R179, R193) -/

/-- A record word (R179): value, timestamp (timebase value, a multiple of 1/256 ns), address, epoch, flags. -/
def recordWord (value : Int) (tb addr epoch : Nat) (flags : BitVec 12) : Word :=
  mkWord [(96, 32, asField value 32), (64, 32, tb / secU), (34, 30, (tb % secU) / nsU), (26, 8, (tb % nsU) / 256),
    (16, 10, addr), (12, 4, epoch), (0, 12, flags.toNat)]

/-- A poison record: all 128 bits set (R193). -/
def poison : Word := BitVec.allOnes 128

/-- Address of a record word. -/
def recAddr (w : Word) : Nat := fld w 16 10

/-- Flags of a record word. -/
def recFlags (w : Word) : BitVec 12 := BitVec.ofNat 12 (fld w 0 12)

/-- A record with `GAP_BEFORE` (R186). -/
def withGap (gap : Bool) (w : Word) : Word := if gap then w ||| mkWord [(11, 1, 1)] else w

/-- A record is marked `BLANKED`. -/
def isBlanked (w : Word) : Bool := fbit w 4

/-- Value of a record word. -/
def recValue (w : Word) : Int := sfld w 96 32

/-- Timestamp of a record word with the seconds truncated to 32 bits, in 2^-16 ns. -/
def recTime (w : Word) : Nat := fld w 64 32 * secU + fld w 34 30 * nsU + fld w 26 8 * 256

end Sys2Proof.Machine
end

