-- ==== Sys2Proof/Machine/Daq.lean ====
section
/-! DEFINITION. Shared operations of acquisition: channels, generators and groups, output timing (R115 to R140), value
correction and merging (R92 to R101, R165, R176), blank intervals (R51, R55), and the record path (R19, R186). -/

namespace Sys2Proof.Machine

/-! ### Access -/

def chanOf (s : State) (c : Nat) : Chan := s.daq.chans.getD c default
def genOf (s : State) (n : Nat) : Gen := s.daq.gens.getD n default
def groupOf (s : State) (g : Nat) : Group := s.daq.groups.getD g default
def addrOf (s : State) (a : Nat) : AddrSt := s.daq.addrs.getD a default

def modDaq (f : DaqSt → DaqSt) (s : State) : State := { s with daq := f s.daq }
def modChan (c : Nat) (f : Chan → Chan) (s : State) : State :=
  modDaq (fun d => { d with chans := d.chans.modify c f }) s
def modGen (n : Nat) (f : Gen → Gen) (s : State) : State := modDaq (fun d => { d with gens := d.gens.modify n f }) s
def modGroup (g : Nat) (f : Group → Group) (s : State) : State :=
  modDaq (fun d => { d with groups := d.groups.modify g f }) s
def modCal (g : Nat) (f : CalSt → CalSt) (s : State) : State := modGroup g (fun x => { x with cal := f x.cal }) s
def modWeave (c : Nat) (f : WeaveSt → WeaveSt) (s : State) : State :=
  modChan c (fun x => { x with weave := f x.weave }) s
def modAddr (a : Nat) (f : AddrSt → AddrSt) (s : State) : State :=
  modDaq (fun d => { d with addrs := d.addrs.modify a f }) s

/-- A weave runs on the channel. -/
def woven (s : State) (c : Nat) : Bool := (chanOf s c).weave.state == .running

/-- The channels that a generator feeds (R61), those of a group (R30). -/
def fedBy (n : Nat) : List Nat := [4 * n, 4 * n + 1, 4 * n + 2, 4 * n + 3]
def chansOf (g : Nat) : List Nat := (List.range 8).map (fun i => 8 * g + i)

/-- A change on each of several channels. -/
def forChans (cs : List Nat) (f : Nat → State → State) (s : State) : State := cs.foldl (fun acc c => f c acc) s

/-- Indexes of the set bits of a mask. -/
def bitsOf {n : Nat} (v : BitVec n) : List Nat := (List.range n).filter (fun i => v.getLsbD i)

/-! ### Converters, coefficients, corrections (R165, R176) -/

/-- The converter whose records the channel emits: its own, or its group's spare (R107, R170). -/
def convOfChan (s : State) (c : Nat) : Nat := if (chanOf s c).subst == .none then c else 64 + c / 8

/-- The set in force of a converter and gain code (R165). -/
def coefFor (s : State) (conv code : Nat) : CoefSet := (s.daq.coef.getD conv []).getD code default

/-- The group of a converter (R359). -/
def convGroup (conv : Nat) : Nat := if conv < 64 then conv / 8 else conv - 64

/-- The temperature whose corrections are in force for channel `c`, whichever converter serves it: a channel takes a new
one at its output boundary (R176). In units of 1/256 °C, minus the temperature of calibration. -/
def dTemp (s : State) (c : Nat) (k : CoefSet) : Int :=
  match (chanOf s c).temp with
  | some t => t - 2 * k.calTemp
  | none => 0

/-- g_HG in units of 10^-9 / 65,536 (R165, R176). -/
def gHg (s : State) (c : Nat) (k : CoefSet) : Int := k.hgGain * 65536 + k.gainSlope * dTemp s c k * 256

/-- The reference correction in the same units: the factory curve for INTERNAL, `RATIO_GAIN` for RATIO (R165, R176). -/
def gRef (s : State) (c : Nat) (k : CoefSet) (ref : RefSel) : Int :=
  match ref with
  | .internal =>
    match (chanOf s c).temp with
    | some t =>
      let a := Config.refCurve (c / 8)
      a.1 * (t - 6400) * 256 + a.2 * (t - 6400) * (t - 6400)
    | none => 0
  | .ratio => k.ratioGain * 10 * 65536
  | .refin => 0

/-- Front-end delay in 2^-16 ns: `DFE` + `DFE_SLOPE` x (T - `CAL_TEMP`), rounded to 1/256 ns (R176). -/
def dfeFu (s : State) (c : Nat) (k : CoefSet) : Int :=
  ((k.dfe : Int) + roundDiv (k.dfeSlope * dTemp s c k) 65536) * 256

/-- One in the units of `gHg`. -/
abbrev gOne : Int := 65536000000000

/-- The denominator of `hgNum` for an exact filter output; `lgNum` has 10^9 times as much. -/
abbrev hgDen : Nat := 256 * 65536000000000 * 65536000000000

/-- The corrected HG value times `hgDen` x `den` (R165). -/
def hgNum (s : State) (c : Nat) (k : CoefSet) (ref : RefSel) (raw : Int) (den : Nat) : Int :=
  (raw - k.hgOffset * (den : Int)) * (gOne + gHg s c k) * (gOne + gRef s c k ref)

/-- The corrected LG value times `hgDen` x `den` x 10^9 (R165). -/
def lgNum (s : State) (c : Nat) (k : CoefSet) (ref : RefSel) (raw : Int) (den : Nat) : Int :=
  (raw - k.lgOffset * (den : Int)) * (gOne + gHg s c k) * (gOne + gRef s c k ref) * (1000000000 + k.lgGain)

/-! ### Merging (R92 to R101) -/

/-- The extension of a gain code (R90). -/
def extension (code : Nat) : Nat := if code ≤ 4 then 2 ^ code else 32

/-- Saturation limits (R92 *Code scaling*). -/
def satHigh (code : Nat) : Int := min ((extension code * 2 ^ 26 : Nat) : Int) 2147483647
def satLow (code : Nat) : Int := -((extension code * 2 ^ 26 : Nat) : Int)
def saturate (code : Nat) (v : Int) : Int := max (satLow code) (min (satHigh code) v)

/-- One converter's output after correction: value, path, overrange, the merger after it, whether HG is below the return
level, and whether HG and LG lie more than 1/64 of HG full scale apart (R104). -/
structure Merged where
  value : Int
  path : Bool
  ovr : Bool
  merger : Merger
  low : Bool
  apart : Bool
deriving DecidableEq, Repr, Inhabited

/-- HG is in range: at most 7/8 of full scale and no overloaded sample (R93). -/
def hgInRange (num : Int) (den : Nat) (ovr : Bool) : Bool := !ovr && decide (num.natAbs ≤ 58720256 * (hgDen * den))

/-- HG is below the return level (R93). -/
def hgReturn (num : Int) (den : Nat) (ovr : Bool) : Bool := !ovr && decide (num.natAbs < 50331648 * (hgDen * den))

/-- The merger's decision: LG emitted, and the merger after it (R94). -/
def mergeStep (m : Merger) (inRange ret : Bool) : Bool × Merger :=
  if m.lg then
    let n := if ret then m.count + 1 else 0
    if n = 16 then (false, { lg := false, count := 16 }) else (true, { lg := true, count := n })
  else if inRange then (false, m)
  else (true, { lg := true, count := 0 })

/-- The value of one output with its path and `OVERRANGE` (R94, R95, R97, R101). `bad` means that the window holds a
sample without a valid reference.

DESIGN CHOICE (log 97): in HG_ONLY and LG_ONLY the merger stands still, and AUTO goes on from its state; an HG value between 7/8
of full scale and full scale in HG_ONLY gives ±2^26, as *Causes of OVERRANGE* has it; the LG causes count only where LG is
used; the input's sign is that of the path's own output before correction. -/
def mergeOut (s : State) (c code : Nat) (k : CoefSet) (ref : RefSel) (path : PathMode) (bad : Bool) (m : Merger)
    (p : Filtered) : Merged :=
  if bad then { value := 0, path := false, ovr := true, merger := m, low := false, apart := false }
  else
    let hn := hgNum s c k ref p.hg p.den
    let ln := lgNum s c k ref p.lg p.den
    let hv := roundDiv hn (hgDen * p.den)
    let lv := roundDiv ln (hgDen * p.den * 1000000000)
    let inR := hgInRange hn p.den p.hgOver
    let low := hgReturn hn p.den p.hgOver
    let d := mergeStep m inR low
    let useLg := match path with
      | .auto => d.1
      | .hgOnly => false
      | .lgOnly => true
    let m' := if path == .auto then d.2 else m
    let pins := p.pins || p.cm
    let lgBad := useLg && (p.lgOver || decide (satHigh code < lv) || decide (lv < satLow code))
    let hgBad := path == .hgOnly && !inR
    let raw := if useLg then lv else hv
    let v :=
      if pins then saturate code raw
      else if lgBad then (if p.lg < 0 then satLow code else satHigh code)
      else if hgBad then (if p.hg < 0 then -67108864 else 67108864)
      else saturate code raw
    { value := v, path := useLg, ovr := pins || lgBad || hgBad, merger := m', low := low,
      apart := decide (1048576 < (hv - lv).natAbs) }

/-! ### Output timing (R115, R121, R139, R151) -/

/-- The instants of one output, local time in 2^-16 ns. -/
structure OutTime where
  /-- Grid time, without the step sum. -/
  ts : Int
  /-- Output instant. -/
  out : Int
  /-- Earliest raw sample. -/
  raw0 : Int
  /-- Alignment delay in 1/256 ns (R114). -/
  phi : Nat
deriving DecidableEq, Repr, Inhabited

/-- Output `k` of a grid with the given origin (R139; for single-cycle settling R121, R122): the first aligned sample
represents ts - span / 2 + d_fe and is formed at the first modulator edge at or after it. -/
def gridOut (origin eref : Int) (mode per span : Nat) (dfe : Int) (k : Int) : OutTime :=
  let cyc : Int := (cycU : Nat)
  let ts := origin + k * (per : Int) * cyc
  let first := ts - (span : Int) * (cyc / 2) + dfe
  let n := (first - eref + (cyc - 1)) / cyc
  let e := eref + n * cyc
  { ts := ts, out := e + (span : Int) * cyc, raw0 := e - (if isScs mode then 5 else 7) * cyc,
    phi := ((e - first) / 256).toNat }

/-- The bank that an instance's mode names. -/
def bankSel (f : FiltInst) : Option Bank :=
  if f.mode = 14 then f.bankA else if f.mode = 15 then f.bankB else none

/-- Output `k` of an instance of a channel outside a weave. -/
def instOut (s : State) (c : Nat) (f : FiltInst) (k : Int) : OutTime :=
  gridOut (groupOf s (c / 8)).tSync s.daq.eref f.mode (cyclesPer f.mode (bankSel f)) (spanOf f.mode (bankSel f))
    (dfeFu s c (coefFor s (convOfChan s c) (chanOf s c).cfg.gain)) k

/-- k0, the first output of a sync (R140). -/
def firstK (f : FiltInst) : Int :=
  if isScs f.mode then 1
  else
    let p := cyclesPer f.mode (bankSel f)
    (((spanOf f.mode (bankSel f) * 6250 + p * 12500 - 1) / (p * 12500) : Nat) : Int)

/-- How an output stands to the start of its filter (R141 to R143). -/
inductive Fill
  | none | part | full
deriving DecidableEq, Repr, Inhabited

/-- Whether output `k` is emitted, and whether its window is full. After a sync the count k0 decides (R140, R141), and
MARK adds the partly filled outputs (R142); after another start the raw extent decides (R143). -/
def fillOf (f : FiltInst) (mark : Bool) (k : Int) (o : OutTime) : Fill :=
  if f.bySync then
    if firstK f ≤ k then .full
    else if mark && decide ((f.start : Int) ≤ o.out) && (!isScs f.mode || k == 0) then .part
    else .none
  else if (f.start : Int) ≤ o.raw0 then .full
  else .none

/-! ### Blank intervals (R49 to R56) -/

/-- Of the closed intervals that begin before `pos` and end after `low`, the one with the latest end. -/
def latestBlank (bs : List BlankIv) (low pos : Int) : Option (Int × Int) :=
  bs.foldl (fun acc b =>
    let e : Int := match b.end_ with | none => pos | some e => (e : Int)
    if (b.start : Int) < pos ∧ low < e then
      match acc with
      | none => some ((b.start : Int), e)
      | some a => if a.2 < e ∨ (a.2 = e ∧ (b.start : Int) < a.1) then some ((b.start : Int), e) else acc
    else acc) none

/-- Walk back from `pos` over `need` units of unblanked time: where the window of an output begins (R52, R55). The second
part tells whether the window overlaps a blank interval. -/
def windowStart (bs : List BlankIv) : Nat → Int → Int → Int × Bool
  | 0, pos, need => (pos - need, false)
  | fuel + 1, pos, need =>
    match latestBlank bs (pos - need) pos with
    | none => (pos - need, false)
    | some (a, e) => ((windowStart bs fuel a (if e < pos then need - (pos - e) else need)).1, true)

/-- Beginning of the raw extent with blanked samples skipped, and `BLANKED` (R55). -/
def rawStart (bs : List BlankIv) (o : OutTime) : Int × Bool := windowStart bs (bs.length + 1) o.out (o.out - o.raw0)

/-! ### The record path (R19, R186, R190) -/

/-- The destinations of a subscription, export and operator slots apart. -/
def subDests (u : Sub) : List Dest :=
  (bitsOf u.rings).map Dest.ring ++ (match u.basin with | some n => [Dest.basin n] | none => []) ++
    (match u.export_ with | some n => [Dest.export_ n] | none => [])

/-- An address with no subscription and no counts. -/
def addrNone : AddrSt :=
  { sub := { rings := 0, basin := none, export_ := none, exportTc := 2 }, pending := none,
    oldSub := { rings := 0, basin := none, export_ := none, exportTc := 2 }, subAt := 0, gapNext := [], gapDue := [], delivered := 0,
    discarded := 0, genIgnored := 0, gaps := 0 }

/-- The record path of an address of another node (R190). -/
def remoteOf (s : State) (node : BitVec 16) (a : Nat) : AddrSt :=
  match s.daq.remoteSubs.find? (fun r => r.node == node && r.addr == a) with
  | some r => r.st
  | none => addrNone

/-- Change the record path of an address of another node. -/
def modRemote (node : BitVec 16) (a : Nat) (f : AddrSt → AddrSt) (s : State) : State :=
  modDaq (fun d => { d with
    remoteSubs := upsert d.remoteSubs (fun r => r.node == node && r.addr == a)
      { node := node, addr := a, st := f (remoteOf s node a) } }) s

/-- Change the record path of an address of this node, or of another one. -/
def modPath (node : Option (BitVec 16)) (a : Nat) (f : AddrSt → AddrSt) (s : State) : State :=
  match node with
  | none => modAddr a f s
  | some n => modRemote n a f s

/-- The record path of an address of this node, or of another one. -/
def recPath (s : State) (node : Option (BitVec 16)) (a : Nat) : AddrSt :=
  match node with
  | none => addrOf s a
  | some n => remoteOf s n a

/-- `GAP_BEFORE` is due on the next record accepted for a destination. -/
def owe (d : Dest) (x : AddrSt) : AddrSt :=
  { x with gapDue := if x.gapDue.contains d then x.gapDue else x.gapDue ++ [d] }

/-- Mark `GAP_BEFORE` due at destinations of an address. -/
def gapAt (a : Nat) (ds : List Dest) (s : State) : State :=
  modAddr a (fun x => { x with gapDue := x.gapDue ++ ds.filter (fun d => !x.gapDue.contains d) }) s

/-- From the instant `at_` on, `GAP_BEFORE` is due on the next record of an address at every destination (R186). -/
def gapAllAt (a : Nat) (at_ : Time) (s : State) : State :=
  modAddr a (fun x => { x with gapNext := if x.gapNext.contains at_ then x.gapNext else x.gapNext ++ [at_] }) s

/-- The same from now on. -/
def gapAll (a : Nat) (s : State) : State := gapAllAt a s.now s

/-- Mark `GAP_BEFORE` due for the address that a channel's multiplexer selects (R30). -/
def gapChan (c : Nat) (s : State) : State := gapAll (8 * c + (chanOf s c).pos) s

/-- Mark `GAP_BEFORE` due from an instant on for all eight addresses of a channel. -/
def gapChanAllAt (c : Nat) (at_ : Time) (s : State) : State :=
  (List.range 8).foldl (fun acc p => gapAllAt (8 * c + p) at_ acc) s

/-- The same from now on. -/
def gapChanAll (c : Nat) (s : State) : State := gapChanAllAt c s.now s

/-! ### Queues of destinations (R19) -/

/-- The queue of a group for a destination. -/
def queueOf (s : State) (g : Nat) (d : Dest) : DestQueue :=
  (s.daq.queues.find? (fun q => q.group == g && q.dest == d)).getD
    { group := g, dest := d, recs := [], dropped := 0 }

/-- Replace a queue. -/
def putQueue (q : DestQueue) (s : State) : State :=
  modDaq (fun d => { d with queues := upsert d.queues (fun x => x.group == q.group && x.dest == q.dest) q }) s

/-- Count a record discarded at a queue: `DROPPED` of the ring's DMA channel too (R19, R349), and `DISCARDS` of TC2 where the
limiter holds the export (R283). -/
def countDropped (d : Dest) (s : State) : State :=
  match d with
  | .ring n => modHost (fun h => { h with dma := h.dma.modify n (fun c => { c with dropped := satAdd 32 c.dropped 1 }) }) s
  | .export_ _ => if mayOriginate s then s else countDiscardClass 2 s
  | _ => s

/-- One record to one destination of an address: into the group's queue with `GAP_BEFORE` when due, or discarded and
counted when the queue holds 256 or the destination's island is absent (R14, R19). -/
def deliver (g a : Nat) (r : FormedRec) (d : Dest) (reachable : Bool) (s : State) : State :=
  let q := queueOf s g d
  if 256 ≤ q.recs.length ∨ !reachable then
    countDropped d (gapAt a [d] (modAddr a (fun x => { x with discarded := x.discarded + 1 })
      (putQueue { q with dropped := q.dropped + 1 } s)))
  else
    let gap := r.gap || (addrOf s a).gapDue.contains d
    modAddr a (fun x => { x with
      delivered := x.delivered + 1
      gaps := if gap then x.gaps + 1 else x.gaps
      gapDue := x.gapDue.filter (fun y => y != d) })
      (putQueue { q with recs := q.recs ++
      [{ word := withGap gap r.word, gen := r.gen, readable := true, node := none, at_ := s.now }] } s)

end Sys2Proof.Machine
end

