-- ==== Sys2Proof/Machine/Filter.lean ====
section
/-! DEFINITION. The output of a filter: FILTER_OUTPUT (R115) with the merger, flags, held, fade and combined values, the
conversions of a weave, and the pairs of a calibration overlap. -/

namespace Sys2Proof.Machine

/-! ### References and polarity (R62, R70, R89) -/

/-- A generator is in a state that gives RATIO channels a valid reference (R70). -/
def ratioValid (g : Gen) : Bool :=
  !g.tripped && (g.cfg.mode == .dcPlus || g.cfg.mode == .dcMinus || g.cfg.mode == .ac) && g.vsOk

/-- The reference that a channel selects is valid now (R70, R89). -/
def refOk (s : State) (c : Nat) : Bool :=
  match (chanOf s c).cfg.ref with
  | .internal => true
  | .refin => s.daq.refinValid
  | .ratio => ratioValid (genOf s (c / 4))

/-- Note at `t` whether samples of a channel are taken with a valid reference from now on. -/
def refJudge (c : Nat) (t : Time) (s : State) : State :=
  let ok := refOk s c
  modChan c (fun x => { x with
    refBadFrom := if ok then none else some (x.refBadFrom.getD t)
    refBadUntil := if ok && x.refBadFrom.isSome then max x.refBadUntil t else x.refBadUntil }) s

/-- The window from `raw` to `out` holds a sample taken without a valid reference (R70, R89). -/
def refBad (x : Chan) (raw out : Int) : Bool :=
  decide (raw < (x.refBadUntil : Int)) || (match x.refBadFrom with | some f => decide ((f : Int) < out) | none => false)

/-- `EXC_POL` of the generator as it stands (R62, R78). -/
def polNow (g : Gen) : Bool :=
  !g.tripped && match g.cfg.mode with
  | .dcMinus => true
  | .ac => g.acNeg
  | _ => false

/-- `EXC_POL` of an output taken up to `ref`: a change at an instant concerns what comes after it (R115). -/
def excPol (g : Gen) (ref : Int) : Bool := if (g.polAt : Int) < ref then polNow g else g.prevPol

/-- Before a change at `t`: keep the polarity for outputs that end there. -/
def notePol (n : Nat) (t : Time) (s : State) : State :=
  modGen n (fun g => if g.polAt < t then { g with prevPol := polNow g, polAt := t } else g) s

/-- The end of the settling that concerns an output taken up to `ref` (R73, R75). -/
def settlingFor (x : Chan) (ref : Int) : Time := if (x.settlingAt : Int) < ref then x.settlingUntil else x.settlingPrev

/-! ### The open-input detector (R46, R47) -/

/-- The open-input detector after one output (R46): flag and whether it changed. -/
def openStep (d : OpenDet) (inBand : Bool) : OpenDet × Bool :=
  if inBand == d.flag then ({ d with count := 0 }, false)
  else if d.count + 1 = 4 then ({ count := 0, flag := !d.flag }, true)
  else ({ d with count := d.count + 1 }, false)

/-- The open-input event of a position (R46). -/
def openEvent (c pos : Nat) (flag : Bool) (out : Int) (s : State) : State :=
  emit 0x1001 (b2n flag) (8 * c + pos) [] (tbAt s out.toNat) s

/-- Evaluate the detector of a position for an output at `out` outside every blank interval (R46, R47).

DESIGN CHOICE (log 98): while the detector is off, count and flag of every position stand still: the flag is on no record,
`CHAN.STATUS` goes on giving it, and both go on from there when the detector is switched on again. -/
def evalOpen (c pos : Nat) (inBand : Bool) (out : Int) (s : State) : State :=
  let x := chanOf s c
  if !x.cfg.openDet || inBlank x.blanks out then s
  else
    let r := openStep (x.open_.getD pos default) inBand
    let s1 := modChan c (fun x => { x with open_ := x.open_.set pos r.1 }) s
    if r.2 then openEvent c pos r.1.flag out s1 else s1

/-- `OPEN_INPUT` as the detector holds it for an address (R46, R53). -/
def openFlag (s : State) (c pos : Nat) : Bool :=
  (chanOf s c).cfg.openDet && ((chanOf s c).open_.getD pos default).flag

/-! ### Records formed (R179, R186, R191) -/

/-- Form the record of an output that ends at `out` and hand it to the record path (R179, R191); count `BLANKED` ones
(R60); the value and value flags stay for HOLD (R53). `GAP_BEFORE` that became due before `lim` goes with it (R186). -/
def formRecord (c pos : Nat) (value ts out lim : Int) (flags : BitVec 12) (s : State) : State :=
  let tb := (ts + s.time.stepSum).toNat
  let a := 8 * c + pos
  let w := recordWord value tb a s.time.epoch (flags ||| timeFlags s)
  let due := (addrOf s a).gapNext.any (fun m => decide ((m : Int) < lim))
  let s1 := modChan c (fun x => { x with
    formed := x.formed ++ [{ word := w, gen := s.cfg.activeGen, out := out, gap := due }]
    last := some { value := value, flags := flags &&& valueFlags }
    blankedRecs := x.blankedRecs + b2n (flags.getLsbD fBlanked) }) s
  modGroup (c / 8) (fun g => { g with firstRecord := some (g.firstRecord.getD s.now) })
    (modAddr a (fun x => { x with gapNext := x.gapNext.filter (fun m => decide (lim ≤ (m : Int))) }) s1)

/-! ### AC cycles with COMBINE (R78 to R80) -/

/-- The gathering of an address in a generator's cycle. -/
def accOf (g : Gen) (a : Nat) : AcAccu :=
  (g.acc.find? (fun x => x.addr == a)).getD
    { addr := a, posSum := 0, posN := 0, negSum := 0, negN := 0, tsSum := 0, flags := 0, blanked := false }

/-- A raw record enters the cycle, unless it carries `BLANKED` (R79). -/
def accAdd (n a : Nat) (neg : Bool) (value ts : Int) (flags : BitVec 12) (s : State) : State :=
  let x := accOf (genOf s n) a
  let y :=
    if flags.getLsbD fBlanked then { x with blanked := true }
    else if neg then { x with negSum := x.negSum + value, negN := x.negN + 1, tsSum := x.tsSum + ts,
                              flags := x.flags ||| flags }
    else { x with posSum := x.posSum + value, posN := x.posN + 1, tsSum := x.tsSum + ts, flags := x.flags ||| flags }
  modGen n (fun g => { g with acc := upsert g.acc (fun z => z.addr == a) y }) s

/-- Flags that a combined record takes over from its raw records (R79). -/
def combinedFlags (x : AcAccu) : BitVec 12 :=
  (x.flags &&& flagsOf [(fPath, true), (fOverrange, true), (fSettling, true), (fOpen, true), (fSubst, true)]) |||
    flagsOf [(fBlanked, x.blanked)]

/-- The combined value: half the difference of the phase means, rounded towards zero (R79). -/
def combinedValue (x : AcAccu) : Int :=
  (x.posSum * (x.negN : Int) - x.negSum * (x.posN : Int)).tdiv (2 * (x.posN : Int) * (x.negN : Int))

/-- The cycle of an address ends at the output instant `out`: a combined record when both phases contributed, otherwise
`GAP_BEFORE` is due on the next one (R79, R80). -/
def closeCycle (n a : Nat) (out : Int) (s : State) : State :=
  let x := accOf (genOf s n) a
  let s1 := modGen n (fun g => { g with acc := g.acc.filter (fun z => z.addr != a) }) s
  if 0 < x.posN ∧ 0 < x.negN then
    let m : Int := ((x.posN + x.negN : Nat) : Int)
    formRecord (a / 8) (a % 8) (combinedValue x) ((x.tsSum / (m * 256)) * 256) out out (combinedFlags x) s1
  else gapAllAt a out.toNat s1

/-- COMBINE applies to the records of a generator's channels. -/
def combinesGen (g : Gen) : Bool := !g.tripped && g.cfg.mode == .ac && g.cfg.combine

/-- COMBINE applies to the records of a channel. -/
def combining (s : State) (c : Nat) : Bool := combinesGen (genOf s (c / 4))

/-- A change at `t` ends the cycle of every fed channel (R80, R499): with COMBINE on, the next combined record of each
address whose cycle was in progress carries `GAP_BEFORE`, whether it had raw records yet or not. -/
def dropCycles (n : Nat) (t : Time) (s : State) : State :=
  let g := genOf s n
  let running := (fedBy n).filter (fun c => (chanOf s c).cfg.enable && combinesGen g)
  let s1 := g.acc.foldl (fun acc x => gapAllAt x.addr t acc) s
  modGen n (fun g => { g with acc := [] })
    (forChans running (fun c acc => gapAllAt (8 * c + (chanOf acc c).pos) t acc) s1)

/-- What a channel has gathered in the cycle is dropped without a mark: after a multiplexer change, a switch-off or a
loop-back (R80). -/
def forgetCycle (c : Nat) (s : State) : State :=
  modGen (c / 4) (fun g => { g with acc := g.acc.filter (fun z => z.addr / 8 != c) }) s

/-- A formed output leaves: into its cycle with COMBINE on, else as a record (R78, R79). -/
def outRecord (c pos : Nat) (value ts out : Int) (flags : BitVec 12) (s : State) : State :=
  if combining s c then accAdd (c / 4) (8 * c + pos) (excPol (genOf s (c / 4)) out) value ts flags s
  else formRecord c pos value ts out out flags s

/-! ### Outputs outside a weave -/

/-- Flags that do not depend on the converter's value (R183). -/
def commonFlags (s : State) (c pos : Nat) (o : OutTime) (raw : Int) (blanked : Bool) : BitVec 12 :=
  let x := chanOf s c
  flagsOf [(fSettling, decide (raw < (settlingFor x o.out : Int))),
    (fOpen, openFlag s c pos), (fBlanked, blanked), (fExcPol, excPol (genOf s (c / 4)) o.out),
    (fRange, match x.rangeAt with | some b => decide (raw ≤ (b : Int)) && decide ((b : Int) < o.out) | none => false),
    (fSubst, x.subst != .none)]

/-- Flags of an output while a spare, or a channel that takes its input back, has not filled its filter (R107). -/
def changeoverFlags (x : Chan) : BitVec 12 :=
  if x.changeover.isSome then flagsOf [(fSettling, true), (fSubst, x.subst != .none)] else 0

/-- An output whose instant lies in a blank interval: HOLD repeats the last record, GAP withholds it (R53, R54). -/
def blankedOutput (c pos : Nat) (ts out : Int) (s : State) : State :=
  let x := chanOf s c
  if x.cfg.blankGap then
    gapAllAt (8 * c + pos) out.toNat (modChan c (fun y => { y with gapRecs := y.gapRecs + 1 }) s)
  else match x.last with
    | none => s
    | some l => outRecord c pos l.value ts out
        (l.flags ||| changeoverFlags x ||| flagsOf [(fBlanked, true), (fOpen, openFlag s c pos)]) s

/-- Add a pair of an overlap (R171): both outputs with `PATH` 0 and free of the flags named. -/
def addPair (g : Nat) (spareV chanNew chanOld : Int) (s : State) : State :=
  modCal g (fun k => { k with
    firstPair := some (k.firstPair.getD s.now)
    pairs := k.pairs + 1
    sumNew := k.sumNew + (spareV - chanNew)
    sumOld := k.sumOld + (spareV - chanOld) }) s

/-- Flags that make a pair invalid (R171). -/
def pairBad (f : BitVec 12) : Bool :=
  f &&& flagsOf [(fSettling, true), (fBlanked, true), (fOverrange, true), (fOpen, true), (fRange, true), (fPath, true)]
    != 0

/-- The coefficient set that a channel under calibration has measured for a gain code (R170 step 4). -/
def newSetFor (k : CalSt) (code : Nat) : CoefSet := k.newSets.getD code default

/-- While an overlap runs on the channel and the filter of the converter in parallel is full, that is, holds no sample from
before the overlap settle time's end, pair this output with the other converter's of the same timestamp (R170, R171). -/
def pairOutput (c code : Nat) (main : Merged) (flags : BitVec 12) (raw : Int) (bad : Bool) (other : Option Filtered)
    (s : State) : State :=
  let g := c / 8
  let k := (groupOf s g).cal
  let cfg := (chanOf s c).cfg
  match other with
  | none => s
  | some q =>
    if k.chan != c || k.due.isSome || decide (raw < (k.overlapStart : Int)) then s
    else if k.phase == .connect then
      let m := mergeOut s c code (coefFor s (64 + g) code) cfg.ref cfg.path bad k.otherMerger q
      let s1 := modCal g (fun k => { k with otherMerger := m.merger }) s
      if pairBad flags || main.path || m.path || m.ovr then s1 else addPair g m.value main.value main.value s1
    else if k.phase == .overlapOut then
      let m := mergeOut s c code (newSetFor k code) cfg.ref cfg.path bad k.otherMerger q
      let old := mergeOut s c code (coefFor s c code) cfg.ref cfg.path bad k.otherMerger q
      let s1 := modCal g (fun k => { k with otherMerger := m.merger }) s
      if pairBad flags || main.path || m.path || m.ovr then s1
      else addPair g main.value (if k.newSets.isEmpty then old.value else m.value) old.value s1
    else s

/-- Whether HG and LG have lain grossly apart in outputs in a row with HG below the return level (R104). -/
def disagreeNext (n : Nat) (m : Merged) : Nat := if m.low && m.apart then n + 1 else 0

/-- The output ends before a changeover does: no sample of the converter that takes over is in its window (R107). -/
def heldBy (x : Chan) (out : Int) : Bool := match x.changeover with | some e => decide (out ≤ (e : Int)) | none => false

/-- From when on samples count in a filter that started at `start` (R107, R141, R143): a spare, or a channel taken back,
starts empty at the end of its changeover. -/
def filledFrom (x : Chan) (start : Time) : Int := max (start : Int) ((x.changeover.getD 0 : Nat) : Int)

/-- The filters of an instance on the samples of the converter that serves the channel, or of another one (R113). -/
def instFilter (x : Chan) (f : FiltInst) (from_ : Int) (ot : OutTime) (xs : List ModSample) : Filtered :=
  filterOf f.mode (bankSel f) ot.phi x.blanks from_ ot.out xs

/-- The output of an instance after correction and merging (R94, R165). -/
def instMerge (s : State) (c : Nat) (f : FiltInst) (ot : OutTime) (raw : Int) (xs : List ModSample) : Merged :=
  let x := chanOf s c
  let code := x.cfg.gain
  mergeOut s c code (coefFor s (convOfChan s c) code) x.cfg.ref x.cfg.path (refBad x raw ot.out) f.merger
    (instFilter x f (filledFrom x f.start) ot xs)

/-- The primary's output (R94, R107, R115, R142, R183): nothing of its own in a blank interval, the value last emitted while
its converter has given no sample, else the merged value; `part` marks a filter that is not full. -/
def primaryHalf (c : Nat) (o : Sample) (ot : OutTime) (raw : Int) (blanked part : Bool) (s : State) : State × HalfOut :=
  let x := chanOf s c
  let base : HalfOut := { k := o.k, ts := ot.ts, out := ot.out, value := 0, flags := 0, inBl := inBlank x.blanks ot.out }
  if base.inBl then (s, base)
  else if heldBy x ot.out then
    let l := x.last.getD { value := 0, flags := 0 }
    let fl := (l.flags &&& flagsOf [(fPath, true)]) ||| changeoverFlags x |||
      flagsOf [(fOpen, openFlag s c x.pos), (fExcPol, excPol (genOf s (c / 4)) ot.out)]
    (s, { base with value := l.value, flags := fl })
  else
    let filling := decide (raw < ((x.changeover.getD 0 : Nat) : Int))
    let m := instMerge s c x.primary ot raw o.xs
    let s1 := modChan c (fun y => { y with
      primary := { y.primary with merger := m.merger }
      disagree := disagreeNext y.disagree m
      changeover := if filling then y.changeover else none }) s
    let fl := commonFlags s1 c x.pos ot raw blanked |||
      flagsOf [(fPath, m.path), (fOverrange, m.ovr), (fSettling, part || filling)]
    (pairOutput c x.cfg.gain m fl raw (refBad x raw ot.out) (o.other.map (instFilter x x.primary 0 ot)) s1,
      { base with value := m.value, flags := fl })

/-- An output of the channel leaves, as its blank mode states inside a blank interval (R53, R54). -/
def emitHalf (c : Nat) (h : HalfOut) (s : State) : State :=
  let pos := (chanOf s c).pos
  if h.inBl then blankedOutput c pos h.ts h.out s else outRecord c pos h.value h.ts h.out h.flags s

/-- The output the shadow gives for the primary's output `k`: its timing. -/
def shadowOut (s : State) (c : Nat) (k : Int) : OutTime :=
  let x := chanOf s c
  let pp : Int := (cyclesPer x.primary.mode (bankSel x.primary) : Nat)
  let ps : Int := (cyclesPer x.shadow.mode (bankSel x.shadow) : Nat)
  instOut s c x.shadow (k * pp / ps)

/-- The timestamp of the primary's output `k` lies on the shadow's grid too (R130). -/
def onBothGrids (s : State) (c : Nat) (k : Int) : Bool :=
  let x := chanOf s c
  let pp : Int := (cyclesPer x.primary.mode (bankSel x.primary) : Nat)
  let ps : Int := (cyclesPer x.shadow.mode (bankSel x.shadow) : Nat)
  decide (k * pp % ps = 0)

/-- The timestamp of the shadow's output `k` lies on the primary's grid too (R130). -/
def shadowOnBoth (s : State) (c : Nat) (k : Int) : Bool :=
  let x := chanOf s c
  let pp : Int := (cyclesPer x.primary.mode (bankSel x.primary) : Nat)
  let ps : Int := (cyclesPer x.shadow.mode (bankSel x.shadow) : Nat)
  decide (k * ps % pp = 0)

/-- The roles exchange and the former primary stops (R131, R134). -/
def exchangeRoles (c : Nat) (s : State) : State :=
  modChan c (fun x => { x with
    primary := { x.shadow with run := .running }
    shadow := { x.primary with run := .stopped }
    fade := .normal, held := [], shadowHeld := [] }) s

/-- A running instance produces outputs until the boundary at which it stops. -/
def running (f : FiltInst) : Bool := f.run == .running || f.run == .stopping

/-! ### The cap of throttle level L3 (R418, R419) -/

/-- A mode faster than RILL: an output rate above 10 kS/s (R419). -/
def fastMode (f : FiltInst) : Bool := decide (cyclesPer f.mode (bankSel f) < 2048)

/-- Firmware runs the shadow in a mode and exchanges the roles with a fade of one record (R419). -/
def capSwitch (c m : Nat) (s : State) : State :=
  modChan c (fun x => { x with
    shadow := { x.shadow with mode := m, run := .starting }, fade := .pending 1, lastFadeTs := none
    fadeFrom := s.now }) s

/-- Cap or restore one channel as the level stands, once it has no weave and no cross-fade (R418, R419). -/
def capRefresh (c : Nat) (s : State) : State :=
  let x := chanOf s c
  if !s.mgmt.run || woven s c || x.fade != .normal || !running x.primary then s
  else if 3 ≤ s.therm.level then
    if x.capped.isNone && fastMode x.primary then
      capSwitch c 2 (modChan c (fun x => { x with capped := some x.primary.mode }) s)
    else s
  else match x.capped with
    | none => s
    | some m =>
      let s1 := modChan c (fun x => { x with capped := none }) s
      if x.primary.mode = 2 ∧ (m < 14 ∨ (bankSel { x.shadow with mode := m }).isSome) then capSwitch c m s1 else s1

/-- Every channel. -/
def capRefreshAll (s : State) : State := forChans (List.range 64) capRefresh s

/-! ### Fades -/

/-- The cross-fade-done event (R132, R369). -/
def fadeDone (c j : Nat) (cut : Bool) (ts : Int) (s : State) : State :=
  emitNow 0x1201 (b2n cut) (c + j * 64) [BitVec.ofNat 128 (t96 (ts + s.time.stepSum).toNat)] s

/-- The mixed value of fade record `j` of `n` (R131). -/
def fadeMix (p q : Int) (j n : Nat) : Int := roundDiv (p * ((n - j : Nat) : Int) + q * (j : Int)) n

/-- Fade record `j` of `n` from both instances' outputs of one timestamp (R131): mixed value, union of both flags; with
N = 1 it is the shadow's alone. A blank interval is judged by the primary's output instant. The record's own output
instant is the later of the two (R27, R132). -/
def fadeRecord (c j n : Nat) (p q : HalfOut) (s : State) : State :=
  emitHalf c { p with
    out := max p.out q.out
    value := fadeMix p.value q.value j n
    flags := if n = 1 then q.flags else p.flags ||| q.flags } s

/-- After record N the roles exchange and the done event is raised; what the new primary has already formed of later
outputs follows in timestamp order (R132). -/
def fadeEnds (c n : Nat) (p : HalfOut) (s : State) : State :=
  let later := (chanOf s c).shadowHeld.filter (fun q => decide (p.ts < q.ts))
  capRefresh c (later.foldl (fun acc q => emitHalf c q acc) (fadeDone c n false p.ts (exchangeRoles c s)))

/-- One fade record of a running cross-fade. -/
def fadeStep (c j n : Nat) (p q : HalfOut) (s : State) : State :=
  let s1 := fadeRecord c j n p q (modChan c (fun x => { x with held := x.held.drop 1 }) s)
  if j = n then fadeEnds c n p s1
  else modChan c (fun x => { x with
    fade := .fading j n, lastFadeTs := some p.ts, shadowHeld := x.shadowHeld.filter (fun h => decide (p.ts < h.ts)) }) s1

/-- A cross-fade that is pending begins at this output of the primary: both instances' outputs lie after the command took
effect, the shadow's raw extent lies after its start, and the timestamp lies on both grids (R130; DEDUCED, log 69: "the
output lies after the command" asks it of both output instants). -/
def fadeBegins (s : State) (c : Nat) (k out : Int) : Bool :=
  let x := chanOf s c
  let so := shadowOut s c k
  running x.shadow && onBothGrids s c k && decide ((x.fadeFrom : Int) < so.out) && decide ((x.fadeFrom : Int) < out) &&
    decide (filledFrom x x.shadow.start ≤ (rawStart x.blanks so).1)

/-- While a cross-fade is pending or runs, the record path holds the primary's outputs until it is known whether they are
fade records, and a fade record until both instances have produced it (R132). -/
def fadePump (c : Nat) : Nat → State → State
  | 0, s => s
  | fuel + 1, s =>
    let x := chanOf s c
    match x.held with
    | [] => s
    | p :: rest =>
      let mate := x.shadowHeld.find? (fun q => q.ts == p.ts)
      match x.fade, mate with
      | .normal, _ => s
      | .pending n, m =>
        if fadeBegins s c p.k p.out then
          match m with
          | none => s
          | some q => fadePump c fuel (fadeStep c 1 n p q s)
        else
          fadePump c fuel (emitHalf c p (modChan c (fun y => { y with
            held := rest, shadowHeld := y.shadowHeld.filter (fun h => decide (p.ts < h.ts)) }) s))
      | .fading _ _, none => s
      | .fading j n, some q => fadePump c fuel (fadeStep c (j + 1) n p q s)

/-- Release what a cross-fade holds as far as it can leave. -/
def fadeRun (c : Nat) (s : State) : State := fadePump c (chanOf s c).held.length s

/-- The channel's group converts and emits: its island runs and its synthesizer is locked (R14, R391, R463). -/
def groupEmits (s : State) (g : Nat) : Bool :=
  isUp s (daqIsland g) && !(groupOf s g).ssLost && !s.clk.tbHoldExpired

/-- The lowest-numbered enabled channel that a generator feeds (R72). -/
def leadChan (s : State) (n : Nat) : Option Nat := (fedBy n).find? (fun c => (chanOf s c).cfg.enable)

/-- The first output boundary of a channel outside a weave at or after an instant (R115). -/
def nextBoundary (s : State) (c : Nat) (t : Int) : Int :=
  let f := (chanOf s c).primary
  let o0 := (instOut s c f 0).out
  let per : Int := ((cyclesPer f.mode (bankSel f) * cycU : Nat) : Int)
  o0 + (t - o0 + per - 1) / per * per

/-- The instant of the next polarity swap: k output periods after the phase began, on an output boundary (R76).

DESIGN CHOICE (log 100): where the grid of the boundaries has moved since, the first boundary after the k periods. -/
def swapAt (s : State) (n : Nat) : Int :=
  let g := genOf s n
  let lead := (leadChan s n).getD (4 * n)
  let f := (chanOf s lead).primary
  nextBoundary s lead ((g.acPhaseAt + cyclesPer f.mode (bankSel f) * cycU * g.cfg.swapK : Nat) : Int)

/-- The last output of the channel in a negative phase: the cycle's combined record is formed (R79, R80). -/
def cycleEnd (c : Nat) (ot : OutTime) (s : State) : State :=
  let x := chanOf s c
  let per := cyclesPer x.primary.mode (bankSel x.primary) * cycU
  if combining s c && (genOf s (c / 4)).acNeg && decide (swapAt s (c / 4) < ot.out + (per : Int)) then
    closeCycle (c / 4) (8 * c + x.pos) ot.out s
  else s

/-- How full the primary's filter is for an output, blanked samples skipped (R52, R56, R141 to R143). -/
def fillNow (x : Chan) (k : Int) (ot : OutTime) (raw : Int) (blanked : Bool) : Fill :=
  match fillOf x.primary x.markMode k ot with
  | .full => if (x.primary.start : Int) ≤ raw ∨ !blanked then Fill.full
             else if x.primary.bySync && x.markMode then Fill.part else Fill.none
  | f => f

/-- One output of the primary outside a weave.

DESIGN CHOICE (log 98): an output that is not emitted because the filter is still filling counts for the open-input
detector like any other. DESIGN CHOICE (log 69): a cross-fade does not wait for the primary's filter to be full; until
then the primary gives its partly filled value and the record carries `SETTLING`. -/
def gridOutput (c : Nat) (o : Sample) (s : State) : State :=
  let x := chanOf s c
  let ot := instOut s c x.primary o.k
  let late := match x.primary.lastOut with | some l => decide (ot.out ≤ l) | none => false
  if !running x.primary || late || decide ((s.now : Int) < ot.out) then s
  else
    let (raw, blanked) := rawStart x.blanks ot
    let s1 := evalOpen c x.pos o.inBand ot.out
      (modChan c (fun y => { y with primary := { y.primary with lastOut := some ot.out } }) s)
    let fill := fillNow x o.k ot raw blanked
    let forms := fill != .none || (match x.fade with
      | .normal => false
      | .pending _ => fadeBegins s1 c o.k ot.out
      | .fading _ _ => true)
    let s2 :=
      if !forms then s1
      else
        let (s2, h) := primaryHalf c o ot raw blanked (fill != .full) s1
        if x.fade == .normal then emitHalf c h s2
        else fadeRun c (modChan c (fun y => { y with held := y.held ++ [h] }) s2)
    cycleEnd c ot s2

/-- One output of the shadow outside a weave (R96, R113, R130 to R132): its merger acts on it, and a cross-fade takes it.
With a stopped primary the pending cross-fade exchanges the roles here, and the output is the new primary's first. -/
def shadowStep (c : Nat) (o : Sample) (s : State) : State :=
  let x := chanOf s c
  let ot := instOut s c x.shadow o.k
  let late := match x.shadow.lastOut with | some l => decide (ot.out ≤ l) | none => false
  if !running x.shadow || late || decide ((s.now : Int) < ot.out) then s
  else
    let (raw, blanked) := rawStart x.blanks ot
    let full := decide (filledFrom x x.shadow.start ≤ raw)
    let pending := match x.fade with | .pending _ => true | _ => false
    if !running x.primary && pending && full && decide ((x.fadeFrom : Int) < ot.out) && shadowOnBoth s c o.k then
      gridOutput c { o with shadow := false } (capRefresh c (fadeDone c 0 false ot.ts
        (gapAllAt (8 * c + x.pos) (ot.out - 1).toNat (exchangeRoles c s))))
    else
      let s1 := modChan c (fun y => { y with shadow := { y.shadow with lastOut := some ot.out } }) s
      let fading := match x.fade with | .fading _ _ => true | _ => false
      if !full && !fading then s1
      else
        let inBl := inBlank x.blanks ot.out
        let m := instMerge s c x.shadow ot raw o.xs
        let s2 := modChan c (fun y => { y with
          shadow := { y.shadow with merger := if inBl then y.shadow.merger else m.merger } }) s1
        let h : HalfOut := { k := o.k, ts := ot.ts, out := ot.out, value := m.value, inBl := inBl
                             flags := commonFlags s2 c x.pos ot raw blanked ||| flagsOf [(fPath, m.path), (fOverrange, m.ovr)] }
        if x.fade == .normal then s2
        else fadeRun c (modChan c (fun y => { y with shadowHeld := y.shadowHeld ++ [h] }) s2)

/-! ### Conversions of a weave (R149 to R162) -/

/-- End of a stroke in local time. -/
def strokeEnd (r : StrokeRun) : Time := r.begin_ + strokeCycles r.stroke * cycU

/-- The settling end E of a stroke (R151). -/
def strokeE (r : StrokeRun) : Time := r.begin_ + settleCycles r.stroke.settleUs * cycU

/-- Timing of conversion `j` (from 1) of a stroke: on the grid that starts at the settling end E (R151). -/
def strokeOut (s : State) (c : Nat) (r : StrokeRun) (j : Nat) : OutTime :=
  let span := spanOf r.stroke.mode none
  gridOut ((strokeE r : Int) + (span : Int) * ((cycU / 2 : Nat) : Int)) s.daq.eref r.stroke.mode
    (cyclesPer r.stroke.mode none) span (dfeFu s c (coefFor s (convOfChan s c) r.stroke.gain)) ((j : Int) - 1)

/-- The open-input detector at conversion `j` of a stroke. In a check stroke the first four are judged together when the
fourth is formed: with fewer than 4 that count, nothing of the position's state changes and the incomplete check is
counted (R162).

DESIGN CHOICE (log 98): a change of the flag within those four conversions shows from the fourth on, with the event at
its own output. -/
def strokeOpen (c : Nat) (r : StrokeRun) (inBand inBl : Bool) (out : Int) (s : State) : State × StrokeRun :=
  let pos := r.stroke.pos
  let j := r.formed + 1
  if !r.stroke.burnCheck || decide (4 < j) then (evalOpen c pos inBand out s, r)
  else
    let d := if inBl || !(chanOf s c).cfg.openDet then (r.openWork, false) else openStep r.openWork inBand
    let r1 := { r with
      counted := r.counted + b2n !inBl, openWork := d.1, openEvs := if d.2 then r.openEvs ++ [(d.1.flag, out)] else r.openEvs }
    if j < 4 then (s, r1)
    else if r1.counted < 4 then
      (modWeave c (fun w => { w with incomplete := w.incomplete.modify pos (satAdd 16 1) }) s, r1)
    else (r1.openEvs.foldl (fun acc e => openEvent c pos e.1 e.2 acc)
      (modChan c (fun x => { x with open_ := x.open_.set pos r1.openWork }) s), r1)

/-- One conversion of a stroke: emitted when kept and when its raw extent, blanked samples skipped, lies after the settling
end and after the last sync (R39, R57, R151, R158). What takes effect at the stroke's end does not concern it (R85).

DESIGN CHOICE (log 99): a kept conversion that blanking leaves without a full window after the settling end is not emitted;
`GAP_BEFORE` becomes due for it in mode GAP only (R156 names no other). -/
def convert (c : Nat) (o : Sample) (r : StrokeRun) (s : State) : State × StrokeRun :=
  let x := chanOf s c
  let j := r.formed + 1
  let pos := r.stroke.pos
  let a := 8 * c + pos
  let code := r.stroke.gain
  let ot := strokeOut s c r j
  let ref := min ot.out (strokeEnd r : Int)
  let (raw, blanked) := rawStart x.blanks ot
  let inBl := inBlank x.blanks ot.out
  let full := decide ((strokeE r : Int) ≤ raw)
  let synced := decide (raw < (r.notBefore : Int))
  let held := heldBy x ot.out
  let filling := decide (raw < ((x.changeover.getD 0 : Nat) : Int))
  let acts := full && !synced && !inBl && !held
  let p := fun xs => filterOf r.stroke.mode none ot.phi x.blanks (filledFrom x r.begin_) ot.out xs
  let bad := refBad x raw ot.out
  let m := mergeOut s c code (coefFor s (convOfChan s c) code) x.cfg.ref x.cfg.path bad r.merger (p o.xs)
  let (s1, r1) := strokeOpen c r o.inBand inBl ot.out s
  let r2 := { r1 with formed := j, merger := if acts then m.merger else r.merger }
  let gap := gapAllAt a (ref - 1).toNat s1
  let common := flagsOf [(fOpen, openFlag s1 c pos), (fExcPol, excPol (genOf s (c / 4)) ref), (fSubst, x.subst != .none)]
  if r.stroke.keep < j then (s1, r2)
  else if synced || x.unsubstituted || x.loopback.isSome then (gap, r2)
  else if !full && !inBl then (if x.cfg.blankGap then gap else s1, r2)
  else if inBl then (blankedOutput c pos ot.ts ref s1, r2)
  else if held then
    let l := x.last.getD { value := 0, flags := 0 }
    (formRecord c pos l.value ot.ts ot.out ref ((l.flags &&& flagsOf [(fPath, true)]) ||| changeoverFlags x ||| common) s1, r2)
  else
    let fl := common ||| flagsOf [(fSettling, decide (raw < (settlingFor x ref : Int)) || filling), (fPath, m.path),
      (fOverrange, m.ovr), (fBlanked, blanked)]
    let s2 := modChan c (fun y => { y with
      disagree := disagreeNext y.disagree m, changeover := if filling then y.changeover else none }) s1
    (pairOutput c code m fl raw bad (o.other.map p) (formRecord c pos m.value ot.ts ot.out ref fl s2), r2)

/-- A conversion of the stroke before, while one is still to be formed, or of the stroke in progress (R148, R151). -/
def weaveOutput (c : Nat) (o : Sample) (s : State) : State :=
  let w := (chanOf s c).weave
  match w.tail with
  | some r =>
    if (s.now : Int) < (strokeOut s c r (r.formed + 1)).out then s
    else
      let (s1, r1) := convert c o r s
      modWeave c (fun w => { w with tail := if r1.formed < convOf r1.stroke then some r1 else none })
        (modChan c (fun x => { x with last := (chanOf s c).last }) s1)
  | none =>
    match w.cur with
    | none => s
    | some r =>
      if convOf r.stroke ≤ r.formed ∨ (s.now : Int) < (strokeOut s c r (r.formed + 1)).out then s
      else
        let (s1, r1) := convert c o r s
        modWeave c (fun w => { w with cur := some r1 }) s1

/-- FILTER_OUTPUT (R115): a filter instance reaches an output instant and forms its output. -/
def execFilterOutput (t : Time) (ch : Fin 64) (o : Sample) (s0 : State) : Outcome :=
  let s := tick t s0
  let c := ch.val
  let x := chanOf s c
  if !groupEmits s (c / 8) then .next s
  else if x.weave.state == .running || x.weave.tail.isSome then .next (if o.shadow then s else weaveOutput c o s)
  else if !x.cfg.enable || x.unsubstituted || x.loopback.isSome || x.settleEnd.isSome then .next s
  else .next (if o.shadow then shadowStep c o s else gridOutput c o s)

end Sys2Proof.Machine
end

