-- ==== Sys2Proof/Machine/Change.lean ====
section
/-! DEFINITION. Changes that take effect at an output boundary (R43, R72, R115): restarts of filters, multiplexer changes,
channel settings, generator settings, blank masks, and the boundary itself. -/

namespace Sys2Proof.Machine

/-! ### Restarts (R38, R95, R134) -/

/-- The merger at every start: HG with count 0 (R95). -/
def mergerStart : Merger := { lg := false, count := 0 }

/-- An instance starts empty. -/
def restartInst (start : Time) (bySync : Bool) (f : FiltInst) : FiltInst :=
  { f with start := start, bySync := bySync, merger := mergerStart }

/-- The merger of a converter in parallel with the channel restarts with the channel's (R95, R170). -/
def restartOther (c : Nat) (s : State) : State :=
  modCal (c / 8) (fun k => if k.chan = c then { k with otherMerger := mergerStart } else k) s

/-- The generator runs in AC. -/
def inAc (g : Gen) : Bool := !g.tripped && g.cfg.mode == .ac

/-- In AC no sample before the phase's beginning enters a filter (R77). -/
def phaseFloor (s : State) (c : Nat) : Time := if inAc (genOf s (c / 4)) then (genOf s (c / 4)).acFrom else 0

/-- Both instances of a channel restart empty (R38, R138); a record of before is not repeated (R53). -/
def restartChan (c : Nat) (start : Time) (bySync : Bool) (s : State) : State :=
  let from_ := max start (phaseFloor s c)
  let sync := bySync && !inAc (genOf s (c / 4))
  restartOther c (modChan c (fun x => { x with
    primary := restartInst from_ sync x.primary, shadow := restartInst from_ sync x.shadow, last := none, sent := none
    disagree := 0 }) s)

/-- A cross-fade is cut short: the shadow becomes primary, the former primary stops (R134). The done event carries the
timestamp of the last fade record; with none emitted the manual names no timestamp and a free value stands there. -/
def cutFade (c : Nat) (at_ : Time) (s : State) : State :=
  let x := chanOf s c
  match x.fade with
  | .normal => s
  | .pending _ =>
    let (w, s1) := drawWord s
    emit 0x1201 1 c [BitVec.ofNat 128 (w.toNat % 2 ^ 96)] (tbAt s at_) (capRefresh c (exchangeRoles c s1))
  | .fading j _ =>
    let ts := x.lastFadeTs.getD 0
    emit 0x1201 1 (c + j * 64) [BitVec.ofNat 128 (t96 (ts + s.time.stepSum).toNat)] (tbAt s at_) (capRefresh c (exchangeRoles c s))

/-- A multiplexer change at `t0` (R38): the position switches and the settling delay runs. -/
def muxChange (c pos : Nat) (t0 : Time) (s : State) : State :=
  let s1 := forgetCycle c (cutFade c t0 s)
  gapAllAt (8 * c + pos) t0 (modChan c (fun x => { x with
    pos := pos, settleEnd := some (t0 + settleCycles x.cfg.settleUs * cycU), last := none, sent := none }) s1)

/-- A cause that takes effect at `at_`: samples from before `until_` mark `SETTLING` (R73, R75). Several causes of one
instant count as one. -/
def settleTo (c : Nat) (at_ until_ : Time) (s : State) : State :=
  modChan c (fun x => { x with
    settlingPrev := if x.settlingAt < at_ then x.settlingUntil else x.settlingPrev
    settlingAt := max x.settlingAt at_
    settlingUntil := max x.settlingUntil until_ }) s

/-! ### Blank intervals (R49, R51) -/

/-- When the interval of a source ends on a channel with the given guard: open while it is asserted. -/
def srcEnd (b : BlankSrc) (guardUs : Nat) : Option Time :=
  if b.asserted then none else some (b.released + guardUs * usU)

/-- The blank intervals of a channel after a change of mask or guard at boundary `b`: samples after it follow the new
settings (R43), so that an interval ends there, goes on, or begins anew inside a guard that has become longer. -/
def reblank (new : ChanCfg) (b : Time) (srcs : List BlankSrc) (bs : List BlankIv) : List BlankIv :=
  let kept := bs.filterMap (fun v =>
    let e : Time := match v.end_ with | none => b + 1 | some e => min e (b + 1)
    if e ≤ v.start then none else some { v with end_ := some e })
  let goesOn := (List.range 8).filterMap (fun i =>
    let src := srcs.getD i default
    let live := match srcEnd src new.guardUs with | none => true | some e => decide (b + 1 < e)
    if new.blankMask.getLsbD i && decide (0 < src.intervals) && live then
      some { src := i, start := max (b + 1) src.since, end_ := srcEnd src new.guardUs } else none)
  kept ++ goesOn

/-! ### The background cycle's state (R169, R170, R172) -/

/-- Why a group's cycle may not run: 0 command, 1 management, 2 L3, 3 spare (R169, R369). -/
def calBlock (s : State) (g : Nat) : Option Nat :=
  let x := groupOf s g
  if !x.cal.cycleEnable then some 0
  else if !s.mgmt.run then some 1
  else if 3 ≤ s.therm.level then some 2
  else match x.spare with
    | .free => none
    | .calibrating => none
    | _ => some 3

/-- The cycle stops or resumes, with its event (R169): between slots, or at once when the slot in progress is abandoned. -/
def calRefresh (g : Nat) (s : State) : State :=
  let k := (groupOf s g).cal
  if k.phase != .idle && !k.abandoned then s
  else match calBlock s g, k.running with
    | some c, true =>
      emitNow 0x1407 0 (g + c * 256) [] (modCal g (fun k => { k with running := false, stopCause := c }) s)
    | none, false =>
      emitNow 0x1407 1 (g + k.stopCause * 256) []
        (modCal g (fun k => { k with running := true, nextSlotAt := k.nextSlotAt.map (fun a => max a s.now) }) s)
    | _, _ => s

/-- The overlap begins or begins again at `b`: pairs are collected anew (R170, R172). -/
def startOverlap (g : Nat) (phase : CalPhase) (b : Time) (s : State) : State :=
  let us := (s.daq.calSet.getD (groupOf s g).cal.chan default).overlapUs
  modCal g (fun k => { k with
    phase := phase, overlapStart := b + us * usU, firstPair := none, pairs := 0, sumNew := 0, sumOld := 0
    otherMerger := mergerStart, due := none }) s

/-! ### Generators (R62 to R85) -/

/-- RATIO channels that a generator feeds, as a channel mask. -/
def ratioMask (s : State) (n : Nat) : Nat :=
  (fedBy n).foldl (fun acc c => if (chanOf s c).cfg.ref == .ratio then acc + 2 ^ c else acc) 0

/-- The reference of RATIO channels becomes valid or invalid: samples up to now had none, and a reference event names
the channels (R70, R89). -/
def ratioEdge (n : Nat) (before : Bool) (t : Time) (s : State) : State :=
  let after := ratioValid (genOf s n)
  if before == after then s
  else
    let s1 := forChans (fedBy n) (fun c => refJudge c t) s
    if ratioMask s1 n = 0 then s1
    else emit 0x1004 (if after then 3 else 2) 0 [BitVec.ofNat 128 (ratioMask s1 n)] (tbAt s1 t) s1

/-- An excitation change at `tc` (R73): the settle counter of every enabled fed channel restarts for 2,048 cycles. -/
def excChange (n : Nat) (tc : Time) (s : State) : State :=
  forChans (fedBy n) (fun c s => if (chanOf s c).cfg.enable then settleTo c tc (tc + 2048 * cycU) s else s) s

/-- A new AC cycle begins with a positive phase at `tc` (R76, R80, R144, R499). `dead` is 0 where the boundary is no
swap. The filters of the fed channels count samples from the end of the dead time, less the history that R77's record
count leaves out. What an ended cycle has left is dropped, with `GAP_BEFORE` due (R80). -/
def acBegin (n : Nat) (tc : Time) (dead : Nat) (neg : Bool) (s : State) : State :=
  let lead := (leadChan s n).getD (4 * n)
  let hist := if isScs (chanOf s lead).primary.mode then 5 else 7
  let from_ := if dead = 0 then tc + 1 else tc + (dead - hist) * cycU
  let left := if neg then [] else (genOf s n).acc
  forChans (fedBy n) (fun c => restartChan c from_ false)
    (modGen n (fun g => { g with
      acc := if neg then g.acc else [], acNeg := neg, acPhaseAt := tc, acFrom := from_, acRestart := false
      acDeadEnd := if dead = 0 then none else some (tc + dead * cycU) })
      (left.foldl (fun acc x => gapAllAt x.addr tc acc) (notePol n tc s)))

/-- Two settings differ as an excitation change (R73). -/
def excDiffers (g : Gen) (new : ExcCfg) : Bool :=
  g.tripped || g.cfg.mode != new.mode || g.cfg.amplMv != new.amplMv ||
    (new.mode == .level && g.cfg.level != new.level)

/-- Generator settings take effect at `tc` (R72, R73, R499).

DESIGN CHOICE (log 68): the positive phase that an excitation change begins has no dead time, also when a change of
amplitude comes in the negative phase; its change span marks the records. -/
def applyGen (n : Nat) (new : ExcCfg) (tc : Time) (s : State) : State :=
  let g := genOf s n
  let before := ratioValid g
  let changed := excDiffers g new
  let cycleNew := new.mode == .ac && !changed && (g.cfg.swapK != new.swapK || g.cfg.deadCyc != new.deadCyc)
  let s1 := if changed || cycleNew || g.cfg.combine != new.combine then dropCycles n tc s else s
  let s2 := modGen n (fun g => { g with cfg := new, tripped := false, pending := none }) (notePol n tc s1)
  let s3 := if changed then excChange n tc s2 else s2
  let s4 := if new.mode == .ac && changed then acBegin n tc 0 false s3
    else if cycleNew then acBegin n tc new.deadCyc false s3
    else s3
  ratioEdge n before tc s4

/-- The generator's pending settings take effect, if any. -/
def applyGenPending (n : Nat) (tc : Time) (s : State) : State :=
  match (genOf s n).pending with
  | none => s
  | some new => applyGen n new tc s

/-! ### The conditions of AC excitation (R76) -/

/-- The settings with the fields that `up` names taken from `new` (R361). -/
def mergeCfg (up : BitVec 10) (new old : ChanCfg) : ChanCfg :=
  { enable := if up.getLsbD 0 then new.enable else old.enable
    openDet := if up.getLsbD 1 then new.openDet else old.openDet
    gain := if up.getLsbD 2 then new.gain else old.gain
    burnout := if up.getLsbD 3 then new.burnout else old.burnout
    ref := if up.getLsbD 4 then new.ref else old.ref
    path := if up.getLsbD 5 then new.path else old.path
    blankGap := if up.getLsbD 6 then new.blankGap else old.blankGap
    blankMask := if up.getLsbD 7 then new.blankMask else old.blankMask
    guardUs := if up.getLsbD 8 then new.guardUs else old.guardUs
    settleUs := if up.getLsbD 9 then new.settleUs else old.settleUs }

/-- Settings as accepted: those that wait for a boundary before those in force. -/
def effCfg (x : Chan) : ChanCfg := match x.pendingCfg with | some p => mergeCfg p.2 p.1 x.cfg | none => x.cfg
def effGen (g : Gen) : ExcCfg := g.pending.getD g.cfg

/-- The generator is in AC, or accepted into it. -/
def acMeant (g : Gen) : Bool := (effGen g).mode == .ac && (g.pending.isSome || !g.tripped)

/-- The conditions hold for the settings as accepted: one filter mode, and k T >= W + D on every enabled fed channel. -/
def acCond (s : State) (n : Nat) : Bool :=
  let g := effGen (genOf s n)
  let on := (fedBy n).filter (fun c => (effCfg (chanOf s c)).enable)
  let m0 := (chanOf s (on.headD 0)).primary.mode
  on.all (fun c =>
    let f := (chanOf s c).primary
    f.mode == m0 &&
      decide (spanOf f.mode (bankSel f) + g.deadCyc ≤ g.swapK * cyclesPer f.mode (bankSel f)))

/-- The change from `s` to `s'` would break a condition of R76 for the generator of channel `c`. -/
def breaksAc (s' : State) (n : Nat) : Bool := acMeant (genOf s' n) && !acCond s' n

/-! ### Channel settings (R43) -/

/-- A calibration slot on a channel that is switched off ends at once; a spare that substituted for it is free (R175). -/
def endSlotOff (c : Nat) (s : State) : State :=
  let g := c / 8
  let k := (groupOf s g).cal
  if k.phase != .idle && k.chan == c && !k.release then
    let s1 := modGroup g (fun x => { x with
      spare := if x.spare == .calibrating then .free else x.spare
      cal := { x.cal with phase := .idle, due := none, newSets := [] } }) s
    calRefresh g (if (chanOf s c).subst == .calibration then modChan c (fun x => { x with subst := .none }) s1 else s1)
  else s

/-- New channel settings take effect at boundary `b` (R43). -/
def applyCfg (c : Nat) (new : ChanCfg) (b : Time) (s : State) : State :=
  let x := chanOf s c
  let old := x.cfg
  let weaving := x.weave.state == .running
  let s1 := modChan c (fun x => { x with
    cfg := new, pendingCfg := none, 
    blanks := if old.blankMask != new.blankMask || old.guardUs != new.guardUs then reblank new b s.daq.blank x.blanks
      else x.blanks }) s
  let s2 := if old.gain != new.gain then
      restartOther c (modChan c (fun x => { x with
        rangeAt := some b
        primary := { x.primary with merger := mergerStart }
        shadow := { x.shadow with merger := mergerStart } }) (settleTo c b (b + 1) s1))
    else s1
  let s3 := refJudge c b (if old.burnout != new.burnout && !weaving then settleTo c b (b + 1) s2 else s2)
  if !old.enable && new.enable then
    gapAllAt (8 * c + x.pos) b (restartChan c (b + 1) false s3)
  else if old.enable && !new.enable then
    let s4 := forgetCycle c (endSlotOff c s3)
    if (leadChan s4 (c / 4)).isNone then applyGenPending (c / 4) b s4 else s4
  else s3

/-- An instance that waits for the boundary starts or stops there (R133, R143). -/
def applyRun (b : Time) (floor : Time) (f : FiltInst) : FiltInst :=
  match f.run with
  | .starting => { restartInst (max (b + 1) floor) false f with run := .running }
  | .stopping => { f with run := .stopped }
  | _ => f

/-- Subscription changes of a channel's addresses take effect at `b`; what ends at or before it follows the old one;
new destinations get `GAP_BEFORE` (R190). -/
def applySub (a : Nat) (b : Time) (s : State) : State :=
  match (addrOf s a).pending with
  | none => s
  | some u =>
    let old := subDests (addrOf s a).sub
    gapAt a ((subDests u).filter (fun d => !old.contains d))
      (modAddr a (fun x => { x with sub := u, pending := none, oldSub := x.sub, subAt := b }) s)

/-- The accepted coefficient sets of a converter come into force (R166, R178). -/
def applyCoefs (conv : Nat) (s : State) : State :=
  let mine := s.daq.coefPending.filter (fun p => p.1 == conv)
  modDaq (fun d => { d with
    coef := mine.foldl (fun acc p => acc.modify p.1 (fun l => l.set p.2.1 p.2.2)) d.coef
    coefPending := d.coefPending.filter (fun p => p.1 != conv) }) s

/-- The spare connects in parallel with the channel, or the channel with the spare, at the output boundary (R170). -/
def applyOverlap (c : Nat) (b : Time) (s : State) : State :=
  let k := (groupOf s (c / 8)).cal
  if k.chan != c || !s.mgmt.run then s
  else match k.due with
    | some .connect => startOverlap (c / 8) .connect b s
    | some .reconnect => modCal (c / 8) (fun k => { k with outSince := b }) (startOverlap (c / 8) .overlapOut b s)
    | _ => s

/-- Everything that waits for the output boundary `b` of a channel takes effect (R43, R72, R115, R133, R166, R176,
R190). -/
def applyBoundary (c : Nat) (b : Time) (s : State) : State :=
  let n := c / 4
  let s1 := if leadChan s n == some c then applyGenPending n b s else s
  let s2 := applyCoefs (64 + c / 8) (applyCoefs c s1)
  let s3 := modChan c (fun x => { x with temp := (groupOf s2 (c / 8)).tApplied }) s2
  let s4 := match (chanOf s3 c).pendingCfg with | none => s3 | some p => applyCfg c (mergeCfg p.2 p.1 (chanOf s3 c).cfg) b s3
  let starts := (chanOf s4 c).primary.run == .starting
  let floor := phaseFloor s4 c
  let s5 := modChan c (fun x => { x with
    primary := applyRun b floor x.primary, shadow := applyRun b floor x.shadow
    last := if starts then none else x.last }) s4
  let s6 := applyOverlap c b (if starts then gapAllAt (8 * c + (chanOf s5 c).pos) b s5 else s5)
  let s7 := (List.range 8).foldl (fun acc p => applySub (8 * c + p) b acc) s6
  let s8 := match (chanOf s7 c).pendingPos with
    | none => s7
    | some p => muxChange c p b (modChan c (fun x => { x with pendingPos := none }) s7)
  match (chanOf s8 c).pendingLoop with
  | none => s8
  | some ms => modChan c (fun x => { x with
      pendingLoop := none, loopback := some (b + ms * msU), last := none, sent := none }) (forgetCycle c (cutFade c b s8))

/-! ### Output boundaries (R115) -/

/-- The instant is an output instant of the grid given. -/
def onGrid (o0 : Int) (per : Nat) (t : Time) : Bool := decide (((t : Int) - o0) % ((per * cycU : Nat) : Int) = 0)

/-- The instant is an output boundary of the channel: an output instant of its primary mode's grid, or in a weave of a
conversion of the stroke in progress or of the last one of the stroke before (R115). Stroke boundaries and ends of
settling have rows of their own. -/
def isBoundary (s : State) (c : Nat) (t : Time) : Bool :=
  let x := chanOf s c
  if x.weave.state == .running then
    (match x.weave.tail with
     | some r => (strokeOut s c r (convOf r.stroke)).out == (t : Int)
     | none => false) ||
    match x.weave.cur with
    | none => false
    | some r =>
      let o1 := (strokeOut s c r 1).out
      let per := cyclesPer r.stroke.mode none
      let last := o1 + ((convOf r.stroke - 1 : Nat) : Int) * ((per * cycU : Nat) : Int)
      onGrid o1 per t && decide (o1 ≤ (t : Int)) && decide ((t : Int) ≤ last)
  else onGrid (instOut s c x.primary 0).out (cyclesPer x.primary.mode (bankSel x.primary)) t

/-- PENDING_SETTING_APPLY (R43): at an output boundary of the channel, accepted settings take effect. -/
def execPendingSettingApply (t : Time) (ch : Fin 64) (s0 : State) : Outcome :=
  let s := tick t s0
  if isBoundary s ch.val s.now then .next (applyBoundary ch.val s.now s) else .next s

/-- SETTLING_DELAY_END (R38): the delay is over and the channel's filters start empty. -/
def execSettlingDelayEnd (t : Time) (ch : Fin 64) (s0 : State) : Outcome :=
  let s := tick t s0
  match (chanOf s ch.val).settleEnd with
  | none => .next s
  | some e =>
    if s.now < e then .next s
    else .next (restartChan ch.val e false (modChan ch.val (fun x => { x with settleEnd := none }) s))

end Sys2Proof.Machine
end

