-- ==== Sys2Proof/Machine/Route.lean ====
section
/-! DEFINITION. The common form of a mailbox command (R334 to R358) and of a record of an image (R383, R384). -/

namespace Sys2Proof.Machine

/-- The groups named by a mask of `n` items, `per` items to a group, from bit 0 of Q1. -/
def maskGroups (q : Word) (n per : Nat) : List Island :=
  ((List.range n).filter (fun i => fbit q i)).map (fun i => daqIsland (i / per))

/-- The group of a converter: channels 0 to 63, spares 64 to 71 (R104). -/
def convIsland (conv : Nat) : Island := daqIsland (if conv < 64 then conv / 8 else conv - 64)

/-- The islands whose registers a command accesses (R12, R14). -/
def targets (op : Nat) (q : Word) : List Island :=
  match op / 256 with
  | 0x10 => if op = 0x1005 then [] else [daqIsland (fld q 0 6 / 8)]
  | 0x11 => if op = 0x1103 then [daqIsland (fld q 0 6 / 8)] else [daqIsland (fld q 0 4 / 2)]
  | 0x12 => if op = 0x1207 then maskGroups q 8 1 else [daqIsland (fld q 0 6 / 8)]
  | 0x13 => if op = 0x1302 ∨ op = 0x1303 then maskGroups q 64 8 else [daqIsland (fld q 0 6 / 8)]
  | 0x14 =>
    match op with
    | 0x1401 => [daqIsland (fld q 0 6 / 8)]
    | 0x1402 => maskGroups q 64 8
    | 0x1403 => maskGroups q 8 1
    | 0x1405 => [convIsland (fld q 0 7)]
    | 0x1406 => maskGroups q 64 8 ++ ((List.range 8).filter (fun i => fbit q (64 + i))).map (fun i => daqIsland i)
    | _ => []
  | 0x15 => if fbit q (if op = 0x1501 then 52 else 10) then [.xbar] else if fld q 0 10 < 512 then [daqIsland (fld q 0 10 / 64)] else [.oper]
  | 0x30 => [lineIsland (fld q 0 1)]
  | 0x31 => [lineIsland (fld q 0 1)]
  | 0x32 => [.xbar]
  | 0x33 => [.ethm]
  | 0x40 => if op = 0x4006 then [] else if op = 0x4007 then [.basin, .xbar] else [.basin]
  | 0x41 => [.oper]
  | _ => []

/-- A control access to a gated island, or to one in reset, completes with an error, and the command that issued it ends with
`RESOURCE_FAILED` (R14, R456). -/
def reaching (op : Nat) (own : Request → State → Reply) (rq : Request) (s : State) : Reply :=
  let r := own rq s
  let q := qword rq 1
  let portOff := op / 256 == 0x33 && s.clk.gated.getLsbD (10 + fld q 0 1)
  if (r.long || decide (0 < r.done)) && (portOff || !(targets op q).all (isUp s)) then deny stResourceFailed s else r

/-- A mailbox command whose opcode exists: checked, executed and answered (R334 to R358). -/
def command (op : Nat) (lenOk : Nat → Bool) (own : Request → State → Reply) (t : Time) (rq : Request) (s : State) :
    Outcome := .next (serve op true lenOk false routedTo (reaching op own rq) t rq s)

/-- A command that judges a sag warning itself (R358, R406). -/
def commandSupply (op : Nat) (lenOk : Nat → Bool) (own : Request → State → Reply) (t : Time) (rq : Request) (s : State) :
    Outcome := .next (serve op true lenOk true routedTo (reaching op own rq) t rq s)

/-- Lengths of a request (R356). -/
def lenIs (n : Nat) : Nat → Bool := fun k => k == n
def lenIn (a b : Nat) : Nat → Bool := fun k => decide (a ≤ k) && decide (k ≤ b)

/-- The result of an own check: the first failing status decides (R358). -/
def checks (cs : List (Bool × BitVec 16)) : Option (BitVec 16) :=
  match cs with
  | [] => none
  | (bad, st) :: rest => if bad then some st else checks rest

/-- A parameter refusal: the statuses that refuse a configuration image (R383). -/
def paramStatus (st : BitVec 16) : Bool := st == stBadParam || st == stBadLength || st == stDenied

/-- The same for a record of an image (`img`): only parameter refusals count (R383, R384). -/
def checksIn (img : Bool) (cs : List (Bool × BitVec 16)) : Option (BitVec 16) :=
  checks (if img then cs.filter (fun c => paramStatus c.2) else cs)

/-- Answer the first failing check, or go on. -/
def guardedIn (img : Bool) (cs : List (Bool × BitVec 16)) (s : State) (go : Unit → Reply) : Reply :=
  match checksIn img cs with
  | some st => deny st s
  | none => go ()

/-- A channel that a long command still holds (R352). -/
def heldChans (s : State) (cs : List Nat) : Bool := cs.any (fun c => isHeld s (.channel c))

/-- Answer the first failing check, or go on. -/
def guarded (cs : List (Bool × BitVec 16)) (s : State) (go : Unit → Reply) : Reply :=
  match checks cs with
  | some st => deny st s
  | none => go ()

end Sys2Proof.Machine
end

