-- ==== Sys2Proof/Machine/Slots.lean ====
section
/-! DEFINITION. Arming an action slot (R228 to R230, R237) and the event of a slot (R241). Firing is in Tact.lean. -/

namespace Sys2Proof.Machine

/-- The lowest-numbered free slot of 0 to 62 (R228). -/
def freeSlot (s : State) : Option Nat :=
  (List.range 63).find? (fun i => (s.tact.slots.getD i none).isNone)

/-- Change a slot. -/
def putSlot (i : Nat) (a : Option SlotArm) (s : State) : State :=
  { s with tact := { s.tact with slots := s.tact.slots.set i a } }

/-- The policy in force: DEFAULT means REJECT for a one-shot slot and ALIGN for a periodic one (R237). 1 REJECT,
2 FIRE_LATE, 3 ALIGN. -/
def latePolicy (a : SlotArm) : Nat := if a.late = 0 then (if a.period = 0 then 1 else 3) else a.late

/-- Target of occurrence `k`, timebase in 2^-16 ns (R230). -/
def occTarget (a : SlotArm) (k : Nat) : Nat := a.target + k * a.period * 256

/-- Occurrences whose target lies before `tb` (R198, R237), bounded by the slot's count (R230). -/
def occBefore (a : SlotArm) (tb : Nat) : Nat :=
  let past := (tbDiff tb a.target).toNat
  let n := if past = 0 then 0
    else if a.period = 0 then 1
    else (past + a.period * 256 - 1) / (a.period * 256)
  if a.period = 0 then min n 1 else if a.count = 0 then n else min n a.count

/-- What arming does: the slot as armed, the occurrences skipped, and the lateness of a late firing in 2^-16 ns. -/
structure ArmPlan where
  arm : SlotArm
  skipped : Nat
  lateness : Nat
deriving DecidableEq, Repr, Inhabited

/-- *Lateness at arming* (R237): none is `TIME_PAST`. -/
def armPlan (a : SlotArm) (tArm : Nat) : Option ArmPlan :=
  let n := occBefore a tArm
  let all := if a.period = 0 then 1 else a.count
  if n = 0 then some { arm := a, skipped := 0, lateness := 0 }
  else match latePolicy a with
    | 2 =>
      some { arm := { a with
                next := n - 1, skipped := n - 1, skippedSinceEvent := n - 1, lateAt := some tArm
                lastIndex := if n = 1 then none else some (n - 2) },
             skipped := n - 1, lateness := tArm - occTarget a (n - 1) }
    | 3 =>
      if all ≠ 0 ∧ all ≤ n then none
      else some { arm := { a with next := n, skipped := n, lastIndex := some (n - 1) }, skipped := n, lateness := 0 }
    | _ => none

/-- An event of a slot (R241, R369): `f` is the firing instant, `late` the lateness in 2^-16 ns. -/
def slotEvent (i : Nat) (a : SlotArm) (index skipped late f : Nat) (status : BitVec 16) (user : Nat) (s : State) :
    State :=
  emit 0x2101 i a.tag.toNat
    [mkWord [(0, 32, index), (32, 32, skipped), (64, 64, late / 256)],
      mkWord [(0, 16, s.time.epoch), (16, 16, status.toNat), (64, 64, user)]] f s

/-- Arm a slot by its plan; skips at arming are reported when no late firing follows (R241). -/
def armSlot (i : Nat) (p : ArmPlan) (s : State) : State :=
  let s1 := putSlot i (some p.arm) s
  if 0 < p.skipped && p.arm.lateAt.isNone then slotEvent i p.arm (p.skipped - 1) p.skipped 0 (tbNow s) 0 0 s1 else s1

/-- A one-shot slot for a command with a target (R228). -/
def oneShot (target : Word) (kind : SlotKind) (late : Nat) (a : Agent) : SlotArm :=
  { target := ofT96 target, period := 0, count := 0, kind := kind, late := late, reportEach := false, tag := 0,
    agent := a, next := 0, fired := 0, skipped := 0, skippedSinceEvent := 0, lastIndex := none, lateAt := none }

/-- The first whole microsecond of the timebase at least 100 us ahead (R137, R152). -/
def soon (s : State) : Nat := (tbNow s + 100 * usU + usU - 1) / usU * usU

end Sys2Proof.Machine
end

