-- ==== Sys2Proof/Machine/Weave.lean ====
section
/-! DEFINITION. The channel sequencer (R146 to R162, R496) and the WEAVE commands (R364). -/

namespace Sys2Proof.Machine

/-! ### Strokes -/

/-- A stroke's excitation state at boundary `b`: only MC(4n) under FOLLOW commands, never out of TRIPPED, and a repeat of
the current state changes nothing (R65, R83, R85). -/
def strokeExc (c : Nat) (k : Stroke) (b : Time) (s : State) : State :=
  let n := c / 4
  let g := genOf s n
  if c % 4 ≠ 0 ∨ !g.cfg.follow ∨ g.tripped ∨ k.exc = 0 then s
  else
    let mode : ExcMode := if k.exc = 1 then .off else if k.exc = 2 then .dcPlus else .dcMinus
    let new := { g.cfg with mode := mode, amplMv := if k.exc = 1 then g.cfg.amplMv else k.excMv }
    if excDiffers g new then applyGen n new b s else s

/-- The burn-out current of a stroke (R161): `CHECK_CURRENT`, or the channel's configured current when that is 0, in a check
stroke; none in another. -/
def strokeBurn (img : WeaveImg) (k : Stroke) (configured : Nat) : Nat :=
  if !k.burnCheck then 0 else if img.checkCurrent = 0 then configured else img.checkCurrent

/-- The burn-out current that flows at the selected input of a channel (R43, R44, R106, R161): in a weave as the stroke
fixed it at its boundary, none between rounds. -/
def burnFlowing (x : Chan) : Nat :=
  if !x.cfg.enable || x.unsubstituted then 0
  else if x.weave.state == .running then (match x.weave.cur with | some r => r.burn | none => 0)
  else x.cfg.burnout

/-- Stroke `i` of the running weave begins at boundary `b` (R148): position, gain, settling delay and mode of the stroke
take effect, the filter is empty after the settling delay, and what waits for an output boundary takes effect (R115). -/
def beginStroke (c i : Nat) (b : Time) (s : State) : State :=
  let s0 := applyBoundary c b s
  let w := (chanOf s0 c).weave
  match w.image with
  | none => s0
  | some img =>
    let k := img.strokes.getD i default
    let run : StrokeRun :=
      { index := i, stroke := k, begin_ := b, formed := 0, counted := 0, notBefore := 0, merger := mergerStart,
        burn := strokeBurn img k (chanOf s0 c).cfg.burnout
        openWork := (chanOf s0 c).open_.getD k.pos default, openEvs := [] }
    strokeExc c k b (restartOther c (modChan c (fun x => { x with
      pos := k.pos, last := none, sent := none, settleEnd := none, disagree := 0
      cfg := { x.cfg with gain := k.gain, settleUs := k.settleUs }
      primary := { x.primary with mode := k.mode, merger := mergerStart }
      weave := { x.weave with cur := some run } }) s0))

/-- A round begins at `b`. -/
def beginRound (c : Nat) (b : Time) (s : State) : State :=
  beginStroke c 0 b (modWeave c (fun w => { w with roundStart := b }) s)

/-- The weave starts at `t0` (R152, R153), which is an output boundary (R115): a cross-fade is cut short, the shadow stops,
every address gets `GAP_BEFORE` (R156). -/
def beginWeave (c : Nat) (t0 : Time) (s : State) : State :=
  let s1 := applyBoundary c t0 (cutFade c t0 s)
  let x := chanOf s1 c
  let s2 := modChan c (fun y => { y with
    shadow := { y.shadow with run := .stopped }
    weave := { y.weave with
      state := .running, armedAt := none, armedSync := false, armedSlot := false, tStart := t0, round := 0
      roundStart := t0, cur := none, lastStroke := 0, stop := none
      saved := some { pos := x.pos, gain := x.cfg.gain, settleUs := x.cfg.settleUs, burnout := x.cfg.burnout,
                      mode := x.primary.mode } } }) s1
  beginRound c t0 (gapChanAllAt c t0 s2)

/-! ### Ends (R154, R155, R496) -/

/-- The weave ends at `e`: the end action, `GAP_BEFORE` on every address, and the weave-done event.

DESIGN CHOICE (log 101): under DISABLE position, gain, settling delay and filter mode stay as the last stroke set them. -/
def endWeave (c : Nat) (e : Time) (s : State) : State :=
  let x := chanOf s c
  let w := x.weave
  match w.image with
  | none => s
  | some img =>
    let s1 := modWeave c (fun w => { w with state := .idle, cur := none, stop := none }) s
    let s2 := gapChanAllAt c e s1
    let s3 :=
      match img.endAction with
      | 0 =>
        let v := w.saved.getD default
        muxChange c v.pos e (modChan c (fun x => { x with
          cfg := { x.cfg with gain := v.gain, settleUs := v.settleUs, burnout := v.burnout }
          primary := { x.primary with mode := v.mode } }) s2)
      | 1 =>
        let k := img.strokes.getD w.lastStroke default
        restartChan c e false (modChan c (fun x => { x with
          pos := k.pos
          cfg := { x.cfg with gain := k.gain, settleUs := k.settleUs }
          primary := { x.primary with mode := k.mode } }) s2)
      | _ => applyCfg c { x.cfg with enable := false } e s2
    capRefresh c (emit 0x1301 w.lastStroke c [BitVec.ofNat 128 (w.round % 2 ^ 32)] (tbAt s3 e) s3)

/-- The stroke that ended, while its last conversion is still to come (R148, R151). -/
def tailOf (r : StrokeRun) : Option StrokeRun := if r.formed < convOf r.stroke then some r else none

/-- What follows the last stroke of a round at `e`: the end of the weave, the next round, or idleness (R150, R154). -/
def afterRound (c : Nat) (img : WeaveImg) (e : Time) (s : State) : State :=
  let s1 := modWeave c (fun w => { w with round := w.round + 1, cur := none }) s
  let w := (chanOf s1 c).weave
  if w.stop.isSome || (img.rounds != 0 && decide (img.rounds ≤ w.round)) then endWeave c e s1
  else if img.periodUs = 0 ∨ w.roundStart + img.periodUs * usU ≤ e then beginRound c e s1
  else s1

/-- STROKE_BOUNDARY (R148): a stroke ends; the next takes effect, or the round or the weave ends. -/
def execStrokeBoundary (t : Time) (ch : Fin 64) (s0 : State) : Outcome :=
  let s := tick t s0
  let c := ch.val
  let w := (chanOf s c).weave
  match w.state, w.cur, w.image with
  | .running, some r, some img =>
    let e := strokeEnd r
    if s.now < e then .next s
    else
      let s1 := modWeave c (fun w => { w with tail := tailOf r, lastStroke := r.index }) s
      if w.stop == some .strokeEnd && decide (r.index + 1 < img.strokes.length) then
        .next (endWeave c e (modWeave c (fun w => { w with cur := none }) s1))
      else if r.index + 1 < img.strokes.length then .next (beginStroke c (r.index + 1) e s1)
      else .next (afterRound c img e s1)
  | _, _, _ => .next s

/-- ROUND_START (R150): an idle channel begins the next round one period after the last began. -/
def execRoundStart (t : Time) (ch : Fin 64) (s0 : State) : Outcome :=
  let s := tick t s0
  let w := (chanOf s ch.val).weave
  match w.state, w.cur, w.image with
  | .running, none, some img =>
    if s.now < w.roundStart + img.periodUs * usU then .next s
    else .next (beginRound ch.val (w.roundStart + img.periodUs * usU) s)
  | _, _, _ => .next s

/-- WEAVE_ARMED_START (R152): the start register's instant arrives. -/
def execWeaveArmedStart (t : Time) (ch : Fin 64) (s0 : State) : Outcome :=
  let s := tick t s0
  let w := (chanOf s ch.val).weave
  match w.state, w.armedAt with
  | .armed, some a => if s.now < a then .next s else .next (beginWeave ch.val a s)
  | _, _ => .next s

/-- The first modulator edge after an instant (R154). -/
def nextEdge (s : State) (t : Time) : Time :=
  let e : Int := (s.daq.eref : Int)
  let cyc : Int := (cycU : Nat)
  (e + (((t : Int) - e) / cyc + 1) * cyc).toNat

/-- `WEAVE.STOP` on one channel at `f`, modes 0 ROUND_END, 1 STROKE_END, 2 NOW (R154, R496); an armed weave returns to
LOADED (R364). -/
def stopWeave (mode : Nat) (f : Time) (c : Nat) (s : State) : State :=
  let w := (chanOf s c).weave
  match w.state with
  | .armed => modWeave c (fun w => { w with state := .loaded, armedAt := none, armedSync := false }) s
  | .running =>
    if mode = 2 ∨ w.cur.isNone then endWeave c (nextEdge s f) s
    else modWeave c (fun w => { w with stop := some (if mode = 0 then .roundEnd else .strokeEnd) }) s
  | _ => s

/-- R153 for one start: the status that a `WEAVE.START` on these channels gets, without `BUSY`. -/
def startBad (s : State) (cs : List Nat) : Bool :=
  cs.any (fun c => (chanOf s c).weave.image.isNone || !(chanOf s c).cfg.enable || inAc (genOf s (c / 4)))

/-- A weave already runs or is armed on a named channel (R153). -/
def startBusy (s : State) (cs : List Nat) : Bool :=
  cs.any (fun c => (chanOf s c).weave.state == .running || (chanOf s c).weave.state == .armed)

/-! ### Commands (R364) -/

/-- WEAVE.LOAD's own part (R147); `img` for a record of an image, which a running weave does not refuse (R383).

DESIGN CHOICE (log 102): the ownership and the burn-out current that the checks judge are those accepted last, also while they
wait for their boundary. -/
def ownWeaveLoad (img : Bool) (rq : Request) (s : State) : Reply :=
  let q1 := qword rq 1
  let c := fld q1 0 6
  let x := chanOf s c
  let ws := rq.payload.drop 1
  let may := c % 4 == 0 && (effGen (genOf s (c / 4))).follow
  if !img && (x.weave.state == .running || x.weave.state == .armed || heldChans s [c]) then deny stBusy s
  else if !onlyBits q1 [(0, 6)] then deny stBadParam s
  else match weaveCheck ws may (effCfg x).burnout with
    | some st => deny st s
    | none => okay [] (modWeave c (fun w => { w with
        state := if w.state == .running || w.state == .armed then w.state else .loaded, image := some (weaveOf ws) }) s)

/-- WEAVE.LOAD (0x1301). -/
def execWeaveLoad (t : Time) (rq : Request) (s : State) : Outcome := command 0x1301 (lenIn 2 66) (ownWeaveLoad false) t rq s

/-- WEAVE.START's own part (R152, R153). -/
def ownWeaveStart (rq : Request) (s : State) : Reply :=
  let q1 := qword rq 1
  let cs := bitsOf (BitVec.ofNat 64 (fld q1 0 64))
  let trig := fld q1 64 2
  let late := fld q1 66 2
  let tgt := qword rq 2
  let arm := oneShot tgt (.weaveStart (BitVec.ofNat 64 (fld q1 0 64))) late rq.agent
  let armAll := fun (f : WeaveSt → WeaveSt) (s : State) =>
    forChans cs (fun c => modWeave c (fun w => f { w with state := .armed })) s
  let bad := !onlyBits q1 [(0, 68)] || trig == 3 || startBad s cs ||
    (trig == 1 && (!t96Form tgt || !t96Near s tgt || late == 3))
  if bad then deny stBadParam s
  else if startBusy s cs || heldChans s cs then deny stBusy s
  else match trig with
    | 0 =>
      let tb := soon s
      okay [mkWord [(0, 96, t96 tb), (96, 6, 63)]] (armAll (fun w => { w with armedAt := some (localOf s tb) }) s)
    | 1 =>
      match freeSlot s, armPlan arm (tbNow s) with
      | none, _ => deny stBusy s
      | _, none => deny stTimePast s
      | some i, some p =>
        okay [mkWord [(0, 96, t96 arm.target), (96, 6, i)]] (armSlot i p (armAll (fun w => { w with armedSlot := true }) s))
    | _ => okay [mkWord [(96, 6, 63)]] (armAll (fun w => { w with armedSync := true }) s)

/-- WEAVE.START (0x1302): LEN 1, or 2 with TRIGGER TIME. -/
def execWeaveStart (t : Time) (rq : Request) (s : State) : Outcome :=
  command 0x1302 (lenIs (if fld (qword rq 1) 64 2 = 1 then 2 else 1)) ownWeaveStart t rq s

/-- WEAVE.STOP's own part (R154, R364). -/
def ownWeaveStop (rq : Request) (s : State) : Reply :=
  let q1 := qword rq 1
  let cs := bitsOf (BitVec.ofNat 64 (fld q1 0 64))
  if !onlyBits q1 [(0, 66)] || fld q1 64 2 == 3 then deny stBadParam s
  else if cs.any (fun c => (chanOf s c).weave.armedSlot) || heldChans s cs then deny stBusy s
  else okay [] (forChans cs (stopWeave (fld q1 64 2) s.now) s)

/-- WEAVE.STOP (0x1303). -/
def execWeaveStop (t : Time) (rq : Request) (s : State) : Outcome := command 0x1303 (lenIs 1) ownWeaveStop t rq s

/-- Weave state code of `WEAVE.STATUS`. -/
def weaveCode : WeaveState → Nat
  | .idle => 0 | .loaded => 1 | .armed => 2 | .running => 3

/-- WEAVE.STATUS's own part (R157). -/
def ownWeaveStatus (rq : Request) (s : State) : Reply :=
  let q1 := qword rq 1
  let w := (chanOf s (fld q1 0 6)).weave
  let stroke := match w.cur with | some r => r.index | none => w.lastStroke
  if !onlyBits q1 [(0, 6)] then deny stBadParam s
  else okay [snap s,
    mkWord [(0, 2, weaveCode w.state), (2, 6, stroke), (8, 32, w.round),
      (40, 32, (w.image.getD default).tag.toNat)],
    mkWord ((List.range 8).map (fun p => (16 * p, 16, w.incomplete.getD p 0))),
    mkWord [(0, 96, if w.state == .running then t96 (tbAt s w.tStart) else 0)]] s

/-- WEAVE.STATUS (0x1304). -/
def execWeaveStatus (t : Time) (rq : Request) (s : State) : Outcome := command 0x1304 (lenIs 1) ownWeaveStatus t rq s

end Sys2Proof.Machine
end

