-- ==== Sys2Proof/Machine/Cal.lean ====
section
/-! DEFINITION. Calibration (R163 to R178), the spare as substitute (R104 to R112), and the CAL commands (R365). -/

namespace Sys2Proof.Machine

/-! ### Storing (R178, R441) -/

/-- The NV store may be written: a pair runs and no sag warning stands (R23, R406). -/
def nvWritable (s : State) : Bool := s.mgmt.run && !s.pwr.sagWarn

/-- Change the calibration region of the NV store. -/
def modCalNv (f : CalRegion → CalRegion) (s : State) : State :=
  { s with nv := { s.nv with cal := f s.nv.cal, writesSince := s.nv.writesSince + 1 } }

/-- The recorded history of a converter and gain code, newest first. -/
def historyOf (s : State) (conv code : Nat) : List CoefSet :=
  match s.nv.cal.history.find? (fun h => h.1 == conv && h.2.1 == code) with
  | some h => h.2.2
  | none => []

/-- The history with one more completed set per gain code, newest first, at most 16 (R178). -/
def pushHistory (s : State) (conv : Nat) (old : List (Nat × Nat × List CoefSet)) : List (Nat × Nat × List CoefSet) :=
  (List.range 9).foldl (fun acc g =>
    upsert acc (fun h => h.1 == conv && h.2.1 == g) (conv, g, (coefFor s conv g :: historyOf s conv g).take 16)) old

/-- A converter's sets in force are written to the NV store as one record, with its history where they come from a
completed calibration, or wait while a sag warning stands (R178). -/
def storeSets (conv : Nat) (completed : Bool) (s : State) : State :=
  if nvWritable s then
    modDaq (fun d => { d with calStoreDue := d.calStoreDue.filter (·.1 != conv) })
      (modCalNv (fun r => { calAppend conv ((List.range 9).map (fun g => (g, coefFor s conv g))) r with
        valid := true, history := if completed then pushHistory s conv r.history else r.history }) s)
  else
    let due := (conv, completed || s.daq.calStoreDue.contains (conv, true))
    modDaq (fun d => { d with calStoreDue := upsert d.calStoreDue (fun e => e.1 == conv) due }) s

/-- Failed and soft-faulted channels that the NV store does not name yet are recorded (R111, R173). -/
def recordFailures (s : State) : State :=
  let bad := (List.range 64).filter (fun c => (chanOf s c).failed && !s.nv.cal.failed.contains c)
  let soft := (List.range 64).filter (fun c => (chanOf s c).softFaulted && !s.nv.cal.softFaulted.contains c)
  if nvWritable s && !(bad.isEmpty && soft.isEmpty) then
    modCalNv (fun r => { r with failed := r.failed ++ bad, softFaulted := r.softFaulted ++ soft }) s
  else s

/-- What waited is written when the warning clears or a pair runs again. -/
def flushStores (s : State) : State :=
  recordFailures (s.daq.calStoreDue.foldl (fun acc c => storeSets c.1 c.2 acc) s)

/-- A converter takes the sets that the NV store holds for it, or the factory sets, with an event where no valid copy
exists (R178, R441). -/
def loadConv (conv : Nat) (s : State) : State :=
  let r := s.nv.cal
  let s1 := modDaq (fun d => { d with
    coef := d.coef.set conv ((List.range 9).map (fun g => (storedSet r conv g).getD (Config.factory conv g)))
    coefPending := d.coefPending.filter (fun p => p.1 != conv)
    calStoreDue := d.calStoreDue.filter (fun p => p.1 != conv) }) s
  if (List.range 9).any (storedLost r conv) then emitNow 0x1408 0 conv [] s1 else s1

/-- Keep a number within a signed field. -/
def clampS (len : Nat) (i : Int) : Int := max (-((2 ^ (len - 1) : Nat) : Int)) (min (((2 ^ (len - 1) - 1 : Nat)) : Int) i)

/-- A least-squares slope of `y` over temperature, times `scale` (R177); none without spread. -/
def slopeFit (ps : List (Int × Int)) (scale : Int) : Option Int :=
  let n : Int := (ps.length : Int)
  let sx := (ps.map (·.1)).foldl (· + ·) 0
  let sy := (ps.map (·.2)).foldl (· + ·) 0
  let sxy := (ps.map (fun p => p.1 * p.2)).foldl (· + ·) 0
  let sxx := (ps.map (fun p => p.1 * p.1)).foldl (· + ·) 0
  let d := n * sxx - sx * sx
  if d ≤ 0 then none else some (roundDiv (scale * (n * sxy - sx * sy)) d.toNat)

/-- The new set with its slopes refitted over the last 16 when they span 5 °C, else the slopes in force (R177). -/
def refit (hist : List CoefSet) (old new : CoefSet) : CoefSet :=
  let all := (new :: hist).take 16
  let ts := all.map (·.calTemp)
  let hi := ts.foldl max new.calTemp
  let lo := ts.foldl min new.calTemp
  let keep := { new with gainSlope := old.gainSlope, dfeSlope := old.dfeSlope }
  if hi - lo < 640 then keep
  else
    let gs := slopeFit (all.map (fun k => (k.calTemp, k.hgGain))) 128
    let ds := slopeFit (all.map (fun k => (k.calTemp, (k.dfe : Int)))) 32768
    { new with gainSlope := clampS 16 (gs.getD old.gainSlope), dfeSlope := clampS 16 (ds.getD old.dfeSlope) }

/-- The sets that a completed calibration leaves for a converter: count, source, slopes; `RATIO_GAIN` stays where the
loop-back was skipped (R164, R165, R177). -/
def finishSets (s : State) (conv source : Nat) (loopOk : Bool) (sets : CalResult) : List CoefSet :=
  (List.range 9).map (fun g =>
    let old := coefFor s conv g
    let new := sets.getD g old
    refit (historyOf s conv g) old { new with
      calCount := min 65535 (old.calCount + 1), source := source
      ratioGain := if loopOk then new.ratioGain else old.ratioGain })

/-- Sets of a completed calibration come into force and are recorded and stored (R175, R178). -/
def putSets (conv : Nat) (sets : List CoefSet) (s : State) : State :=
  storeSets conv true (modDaq (fun d => { d with
    coef := d.coef.set conv sets, coefPending := d.coefPending.filter (fun p => p.1 != conv) }) s)

/-! ### The cycle (R167 to R169) -/

/-- Refresh every group. -/
def calRefreshAll (s : State) : State := (List.range 8).foldl (fun acc g => calRefresh g acc) s

/-- A slot ends: the spare that served it is free (R168). A completed slot in turn moves the cycle on to the next channel
(R167). -/
def endSlotAs (completed : Bool) (g : Nat) (s : State) : State :=
  calRefresh g (modGroup g (fun x => { x with
    spare := if x.spare == .calibrating then .free else x.spare
    cal := { x.cal with phase := .idle, due := none, newSets := [], release := false, abandoned := false,
                        secondCal := false, secondTry := false, spareBad := false,
                        nextChan := if completed && !x.cal.slotOut then (x.cal.chan + 1) % 8 else x.cal.nextChan } }) s)

/-- A slot ends in the regular way. -/
def endSlot (g : Nat) (s : State) : State := endSlotAs (!(groupOf s g).cal.abandoned) g s

/-- A channel goes out of turn (R169), once. -/
def bringForward (c : Nat) (s : State) : State :=
  modCal (c / 8) (fun k => { k with
    outOfTurn := if k.outOfTurn.contains c then k.outOfTurn else k.outOfTurn ++ [c] }) s

/-- Included channels of a group, from `nextChan` on, in the cycle's order (R167). -/
def nextIncluded (s : State) (g : Nat) : Option Nat :=
  let from_ := (groupOf s g).cal.nextChan
  ((List.range 8).map (fun i => 8 * g + (from_ + i) % 8)).find? (fun c => (s.daq.calSet.getD c default).included)

/-- When the next slot is due: as the cycle set it, at first 60 s after the group's first record (R167). -/
def slotDue (s : State) (g : Nat) : Option Time :=
  let x := groupOf s g
  match x.cal.nextSlotAt with
  | some a => some a
  | none => x.firstRecord.map (fun a => a + 60 * secU)

/-- A slot starts on channel `c` (R167, R168). -/
def startSlot (g c : Nat) (outOf : Bool) (s : State) : State :=
  let on := (chanOf s c).cfg.enable
  modGroup g (fun x => { x with
    spare := if on then .calibrating else x.spare
    cal := { x.cal with
      phase := if on then .spareCheck else .calibrating
      chan := c
      slotIndex := x.cal.slotIndex + 1
      slotStart := s.now
      nextSlotAt := some (s.now + (s.daq.calSet.getD c default).periodS * secU)
      outOfTurn := if outOf then x.cal.outOfTurn.filter (· != c) else x.cal.outOfTurn
      slotOut := outOf, release := false, secondTry := false, secondCal := false, newSets := [], due := none, retryAt := none
      delayedRaised := false, abandoned := false, spareBad := false } }) s

/-- CAL_SLOT_START (R167, R168): the slot starts if the temperature has changed by at most 1 °C over 10 s, in units of
1/128 °C; otherwise it waits 10 s, a slot out of turn too. -/
def execCalSlotStart (t : Time) (g : Fin 8) (tempChange : Nat) (s0 : State) : Outcome :=
  let s := tick t s0
  let k := (groupOf s g.val).cal
  let due := match slotDue s g.val with | some a => decide (a ≤ s.now) | none => false
  if !isUp s (daqIsland g.val) || !k.running || k.phase != .idle || (calBlock s g.val).isSome then .next s
  else match k.outOfTurn with
    | c :: _ =>
      if (match k.retryAt with | some a => decide (s.now < a) | none => false) then .next s
      else if 128 < tempChange then .next (modCal g.val (fun k => { k with retryAt := some (s.now + 10 * secU) }) s)
      else .next (startSlot g.val c true s)
    | [] =>
      if !due then .next s
      else if 128 < tempChange then
        .next (modCal g.val (fun k => { k with nextSlotAt := some (s.now + 10 * secU) }) s)
      else match nextIncluded s g.val with
        | some c => .next (startSlot g.val c false s)
        | none => .next s

/-- CAL_SPARE_CHECK_DONE (R168, R170): the spare connects in parallel with the channel at the next output boundary. -/
def execCalSpareCheckDone (t : Time) (g : Fin 8) (s0 : State) : Outcome :=
  let s := tick t s0
  if (groupOf s g.val).cal.phase == .spareCheck && s.mgmt.run then
    .next (modCal g.val (fun k => { k with due := some .connect }) s)
  else .next s

/-! ### Comparisons (R171, R173) -/

/-- |mean| of the pairs is at most 5 ppm of HG full scale, 335.544 codes (R171). -/
def meanOk (sum : Int) (pairs : Nat) : Bool := decide (sum.natAbs * 1000 ≤ 335544 * pairs)

/-- Extra word of the comparison events: mean difference in 1/256 code and number of pairs (R173, R369). -/
def pairWord (sum : Int) (pairs : Nat) : Word :=
  mkWord [(0, 32, asField (if pairs = 0 then 0 else roundDiv (sum * 256) pairs) 32), (32, 32, pairs)]

/-- The spare is declared failed: channel-failed event with the group, and the cycle stops (R110, R173). -/
def spareFails (g : Nat) (firstBad : Time) (s : State) : State :=
  calRefresh g (emit 0x1005 5 g [] (tbAt s firstBad) (modGroup g (fun x => { x with spare := .failed }) s))

/-- CAL_OVERLAP_CLOSE (R171, R173): after 1 s and 32 valid pairs the comparison passes or fails. -/
def execCalOverlapClose (t : Time) (g : Fin 8) (s0 : State) : Outcome :=
  let s := tick t s0
  let k := (groupOf s g.val).cal
  let closes := match k.firstPair with
    | some a => decide (a + secU ≤ s.now) && decide (32 ≤ k.pairs) && k.due.isNone && s.mgmt.run
    | none => false
  if !closes then .next s
  else
  let s := modCal g.val (fun k => { k with closeAt := s.now }) s
  match k.phase with
    | .connect =>
      if meanOk k.sumNew k.pairs then .next (modCal g.val (fun k => { k with due := some .toSpare }) s)
      else .next (modCal g.val (fun k => { k with phase := .recheckIn }) s)
    | .overlapOut =>
      if !k.newSets.isEmpty && meanOk k.sumNew k.pairs then
        .next (modCal g.val (fun k => { k with due := some .backNew }) s)
      else if meanOk k.sumOld k.pairs then
        let s1 := modCal g.val (fun k => { k with due := some .backOld }) s
        .next (if k.newSets.isEmpty then s1
          else emitNow 0x1403 0 k.chan [pairWord k.sumNew k.pairs] s1)
      else if !k.secondCal then
        .next (modCal g.val (fun k => { k with phase := .calibrating, secondCal := true, newSets := [] }) s)
      else .next (modCal g.val (fun k => { k with phase := .recheckOut }) s)
    | _ => .next s

/-- Records of the channel come from the other converter, whose merger goes on (R170). -/
def switchTo (c : Nat) (sub : Subst) (m : Merger) (s : State) : State :=
  modChan c (fun x => { x with
    subst := sub
    primary := { x.primary with merger := m }
    disagree := 0
    weave := { x.weave with cur := x.weave.cur.map (fun r => { r with merger := m }) } }) s

/-- The calibration-done event: change of `HG_GAIN` and `DFE` per gain code (R170, R369). -/
def calDoneWords (old new : List CoefSet) : List Word :=
  let d := fun (i : Nat) =>
    let o := old.getD i default
    let n := new.getD i default
    if i < 9 then asField (n.hgGain - o.hgGain) 32 + asField ((n.dfe : Int) - (o.dfe : Int)) 32 * 2 ^ 32 else 0
  (List.range 5).map (fun w => mkWord [(0, 64, d (2 * w)), (64, 64, d (2 * w + 1))])

/-- The handback (R170 step 6, R173): the channel's records come from itself again; a release ends with the record of its
failure cleared (R111). -/
def handBack (g c : Nat) (new : Bool) (s : State) : State :=
  let k := (groupOf s g).cal
  let old := s.daq.coef.getD c []
  let s1 := switchTo c .none k.otherMerger s
  let s2 := if new then emitNow 0x1401 c 0 (calDoneWords old k.newSets) (putSets c k.newSets s1) else s1
  let s3 := if k.release then
      endHolder (.channel c) stOk 3 (modCalNv (fun r => { r with
        failed := r.failed.filter (· != c), softFaulted := r.softFaulted.filter (· != c) })
        (modChan c (fun x => { x with failed := false, softFaulted := false, changeover := none })
          (modGroup g (fun x => { x with spare := if x.spare == .failed then .failed else .free }) s2)))
    else s2
  let bad := k.spareBad
  let s4 := endSlot g s3
  if bad then spareFails g s4.now s4 else s4

/-- CAL_HANDOVER_SWITCH (R170): at the output boundary after a passing comparison, or where a converter connects in
parallel; firmware makes it, so a pair must run (R23). -/
def execCalHandoverSwitch (t : Time) (g : Fin 8) (s0 : State) : Outcome :=
  let s := tick t s0
  let k := (groupOf s g.val).cal
  if !isBoundary s k.chan s.now || !s.mgmt.run then .next s
  else match k.due with
    | some .connect => .next (applyOverlap k.chan s.now s)
    | some .reconnect => .next (applyOverlap k.chan s.now s)
    | some .toSpare =>
      .next (modCal g.val (fun k => { k with phase := .calibrating, due := none, outSince := s.now })
        (switchTo k.chan .calibration k.otherMerger s))
    | some .backNew => .next (handBack g.val k.chan true s)
    | some .backOld => .next (handBack g.val k.chan false s)
    | none => .next s

/-- CAL_MEASUREMENT_DONE (R163, R170): the channel has measured all gain codes and reconnects at the next output boundary; a
disabled channel takes the sets at once (R175). A result outside its limits brings the channel forward (R169). -/
def execCalMeasurementDone (t : Time) (g : Fin 8) (sets : CalResult) (inLimits : Bool) (s0 : State) : Outcome :=
  let s := tick t s0
  let k := (groupOf s g.val).cal
  let c := k.chan
  if k.phase != .calibrating || k.due.isSome || !s.mgmt.run then .next s
  else
    let s := if inLimits then s else bringForward c s
    let fin := finishSets s c (if k.slotOut || k.release then 2 else 1) (ratioValid (genOf s (c / 4))) sets
    if (chanOf s c).subst == .none then .next (endSlot g.val (putSets c fin s))
    else .next (modCal g.val (fun k => { k with newSets := fin, due := some .reconnect }) s)

/-- SPARE_RECHECK_DONE (R173): the verdict on which converter to distrust. -/
def execSpareRecheckDone (t : Time) (g : Fin 8) (good : Bool) (s0 : State) : Outcome :=
  let s := tick t s0
  let k := (groupOf s g.val).cal
  let c := k.chan
  let ev := emit 0x1402 (b2n (!good)) c [pairWord k.sumNew k.pairs] (tbAt s k.closeAt)
  match k.phase with
  | .recheckIn =>
    if good then .next (endSlot g.val (ev s))
    else if k.secondTry then .next (spareFails g.val s.now (endSlot g.val (ev s)))
    else .next (ev (modCal g.val (fun k => { k with phase := .spareRecal }) s))
  | .recheckOut =>
    if good then
      let s2 := recordFailures (ev (modChan c (fun x => { x with softFaulted := true, subst := .softFault }) s))
      let s3 := if k.release then endHolder (.channel c) stResourceFailed 1 s2 else s2
      .next (endSlot g.val (modGroup g.val (fun x => { x with spare := .substituting c }) s3))
    else .next (ev (modCal g.val (fun k => { k with phase := .overlapOut, due := some .backOld, spareBad := true }) s))
  | _ => .next s

/-- SPARE_RECALIBRATION_DONE (R173): the spare has recalibrated its gain codes, and the slot restarts once. -/
def execSpareRecalibrationDone (t : Time) (g : Fin 8) (sets : CalResult) (s0 : State) : Outcome :=
  let s := tick t s0
  if (groupOf s g.val).cal.phase == .spareRecal && s.mgmt.run then
    .next (modCal g.val (fun k => { k with phase := .spareCheck, secondTry := true })
      (putSets (64 + g.val) (finishSets s (64 + g.val) 1 false sets) s))
  else .next s

/-- 64 record intervals of a channel in local time (R172). -/
def intervals64 (s : State) (c : Nat) : Nat :=
  let x := chanOf s c
  match x.weave.state, x.weave.image with
  | .running, some img => 64 * roundCycles img * cycU / max 1 (img.strokes.map (·.keep)).sum
  | _, _ => 64 * cyclesPer x.primary.mode (bankSel x.primary) * cycU

/-- CAL_OVERLAP_LIMIT (R172): fewer than 32 valid pairs at the limit. -/
def execCalOverlapLimit (t : Time) (g : Fin 8) (s0 : State) : Outcome :=
  let s := tick t s0
  let k := (groupOf s g.val).cal
  if k.overlapStart + max (10 * secU) (intervals64 s k.chan) ≤ s.now && decide (k.pairs < 32) && s.mgmt.run then
    match k.phase with
    | .connect => .next (endSlot g.val (emitNow 0x1404 0 k.chan [] s))
    | .overlapOut => .next (startOverlap g.val .overlapOut s.now s)
    | _ => .next s
  else .next s

/-- CAL_HANDBACK_DELAYED (R172): 60 s of overlap-out without a handback, raised once. -/
def execCalHandbackDelayed (t : Time) (g : Fin 8) (s0 : State) : Outcome :=
  let s := tick t s0
  let k := (groupOf s g.val).cal
  if k.phase == .overlapOut && decide (k.outSince + 60 * secU ≤ s.now) && !k.delayedRaised then
    .next (emitNow 0x1405 0 k.chan [] (modCal g.val (fun k => { k with delayedRaised := true }) s))
  else .next s

/-! ### Interruptions (R109, R175) -/

/-- Another converter takes over the channel's input, and converts from `from_` on (R106, R107, R109): its filters start
empty, its mergers restart, and a cross-fade is abandoned with the primary's configuration. -/
def newConverter (c : Nat) (from_ : Time) (s : State) : State :=
  modChan c (fun x => { x with
    changeover := some from_, fade := .normal, held := [], shadowHeld := [], disagree := 0
    primary := { x.primary with merger := mergerStart }
    shadow := { x.shadow with merger := mergerStart, start := max x.shadow.start from_, bySync := false }
    weave := { x.weave with
      cur := x.weave.cur.map (fun r => { r with merger := mergerStart })
      tail := x.weave.tail.map (fun r => { r with merger := mergerStart }) } }) s

/-- The channel under calibration takes its input back at once: filter and merger restart, and its records follow R107
without `SUBSTITUTED` (R109). -/
def takeBack (c : Nat) (s : State) : State := newConverter c s.now (modChan c (fun x => { x with subst := .none }) s)

/-- A calibration that the spare serves is abandoned for a failure (R109): the spare is free for it. -/
def abandonForFailure (g : Nat) (s : State) : State :=
  let k := (groupOf s g).cal
  if k.phase == .idle || k.release || (groupOf s g).spare != .calibrating then s
  else
    let s1 := if (chanOf s k.chan).subst == .calibration then takeBack k.chan s else s
    modGroup g (fun x => { x with spare := .free, cal := { x.cal with phase := .idle, due := none, newSets := [] } }) s1

/-- A release that the spare's failure cuts short (R111): the command ends, with the built-in test done or not. -/
def releaseFails (g : Nat) (s : State) : State :=
  let k := (groupOf s g).cal
  if k.phase == .idle || !k.release then s
  else endHolder (.channel k.chan) stResourceFailed (if k.phase == .bist then 0 else 1)
    (modCal g (fun k => { k with phase := .idle, due := none, newSets := [], release := false }) s)

/-- `CAL.STOP` with abandon (R175): a substituting spare hands back through overlap-out with the previous
coefficients. -/
def abandonSlot (g : Nat) (s : State) : State :=
  let k := (groupOf s g).cal
  if k.phase == .idle || k.release then s
  else if (chanOf s k.chan).subst == .calibration then
    let s1 := modCal g (fun k => { k with newSets := [], abandoned := true, outSince := s.now }) s
    if k.phase == .overlapOut then startOverlap g .overlapOut s.now s1
    else modCal g (fun k => { k with phase := .calibrating, due := some .reconnect }) s1
  else endSlotAs false g s

/-- Management is lost or changes over (R175): every calibration is abandoned; a release leaves its substitution. -/
def abandonAll (s : State) : State :=
  (List.range 8).foldl (fun acc g =>
    if (groupOf acc g).cal.release then endSlot g acc else calRefresh g (abandonSlot g acc)) s

/-! ### Failures (R104 to R111) -/

/-- The spare connects to a failed channel from two cycles after `t0`, and converts 2,048 cycles later (R106). -/
def substitute (g c : Nat) (t0 : Time) (s : State) : State :=
  newConverter c (t0 + 2050 * cycU) (modChan c (fun y => { y with subst := .failure, unsubstituted := false })
    (modGroup g (fun q => { q with spare := .connecting c (t0 + 2 * cycU) }) s))

/-- A failed channel has no substitute: no records, and `GAP_BEFORE` on each address later (R110). -/
def unsubstitute (c : Nat) (s : State) : State :=
  gapChanAll c (modChan c (fun x => { x with
    unsubstituted := true, subst := .none, fade := .normal, held := [], shadowHeld := [] }) s)

/-- A record whose window holds bad samples, with the value and `PATH` of the last good one instead (R105, R107). -/
def heldWord (good : Option Word) (w : Word) : Word :=
  let v := match good with | some g => recValue g | none => 0
  let path := match good with | some g => fbit g 1 | none => false
  let keep := recFlags w &&& flagsOf [(fOpen, true), (fBlanked, true), (fExcPol, true), (fDomain, true), (fUncertain, true)]
  mkWord [(96, 32, asField v 32), (12, 84, fld w 12 84),
    (0, 12, (keep ||| flagsOf [(fSettling, true), (fSubst, true), (fPath, path)]).toNat)]

/-- The records still in the hold of R105 that end at or after the first bad sample: a modulator-level detector keeps them
from their destinations. With a substitute they become held values, without one they are dropped (R107, R110). -/
def withholdBad (c : Nat) (substituted : Bool) (firstBad : Time) (s : State) : State :=
  let x := chanOf s c
  let good := x.formed.filter (fun r => decide (r.out < (firstBad : Int)))
  let lastGood := match good.getLast? with | some r => some r.word | none => x.sent
  let bad := x.formed.filter (fun r => decide ((firstBad : Int) ≤ r.out))
  modChan c (fun x => { x with
    formed := good ++ (if substituted then bad.map (fun r => { r with word := heldWord lastGood r.word }) else [])
    last := match lastGood with
      | some w => some { value := recValue w, flags := recFlags w &&& valueFlags }
      | none => if bad.isEmpty then x.last else none }) s

/-- CHANNEL_FAILURE_DETECT (R104 to R111, R175): a detector trips on channel `8 g + ch`, or on the spare. Detectors: 0 stuck
modulator, 1 unexplained overload, 2 chopper clock, 3 storage, 4 gross path disagreement, which the outputs themselves
show. -/
def execChannelFailureDetect (t : Time) (g : Fin 8) (ch : Option (Fin 8)) (detector : Fin 5) (firstBad : Time)
    (s0 : State) : Outcome :=
  let s := tick t s0
  let apart := fun (c : Nat) => detector.val != 4 || decide (4 ≤ (chanOf s c).disagree)
  let serves := fun (c : Nat) =>
    if apart c then
      let s1 := if detector.val < 3 then withholdBad c false firstBad s else s
      spareFails g.val firstBad (releaseFails g.val (unsubstitute c s1))
    else s
  match ch with
  | none =>
    match (groupOf s g.val).spare with
    | .failed => .next s
    | .substituting c => .next (serves c)
    | .connecting c _ => .next (serves c)
    | .settling c _ => .next (serves c)
    | _ => .next (spareFails g.val firstBad (abandonForFailure g.val s))
  | some i =>
    let c := 8 * g.val + i.val
    let x := chanOf s c
    let k := (groupOf s g.val).cal
    if x.failed || !isUp s (daqIsland g.val) || (x.subst == .none && !apart c) then .next s
    else
      let faded := x.fade != .normal
      let s1 := recordFailures (modChan c (fun y => { y with failed := true, failedBy := detector.val }) s)
      let ev := fun (uns : Bool) (s : State) =>
        emit 0x1005 detector.val (c + b2n uns * 64 + b2n faded * 128) [] (tbAt s firstBad) s
      if x.subst == .calibration then
        .next (ev false (calRefresh g.val (modChan c (fun y => { y with
            subst := .failure, fade := .normal, held := [], shadowHeld := [] })
          (modGroup g.val (fun q => { q with
            spare := .substituting c, cal := { q.cal with phase := .idle, due := none, newSets := [] } }) s1))))
      else if x.subst == .softFault then .next (ev false (modChan c (fun y => { y with subst := .failure }) s1))
      else
        let s2 := if k.chan = c then endSlotOff c (abandonForFailure g.val s1) else abandonForFailure g.val s1
        match (groupOf s2 g.val).spare with
        | .free =>
          let s3 := if detector.val < 3 then withholdBad c true firstBad s2 else s2
          .next (ev false (calRefresh g.val (substitute g.val c s.now s3)))
        | _ =>
          let s3 := if detector.val < 3 then withholdBad c false firstBad s2 else s2
          .next (ev true (calRefresh g.val (unsubstitute c s3)))

/-- SPARE_CONNECT (R106 step 2). -/
def execSpareConnect (t : Time) (g : Fin 8) (s0 : State) : Outcome :=
  let s := tick t s0
  match (groupOf s g.val).spare with
  | .connecting c a =>
    if s.now < a then .next s
    else .next (modGroup g.val (fun q => { q with spare := .settling c (a + 2048 * cycU) }) s)
  | _ => .next s

/-- SPARE_SETTLE_END (R106 steps 3 and 4). -/
def execSpareSettleEnd (t : Time) (g : Fin 8) (s0 : State) : Outcome :=
  let s := tick t s0
  match (groupOf s g.val).spare with
  | .settling c a =>
    if s.now < a then .next s
    else .next (modGroup g.val (fun q => { q with spare := .substituting c }) s)
  | _ => .next s

/-- SUBSTITUTE_BIST_DONE (R111): the built-in test of a release ends. -/
def execSubstituteBistDone (t : Time) (g : Fin 8) (passed : Bool) (s0 : State) : Outcome :=
  let s := tick t s0
  let k := (groupOf s g.val).cal
  if k.phase != .bist || !s.mgmt.run then .next s
  else if passed then .next (modCal g.val (fun k => { k with phase := .calibrating }) s)
  else .next (endHolder (.channel k.chan) stResourceFailed 0 (endSlot g.val s))

/-! ### Path comparison and temperature (R99, R176) -/

/-- PATH_MISMATCH_CHECK (R99): means of one second in 1/256 code; above 10 ppm of HG full scale three times in a row raises
the event and calls for calibration out of turn. -/
def execPathMismatchCheck (t : Time) (ch : Fin 64) (meanHg meanLg : Int) (s0 : State) : Outcome :=
  let s := tick t s0
  let c := ch.val
  let bad := decide (67108864 * 256 < (meanHg - meanLg).natAbs * 100000)
  let n := (chanOf s c).mismatchCount + 1
  if !bad then .next (modChan c (fun x => { x with mismatchCount := 0 }) s)
  else if n < 3 then .next (modChan c (fun x => { x with mismatchCount := n }) s)
  else
    let s1 := emitNow 0x1406 0 c [] (modChan c (fun x => { x with mismatchCount := 0 }) s)
    .next (if s.mgmt.run then bringForward c s1 else s1)

/-- *Compensation sensors* of a group (R423). -/
def groupSensors (g : Nat) : List Nat :=
  match g with
  | 0 => [0, 1] | 1 => [0, 1] | 2 => [1, 2] | 3 => [2, 3] | 4 => [2, 3] | 5 => [3, 4] | _ => [4, 5]

/-- The mean of a group's working sensors in 1/256 °C (R423); none when both are broken. -/
def groupTemp (s : State) (g : Nat) : Option Int :=
  match ((groupSensors g).map (fun i => s.therm.sensors.getD i default)).filter (fun n => !n.broken) with
  | [] => none
  | [a] => some (2 * a.reading)
  | a :: b :: _ => some (a.reading + b.reading)

/-- TEMP_COMP_UPDATE (R176): firmware reads the group's sensors and applies a change of at least 0.05 °C; without a working
sensor the corrections freeze, with an event. -/
def execTempCompUpdate (t : Time) (g : Fin 8) (s0 : State) : Outcome :=
  let s := tick t s0
  let x := groupOf s g.val
  if !s.mgmt.run then .next s
  else match groupTemp s g.val with
    | none =>
      if x.compFrozen then .next s
      else .next (emitNow 0x1408 1 g.val [] (modGroup g.val (fun x => { x with compFrozen := true }) s))
    | some v =>
      let moved := match x.tApplied with
        | none => true
        | some a => decide (1280 ≤ 100 * (v - a).natAbs)
      .next (modGroup g.val (fun x => { x with
        compFrozen := false, tRead := some v, tApplied := if moved then some v else x.tApplied }) s)

/-! ### Commands (R365) -/

/-- CAL.CONFIG's own part; `img` for a record of an image (R383). -/
def ownCalConfig (img : Bool) (rq : Request) (s : State) : Reply :=
  let q := qword rq 1
  let c := fld q 0 6
  let up := fun i => fbit q (36 + i)
  let bad := !onlyBits q [(0, 40)] ||
    (!up 0 && fbit q 6) || (!up 1 && fld q 7 12 != 0) || (!up 2 && fbit q 19) || (!up 3 && fld q 20 16 != 0) ||
    (up 1 && (decide (fld q 7 12 < 80) || decide (3600 < fld q 7 12))) || (up 3 && decide (fld q 20 16 < 100))
  if bad then deny stBadParam s
  else if !img && heldChans s [c] then deny stBusy s
  else
    let s1 := modDaq (fun d => { d with calSet := d.calSet.modify c (fun k => { k with
      periodS := if up 1 then fld q 7 12 else k.periodS
      included := if up 2 then fbit q 19 else k.included
      overlapUs := if up 3 then fld q 20 16 else k.overlapUs }) }) s
    okay [] (if up 0 then calRefresh (c / 8) (modCal (c / 8) (fun k => { k with cycleEnable := fbit q 6 }) s1) else s1)

/-- CAL.CONFIG (0x1401). -/
def execCalConfig (t : Time) (rq : Request) (s : State) : Outcome := command 0x1401 (lenIs 1) (ownCalConfig false) t rq s

/-- The spare of a group is free to serve a calibration (R110). -/
def spareServes (s : State) (g : Nat) : Bool :=
  match (groupOf s g).spare with
  | .free => true
  | .calibrating => true
  | _ => false

/-- CAL.START's own part (R169). -/
def ownCalStart (rq : Request) (s : State) : Reply :=
  let q := qword rq 1
  let cs := bitsOf (BitVec.ofNat 64 (fld q 0 64))
  if !onlyBits q [(0, 64)] then deny stBadParam s
  else if cs.any (fun c => !spareServes s (c / 8)) then deny stResourceFailed s
  else if heldChans s cs then deny stBusy s
  else okay [] (forChans cs bringForward s)

/-- CAL.START (0x1402). -/
def execCalStart (t : Time) (rq : Request) (s : State) : Outcome := command 0x1402 (lenIs 1) ownCalStart t rq s

/-- CAL.STOP's own part (R169, R365): the cycle enable goes off; with abandon the slot in progress too. -/
def ownCalStop (rq : Request) (s : State) : Reply :=
  let q := qword rq 1
  let gs := bitsOf (BitVec.ofNat 8 (fld q 0 8))
  if !onlyBits q [(0, 9)] then deny stBadParam s
  else okay [] (gs.foldl (fun acc g =>
    let s1 := modCal g (fun k => { k with cycleEnable := false }) acc
    calRefresh g (if fbit q 8 then abandonSlot g s1 else s1)) s)

/-- CAL.STOP (0x1403). -/
def execCalStop (t : Time) (rq : Request) (s : State) : Outcome := command 0x1403 (lenIs 1) ownCalStop t rq s

/-- CAL.READ's own part (R165, R178): `readable` says whether the stored set reads back correctly. -/
def ownCalRead (readable : Bool) (rq : Request) (s : State) : Reply :=
  let q := qword rq 1
  let conv := fld q 0 7
  let g := fld q 7 4
  let which := fld q 11 2
  let hist := historyOf s conv g
  let bad := !onlyBits q [(0, 17)] || decide (71 < conv) || decide (8 < g) || which == 3 ||
    (which == 2 && decide (hist.length ≤ fld q 13 4))
  if bad then deny stBadParam s
  else if !readable then deny stUncorrectable s
  else
    let k := match which with
      | 0 => coefFor s conv g
      | 1 => Config.factory conv g
      | _ => hist.getD (fld q 13 4) default
    okay (snap s :: coefWords k) s

/-- CAL.READ (0x1404). -/
def execCalRead (t : Time) (rq : Request) (readable : Bool) (s : State) : Outcome :=
  command 0x1404 (lenIs 1) (ownCalRead readable) t rq s

/-- A converter is in a calibration slot (R166): a channel under calibration, or the spare that serves it. -/
def inSlot (s : State) (conv : Nat) : Bool :=
  let k := (groupOf s (convGroup conv)).cal
  k.phase != .idle && (k.chan == conv || decide (64 ≤ conv))

/-- CAL.WRITE's own part (R166): the set waits for the output boundary and is stored; two steps. -/
def ownCalWrite (rq : Request) (s : State) : Reply :=
  let q := qword rq 1
  let conv := fld q 0 7
  let g := fld q 7 4
  let w1 := qword rq 3
  let k : CoefSet := { coefOf (qword rq 2) w1 with source := 3 }
  let bad := !onlyBits q [(0, 11)] || decide (71 < conv) || decide (8 < g) || decide (k.dfe < 153600) ||
    decide (256000 < k.dfe) || fld w1 24 8 != 0 || fld w1 120 8 != 0
  if bad then deny stBadParam s
  else if inSlot s conv || heldChans s [conv] then deny stBusy s
  else
    let s1 := modDaq (fun d => { d with
      coefPending := d.coefPending.filter (fun p => !(p.1 == conv && p.2.1 == g)) ++ [(conv, g, k)] }) s
    okaySteps 2 [] (modCalNv (fun r => { calAppend conv [(g, k)] r with valid := true }) s1)

/-- CAL.WRITE (0x1405). -/
def execCalWrite (t : Time) (rq : Request) (s : State) : Outcome := command 0x1405 (lenIs 3) ownCalWrite t rq s

/-- CAL.RESTORE_FACTORY's own part (R178). -/
def ownCalRestoreFactory (rq : Request) (s : State) : Reply :=
  let q := qword rq 1
  let convs := bitsOf (BitVec.ofNat 72 (fld q 0 72))
  if !onlyBits q [(0, 72)] then deny stBadParam s
  else if convs.any (inSlot s) || heldChans s convs then deny stBusy s
  else
    let all := convs.flatMap (fun c => (List.range 9).map (fun g => (c, g, Config.factory c g)))
    let s1 := modDaq (fun d => { d with coefPending := d.coefPending.filter (fun p => !convs.contains p.1) ++ all }) s
    okaySteps 2 [] (convs.foldl (fun acc c =>
      modCalNv (calAppend c ((List.range 9).map (fun g => (g, Config.factory c g)))) acc) s1)

/-- CAL.RESTORE_FACTORY (0x1406). -/
def execCalRestoreFactory (t : Time) (rq : Request) (s : State) : Outcome :=
  command 0x1406 (lenIs 1) ownCalRestoreFactory t rq s

end Sys2Proof.Machine
end

