-- ==== Sys2Proof/Machine/Acquire.lean ====
section
/-! DEFINITION. Events of acquisition: dispatch of records (R19, R190), blank sources (R48 to R60), syncs (R137 to R145,
R158, R159), references (R70, R89) and the generators' own events (R64 to R82). -/

namespace Sys2Proof.Machine

/-! ### Record dispatch (R19, R105, R186, R190) -/

/-- The island behind a destination answers (R14, R317, R448). -/
def destUp (s : State) (d : Dest) : Bool :=
  match d with
  | .ring _ => isUp s .hostif
  | .basin _ => isUp s .basin && s.basin.ready
  | .export_ _ => isUp s .xbar
  | .oper _ => isUp s .oper

/-- Change an operator slot. -/
def modOper (n : Nat) (f : OpSlot → OpSlot) (s : State) : State := { s with oper := s.oper.modify n f }

/-- The inputs of a slot that an address of a node feeds: their indexes (R318). -/
def inputsOf (o : OpSlot) (node : Option (BitVec 16)) (a : Nat) : List Nat :=
  match o.cfg, o.run with
  | some k, .running => (List.range k.inputs.length).filter (fun i =>
      let x := k.inputs.getD i default
      x.addr == a && x.node == node)
  | _, _ => []

/-- The source group of an input of a slot: a local group, 8 for other nodes, 9 for derived records (R19). -/
def inputGroup (x : OpIn) : Nat := if x.node.isSome then 8 else if 512 ≤ x.addr then 9 else x.addr / 64

/-- Records of a source group that wait at a slot. -/
def opWaiting (o : OpSlot) (g : Nat) : Nat :=
  match o.cfg with
  | some k => (o.inq.filter (fun e => inputGroup (k.inputs.getD e.1 default) == g)).length
  | none => 0

/-- A record into the queue of 256 that its group keeps for an operator slot, with `GAP_BEFORE` when due there; or
discarded, counted against slot and group, with `GAP_BEFORE` due on the next one (R14, R19, R186). -/
def opDeliver (n : Nat) (ins : List Nat) (node : Option (BitVec 16)) (a : Nat) (r : QRec) (gapBefore : Bool) (s : State) :
    State :=
  let o := s.oper.getD n default
  let g := if node.isSome then 8 else if 512 ≤ a then 9 else a / 64
  let d := Dest.oper n
  if ins.isEmpty then s
  else if 256 ≤ opWaiting o g ∨ !isUp s .oper then
    let q := queueOf s g d
    modPath node a (fun x => owe d { x with discarded := x.discarded + 1 })
      (putQueue { q with dropped := q.dropped + 1 } s)
  else
    let gap := gapBefore || (recPath s node a).gapDue.contains d
    modPath node a (fun x => { x with gaps := x.gaps + b2n gap, gapDue := x.gapDue.filter (· != d) })
      (modOper n (fun o => { o with inq := o.inq ++ ins.map (fun i => (i, { r with word := withGap gap r.word })) }) s)

/-- A record to every operator slot that takes its address from this node or from `node`. -/
def opDeliverAll (node : Option (BitVec 16)) (a : Nat) (r : QRec) (gap : Bool) (s : State) : State :=
  (List.range 32).foldl (fun acc n => opDeliver n (inputsOf (acc.oper.getD n default) node a) node a r gap acc) s

/-- The subscription that a record follows: a change at a boundary concerns what ends after it (R190). -/
def subFor (x : AddrSt) (out : Int) : Sub := if out ≤ (x.subAt : Int) then x.oldSub else x.sub

/-- A record leaves before another of its group: in order of output instant, then of address (R192). -/
def leavesBefore (a b : FormedRec) : Bool :=
  decide (a.out < b.out) || (a.out == b.out && decide (recAddr a.word < recAddr b.word))

/-- How long the record path holds an output for the modulator-level detectors to judge its last sample: 48 cycles (R27,
R105; DEDUCED, log 103: R27 says "up to 48"). -/
abbrev judgeFu : Nat := 48 * 3200000

/-- RECORD_DISPATCH (R19, R190): the oldest record that the channel has formed leaves the hold for its destinations, once it
is judged (R105) and none of its group goes before it (R192). -/
def execRecordDispatch (t : Time) (ch : Fin 64) (s0 : State) : Outcome :=
  let s := tick t s0
  match (chanOf s ch.val).formed with
  | [] => .next s
  | r :: rest =>
    let earlier := (chansOf (ch.val / 8)).any (fun c =>
      match (chanOf s c).formed with
      | [] => false
      | x :: _ => leavesBefore x r)
    if earlier || decide ((s.now : Int) < r.out + (judgeFu : Int)) then .next s
    else
      let a := recAddr r.word
      let s1 := modChan ch.val (fun x => { x with formed := rest, sent := some r.word }) s
      let s2 := (subDests (subFor (addrOf s1 a) r.out)).foldl (fun acc d => deliver (ch.val / 8) a r d (destUp acc d) acc) s1
      .next (opDeliverAll none a { word := r.word, gen := r.gen, readable := true, node := none, at_ := s.now } r.gap s2)

/-! ### Blank sources (R48 to R60) -/

/-- Change a blank source. -/
def modBlank (i : Nat) (f : BlankSrc → BlankSrc) (s : State) : State :=
  modDaq (fun d => { d with blank := d.blank.modify i f }) s

/-- The channels that select a source. -/
def selecting (s : State) (i : Nat) : List Nat :=
  (List.range 64).filter (fun c => (chanOf s c).cfg.blankMask.getLsbD i)

/-- A source asserts: from `from_` on, samples of the selecting channels are blanked (R49, R50). -/
def blankOn (i : Nat) (rise from_ : Time) (s : State) : State :=
  let src := s.daq.blank.getD i default
  if src.asserted then s
  else
    let s1 := modBlank i (fun b => { b with
      asserted := true, since := from_, stuckRaised := false, intervals := b.intervals + 1, riseAt := rise }) s
    forChans (selecting s1 i) (fun c => modChan c (fun x => { x with
      blanks := x.blanks ++ [{ src := i, start := from_, end_ := none }] })) s1

/-- A source releases at `fall`: the intervals end at `to_` plus each channel's guard (R49 to R51, R59, R60). -/
def blankOff (i : Nat) (fall to_ : Time) (s : State) : State :=
  let src := s.daq.blank.getD i default
  if !src.asserted then s
  else
    let s1 := modBlank i (fun b => { b with
      asserted := false, released := to_, windowEnd := none, assertedFu := b.assertedFu + (fall - b.riseAt) }) s
    let s2 := forChans (List.range 64) (fun c => modChan c (fun x => { x with
      blanks := x.blanks.map (fun v =>
        if v.src == i && v.end_.isNone then { v with end_ := some (to_ + x.cfg.guardUs * usU) } else v) })) s1
    if src.stuckRaised then emit 0x1003 i 0 [mkWord [(0, 64, (fall - src.riseAt) / usU)]] (tbAt s2 fall) s2 else s2

/-- BLANK_ASSERT (R49): a pulse shorter than 100 ns is ignored. -/
def execBlankAssert (t : Time) (pin : Fin 4) (widthNs : Nat) (s0 : State) : Outcome :=
  let s := tick t s0
  if widthNs < 100 then .next s else .next (blankOn pin.val s.now (s.now + 150 * nsU) s)

/-- BLANK_RELEASE (R49, R59). -/
def execBlankRelease (t : Time) (pin : Fin 4) (s0 : State) : Outcome :=
  let s := tick t s0
  .next (blankOff pin.val s.now (s.now + 150 * nsU) s)

/-- BLANK_STUCK (R59): the stuck limit is reached. -/
def execBlankStuck (t : Time) (src : Fin 8) (s0 : State) : Outcome :=
  let s := tick t s0
  let b := s.daq.blank.getD src.val default
  if b.asserted && !b.stuckRaised && decide (b.riseAt + b.stuckMs * msU ≤ s.now) then
    .next (emit 0x1002 src.val b.stuckMs [] (tbAt s (b.riseAt + b.stuckMs * msU))
      (modBlank src.val (fun b => { b with stuckRaised := true }) s))
  else .next s

/-- TBLK_WINDOW_END (R50). -/
def execTblkWindowEnd (t : Time) (line : Fin 4) (s0 : State) : Outcome :=
  let s := tick t s0
  match (s.daq.blank.getD (4 + line.val) default).windowEnd with
  | some e => if s.now < e then .next s else .next (blankOff (4 + line.val) e e s)
  | none => .next s

/-- A blank window from `f` to `end_` on TBLKn (R50, R231): an overlapping window extends the one in progress. -/
def blankWindow (line : Nat) (f end_ : Time) (s : State) : State :=
  let i := 4 + line
  if end_ ≤ f then s
  else modBlank i (fun b => { b with windowEnd := some (max end_ (b.windowEnd.getD 0)) }) (blankOn i f f s)

/-! ### Syncs (R137, R138, R144, R158, R159) -/

/-- A sync waits for its instant at a group. -/
def addSync (g : Nat) (at_ : Time) (s : State) : State :=
  if isUp s (daqIsland g) then modGroup g (fun x => { x with syncs := x.syncs ++ [at_] }) s else s

/-- SYNC_N_EDGE (R137): low for at least 100 ns, not within 10 us of an accepted edge; T_sync 200 ns later. -/
def execSyncNEdge (t : Time) (lowNs : Nat) (s0 : State) : Outcome :=
  let s := tick t s0
  let near := match s.daq.lastSyncN with | some a => decide (s.now < a + 10 * usU) | none => false
  if lowNs < 100 || near then .next s
  else
    let ts := (s.now + 200 * nsU) / 256 * 256
    .next ((List.range 8).foldl (fun acc g => if (groupOf acc g).syncN then addSync g ts acc else acc)
      (modDaq (fun d => { d with lastSyncN := some s.now }) s))

/-- The positions whose kept records a sync takes from a running weave that it restarts: of the stroke in progress, while
one of its records is still to come, and of the strokes of the abandoned round that have not begun (R159). -/
def lostPositions (w : WeaveSt) : List Nat :=
  match w.cur with
  | some r => (if r.formed < r.stroke.keep then [r.stroke.pos] else []) ++
      (((w.image.getD default).strokes.drop (r.index + 1)).map (·.pos))
  | none => []

/-- A sync at `ts` where no weave runs (R138): the channel's filters start empty, and a conversion still owed by an ended
weave, whose window lies before the sync, does not come. -/
def syncGrid (c : Nat) (ts : Time) (s : State) : State :=
  let s1 := modWeave c (fun w => { w with tail := w.tail.map (fun r => { r with notBefore := ts }) }) s
  gapAllAt (8 * c + (chanOf s1 c).pos) ts (restartChan c ts true (cutFade c ts s1))

/-- A sync reaches a channel (R138, R144, R153, R158, R159). A conversion that a completed stroke of a running weave still
owes is not touched (R148). -/
def syncChan (c : Nat) (ts : Time) (s : State) : State :=
  let x := chanOf s c
  let s1 := modChan c (fun y => { y with markMode := y.markNext.getD y.markMode, markNext := none }) s
  match x.weave.state with
  | .running =>
    if (x.weave.image.getD default).resync && decide (x.weave.tStart < ts) then
      beginRound c ts ((lostPositions x.weave).foldl (fun acc p => gapAllAt (8 * c + p) ts acc)
        (modWeave c (fun w => { w with tStart := ts, cur := none }) s1))
    else
      restartOther c (modChan c (fun y => { y with
        last := none, sent := none, disagree := 0
        weave := { y.weave with
          cur := y.weave.cur.map (fun r => { r with notBefore := ts, merger := mergerStart }) } }) s1)
  | .armed => if x.weave.armedSync then beginWeave c ts s1 else syncGrid c ts s1
  | _ => syncGrid c ts s1

/-- A group syncs at `ts` (R136 to R138): waiting syncs within one modulator cycle act with it. -/
def syncGroup (g : Nat) (ts : Time) (s : State) : State :=
  let s1 := modGroup g (fun x => { x with tSync := ts, synced := true, syncs := x.syncs.filter (fun a => decide (ts + cycU ≤ a)) }) s
  let s2 := forChans (chansOf g) (fun c => syncChan c ts) s1
  [2 * g, 2 * g + 1].foldl (fun acc n =>
    if inAc (genOf acc n) then modGen n (fun x => { x with acRestart := true }) (dropCycles n ts acc) else acc) s2

/-- A sync within one modulator cycle after the last one has acted with it (R137). -/
def actedAlready (g : Group) (ts : Time) : Bool :=
  g.synced && decide (g.tSync ≤ ts) && decide (ts < g.tSync + cycU)

/-- GROUP_SYNC (R138): the earliest waiting T_sync of the group has come. -/
def execGroupSync (t : Time) (g : Fin 8) (s0 : State) : Outcome :=
  let s := tick t s0
  match (groupOf s g.val).syncs with
  | [] => .next s
  | a :: rest =>
    let ts := rest.foldl min a
    if s.now < ts || !isUp s (daqIsland g.val) then .next s
    else if actedAlready (groupOf s g.val) ts then
      .next (modGroup g.val (fun x => { x with syncs := x.syncs.filter (fun a => decide (x.tSync + cycU ≤ a)) }) s)
    else .next (syncGroup g.val ts s)

/-! ### References (R70, R89) -/

/-- Channels that use REFIN, as a mask. -/
def refinMask (s : State) : Nat :=
  (List.range 64).foldl (fun acc c => if (chanOf s c).cfg.ref == .refin then acc + 2 ^ c else acc) 0

/-- REF_VALIDITY_CHANGE (R70, R89): REFIN (no generator named), or |V_S| of a generator against 0.4 V. -/
def execRefValidityChange (t : Time) (gen : Option (Fin 16)) (valid : Bool) (s0 : State) : Outcome :=
  let s := tick t s0
  match gen with
  | none =>
    if s.daq.refinValid == valid then .next s
    else
      let s1 := forChans (List.range 64) (fun c => refJudge c s.now) (modDaq (fun d => { d with refinValid := valid }) s)
      .next (emitNow 0x1004 (b2n valid) 0 [BitVec.ofNat 128 (refinMask s)] s1)
  | some n =>
    let before := ratioValid (genOf s n.val)
    .next (ratioEdge n.val before s.now (modGen n.val (fun g => { g with vsOk := valid }) s))

/-! ### Generators (R64 to R68, R76, R77, R82) -/

/-- EXC_COMPLIANCE_CHANGE (R64). -/
def execExcComplianceChange (t : Time) (n : Fin 16) (entry : Bool) (s0 : State) : Outcome :=
  let s := tick t s0
  if (genOf s n.val).compliance == entry then .next s
  else .next (emitNow 0x1101 n.val (b2n entry) [] (modGen n.val (fun g => { g with compliance := entry }) s))

/-- EXC_TRIP (R65): TRIPPED, the waiting settings discarded, an excitation change, one trip event. -/
def execExcTrip (t : Time) (n : Fin 16) (pins : Fin 3) (s0 : State) : Outcome :=
  let s := tick t s0
  let g := genOf s n.val
  if g.tripped then .next s
  else
    let before := ratioValid g
    let s1 := modGen n.val (fun g => { g with tripped := true, pending := none }) (notePol n.val s.now (dropCycles n.val s.now s))
    .next (ratioEdge n.val before s.now (emitNow 0x1102 n.val pins.val [] (excChange n.val s.now s1)))

/-- EXC_OVERLOAD (R66): the average of 100 ms in mA; `belowFor` is how long (2^-16 ns) it had been below 60 mA before.
Raised again only after 1 s below. -/
def execExcOverload (t : Time) (n : Fin 16) (averageMa : Nat) (belowFor : Nat) (s0 : State) : Outcome :=
  let s := tick t s0
  if averageMa ≤ 60 then
    .next (if secU ≤ belowFor then modGen n.val (fun g => { g with overload := false }) s else s)
  else if (genOf s n.val).overload && decide (belowFor < secU) then .next s
  else .next (emitNow 0x1103 n.val averageMa [] (modGen n.val (fun g => { g with overload := true }) s))

/-- LEAD_DROP_MEASURE (R68): both drops in uV; three measurements in a row outside the window raise a sense event.

DESIGN CHOICE (log 104): while a drop stays outside, the event is raised again at every third measurement. -/
def execLeadDropMeasure (t : Time) (n : Fin 16) (dropP dropN : Int) (s0 : State) : Outcome :=
  let s := tick t s0
  let g := genOf s n.val
  if !s.mgmt.run || g.tripped || g.cfg.mode == .off then .next s
  else
    let s1 := modGen n.val (fun g => { g with dropP := dropP, dropN := dropN }) s
    let outside := match g.cfg.window with
      | none => false
      | some w => [dropP, dropN].any (fun d => decide (d < (w.1 : Int) * 1000) || decide ((w.2 : Int) * 1000 < d))
    if !outside then .next (modGen n.val (fun g => { g with senseCount := 0 }) s1)
    else if g.senseCount + 1 < 3 then .next (modGen n.val (fun g => { g with senseCount := g.senseCount + 1 }) s1)
    else .next (emitNow 0x1104 n.val 0 [mkWord [(0, 32, asField dropP 32), (32, 32, asField dropN 32)]]
      (modGen n.val (fun g => { g with senseCount := 0 }) s1))

/-- AC_POLARITY_SWAP (R76, R77, R144): after k output periods, or at the first boundary of a new grid, with a new positive
phase. -/
def execAcPolaritySwap (t : Time) (n : Fin 16) (s0 : State) : Outcome :=
  let s := tick t s0
  let g := genOf s n.val
  let lead := (leadChan s n.val).getD (4 * n.val)
  if !inAc g then .next s
  else if g.acRestart then
    if isBoundary s lead s.now && decide ((groupOf s (lead / 8)).tSync < s.now) then
      .next (acBegin n.val s.now g.cfg.deadCyc false s)
    else .next s
  else
    let b := swapAt s n.val
    if (s.now : Int) < b then .next s else .next (acBegin n.val b.toNat g.cfg.deadCyc (!g.acNeg) s)

/-- AC_DEAD_TIME_END (R77): the filters of the fed channels take samples again. -/
def execAcDeadTimeEnd (t : Time) (n : Fin 16) (s0 : State) : Outcome :=
  let s := tick t s0
  match (genOf s n.val).acDeadEnd with
  | none => .next s
  | some e => if s.now < e then .next s else .next (modGen n.val (fun g => { g with acDeadEnd := none }) s)

/-- A generator's setting in 2^-26 uV, while it regulates to one value (R62, R81). -/
def settingOf (g : Gen) : Option Int :=
  if g.tripped then none
  else match g.cfg.mode with
    | .off => some 0
    | .dcPlus => some ((g.cfg.amplMv : Int) * 1000 * 67108864)
    | .dcMinus => some (-((g.cfg.amplMv : Int) * 1000 * 67108864))
    | .level => some (g.cfg.level * 2500000 * 128)
    | .ac => none

/-- The deviation of the mean reading at gain code 0 against the internal reference from the setting, in uV (R82, R92).

DESIGN CHOICE (log 105): rounded to nearest. In AC and in TRIPPED, where no one
setting holds, the manual states no deviation: a free value. -/
def loopDev (g : Gen) (mean : Int) (s : State) : Int × State :=
  match settingOf g with
  | some v => (roundDiv (mean * 2500000 - v) 67108864, s)
  | none => drawInt s

/-- LOOPBACK_END (R82, R362): the channel returns to its input with the settling delay of R38, and the result is stored
while a pair runs. -/
def execLoopbackEnd (t : Time) (ch : Fin 64) (mean rms : Int) (count : Nat) (s0 : State) : Outcome :=
  let s := tick t s0
  let c := ch.val
  match (chanOf s c).loopback with
  | none => .next s
  | some e =>
    if s.now < e then .next s
    else
      let s1 := muxChange c (chanOf s c).pos e (modChan c (fun x => { x with loopback := none }) s)
      if s.mgmt.run && (holderOf s (.channel c)).isSome then
        let (dev, s2) := loopDev (genOf s1 (c / 4)) mean s1
        .next (endHolder (.channel c) stOk 2 (modGen (c / 4) (fun g => { g with
          loopRes := some { chan := c, mean := mean, rms := rms, count := count, devUv := dev, at_ := tbAt s e } }) s2))
      else .next s1

end Sys2Proof.Machine
end

