-- ==== Sys2Proof/Machine/Chan.lean ====
section
/-! DEFINITION. The CHAN and EXC commands (R360 to R362). -/

namespace Sys2Proof.Machine

/-! ### Settings of a channel (R42, R361) -/

/-- Places of the fields of `CHAN.CONFIG`, in the order of the `UPDATE` bits: lowest bit and width. -/
def chanFields : List (Nat × Nat) :=
  [(6, 1), (7, 1), (8, 4), (12, 2), (14, 2), (16, 2), (18, 1), (19, 8), (27, 14), (41, 16)]

/-- Fields without their `UPDATE` bit are 0 (R361). -/
def unusedZero (q : Word) (fields : List (Nat × Nat)) (up : Nat → Bool) : Bool :=
  (List.range fields.length).all (fun i =>
    let f := fields.getD i (0, 0)
    up i || fld q f.1 f.2 == 0)

/-- Codes of the reference and of the path mode. -/
def refOf (n : Nat) : RefSel := match n with | 0 => .internal | 1 => .refin | _ => .ratio
def pathOf (n : Nat) : PathMode := match n with | 0 => .auto | 1 => .hgOnly | _ => .lgOnly

/-- The settings as the request gives them, for its `UPDATE` bits to choose from. -/
def chanGiven (q : Word) : ChanCfg :=
  { enable := fbit q 6, openDet := fbit q 7, gain := fld q 8 4, burnout := fld q 12 2, ref := refOf (fld q 14 2)
    path := pathOf (fld q 16 2), blankGap := fbit q 18, blankMask := BitVec.ofNat 8 (fld q 19 8), guardUs := fld q 27 14
    settleUs := fld q 41 16 }

/-- `UPDATE` of CHAN.CONFIG. -/
def chanUpdate (q : Word) : BitVec 10 := (q >>> 64).setWidth 10

/-- Accepted settings join those that wait: later fields over earlier ones. -/
def chanAccept (up : BitVec 10) (new : ChanCfg) (x : Chan) : Chan :=
  match x.pendingCfg with
  | some p => { x with pendingCfg := some (mergeCfg up new p.1, p.2 ||| up) }
  | none => { x with pendingCfg := some (new, up) }

/-- A field that a running weave refuses with `BUSY` (R157): enable, gain, settling delay, and burn-out Off while a check
stroke uses the channel's current. -/
def chanRefused (x : Chan) (q : Word) (i : Nat) : Bool :=
  let img := x.weave.image.getD default
  x.weave.state == .running &&
    (i == 0 || i == 2 || i == 9 ||
      (i == 3 && fld q 12 2 == 0 && img.checkCurrent == 0 && img.strokes.any (·.burnCheck)))

/-- CHAN.CONFIG's own part (R42, R43, R76, R157, R361); `img` for a record of an image, whose refused fields alone are
left out (R384). -/
def ownChanConfig (img : Bool) (rq : Request) (s : State) : Reply :=
  let q := qword rq 1
  let c := fld q 0 6
  let x := chanOf s c
  let up := fun i => fbit q (64 + i)
  let refused := BitVec.ofNat 10 ((List.range 10).foldl (fun acc i => acc + b2n (chanRefused x q i) * 2 ^ i) 0)
  let use := chanUpdate q &&& ~~~(if img then refused else 0)
  let s1 := modChan c (chanAccept use (chanGiven q)) s
  guardedIn img
    [(!onlyBits q [(0, 57), (64, 10)] || !unusedZero q chanFields up || decide (8 < fld q 8 4) || fld q 14 2 == 3 ||
        fld q 16 2 == 3 || decide (10000 < fld q 27 14) || (up 0 && breaksAc s1 (c / 4)), stBadParam),
      ((List.range 10).any (fun i => up i && chanRefused x q i) || heldChans s [c], stBusy)] s
    (fun _ => okay [] (if fld q 64 10 = 0 then s else s1))

/-- CHAN.CONFIG (0x1001). -/
def execChanConfig (t : Time) (rq : Request) (s : State) : Outcome :=
  command 0x1001 (lenIs 1) (ownChanConfig false) t rq s

/-- CHAN.SET_INPUT's own part (R38, R40). -/
def ownChanSetInput (rq : Request) (s : State) : Reply :=
  let q := qword rq 1
  let c := fld q 0 6
  guarded [(!onlyBits q [(0, 9)], stBadParam), (woven s c || heldChans s [c], stBusy)] s
    (fun _ => okay [] (modChan c (fun x => { x with pendingPos := some (fld q 6 3) }) s))

/-- CHAN.SET_INPUT (0x1002). -/
def execChanSetInput (t : Time) (rq : Request) (s : State) : Outcome :=
  command 0x1002 (lenIs 1) ownChanSetInput t rq s

/-- `SUBST` of `CHAN.STATUS`. -/
def substCode : Subst → Nat
  | .none => 0 | .calibration => 1 | .failure => 2 | .softFault => 3

/-- Asserted time of a source so far, in us, with the assertion in progress (R60). -/
def assertedUs (b : BlankSrc) (now : Time) : Nat :=
  (b.assertedFu + (if b.asserted then now - b.riseAt else 0)) / usU

/-- Words A2 to A11 of `CHAN.STATUS` (R360). -/
def chanStatusWords (c : Nat) (s : State) : List Word :=
  let x := chanOf s c
  let open_ := (List.range 8).foldl (fun acc p => acc + b2n (x.open_.getD p default).flag * 2 ^ p) 0
  [mkWord [(0, 1, b2n x.cfg.enable), (1, 1, b2n (x.weave.state == .running)), (2, 2, substCode x.subst),
      (4, 1, b2n x.unsubstituted), (5, 3, x.pos), (8, 4, x.cfg.gain), (12, 8, open_)],
    mkWord [(0, 64, x.blankedRecs), (64, 64, x.gapRecs)]] ++
  (List.range 8).map (fun i =>
    let b := s.daq.blank.getD i default
    mkWord [(0, 32, b.intervals), (32, 64, assertedUs b s.now), (96, 1, b2n b.asserted),
      (97, 1, b2n (b.asserted && b.stuckRaised))])

/-- CHAN.STATUS's own part. -/
def ownChanStatus (rq : Request) (s : State) : Reply :=
  let q := qword rq 1
  guarded [(!onlyBits q [(0, 6)], stBadParam)] s (fun _ => okay (snap s :: chanStatusWords (fld q 0 6) s) s)

/-- CHAN.STATUS (0x1003). -/
def execChanStatus (t : Time) (rq : Request) (s : State) : Outcome := command 0x1003 (lenIs 1) ownChanStatus t rq s

/-! ### Substitution by command (R110, R111) -/

/-- The channel that a spare serves in place of a failed or soft-faulted converter. -/
def servedBy (x : SpareState) : Option Nat :=
  match x with
  | .substituting c => some c
  | .connecting c _ => some c
  | .settling c _ => some c
  | _ => none

/-- The NV record names a channel first among the failed ones, so that the spare serves it at a start (R111). -/
def recordFirst (c : Nat) (s : State) : State :=
  modCalNv (fun r => { r with failed := c :: r.failed.filter (· != c) }) s

/-- The spare moves to a failed channel: the channel it served stops (R110), and the NV record names the new one first
(R111). -/
def moveSpare (g c : Nat) (s : State) : State :=
  match servedBy (groupOf s g).spare with
  | some d => if d = c then s else substitute g c s.now (recordFirst c (unsubstitute d s))
  | none => substitute g c s.now (recordFirst c (abandonForFailure g s))

/-- CHAN.SUBSTITUTE's own part. -/
def ownChanSubstitute (rq : Request) (s : State) : Reply :=
  let q := qword rq 1
  let c := fld q 0 6
  let g := c / 8
  let release := fbit q 6
  let x := chanOf s c
  let substituted := x.subst == .failure || x.subst == .softFault
  guarded
    [(!onlyBits q [(0, 7)] || (if release then !substituted else !x.failed), stBadParam),
      (!release && (groupOf s g).spare == .failed, stResourceFailed),
      (heldChans s (chansOf g), stBusy)] s
    (fun _ =>
      if release then
        accepted 3 [.channel c] [] (modCal g (fun k => { k with
          phase := .bist, chan := c, release := true, slotOut := true, newSets := [], due := none, secondTry := false
          secondCal := false, spareBad := false, delayedRaised := false, abandoned := false }) s)
      else okay [] (moveSpare g c s))

/-- CHAN.SUBSTITUTE (0x1004). -/
def execChanSubstitute (t : Time) (rq : Request) (s : State) : Outcome :=
  command 0x1004 (lenIs 1) ownChanSubstitute t rq s

/-- CHAN.CONFIG_BLANK's own part (R59). -/
def ownChanConfigBlank (rq : Request) (s : State) : Reply :=
  let q := qword rq 1
  let ms := fld q 3 20
  guarded [(!onlyBits q [(0, 23)] || ms == 0 || decide (600000 < ms), stBadParam)] s
    (fun _ => okay [] (modBlank (fld q 0 3) (fun b => { b with stuckMs := ms }) s))

/-- CHAN.CONFIG_BLANK (0x1005). -/
def execChanConfigBlank (t : Time) (rq : Request) (s : State) : Outcome :=
  command 0x1005 (lenIs 1) ownChanConfigBlank t rq s

/-! ### Generators (R71, R72, R84, R157, R362) -/

/-- Places of the fields of `EXC.CONFIG`, in the order of the `UPDATE` bits. -/
def excFields : List (Nat × Nat) :=
  [(4, 3), (9, 12), (21, 20), (41, 9), (50, 16), (7, 1), (8, 1), (66, 23)]

/-- Generator mode codes. -/
def excModeOf (n : Nat) : ExcMode :=
  match n with | 0 => .off | 1 => .dcPlus | 2 => .dcMinus | 3 => .ac | _ => .level

/-- The settings after the fields whose `up` holds. -/
def excMerge (q : Word) (up : Nat → Bool) (k : ExcCfg) : ExcCfg :=
  { mode := if up 0 then excModeOf (fld q 4 3) else k.mode
    amplMv := if up 1 then fld q 9 12 else k.amplMv
    level := if up 2 then sfld q 21 20 else k.level
    swapK := if up 3 then fld q 41 9 else k.swapK
    deadCyc := if up 4 then fld q 50 16 else k.deadCyc
    combine := if up 5 then fbit q 7 else k.combine
    follow := if up 6 then fbit q 8 else k.follow
    window := if up 7 then (if fbit q 66 then some (fld q 67 11, fld q 78 11) else none) else k.window }

/-- A field of `EXC.CONFIG` lies out of its range (R71). -/
def excRangeBad (q : Word) (up : Nat → Bool) : Bool :=
  (up 0 && decide (4 < fld q 4 3)) || (up 1 && (decide (fld q 9 12 < 500) || decide (2500 < fld q 9 12))) ||
    (up 3 && (fld q 41 9 == 0 || decide (256 < fld q 41 9))) || (up 4 && decide (fld q 50 16 < 256)) ||
    (up 7 && (decide (2000 < fld q 67 11) || decide (2000 < fld q 78 11) || decide (fld q 78 11 < fld q 67 11)))

/-- The weave of MC(4n) runs on a generator that it owns (R84). -/
def weaveOwned (s : State) (n : Nat) : Bool := (genOf s n).cfg.follow && woven s (4 * n)

/-- EXC.CONFIG's own part (R71, R72, R76, R84, R157, R362). -/
def ownExcConfig (img : Bool) (rq : Request) (s : State) : Reply :=
  let q := qword rq 1
  let n := fld q 0 4
  let up := fun i => fbit q (89 + i)
  let new := excMerge q up (effGen (genOf s n))
  let s1 := modGen n (fun g => { g with pending := some new }) s
  let s2 := if (leadChan s1 n).isNone then applyGen n new s1.now s1 else s1
  guardedIn img
    [(!onlyBits q [(0, 97)] || !unusedZero q excFields up || excRangeBad q up ||
        (new.mode == .ac && !acCond s1 n) || (new.mode == .ac && !img && (fedBy n).any (woven s)), stBadParam),
      (weaveOwned s n || isHeld s (.generator n), stBusy)] s
    (fun _ =>
      if img && (weaveOwned s n || (new.mode == .ac && (fedBy n).any (woven s))) then okay [] s
      else if fld q 89 8 = 0 ∧ !(genOf s n).tripped then okay [] s
      else okay [] s2)

/-- EXC.CONFIG (0x1101). -/
def execExcConfig (t : Time) (rq : Request) (s : State) : Outcome :=
  command 0x1101 (lenIs 1) (ownExcConfig false) t rq s

/-- Mode code of `EXC.STATUS`. -/
def excCode (g : Gen) : Nat :=
  if g.tripped then 5
  else match g.cfg.mode with
    | .off => 0 | .dcPlus => 1 | .dcMinus => 2 | .ac => 3 | .level => 4

/-- Words A2 to A5 of `EXC.STATUS` (R362). -/
def excStatusWords (n : Nat) (s : State) : List Word :=
  let g := genOf s n
  let r := g.loopRes.getD { chan := 0, mean := 0, rms := 0, count := 0, devUv := 0, at_ := 0 }
  [mkWord [(0, 3, excCode g), (3, 1, b2n g.compliance), (4, 1, b2n g.overload), (5, 1, b2n (inAc g && g.acNeg)),
      (6, 1, b2n (weaveOwned s n))],
    mkWord [(0, 32, asField g.dropP 32), (32, 32, asField g.dropN 32)],
    mkWord [(0, 32, asField r.mean 32), (32, 32, asField r.rms 32), (64, 32, r.count), (96, 32, asField r.devUv 32)],
    mkWord [(0, 96, t96 r.at_), (96, 6, r.chan), (102, 1, b2n g.loopRes.isSome)]]

/-- EXC.STATUS's own part. -/
def ownExcStatus (rq : Request) (s : State) : Reply :=
  let q := qword rq 1
  guarded [(!onlyBits q [(0, 4)], stBadParam)] s (fun _ => okay (snap s :: excStatusWords (fld q 0 4) s) s)

/-- EXC.STATUS (0x1102). -/
def execExcStatus (t : Time) (rq : Request) (s : State) : Outcome := command 0x1102 (lenIs 1) ownExcStatus t rq s

/-- A calibration holds the channel (R82, R168). -/
def calHolds (s : State) (c : Nat) : Bool :=
  (groupOf s (c / 8)).cal.phase != .idle && (groupOf s (c / 8)).cal.chan == c

/-- EXC.LOOPBACK's own part (R82): a long command in two steps; the connection closes at the next output boundary. -/
def ownExcLoopback (rq : Request) (s : State) : Reply :=
  let q := qword rq 1
  let c := fld q 0 6
  let ms := fld q 6 14
  guarded
    [(!onlyBits q [(0, 20)] || ms == 0 || decide (10000 < ms), stBadParam),
      (woven s c || calHolds s c || heldChans s [c] || (chanOf s c).loopback.isSome, stBusy)] s
    (fun _ => accepted 2 [.channel c] [] (modChan c (fun x => { x with pendingLoop := some ms }) s))

/-- EXC.LOOPBACK (0x1103). -/
def execExcLoopback (t : Time) (rq : Request) (s : State) : Outcome :=
  command 0x1103 (lenIs 1) ownExcLoopback t rq s

end Sys2Proof.Machine
end

