-- ==== Sys2Proof/Machine/Filt.lean ====
section
/-! DEFINITION. The FILT commands (R123 to R134, R137, R363, R419). -/

namespace Sys2Proof.Machine

/-- An instance of a channel by its role: the shadow for `INST` 1 (R129). -/
def instOf (x : Chan) (shadow : Bool) : FiltInst := if shadow then x.shadow else x.primary

/-- Change an instance by its role. -/
def modInst (c : Nat) (shadow : Bool) (f : FiltInst → FiltInst) (s : State) : State :=
  modChan c (fun x => if shadow then { x with shadow := f x.shadow } else { x with primary := f x.primary }) s

/-- The first two columns of *Commands against filter state*, and held channels (R133, R352). -/
def filtBusy (s : State) (c : Nat) : List (Bool × BitVec 16) :=
  [(woven s c || heldChans s [c], stBusy), ((chanOf s c).fade != .normal, stCrossfadeActive)]

/-- The conditions of AC excitation would break if the channel's primary ran as `f` (R76, R124). -/
def acBroken (s : State) (c : Nat) (f : FiltInst) : Bool :=
  breaksAc (modChan c (fun x => { x with primary := { x.primary with mode := f.mode, bankA := f.bankA, bankB := f.bankB } }) s)
    (c / 4)

/-- FILT.CONFIG's own part (R123, R136, R157). -/
def ownFiltConfig (img : Bool) (rq : Request) (s : State) : Reply :=
  let q := qword rq 1
  let c := fld q 0 6
  let up := fun i => fbit q (17 + i)
  guardedIn img
    [(!onlyBits q [(0, 21)] || !unusedZero q [(6, 1), (7, 8), (15, 1), (16, 1)] up, stBadParam),
      (up 0 && (woven s c || heldChans s [c]), stBusy)] s
    (fun _ =>
      let s1 := if up 0 && !(img && woven s c) then modChan c (fun x => { x with markNext := some (fbit q 6) }) s else s
      okay [] (modDaq (fun d => { d with
        groups := if up 1 then d.groups.mapIdx (fun g x => { x with syncN := fbit q (7 + g) }) else d.groups
        autoLock := if up 2 then fbit q 15 else d.autoLock
        autoStep := if up 3 then fbit q 16 else d.autoStep }) s1))

/-- FILT.CONFIG (0x1201). -/
def execFiltConfig (t : Time) (rq : Request) (s : State) : Outcome :=
  command 0x1201 (lenIs 1) (ownFiltConfig false) t rq s

/-- FILT.LOAD_BANK's own part (R126, R128, R133): the bank is stored, and the spare's copy refreshed (R106). -/
def ownFiltLoadBank (img : Bool) (rq : Request) (s : State) : Reply :=
  let q := qword rq 1
  let c := fld q 0 6
  let sh := fbit q 6
  let ws := rq.payload.drop 1
  guardedIn img
    (filtBusy s c ++ [(running (instOf (chanOf s c) sh), stNotStopped), (!onlyBits q [(0, 8)], stBadParam)]) s
    (fun _ =>
      match bankCheck ws with
      | some st => deny st s
      | none => okaySteps 2 [] (modInst c sh (fun f =>
          if fbit q 7 then { f with bankB := some (bankOf ws) } else { f with bankA := some (bankOf ws) }) s))

/-- FILT.LOAD_BANK (0x1202). -/
def execFiltLoadBank (t : Time) (rq : Request) (s : State) : Outcome :=
  command 0x1202 (lenIn 3 79) (ownFiltLoadBank false) t rq s

/-- FILT.SELECT_MODE's own part (R123, R124, R133, R419). -/
def ownFiltSelectMode (img : Bool) (rq : Request) (s : State) : Reply :=
  let q := qword rq 1
  let c := fld q 0 6
  let sh := fbit q 6
  let m := fld q 7 4
  let f := { instOf (chanOf s c) sh with mode := m }
  guardedIn img
    (filtBusy s c ++
      [(running f, stNotStopped),
        (!onlyBits q [(0, 11)] || !modeValid m || (decide (14 ≤ m) && (bankSel f).isNone), stBadParam),
        (!sh && decide (3 ≤ s.therm.level) && fastMode f, stThermalLimit)]) s
    (fun _ => okay [] (modInst c sh (fun f => { f with mode := m }) s))

/-- FILT.SELECT_MODE (0x1203). -/
def execFiltSelectMode (t : Time) (rq : Request) (s : State) : Outcome :=
  command 0x1203 (lenIs 1) (ownFiltSelectMode false) t rq s

/-- FILT.START's own part (R124, R133, R419). -/
def ownFiltStart (rq : Request) (s : State) : Reply :=
  let q := qword rq 1
  let c := fld q 0 6
  let sh := fbit q 6
  let f := instOf (chanOf s c) sh
  guarded
    (filtBusy s c ++
      [(!onlyBits q [(0, 7)] || (!running f && acBroken s c f), stBadParam),
        (!running f && !sh && decide (3 ≤ s.therm.level) && fastMode f, stThermalLimit)]) s
    (fun _ => okay [] (if running f then s else modInst c sh (fun f => { f with run := .starting }) s))

/-- FILT.START (0x1204). -/
def execFiltStart (t : Time) (rq : Request) (s : State) : Outcome := command 0x1204 (lenIs 1) ownFiltStart t rq s

/-- FILT.STOP's own part (R133). -/
def ownFiltStop (rq : Request) (s : State) : Reply :=
  let q := qword rq 1
  let c := fld q 0 6
  let sh := fbit q 6
  guarded (filtBusy s c ++ [(!onlyBits q [(0, 7)], stBadParam)]) s
    (fun _ => okay [] (if running (instOf (chanOf s c) sh) then modInst c sh (fun f => { f with run := .stopping }) s
      else s))

/-- FILT.STOP (0x1205). -/
def execFiltStop (t : Time) (rq : Request) (s : State) : Outcome := command 0x1205 (lenIs 1) ownFiltStop t rq s

/-- FILT.CROSSFADE's own part (R76, R130, R133). -/
def ownFiltCrossfade (rq : Request) (s : State) : Reply :=
  let q := qword rq 1
  let c := fld q 0 6
  let n := fld q 6 13
  let x := chanOf s c
  let sameRate := cyclesPer x.primary.mode (bankSel x.primary) == cyclesPer x.shadow.mode (bankSel x.shadow)
  guarded
    (filtBusy s c ++
      [(!onlyBits q [(0, 19)] || n == 0 || decide (4096 < n) || !running x.shadow || (!sameRate && n != 1) ||
          acBroken s c x.shadow, stBadParam)]) s
    (fun _ => okay [] (modChan c (fun x => { x with fade := .pending n, lastFadeTs := none, fadeFrom := s.now }) s))

/-- FILT.CROSSFADE (0x1206). -/
def execFiltCrossfade (t : Time) (rq : Request) (s : State) : Outcome :=
  command 0x1206 (lenIs 1) ownFiltCrossfade t rq s

/-- FILT.SYNC's own part (R137, R228, R229, R237): without a time, the first whole microsecond at least 100 us ahead. -/
def ownFiltSync (rq : Request) (s : State) : Reply :=
  let q := qword rq 1
  let gs := BitVec.ofNat 8 (fld q 0 8)
  let timed := fbit q 8
  let late := fld q 9 2
  let tgt := qword rq 2
  let arm := oneShot tgt (.sync gs) late rq.agent
  let bad := !onlyBits q [(0, 11)] || (timed && (!t96Form tgt || !t96Near s tgt || late == 3))
  if bad then deny stBadParam s
  else if !timed then
    let tb := soon s
    okay [mkWord [(0, 96, t96 tb), (96, 6, 63)]] ((bitsOf gs).foldl (fun acc g => addSync g (localOf s tb) acc) s)
  else match armPlan arm (tbNow s), freeSlot s with
    | none, _ => deny stTimePast s
    | _, none => deny stBusy s
    | some p, some i => okay [mkWord [(0, 96, t96 arm.target), (96, 6, i)]] (armSlot i p s)

/-- FILT.SYNC (0x1207): LEN 1, or 2 with TIMED. -/
def execFiltSync (t : Time) (rq : Request) (s : State) : Outcome :=
  command 0x1207 (lenIs (if fbit (qword rq 1) 8 then 2 else 1)) ownFiltSync t rq s

/-- `STATE`, `J` and `N` of `FILT.STATUS`. -/
def fadeCode : Fade → Nat × Nat × Nat
  | .normal => (0, 0, 0) | .pending n => (1, 0, n) | .fading j n => (2, j, n)

/-- Words A2 to A4 of `FILT.STATUS` (R363). -/
def filtStatusWords (c : Nat) (s : State) : List Word :=
  let x := chanOf s c
  let f := fadeCode x.fade
  let banks := [x.primary.bankA, x.primary.bankB, x.shadow.bankA, x.shadow.bankB]
  let loaded := (List.range 4).foldl (fun acc i => acc + b2n (banks.getD i none).isSome * 2 ^ i) 0
  [mkWord [(0, 2, f.1), (2, 13, f.2.1), (15, 13, f.2.2), (28, 4, x.primary.mode), (32, 1, b2n (running x.primary)),
      (33, 4, x.shadow.mode), (37, 1, b2n (running x.shadow)), (38, 1, b2n (woven s c)), (39, 4, loaded)],
    mkWord ((List.range 4).map (fun i =>
      (32 * i, 32, match banks.getD i none with | some b => b.tag.toNat | none => 0))),
    mkWord [(0, 96, t96 (tbAt s (groupOf s (c / 8)).tSync))]]

/-- FILT.STATUS's own part. -/
def ownFiltStatus (rq : Request) (s : State) : Reply :=
  let q := qword rq 1
  guarded [(!onlyBits q [(0, 6)], stBadParam)] s (fun _ => okay (snap s :: filtStatusWords (fld q 0 6) s) s)

/-- FILT.STATUS (0x1208). -/
def execFiltStatus (t : Time) (rq : Request) (s : State) : Outcome := command 0x1208 (lenIs 1) ownFiltStatus t rq s

end Sys2Proof.Machine
end

