-- ==== Sys2Proof/Machine/Rec.lean ====
section
/-! DEFINITION. The REC commands (R190, R366). -/

namespace Sys2Proof.Machine

/-- The subscription after the parts whose `up` holds (R366). -/
def subMerge (q : Word) (up : Nat → Bool) (u : Sub) : Sub :=
  { rings := if up 0 then BitVec.ofNat 8 (fld q 10 8) else u.rings
    basin := if up 1 then (if fbit q 18 then some (fld q 19 10) else none) else u.basin
    export_ := if up 2 then (if fbit q 29 then some (BitVec.ofNat 16 (fld q 30 16)) else none) else u.export_
    exportTc := if up 2 then fld q 46 3 else u.exportTc }

/-- A traffic class that an export may name (R366). -/
def exportClass (n : Nat) : Bool := n == 2 || n == 5 || n == 6 || n == 7

/-- The parts of a subscription word are in range (R366). -/
def subBad (s : State) (q : Word) (up : Nat → Bool) : Bool :=
  (up 1 && fbit q 18 && (s.basin.segs.getD (fld q 19 10) default).state == .unconfigured) ||
    (up 2 && fbit q 29 && !exportClass (fld q 46 3))

/-- REC.SUBSCRIBE's own part (R190): a local address changes at its next output boundary, a received one at once. -/
def ownRecSubscribe (img : Bool) (rq : Request) (s : State) : Reply :=
  let q := qword rq 1
  let a := fld q 0 10
  let up := fun i => fbit q (49 + i)
  let node := BitVec.ofNat 16 (fld q 53 16)
  guardedIn img
    [(!onlyBits q [(0, 69)] || decide (0x1FF < a) ||
        !unusedZero q [(10, 8), (18, 11), (29, 20)] up || subBad s q up, stBadParam)] s
    (fun _ =>
      if fbit q 52 then
        okay [] (modRemote node a (fun x =>
          let u := subMerge q up x.sub
          let old := subDests x.sub
          { x with sub := u, gapDue := x.gapDue ++ (subDests u).filter (fun d => !old.contains d && !x.gapDue.contains d) }) s)
      else okay [] (modAddr a (fun x => { x with pending := some (subMerge q up (x.pending.getD x.sub)) }) s))

/-- REC.SUBSCRIBE (0x1501). -/
def execRecSubscribe (t : Time) (rq : Request) (s : State) : Outcome :=
  command 0x1501 (lenIs 1) (ownRecSubscribe false) t rq s

/-- The subscription word of `REC.STATUS` A2: bits [68:0] of `SUBSCRIBE` Q1. -/
def subWord (a : Nat) (remote : Bool) (node : Nat) (u : Sub) : Word :=
  mkWord [(0, 10, a), (10, 8, u.rings.toNat), (18, 1, b2n u.basin.isSome), (19, 10, u.basin.getD 0),
    (29, 1, b2n u.export_.isSome), (30, 16, (u.export_.getD 0).toNat), (46, 3, u.exportTc), (52, 1, b2n remote),
    (53, 16, node)]

/-- REC.STATUS's own part (R366). -/
def ownRecStatus (rq : Request) (s : State) : Reply :=
  let q := qword rq 1
  let a := fld q 0 10
  let node := BitVec.ofNat 16 (if fbit q 10 then fld q 11 16 else 0)
  let x := if fbit q 10 then remoteOf s node a else addrOf s a
  guarded [(!onlyBits q [(0, 27)] || decide (0x1FF < a), stBadParam)] s
    (fun _ => okay [snap s, subWord a (fbit q 10) node.toNat x.sub,
      mkWord [(0, 64, x.delivered), (64, 64, x.discarded)], mkWord [(0, 64, x.genIgnored), (64, 64, x.gaps)]] s)

/-- REC.STATUS (0x1502). -/
def execRecStatus (t : Time) (rq : Request) (s : State) : Outcome := command 0x1502 (lenIs 1) ownRecStatus t rq s

end Sys2Proof.Machine
end

