-- ==== Sys2Proof/Machine/Time.lean ====
section
/-! DEFINITION. The timebase, the two time domains with their servos, lock detectors and step policy, holdover, UTC, link
delay, PTP and time of day (R194 to R227, R497, R498). The step itself is in Step.lean's neighbour Tact.lean. -/

namespace Sys2Proof.Machine

/-! ### Access -/

def modTime (f : TimeSt → TimeSt) (s : State) : State := { s with time := f s.time }
def modDom (d : Nat) (f : Domain → Domain) (s : State) : State := modTime (fun x => { x with dom := x.dom.modify d f }) s
def modTod (f : TodSt → TodSt) (s : State) : State := modTime (fun x => { x with tod := f x.tod }) s
def modPtp (p : Nat) (f : PtpPort → PtpPort) (s : State) : State :=
  modTime (fun x => { x with ptp := x.ptp.modify p f }) s

/-- The other domain. -/
def otherDom (d : Nat) : Nat := if d = 0 then 1 else 0

/-- A frequency of one, in 2^-80 ppb. -/
abbrev yOne : Int := 1000000000 * 2 ^ 80

/-! ### Rate, slew and shadow clocks (R200, R202, R218) -/

/-- Entries of the last 64 s and the one in force when they began (R222). -/
def trimHist (cut : Time) : List (Time × Int) → List (Time × Int)
  | [] => []
  | x :: xs => if cut < x.1 then x :: trimHist cut xs else [x]

/-- y as it now drives the timebase enters the history. -/
def noteY (s : State) : State :=
  let v := yTotal s
  match s.time.yHist with
  | h :: _ => if h.2 = v then s
      else modTime (fun x => { x with yHist := (s.now, v) :: trimHist (s.now - 64 * secU) x.yHist }) s
  | [] => modTime (fun x => { x with yHist := [(s.now, v)] }) s

/-- The slew and the shadow clocks up to now: a shadow runs at its own y on the timebase's tick (R202). -/
def advance (s : State) : State :=
  let left := slewLeftAt s s.now
  let slewed := s.time.slewLeft - left
  let run := fun (d : Nat) (x : Domain) =>
    if follows s d then { x with shadowAt := s.now }
    else
      let dt : Int := (s.now - x.shadowAt : Nat)
      { x with shadowOff := x.shadowOff + (x.y - s.time.y) * dt * 2 ^ 32 / (yOne + s.time.y) + slewed, shadowAt := s.now }
  modTime (fun x => { x with dom := x.dom.mapIdx run, slewLeft := left, slewAt := s.now }) s

/-- The servo's or holdover's y changes now. -/
def setY (y : Int) (s : State) : State := noteY (modTime (fun x => { x with y := y }) (advance s))

/-- The mean of y over the last `span` (R222: 64 s at most are kept). -/
def yMean (span : Nat) (s : State) : Int :=
  let cut := s.now - span
  let r := s.time.yHist.foldl (fun (acc : Int × Time) h =>
    let a := max h.1 cut
    (acc.1 + h.2 * ((acc.2 - a : Nat) : Int), min acc.2 a)) (0, s.now)
  let seen := s.now - r.2
  if seen = 0 then yTotal s else r.1 / (seen : Int)

/-! ### Switching (R213, R217, R218) -/

/-- The domain that was followed gets a shadow clock: the timebase without δ (R202). -/
def releaseDom (s : State) : State :=
  let s1 := advance s
  if s1.time.mode == .follow then
    modDom s1.time.active (fun x => { x with shadowOff := -(s1.time.declared + s1.time.slewLeft) }) s1
  else s1

/-- The frequency-limit event where a slew that begins drives y into its clamp (R200). -/
def noteLimit (s : State) : State :=
  if yClamped s.time.y (slewY s) then emitNow 0x2002 s.time.active 0 [] s else s

/-- The timebase takes over domain `n`, with δ slewed out or declared (R218). -/
def switchDom (n : Nat) (s : State) : State :=
  let s1 := releaseDom s
  let delta := -(domOf s1 n).shadowOff
  noteLimit <| noteY (modTime (fun x => { x with
    active := n, activeSince := s.now, mode := .follow, y := (domOf s1 n).y
    declared := if x.declareMode then delta else 0
    slewLeft := if x.declareMode then 0 else delta
    utc := { x.utc with supplied := false } }) s1)

/-- A bin of the holdover table. -/
def holdBin (tbl : List (Int × Int)) (b : Int) : Option Int := (tbl.find? (fun e => e.1 == b)).map (·.2)

/-- The temperature of the holdover table's source in 1/128 °C (R222). -/
def holdTemp (s : State) : Int :=
  if s.time.tempSrc < 16 then (s.therm.sensors.getD s.time.tempSrc default).reading else s.pwr.oscTemp

/-- The point `x` of the line through `(0, p)` and `(len, q)`. -/
def between (p q x len : Int) : Int := p + (q - p) * x / len

/-- y in holdover: the table at the current temperature, interpolated between learned bins, else the entry value (R222). A
bin's value stands at the bin's lower edge (DESIGN CHOICE, log 111). -/
def holdoverY (s : State) : Int :=
  let t := holdTemp s
  let b := t / 128
  let x := t % 128
  match holdBin s.time.table (b - 1), holdBin s.time.table b, holdBin s.time.table (b + 1) with
  | _, some p, some q => between p q x 128
  | _, some p, none => p
  | some p, none, some q => between p q (x + 128) 256
  | some p, none, none => p
  | none, none, some q => q
  | none, none, none => s.time.holdoverEntryY

/-- The temperature has moved to another bin (R222). -/
def noteBin (s : State) : State :=
  let b := holdTemp s / 128
  if s.time.binNow == b then s else modTime (fun x => { x with binNow := b, binSince := s.now }) s

/-- After a reading of the table's temperature source, the timebase follows the table while it holds over (R222). -/
def followTable (s0 : State) : State :=
  let s := noteBin s0
  if s.time.mode == .holdover then setY (holdoverY s) s else s

/-- Holdover begins, qualified (R217, R222). -/
def enterHoldover (s : State) : State :=
  let s1 := releaseDom s
  let y := yMean (64 * secU) s1
  noteY (modTime (fun x => { x with
    mode := .holdover, y := y, holdoverEntryY := y, holdoverSince := s1.now, holdoverQualified := true
    holdoverExpired := false, utc := { x.utc with supplied := false } }) s1)

/-- The timebase runs free at `y`. -/
def enterFree (y : Int) (s : State) : State :=
  noteY (modTime (fun x => { x with mode := .freeRun, y := y, utc := { x.utc with supplied := false } }) (releaseDom s))

/-- The automatic sync of every group at the first whole second strictly after now (R18, R137). -/
def autoSync (s : State) : State :=
  let at_ := localOf s ((tbNow s / secU + 1) * secU)
  (List.range 8).foldl (fun acc g => addSync g at_ acc) s

/-- State codes (R367, R369). -/
def domCode : DomState → Nat
  | .disabled => 0 | .noSignal => 1 | .acquiring => 2 | .locked => 3 | .faulty => 4

/-- A domain changes state, with its event (R216, R221); the first lock arms the automatic sync (R18). -/
def toState (d : Nat) (new : DomState) (s : State) : State :=
  let x := domOf s d
  if x.state == new then s
  else
    let s1 := modDom d (fun x => { x with
      state := new
      lockedSince := if new == .locked then s.now else x.lockedSince
      lockedFor := if x.state == .locked then s.now - x.lockedSince else x.lockedFor
      pendingDelta := if x.state == .faulty then none else x.pendingDelta
      lockRun := 0, unlockRun := 0, withinSince := none }) s
    let s2 := emitNow 0x2001 d (domCode x.state + 8 * domCode new) [] s1
    if new == .locked && !s2.time.everLocked then
      let s3 := modTime (fun x => { x with everLocked := true }) s2
      if s3.daq.autoLock then autoSync s3 else s3
    else s2

/-- In QUIET the timebase follows no domain: it holds over, or runs free where holdover is not qualified (R456, R217). -/
def quietTime (s : State) : State :=
  if s.time.mode != .follow then s
  else
    let x := domOf s s.time.active
    let held := if x.state == .locked then s.now - x.lockedSince else x.lockedFor
    if 600 * secU ≤ held then enterHoldover s else enterFree x.y s

/-- *Choice of the active domain* (R217); in QUIET none is chosen (R456). -/
def chooseDom (s : State) : State :=
  if s.pwr.state == .quiet then quietTime s else
  let st := fun d => (domOf s d).state
  let p := s.time.preferred
  let o := otherDom p
  let a := s.time.active
  if !s.time.everLocked then
    let want := if st p == .acquiring then some p else if st o == .acquiring then some o else none
    match want with
    | some n => if follows s n then s else switchDom n s
    | none => if s.time.mode == .freeRun && s.time.y == 0 then s else enterFree 0 s
  else if s.time.mode == .follow && st a == .locked then s
  else if st p == .locked then switchDom p s
  else if st o == .locked then switchDom o s
  else if s.time.mode == .follow then
    if 600 * secU ≤ (domOf s a).lockedFor then enterHoldover s
    else if st a == .acquiring then s
    else enterFree (domOf s a).y s
  else if s.time.mode == .freeRun && st a == .acquiring then switchDom a s
  else s

/-! ### Large offsets (R219, R221, R498) -/

/-- The domain that R219 judges as the active one (R498). -/
def judgedActive (s : State) : Option Nat :=
  if s.time.mode == .follow then some s.time.active
  else
    let ok := fun d => (domOf s d).state != .disabled && (domOf s d).state != .faulty
    if ok s.time.preferred then some s.time.preferred
    else if ok (otherDom s.time.preferred) then some (otherDom s.time.preferred) else none

/-- A step is decided; it takes effect at its tick (R220). -/
def decideStep (delta : Int) (cause : StepCause) (origin : Option Nat) (s : State) : State :=
  match s.time.stepDue with
  | some _ => s
  | none => modTime (fun x => { x with stepDue := some { delta := delta, cause := cause, origin := origin } }) s

/-- An offset in 2^-48 ns as a step in 2^-16 ns. -/
def stepOf (off : Int) : Int := roundDiv off (2 ^ 32)

/-- *Large-offset decisions* (R219). -/
def largeOffset (d : Nat) (s : State) : State :=
  let x := domOf s d
  let o := otherDom d
  let y := domOf s o
  let beyond := decide (nsOff (y.servo.stepUs * 1000) < y.thetaTb.natAbs)
  if judgedActive s != some d then toState d .faulty s
  else if y.state == .locked && !beyond then toState d .faulty s
  else if y.state == .locked && decide (((y.thetaTb - x.thetaTb).natAbs : Int) ≤ nsOff x.servo.agreeNs) then
    decideStep (stepOf (-x.thetaTb)) .agreedStep none s
  else if y.state == .locked then toState o .faulty (toState d .faulty s)
  else
    let s1 := toState d .faulty s
    emitNow 0x2005 d 0 [BitVec.ofNat 128 (asField (roundDiv (-x.thetaTb) (2 ^ 40)) 96)]
      (modDom d (fun z => { z with pendingDelta := some (stepOf (-x.thetaTb)) }) s1)

/-! ### A measurement (R202, R213 to R217, R497) -/

/-- The servo at one measurement of own offset `own` (R200, R213): integrator and y, and whether y is clamped, with the slew
`slew` of the timebase where the domain drives it. -/
def servoStep (x : Domain) (own slew : Int) : Int × Int × Bool :=
  let integ := x.integ + (x.servo.ki : Int) * own
  let y := -((x.servo.kp : Int) * own + integ) * 2 ^ x.tauExp.toNat
  if yClamped y slew then (x.integ, clampY y, true) else (integ, y, false)

/-- The lock detector after one measurement (R215): the domain's next state. -/
def lockStep (x : Domain) : DomState :=
  if x.state == .acquiring && decide (x.servo.lockCount ≤ x.lockRun) then .locked
  else if x.state == .locked && decide (4 ≤ x.unlockRun) then .acquiring
  else x.state

/-- The runs that a valid measurement makes or breaks (R215, R216): within the lock threshold and above the unlock threshold
against the own clock, and within the lock threshold against the timebase. -/
def noteOffset (own tb : Int) (now : Time) (x : Domain) : Domain :=
  { x with
    lockRun := if (own.natAbs : Int) ≤ nsOff x.servo.lockNs then x.lockRun + 1 else 0
    unlockRun := if nsOff x.servo.unlockNs < (own.natAbs : Int) then x.unlockRun + 1 else 0
    withinSince := if (tb.natAbs : Int) ≤ nsOff x.servo.lockNs then some (x.withinSince.getD now) else none }

/-- A measurement within the step threshold: servo, lock detector (R213, R215, R216). -/
def smallOffset (d : Nat) (own tb : Int) (s : State) : State :=
  let r := servoStep (domOf s d) own (if follows s d then slewY s else 0)
  let s1 := modDom d (fun x => noteOffset own tb s.now { x with integ := r.1, y := r.2.1, largeRun := 0 }) s
  let s2 := if r.2.2 then emitNow 0x2002 d 0 [] s1 else s1
  let s3 := if follows s2 d then setY r.2.1 s2 else s2
  toState d (lockStep (domOf s3 d)) s3

/-- A measurement beyond the step threshold: withheld from the servo and not from the lock detector; before any lock it sets
the timebase at once, else the third decides (R215, R219, R221). -/
def bigOffset (d : Nat) (own tb : Int) (s : State) : State :=
  let n := (domOf s d).largeRun + 1
  let s1 := modDom d (fun x => noteOffset own tb s.now { x with largeRun := n % 3 }) s
  if !s1.time.everLocked && decide (nsOff ((domOf s d).servo.stepUs * 1000) < (own.natAbs : Int)) then
    decideStep (stepOf (-tb)) .initialSet (some d) (modDom d (fun x => { x with largeRun := 0 }) s1)
  else
    let s2 := toState d (lockStep (domOf s1 d)) s1
    if n < 3 then s2 else largeOffset d s2

/-- A valid measurement of domain `d` (R213): `raw` is the timebase minus the source in 2^-48 ns. -/
def measure (d : Nat) (raw : Int) (rootUnc : Bool) (s0 : State) : State :=
  if (domOf s0 d).state == .disabled then s0
  else
    let s1 := modDom d (fun x => { x with
      servo := x.servoNext.getD x.servo, servoNext := none, missRun := 0, rootUncertain := rootUnc, lastMeas := some s0.now }) s0
    let s2 := if (domOf s1 d).state == .noSignal then chooseDom (toState d .acquiring s1) else s1
    let s3 := advance s2
    let tb := raw - (s3.time.declared + s3.time.slewLeft)
    let own := if follows s3 d then tb else raw + (domOf s3 d).shadowOff
    let s4 := modDom d (fun x => { x with theta := own, thetaTb := tb }) s3
    let big := decide (nsOff ((domOf s4 d).servo.stepUs * 1000) < (tb.natAbs : Int))
    chooseDom (if big then bigOffset d own tb s4 else smallOffset d own tb s4)

/-- An invalid or missing measurement (R216): four in a row lose the signal. -/
def missed (d : Nat) (s : State) : State :=
  let s1 := modDom d (fun x => { x with missRun := x.missRun + 1 }) s
  let x := domOf s1 d
  if 4 ≤ x.missRun ∧ (x.state = .acquiring ∨ x.state = .locked) then chooseDom (toState d .noSignal s1) else s1

/-- UTC values from the source of a followed domain (R197, R206). -/
def supplyUtc (d : Nat) (valid : Bool) (offset : Int) (l61 l59 : Bool) (leapTime : Nat) (s : State) : State :=
  if !follows s d then s
  else if valid then modTime (fun x => { x with utc :=
      { offset := offset, leap61 := l61, leap59 := l59, leapTime := leapTime, valid := true, supplied := true } }) s
  else modTime (fun x => { x with utc := { x.utc with supplied := false } }) s

/-! ### Fabric time (R203 to R207, R497) -/

/-- Insert into an ascending list. -/
def insertAsc (n : Nat) : List Nat → List Nat
  | [] => [n]
  | x :: xs => if n ≤ x then n :: x :: xs else x :: insertAsc n xs

/-- The median of a list (the mean of the two in the middle). -/
def median (l : List Nat) : Nat :=
  let v := l.foldl (fun acc n => insertAsc n acc) []
  let n := v.length
  if n = 0 then 0
  else if n % 2 = 1 then v.getD (n / 2) 0 else (v.getD (n / 2 - 1) 0 + v.getD (n / 2) 0) / 2

/-- The exponent n whose interval 2^-n s lies nearest to a spacing, from 0 to 8 (R497). -/
def nearestExp (m : Nat) : Nat :=
  let dist := fun (n : Nat) => ((m : Int) - ((secU / 2 ^ n : Nat) : Int)).natAbs
  (List.range 9).foldl (fun best n => if dist n < dist best then n else best) 0

/-- The copy in use: alive, fewest hops, EAST first (R205). -/
def copyInUse (cs : List (Option TimeCopy)) : Option Nat :=
  (List.range cs.length).foldl (fun acc i =>
    match cs.getD i none with
    | some c =>
      if !c.alive then acc
      else match acc with
        | none => some i
        | some j => match cs.getD j none with
          | some b => if c.hops < b.hops then some i else acc
          | none => some i
    | none => acc) none

/-- The nominal interval of a domain in local time (R497). -/
def interval (x : Domain) : Nat := secU / 2 ^ x.tauExp.toNat

/-- The averaged round trip of a port in 2^-40 of 1/256 ns: the mean over the lanes with a result of their 64 ms averages, in
which the skew of each lane against the others is removed (R207, R268; log entry 108). -/
def portRt (s : State) (port : Nat) : Option Int :=
  let avs := ((s.time.links.getD port []).filter (fun l => !l.window.isEmpty)).map
    (fun l => l.window.sum * 2 ^ 40 / (l.window.length : Int))
  if avs.isEmpty then none else some (avs.sum / (avs.length : Int))

/-- d_in of a port in 2^-48 ns (R207); without a round trip yet, a free value stands for it. -/
def dIn (s : State) (port : Nat) (rt : Option Int) : Int × State :=
  let a := s.time.asym.getD port (0, 0)
  match rt with
  | some r => ((r + (a.1 - a.2) * 2 ^ 40) / 2, s)
  | none =>
    let (v, s1) := drawInt s
    ((v * 2 ^ 40 + (a.1 - a.2) * 2 ^ 40) / 2, s1)

/-- The root that a domain follows sends this frame (R205); a node never yields a copy to itself. -/
def rootMatches (s : State) (x : Domain) (f : TimeFrame) : Bool :=
  f.root != s.fuseShadow.uid &&
    (match x.source with
     | .fabric true _ => f.root == s.fab.anchorUid
     | .fabric false r => f.root == r
     | _ => false)

/-- A valid copy at one domain: it is noted, and measured when it is the copy in use (R205). -/
def frameAt (d : Nat) (f : TimeFrame) (s : State) : State :=
  let x := domOf s d
  if !rootMatches s x f then s
  else
    let cs := x.copies.set f.port (some { hops := f.hops, last := s.now, alive := true })
    let use := copyInUse cs
    let s1 := modDom d (fun x => { x with copies := cs }) s
    if use != some f.port then s1
    else
      let sp := match x.lastMeas with
        | some l => ((s.now - l) :: x.spacings).take 16
        | none => x.spacings
      let (din, s2) := dIn s1 f.port (portRt s1 f.port)
      let s3 := modDom d (fun x => { x with
        copyPort := f.port, spacings := sp, hops := f.hops
        tauExp := if sp.isEmpty then x.tauExp else (nearestExp (median sp) : Nat) }) s2
      let s4 := if 512 < f.hops ∧ x.hops ≤ 512 then emitNow 0x2004 d f.hops [] s3 else s3
      let raw := (tbDiff (tbNow s4) f.origin - (f.acc : Int) * 256) * 2 ^ 32 - din
      supplyUtc d f.utcValid f.utcOffset f.leap61 f.leap59 f.leapTime (measure d raw (f.rootState == 2) s4)

/-- TIME_FRAME_RX (R14, R205, R206): a copy of a TIME frame arrives; `t` is the marker-referenced ingress of its header. -/
def execTimeFrameRx (t : Time) (f : TimeFrame) (s0 : State) : Outcome :=
  let s := tick t s0
  if !isUp s .xbar then .next (countDiscard s .xbar)
  else if !isUp s .time then .next (countDiscard s .time)
  else if !f.good || f.rootState == 3 || decide (1023 < f.hops) then .next s
  else .next (frameAt 1 f (frameAt 0 f s))

/-- TIME_COPY_SWITCH (R205): the copy in use has missed 4 intervals. -/
def execTimeCopySwitch (t : Time) (d : Fin 2) (s0 : State) : Outcome :=
  let s := tick t s0
  let x := domOf s d.val
  match x.copies.getD x.copyPort none with
  | some c =>
    if c.alive && decide (c.last + 4 * interval x ≤ s.now) then
      let cs := x.copies.set x.copyPort (some { c with alive := false })
      .next (modDom d.val (fun x => { x with copies := cs, copyPort := (copyInUse cs).getD x.copyPort }) s)
    else .next s
  | none => .next s

/-- When a domain last had a valid measurement; for FABRIC a valid copy from either direction counts (R205). -/
def lastValid (x : Domain) : Option Time :=
  (x.lastMeas.toList ++ (x.copies.filterMap id).map (·.last)).max?

/-- DOMAIN_SIGNAL_LOSS (R205, R216): four expected measurements are missing. -/
def execDomainSignalLoss (t : Time) (d : Fin 2) (s0 : State) : Outcome :=
  let s := tick t s0
  let x := domOf s d.val
  let gone := match lastValid x with | some l => decide (l + 4 * interval x ≤ s.now) | none => false
  if gone && (x.state == .acquiring || x.state == .locked) then .next (chooseDom (toState d.val .noSignal s))
  else .next s

/-- SLEW_COMPLETE (R218): the last of a switching difference is removed. -/
def execSlewComplete (t : Time) (s0 : State) : Outcome := .next (noteY (advance (tick t s0)))

/-- REVERTIVE_SWITCH (R217): the preferred domain has been LOCKED for 60 s while the other is active. -/
def execRevertiveSwitch (t : Time) (s0 : State) : Outcome :=
  let s := tick t s0
  let p := s.time.preferred
  let x := domOf s p
  if s.time.revertive && s.time.mode == .follow && s.time.active != p && x.state == .locked &&
      decide (max x.lockedSince s.time.activeSince + 60 * secU ≤ s.now) then .next (switchDom p s)
  else .next s

/-- FAULT_RECOVERY (R216): the offset has stayed within the lock threshold for the recovery time. -/
def execFaultRecovery (t : Time) (d : Fin 2) (s0 : State) : Outcome :=
  let s := tick t s0
  let x := domOf s d.val
  match x.withinSince with
  | some w =>
    if x.state == .faulty && decide (w + x.servo.recoveryS * secU ≤ s.now) then
      .next (chooseDom (toState d.val .acquiring s))
    else .next s
  | none => .next s

/-! ### Holdover (R222, R224) -/

/-- HOLDOVER_LEARN (R222): the temperature has spent 60 s within one bin while the active domain was LOCKED; the mean y of
these 60 s weighs 1/16 against the bin's value. -/
def execHoldoverLearn (t : Time) (s0 : State) : Outcome :=
  let s := noteBin (tick t s0)
  let x := domOf s s.time.active
  let b := s.time.binNow
  let since := max (max s.time.binSince s.time.binLearned) (max x.lockedSince s.time.activeSince)
  if s.time.mode != .follow || x.state != .locked || decide (b < -40) || decide (125 < b) ||
      decide (s.now < since + 60 * secU) then .next s
  else
    let y := yMean (60 * secU) s
    let v := match holdBin s.time.table b with
      | some old => old + roundDiv (y - old) 16
      | none => y
    .next (modTime (fun x => { x with
      table := upsert x.table (fun e => e.1 == b) (b, v), tableDirty := true, binLearned := s.now }) s)

/-- HOLDOVER_TABLE_WRITE (R222): hourly, firmware writes the table to the NV store. -/
def execHoldoverTableWrite (t : Time) (s0 : State) : Outcome :=
  let s := tick t s0
  if nvWritable s && s.time.tableDirty then
    .next (modTime (fun x => { x with tableDirty := false }) (modCalNv (fun r => { r with holdover := s.time.table }) s))
  else .next s

/-- HOLDOVER_BOUND_EXPIRY (R224). -/
def execHoldoverBoundExpiry (t : Time) (s0 : State) : Outcome :=
  let s := tick t s0
  if s.time.mode == .holdover && decide (s.time.holdoverSince + s.time.boundS * secU ≤ s.now) then
    .next (modTime (fun x => { x with holdoverExpired := true }) s)
  else .next s

/-- LEAP_EVENT (R197): at the leap event the UTC offset changes by 1 s and the flag clears. -/
def execLeapEvent (t : Time) (s0 : State) : Outcome :=
  let s := tick t s0
  let u := s.time.utc
  if (u.leap61 || u.leap59) && u.leapTime != 0 && decide (u.leapTime * secU ≤ tbNow s) then
    .next (modTime (fun x => { x with utc := { x.utc with
      offset := if u.leap61 then u.offset + 1 else u.offset - 1, leap61 := false, leap59 := false, leapTime := 0 } }) s)
  else .next s

/-! ### Root and links (R203, R207) -/

/-- Root advertising is on (R203). -/
def advertises (s : State) : Bool :=
  if s.time.rootFollowAnchor then s.fab.anchorActive else s.time.rootAdvertise

/-- *TIME frame payload* (R203). -/
def timePayload (s : State) : List Word :=
  let u := s.time.utc
  [mkWord [(0, 96, t96 (tbNow s)), (96, 1, s.time.active), (97, 2, tbState s), (99, 1, b2n u.leap61),
      (100, 1, b2n u.leap59), (101, 1, b2n u.valid)],
    mkWord [(0, 48, u.leapTime), (48, 16, s.time.epoch), (64, 16, asField u.offset 16)]]

/-- TIME_FRAME_TX (R203): a root sends TIME frames in both ring directions, to every node that can follow it. -/
def execTimeFrameTx (t : Time) (s0 : State) : Outcome :=
  let s := tick t s0
  if !advertises s || !isUp s .time then .next s
  else .next (originate (frameFor 0 4 0xFFFF#16 s.cfg.activeGen (timePayload s)) s)

/-- Change one lane's link delay. -/
def modLink (port lane : Nat) (f : LinkRt → LinkRt) (s : State) : State :=
  modTime (fun x => { x with links := x.links.modify port (fun l => l.modify lane f) }) s

/-- The link-delay event (R207, R369). -/
def linkEvent (port lane : Nat) (change : Int) (s : State) : State :=
  emitNow 0x2003 port lane [BitVec.ofNat 128 (asField change 64)] s

/-- The round trip of the four timestamps without the neighbour's turnaround, in 1/256 ns modulo 2^40 (R207). -/
def roundTripOf (k : Nat × Nat × Nat × Nat) : Int :=
  let d : Nat := (k.2.2.2 + 2 ^ 41 - k.1 - (k.2.2.1 + 2 ^ 40 - k.2.1) % 2 ^ 40) % 2 ^ 40
  if d < 2 ^ 39 then d else (d : Int) - 2 ^ 40

/-- LINK_DELAY_UPDATE (R207): the raw 1 ms result of a lane, 1/256 ns, from its four timestamps; a change of more than 10 ns
raises an event, then at most one more for the following second. Without timestamps there is no result. -/
def execLinkDelayUpdate (t : Time) (port : Fin 3) (lane : Fin 8) (s0 : State) : Outcome :=
  let s := tick t s0
  if isV s && decide (4 ≤ lane.val) then .fault .absentPart
  else
    let l := (s.time.links.getD port.val []).getD lane.val default
    match l.stamps with
    | none => .next s
    | some k =>
    let rt := roundTripOf k
    let s1 := modLink port.val lane.val (fun l => { l with raw := some rt, window := (rt :: l.window).take 64 }) s
    match l.raw with
    | none => .next s1
    | some r =>
      let ch := rt - r
      if ch.natAbs ≤ 2560 then .next s1
      else match l.holdUntil with
        | some _ =>
          let big := match l.largest with | some b => if b.natAbs < ch.natAbs then ch else b | none => ch
          .next (modLink port.val lane.val (fun l => { l with largest := some big }) s1)
        | none =>
          .next (linkEvent port.val lane.val ch
            (modLink port.val lane.val (fun l => { l with holdUntil := some (s.now + secU) }) s1))

/-- LINK_DELAY_EVENT_TIMER (R207): the second after an event ends; one more event carries the largest further change. -/
def execLinkDelayEventTimer (t : Time) (port : Fin 3) (lane : Fin 8) (s0 : State) : Outcome :=
  let s := tick t s0
  let l := (s.time.links.getD port.val []).getD lane.val default
  if isV s && decide (4 ≤ lane.val) then .fault .absentPart
  else match l.holdUntil with
  | none => .next s
  | some e =>
    if s.now < e then .next s
    else
      let s1 := modLink port.val lane.val (fun l => { l with holdUntil := none, largest := none }) s
      match l.largest with
      | some ch => .next (linkEvent port.val lane.val ch s1)
      | none => .next s1

/-! ### PTP (R208, R209) -/

/-- The domain that an ETHM port feeds. -/
def ptpDom (s : State) (p : Nat) : Option Nat := (List.range 2).find? (fun d => (domOf s d).source == .ptp p)

/-- Rank of a grandmaster under the default best master clock algorithm (R208; PRESUMED, log 112: the order of IEEE
1588-2019). -/
def gmRankOf (prio1 cls accuracy variance prio2 : Nat) (gm : BitVec 64) : Nat :=
  ((((prio1 * 256 + cls) * 256 + accuracy) * 65536 + variance) * 256 + prio2) * 2 ^ 64 + gm.toNat

/-- A PTP message leaves a port in its transport, with its tag (R208). -/
def sendPtp (p kind : Nat) (content : Int) (s : State) : State :=
  let x := s.time.ptp.getD p default
  let e := s.eth.ports.getD p default
  emitOut (.ptp p (x.transport == 1) (if e.vlan then some (e.vid, e.pcp) else none) kind content)
    (modPtp p (fun x => { x with sent := x.sent + 1 }) s)

/-- A Sync whose exact origin time is known is measured (R198, R208, R209): invalid from a grandmaster with ptpTimescale 0.
`rx` is the timebase value of its arrival. -/
def ptpMeasure (p : Nat) (rx origin : Nat) (corr logI : Int) (s : State) : State :=
  let x := s.time.ptp.getD p default
  match ptpDom s p with
  | some d =>
    if !x.gmTimescale then missed d (modPtp p (fun x => { x with rejected := x.rejected + 1 }) s)
    else match x.roundTrip with
      | none => s
      | some rt =>
        let (din, s1) := dIn s (3 + p) (some (rt * 2 ^ 40))
        measure d ((tbDiff rx origin - corr * 256) * 2 ^ 32 - din) (!x.gmTraceable)
          (modDom d (fun y => { y with tauExp := -logI }) s1)
  | none => s

/-- A Sync of the master in use at a slave port: measured at once, or held for its Follow_Up where it is of two steps
(R208). -/
def ptpSync (p : Nat) (m : PtpSync) (s : State) : State :=
  let x := s.time.ptp.getD p default
  let rx := tbNow s / 256 * 256
  if x.role != 1 || x.gm.isNone || x.master != m.src then s
  else if m.twoStep then modPtp p (fun x => { x with syncWaits := some (m, rx) }) s
  else ptpMeasure p rx m.origin m.corr m.logInterval s

/-- A Follow_Up: it completes the Sync of its master and sequence number (R208). -/
def ptpFollowUp (p : Nat) (src : BitVec 64) (seq origin : Nat) (corr : Int) (s : State) : State :=
  match (s.time.ptp.getD p default).syncWaits with
  | some (m, rx) =>
    if m.src == src && m.seq == seq then
      ptpMeasure p rx origin (m.corr + corr) m.logInterval (modPtp p (fun x => { x with syncWaits := none }) s)
    else s
  | none => s

/-- An Announce at a slave port: its grandmaster is taken where it is the one in use, ranks before it, or the one in use has
been silent for three Announce intervals (R208; PRESUMED, log 112). -/
def ptpAnnounce (p : Nat) (m : PtpAnnounce) (s : State) : State :=
  let x := s.time.ptp.getD p default
  let rank := gmRankOf m.prio1 m.clockClass m.accuracy m.variance m.prio2 m.gm
  let wait := 3 * (secU * 2 ^ (x.logAnnounce + 3).toNat / 8)
  let silent := decide (x.gmHeard + wait ≤ s.now)
  if x.role == 1 && !x.masterOnly && (x.gm.isNone || x.gm == some m.gm || silent || decide (rank < x.gmRank)) then
    let s1 := modPtp p (fun x => { x with
      gm := some m.gm, master := m.src, gmRank := rank, gmHeard := s.now, gmTimescale := m.ptpTimescale
      gmTraceable := m.traceable, syncWaits := if x.master == m.src then x.syncWaits else none }) s
    match ptpDom s1 p with
    | some d => supplyUtc d m.utcValid m.utcOffset m.leap61 m.leap59 0 s1
    | none => s1
  else s

/-- A message in the port's transport, with no more than the one tag that is accepted (R208). -/
def ptpForPort (x : PtpPort) (udp : Bool) (tags : Nat) : Bool := (udp == (x.transport == 1)) && decide (tags ≤ 1)

/-- PTP_MESSAGE_RX (R208, R209): by its transport (UDP/IPv4 or IEEE 802.3) and number of IEEE 802.1Q tags. -/
def execPtpMessageRx (t : Time) (port : Fin 2) (domainNum : Nat) (udp : Bool) (tags : Nat) (m : PtpMsg) (s0 : State) :
    Outcome :=
  let s := tick t s0
  let p := port.val
  let x := s.time.ptp.getD p default
  if !s.mgmt.run || !isUp s .ethm || x.role = 0 || !loopFree s (3 + p) || !ptpForPort x udp tags then .next s
  else
    let s1 := modPtp p (fun x => { x with received := x.received + 1 }) s
    if domainNum ≠ x.domainNumber then .next (modPtp p (fun x => { x with otherDomain := x.otherDomain + 1 }) s1)
    else match m with
      | .sync y => .next (ptpSync p y s1)
      | .followUp src seq origin corr => .next (ptpFollowUp p src seq origin corr s1)
      | .announce y => .next (ptpAnnounce p y s1)
      | .delayReq peer =>
        if (peer && x.delayMech == 1) || (!peer && x.role == 2 && x.delayMech == 0) then
          .next (sendPtp p 4 ((tbNow s / 256 : Nat) : Int) s1)
        else .next s1
      | .delayResp rt => .next (modPtp p (fun x => { x with roundTrip := some rt }) s1)
      | .negotiation => .next (modPtp p (fun x => { x with negotiation := x.negotiation + 1 }) s1)
      | .altTimescale => .next (modPtp p (fun x => { x with altTimescale := x.altTimescale + 1 }) s1)
      | .management => .next (modPtp p (fun x => { x with management := x.management + 1 }) s1)
      | .transit corr dt => if x.role = 3 then .next (sendPtp (1 - p) 5 (corr + dt) s1) else .next s1

/-- The clockClass that a master port advertises in the present timebase state (R209). -/
def clockClass (s : State) (x : PtpPort) : Nat :=
  match tbState s with | 0 => x.classLocked | 1 => x.classHoldover | _ => x.classUncertain

/-- PTP_MESSAGE_TIMER (R208): kind 0 Sync, 1 Announce (master), 2 delay request (slave, or peer delay). A Sync of two steps
carries no exact time (a free value), and its Follow_Up, kind 3, carries it. -/
def execPtpMessageTimer (t : Time) (port : Fin 2) (kind : Fin 3) (s0 : State) : Outcome :=
  let s := tick t s0
  let p := port.val
  let x := s.time.ptp.getD p default
  let may := if kind.val = 2 then x.role = 1 ∨ (x.role ≠ 0 ∧ x.delayMech = 1) else x.role = 2 ∧ !x.slaveOnly
  let time : Int := (tbNow s / 256 : Nat)
  if !s.mgmt.run || !isUp s .ethm || !loopFree s (3 + p) || decide (¬ may) then .next s
  else if kind.val = 0 ∧ x.twoStep then
    let r := drawInt s
    .next (sendPtp p 3 time (sendPtp p 0 r.1 r.2))
  else .next (sendPtp p kind.val (if kind.val = 1 then (clockClass s x : Nat) else time) s)

/-! ### 1PPS with time of day (R210 to R212) -/

/-- One bit of a CRC-16 with polynomial 0x1021, then a byte, then a message (R210). -/
def crcBit (c : BitVec 16) : BitVec 16 := if c.getLsbD 15 then (c <<< 1) ^^^ 0x1021#16 else c <<< 1
def crcByte (c : BitVec 16) (b : Byte) : BitVec 16 :=
  (List.range 8).foldl (fun acc _ => crcBit acc) (c ^^^ ((b.setWidth 16) <<< 8))
def crc16 (bs : List Byte) : BitVec 16 := bs.foldl crcByte 0xFFFF#16

/-- A little-endian number of bytes. -/
def leNat (bs : List Byte) : Nat := bs.foldr (fun b acc => b.toNat + 256 * acc) 0

/-- Bytes `i` to `i + n - 1` of a message, little-endian. -/
def todField (bs : List Byte) (i n : Nat) : Nat := leNat ((bs.drop i).take n)

/-- A number in two's complement of `len` bits. -/
def signedOf (n len : Nat) : Int := if n < 2 ^ (len - 1) then (n : Int) else (n : Int) - 2 ^ len

/-- The message is in form: length, SYNC, TYPE, LEN, RX_STATE 0 or 1, CRC (R210, R211). -/
def todOk (bs : List Byte) : Bool :=
  bs.length == 30 && todField bs 0 4 == 0x18013CC3 && decide (todField bs 13 1 ≤ 1) &&
    (crc16 ((bs.drop 2).take 26)).toNat == todField bs 28 2

/-- The domain that PPS_TOD feeds. -/
def ppsDom (s : State) : Option Nat := (List.range 2).find? (fun d => (domOf s d).source == .pps)

/-- TOD_MESSAGE_RX (R210, R211): the last byte has come 100 ms to 900 ms after a captured edge. -/
def execTodMessageRx (t : Time) (bytes : List Byte) (s0 : State) : Outcome :=
  let s := tick t s0
  let inWin := match s.time.tod.lastEdge with
    | some e => decide (e.2 + 100 * msU ≤ s.now) && decide (s.now ≤ e.2 + 900 * msU)
    | none => false
  if !isUp s .time then .next s
  else if !inWin || !todOk bytes then .next (modTod (fun x => { x with invalid := x.invalid + 1, message := none }) s)
  else
    let sec := todField bytes 4 6
    let fl := todField bytes 12 1
    let s1 := modTod (fun x => { x with
      message := some (sec, signedOf (todField bytes 16 4) 32, todField bytes 13 1)
      messageEdge := match x.lastEdge with | some e => e.1 | none => 0
      prevSeconds := some sec }) s
    match ppsDom s1 with
    | some d => .next (supplyUtc d (fl / 4 % 2 == 1) (signedOf (todField bytes 10 2) 16) (fl % 2 == 1)
        (fl / 2 % 2 == 1) (todField bytes 20 6) s1)
    | none => .next s1

/-- PPS_IN_EDGE (R210, R211): the edge is captured and paired with the message that waits for it. -/
def execPpsInEdge (t : Time) (s0 : State) : Outcome :=
  let s := tick t s0
  let e := tbNow s / 256 * 256
  let s1 := modTod (fun x => { x with lastEdge := some (e, s.now), message := none }) s
  let spaced := match s.time.tod.lastEdge with
    | some p => decide (p.1 + secU ≤ e + 100 * usU) && decide (e ≤ p.1 + secU + 100 * usU) &&
        p.1 == s.time.tod.messageEdge
    | none => false
  if !isUp s .time then .next s
  else match s.time.tod.message, ppsDom s with
    | some m, some d =>
      if spaced then
        let x := domOf s d
        let src : Int := (x.dPps - m.2.1) * 256
        .next (measure d ((tbDiff e (m.1 * secU) - src) * 2 ^ 32) false (modDom d (fun x => { x with tauExp := 0 }) s1))
      else .next (missed d (modTod (fun x => { x with invalid := x.invalid + 1 }) s1))
    | none, some d =>
      if s.time.tod.lastEdge.isSome then .next (missed d (modTod (fun x => { x with invalid := x.invalid + 1 }) s1))
      else .next s1
    | _, none => .next s1

/-- Bytes of a number, little-endian. -/
def leBytes (len n : Nat) : List Byte := (List.range len).map (fun i => BitVec.ofNat 8 (n / 256 ^ i))

/-- A time-of-day message (R210, R212). -/
def todMessage (sec : Nat) (u : UtcSt) (rxState acc : Nat) : List Byte :=
  let body := [0x01#8, 24#8] ++ leBytes 6 sec ++ leBytes 2 (asField u.offset 16) ++
    [BitVec.ofNat 8 (b2n u.leap61 + 2 * b2n u.leap59 + 4 * b2n u.valid), BitVec.ofNat 8 rxState] ++ leBytes 2 acc ++
    leBytes 4 0 ++ leBytes 6 u.leapTime ++ leBytes 2 0
  [0xC3#8, 0x3C#8] ++ body ++ leBytes 2 (crc16 body).toNat

/-- TOD_TX_MESSAGE (R212): 200 ms after a PPS_OUT edge. `ACCURACY` is the bound of R227 in ns for a FABRIC domain, rounded
up; for other sources the manual gives no bound, and a free value stands there. -/
def execTodTxMessage (t : Time) (s0 : State) : Outcome :=
  let s := tick t s0
  match s.time.tod.txDue with
  | none => .next s
  | some due =>
    if s.now < due || !s.time.tod.txEnable then .next s
    else
      let x := domOf s s.time.active
      let (acc, s1) := match s.time.mode, x.source with
        | .follow, .fabric _ _ => ((x.hops + 3) / 4, s)
        | _, _ => drawNat s
      let held := s.time.mode == .holdover && s.time.holdoverQualified
      let st := if tbState s = 0 then 0 else if held then 1 else 2
      .next (emitOut (.tod (todMessage (tbAt s due / secU + 1) s.time.utc st (min acc 65535)))
        (modTod (fun x => { x with txDue := none }) s1))

/-- AON_SECONDS_LOAD (R449): each second while LOCKED, AON loads its coarse seconds. -/
def execAonSecondsLoad (t : Time) (s0 : State) : Outcome :=
  let s := tick t s0
  if tbState s = 0 ∧ isUp s .time then
    .next { s with aon := { s.aon with coarse := tbNow s / secU, coarseAt := s.now, loading := true } }
  else .next { s with aon := { s.aon with loading := false } }

end Sys2Proof.Machine
end

