-- ==== Sys2Proof/Machine/TimeCmd.lean ====
section
/-! DEFINITION. The TIME commands (R367), apart from the two that step the timebase. -/

namespace Sys2Proof.Machine

/-- `UTC_OFFSET` and the flags of `TIME.GET_TIME` A2 (R197, R367). -/
def utcFields (s : State) : List (Nat × Nat × Nat) :=
  let u := s.time.utc
  [(0, 16, asField u.offset 16), (16, 1, b2n u.leap61), (17, 1, b2n u.leap59), (18, 1, b2n u.valid),
    (19, 2, tbState s), (21, 1, s.time.active)]

/-- TIME.GET_TIME's own part. -/
def ownTimeGetTime (_ : Request) (s : State) : Reply := okay [snap s, mkWord (utcFields s)] s

/-- TIME.GET_TIME (0x2001). -/
def execTimeGetTime (t : Time) (rq : Request) (s : State) : Outcome := command 0x2001 (lenIs 0) ownTimeGetTime t rq s

/-- Source codes (R367). -/
def sourceCode : DomSource → Nat
  | .off => 0 | .fabric _ _ => 1 | .ptp _ => 2 | .pps => 3

/-- A word of `TIME.STATUS` for one domain (R227, R367). -/
def domWord (s : State) (d : Nat) : Word :=
  let x := domOf s d
  let hops := match x.source with | .fabric _ _ => x.hops | _ => 0
  let tb := if follows s d then x.theta else x.thetaTb
  mkWord [(0, 3, domCode x.state), (3, 2, sourceCode x.source), (5, 10, hops), (15, 16, min (64 * hops) 65535),
    (32, 96, asField (roundDiv tb (2 ^ 40)) 96)]

/-- Words A2 to A5 of `TIME.STATUS` (R200, R367). -/
def timeStatusWords (s : State) : List Word :=
  let left := slewLeftAt s s.now
  [mkWord [(0, 2, tbState s), (2, 1, s.time.active), (3, 1, b2n (left != 0)),
      (4, 32, asField (roundDiv (yTotal s * 1000) (2 ^ 80)) 32)],
    mkWord [(0, 64, asField (roundDiv s.time.declared (2 ^ 40)) 64), (64, 64, asField (roundDiv left (2 ^ 40)) 64)],
    domWord s 0, domWord s 1]

/-- TIME.STATUS's own part. -/
def ownTimeStatus (_ : Request) (s : State) : Reply := okay (snap s :: timeStatusWords s) s

/-- TIME.STATUS (0x2002). -/
def execTimeStatus (t : Time) (rq : Request) (s : State) : Outcome := command 0x2002 (lenIs 0) ownTimeStatus t rq s

/-- The source that a `CONFIG_DOMAIN` word names (R201, R367). -/
def sourceOf (q : Word) : DomSource :=
  match fld q 1 2 with
  | 0 => .off
  | 1 => .fabric (fbit q 4) (BitVec.ofNat 64 (fld q 64 64))
  | 2 => .ptp (fld q 3 1)
  | _ => .pps

/-- Two sources may not serve both domains (R201). -/
def sourceClash (a b : DomSource) : Bool :=
  match a, b with
  | .pps, .pps => true
  | .ptp p, .ptp q => p == q
  | .fabric true _, .fabric true _ => true
  | .fabric false r, .fabric false q => r == q
  | _, _ => false

/-- A domain takes a new source (R216, R367): NO_SIGNAL or DISABLED, its measurements forgotten, a shadow clock that
starts at the timebase. -/
def configDomain (d : Nat) (src : DomSource) (dPps : Int) (s : State) : State :=
  let s1 := toState d (if src == .off then .disabled else .noSignal) s
  chooseDom (modDom d (fun x => { x with
    source := src, dPps := dPps, missRun := 0, largeRun := 0, lastMeas := none, withinSince := none, pendingDelta := none
    hops := 0, rootUncertain := false, spacings := [], tauExp := if src == .pps then 0 else 6
    copies := [none, none, none], shadowOff := 0, shadowAt := s.now }) s1)

/-- TIME.CONFIG_DOMAIN's own part (R201). -/
def ownTimeConfigDomain (img : Bool) (rq : Request) (s : State) : Reply :=
  let q := qword rq 1
  let d := fld q 0 1
  let src := sourceOf q
  let anchor := match src with | .fabric true _ => true | _ => false
  guardedIn img
    [(!onlyBits q [(0, 5), (32, 32), (64, 64)] || sourceClash src (domOf s (otherDom d)).source ||
        (anchor && fld q 64 64 != 0), stBadParam)] s
    (fun _ => okay [] (configDomain d src (sfld q 32 32) s))

/-- TIME.CONFIG_DOMAIN (0x2003). -/
def execTimeConfigDomain (t : Time) (rq : Request) (s : State) : Outcome :=
  command 0x2003 (lenIs 1) (ownTimeConfigDomain false) t rq s

/-- The settings of `TIME.CONFIG_SERVO` (R214, R367). -/
def servoOf (q1 q2 : Word) : ServoSet :=
  { kp := fld q1 32 32, ki := fld q1 64 32, lockNs := fld q2 0 20, lockCount := fld q2 20 16, unlockNs := fld q2 36 20,
    stepUs := fld q2 56 30, agreeNs := fld q2 86 20, recoveryS := fld q2 106 12 }

/-- *Servo settings* are in range (R214). -/
def servoOk (k : ServoSet) : Bool :=
  decide (1 ≤ k.lockNs ∧ k.lockNs ≤ 1000000) && decide (1 ≤ k.lockCount) &&
    decide (1 ≤ k.unlockNs ∧ k.unlockNs ≤ 1000000) && decide (1 ≤ k.stepUs ∧ k.stepUs ≤ 1000000000) &&
    decide (1 ≤ k.agreeNs ∧ k.agreeNs ≤ 1000000) && decide (1 ≤ k.recoveryS ∧ k.recoveryS ≤ 3600) &&
    decide (k.agreeNs ≤ k.stepUs * 1000)

/-- TIME.CONFIG_SERVO's own part (R214): in force at the domain's next measurement. -/
def ownTimeConfigServo (img : Bool) (rq : Request) (s : State) : Reply :=
  let q1 := qword rq 1
  let q2 := qword rq 2
  let k := servoOf q1 q2
  guardedIn img [(!onlyBits q1 [(0, 1), (32, 64)] || !onlyBits q2 [(0, 118)] || !servoOk k, stBadParam)] s
    (fun _ => okay [] (modDom (fld q1 0 1) (fun x => { x with servoNext := some k }) s))

/-- TIME.CONFIG_SERVO (0x2004). -/
def execTimeConfigServo (t : Time) (rq : Request) (s : State) : Outcome :=
  command 0x2004 (lenIs 2) (ownTimeConfigServo false) t rq s

/-- TIME.SELECT_DOMAIN's own part (R217, R218): a declared offset is slewed out when the mode returns to SLEW. -/
def ownTimeSelectDomain (img : Bool) (rq : Request) (s : State) : Reply :=
  let q := qword rq 1
  let p := fld q 0 1
  let force := fbit q 2
  let rate := fld q 4 10
  guardedIn img
    [(!onlyBits q [(0, 14)] || rate == 0 || decide (1000 < rate) ||
        (!img && force && (domOf s p).state != .locked), stBadParam)] s
    (fun _ =>
      let s1 := advance s
      let out := !fbit q 3 && s1.time.declared != 0
      let note : State → State := fun x => if out then noteLimit x else x
      let s2 := note <| noteY (modTime (fun x => { x with
        preferred := p, revertive := fbit q 1, declareMode := fbit q 3, slewRate := rate
        slewLeft := if out then x.slewLeft + x.declared else x.slewLeft
        declared := if out then 0 else x.declared }) s1)
      okay [] (if force && (domOf s2 p).state == .locked && !follows s2 p then switchDom p s2 else s2))

/-- TIME.SELECT_DOMAIN (0x2005). -/
def execTimeSelectDomain (t : Time) (rq : Request) (s : State) : Outcome :=
  command 0x2005 (lenIs 1) (ownTimeSelectDomain false) t rq s

/-- TIME.CLEAR_FAULT's own part (R216): no change unless FAULTY. -/
def ownTimeClearFault (rq : Request) (s : State) : Reply :=
  let q := qword rq 1
  let d := fld q 0 1
  guarded [(!onlyBits q [(0, 1)], stBadParam)] s
    (fun _ => okay [] (if (domOf s d).state == .faulty then chooseDom (toState d .acquiring s) else s))

/-- TIME.CLEAR_FAULT (0x2006). -/
def execTimeClearFault (t : Time) (rq : Request) (s : State) : Outcome :=
  command 0x2006 (lenIs 1) ownTimeClearFault t rq s

/-- TIME.SET_ASYM's own part (R207). -/
def ownTimeSetAsym (img : Bool) (rq : Request) (s : State) : Reply :=
  let q := qword rq 1
  let p := fld q 0 3
  guardedIn img [(!onlyBits q [(0, 3), (32, 64)] || decide (4 < p), stBadParam)] s
    (fun _ => okay [] (modTime (fun x => { x with asym := x.asym.set p (sfld q 32 32, sfld q 64 32) }) s))

/-- TIME.SET_ASYM (0x2007). -/
def execTimeSetAsym (t : Time) (rq : Request) (s : State) : Outcome :=
  command 0x2007 (lenIs 1) (ownTimeSetAsym false) t rq s

/-- TIME.CONFIG_ROOT's own part (R203). -/
def ownTimeConfigRoot (img : Bool) (rq : Request) (s : State) : Reply :=
  let q := qword rq 1
  guardedIn img [(!onlyBits q [(0, 6)] || decide (8 < fld q 2 4), stBadParam)] s
    (fun _ => okay [] (modTime (fun x => { x with
      rootAdvertise := fbit q 0, rootFollowAnchor := fbit q 1, rootRateN := fld q 2 4 }) s))

/-- TIME.CONFIG_ROOT (0x2008). -/
def execTimeConfigRoot (t : Time) (rq : Request) (s : State) : Outcome :=
  command 0x2008 (lenIs 1) (ownTimeConfigRoot false) t rq s

/-- TIME.CONFIG_HOLDOVER's own part (R222, R224). -/
def ownTimeConfigHoldover (rq : Request) (s : State) : Reply :=
  let q := qword rq 1
  guarded [(!onlyBits q [(0, 25)] || decide (16 < fld q 0 5) || decide (604800 < fld q 5 20), stBadParam)] s
    (fun _ => okay [] (followTable (modTime (fun x => { x with
      tempSrc := fld q 0 5, boundS := fld q 5 20
      holdoverExpired := x.mode == .holdover && decide (x.holdoverSince + fld q 5 20 * secU ≤ s.now) }) s)))

/-- TIME.CONFIG_HOLDOVER (0x2009). -/
def execTimeConfigHoldover (t : Time) (rq : Request) (s : State) : Outcome :=
  command 0x2009 (lenIs 1) ownTimeConfigHoldover t rq s

/-- TIME.CONFIG_TOD's own part (R210, R212). -/
def ownTimeConfigTod (rq : Request) (s : State) : Reply :=
  let q := qword rq 1
  let baud := fld q 1 20
  guarded [(!onlyBits q [(0, 21)] || decide (baud < 9600) || decide (921600 < baud), stBadParam)] s
    (fun _ => okay [] (modTod (fun x => { x with txEnable := fbit q 0, baud := baud }) s))

/-- TIME.CONFIG_TOD (0x200A). -/
def execTimeConfigTod (t : Time) (rq : Request) (s : State) : Outcome := command 0x200A (lenIs 1) ownTimeConfigTod t rq s

/-- TIME.SET_UTC_OFFSET's own part (R197): `BUSY` while the active source supplies the values. -/
def ownTimeSetUtcOffset (rq : Request) (s : State) : Reply :=
  let q := qword rq 1
  let lt := fld q 32 48
  let far := lt != 0 && !t96Near s (BitVec.ofNat 128 (lt * 2 ^ 48))
  guarded [(!onlyBits q [(0, 18), (32, 48)] || (fbit q 16 && fbit q 17) || far, stBadParam),
      (s.time.utc.supplied, stBusy)] s
    (fun _ => okay [] (modTime (fun x => { x with utc :=
      { offset := sfld q 0 16, leap61 := fbit q 16, leap59 := fbit q 17, leapTime := lt, valid := true,
        supplied := false } }) s))

/-- TIME.SET_UTC_OFFSET (0x200B). -/
def execTimeSetUtcOffset (t : Time) (rq : Request) (s : State) : Outcome :=
  command 0x200B (lenIs 1) ownTimeSetUtcOffset t rq s

/-- Cause codes of a step (R367). -/
def causeCode : StepCause → Nat
  | .initialSet => 0 | .agreedStep => 1 | .hostAccept => 2 | .hostSet => 3

/-- The two words of a step log entry (R367). -/
def stepWords (e : StepEntry) : List Word :=
  [mkWord [(0, 96, t96 e.before), (96, 16, e.epoch), (112, 2, causeCode e.cause)], mkWord [(0, 96, t96 e.after)]]

/-- TIME.STEP_LOG's own part (R220). -/
def ownTimeStepLog (_ : Request) (s : State) : Reply :=
  okay ([snap s, mkWord [(0, 5, s.time.stepLog.length)]] ++ s.time.stepLog.flatMap stepWords) s

/-- TIME.STEP_LOG (0x200E). -/
def execTimeStepLog (t : Time) (rq : Request) (s : State) : Outcome := command 0x200E (lenIs 0) ownTimeStepLog t rq s

end Sys2Proof.Machine
end

