-- ==== Sys2Proof/Machine/Mem.lean ====
section
/-! DEFINITION. The basin's DRAM as bytes (R304, R429) and the circular segments that lie in it (R304 to R311). -/

namespace Sys2Proof.Machine

/-! ### Bytes -/

/-- The canonical form of memory: addresses strictly rising from `lo` on, and no byte equal to what an unlisted address
reads as, 0. -/
def memWfFrom (lo : Nat) : List Host.Cell → Bool
  | [] => true
  | c :: cs => decide (lo ≤ c.1) && c.2 != 0#8 && memWfFrom (c.1 + 1) cs

/-- The memory keeps its canonical form. -/
abbrev memWf (m : List Host.Cell) : Bool := memWfFrom 0 m

/-- A byte; an unlisted address reads 0 (DESIGN CHOICE). -/
def readByte : List Host.Cell → Nat → Byte
  | [], _ => 0#8
  | c :: cs, a => if c.1 = a then c.2 else readByte cs a

/-- A byte put at an address in front of or among the cells; 0 is not listed. -/
def writeByte : List Host.Cell → Nat → Byte → List Host.Cell
  | [], a, b => if b = 0#8 then [] else [(a, b)]
  | c :: cs, a, b =>
    if c.1 < a then c :: writeByte cs a b
    else if c.1 = a then (if b = 0#8 then cs else (a, b) :: cs)
    else if b = 0#8 then c :: cs else (a, b) :: c :: cs

/-- Byte `i` of a word, lowest first (R7). -/
def byteOf (w : Word) (i : Nat) : Byte := BitVec.ofNat 8 (w.toNat / 256 ^ i)

/-- A word at word number `n`: 16 bytes from byte 16 n on. -/
def readWord (m : List Host.Cell) (n : Nat) : Word :=
  BitVec.ofNat 128 ((List.range 16).foldr (fun i acc => (readByte m (16 * n + i)).toNat + 256 * acc) 0)

/-- Write a word at word number `n`. -/
def writeWord (m : List Host.Cell) (n : Nat) (w : Word) : List Host.Cell :=
  (List.range 16).foldl (fun acc i => writeByte acc (16 * n + i) (byteOf w i)) m

/-! ### Segments -/

def segOf (s : State) (g : Nat) : Segment := s.basin.segs.getD g default
def modBasin (f : BasinSt → BasinSt) (s : State) : State := { s with basin := f s.basin }
def modSeg (g : Nat) (f : Segment → Segment) (s : State) : State :=
  modBasin (fun b => { b with segs := b.segs.modify g f }) s

/-- Words of a segment: 65,536 for each MiB (R305). -/
def segWords (x : Segment) : Nat := x.sizeMib * 65536

/-- Word number of a word of a segment, by its index. -/
def wordNo (g index : Nat) : Nat := g * 2 ^ 30 + index

/-- Index of the word with a serial number. -/
def indexOf (x : Segment) (ser : Nat) : Nat := if segWords x = 0 then 0 else ser % segWords x

/-- Serial of the oldest word held. -/
def oldest (x : Segment) : Nat := x.serial - x.held

/-- The word with a serial number, poison where it is uncorrectable or mistagged (R313). -/
def segWord (s : State) (g ser : Nat) : Word :=
  let n := wordNo g (indexOf (segOf s g) ser)
  if s.basin.badWords.contains n then poison else readWord s.basin.cells n

/-- The segment word that lies at a word of the DRAM, where one does. Which one is not stated: a free value of the segments'
sizes; the other words are the reserved area (R304). -/
def segAt (s : State) (n : Nat) : Option Nat :=
  match Config.basinPlace (s.basin.segs.map (·.sizeMib)) n with
  | none => none
  | some (g, i) => if g < 1024 ∧ i < segWords (segOf s g) then some (wordNo g i) else none

/-- A 32-bit-second timestamp extended to the timebase's seconds, within 2^31 s of `near` (R196). -/
def fullTime (near stamp : Nat) : Nat :=
  let span := 2 ^ 32 * secU
  let base := near / span * span + stamp
  if near + 2 ^ 31 * secU < base then base - span
  else if base + 2 ^ 31 * secU < near then base + span else base

/-- The full time of a record word. -/
def recFull (s : State) (w : Word) : Nat := fullTime (tbNow s) (recTime w)

/-- t_trig minus the pre-trigger length (R310). -/
def protectFrom (x : Segment) : Nat := x.tTrig - x.preMs * msU

/-- t_trig plus the post-trigger length (R310). -/
def postEnd (x : Segment) : Nat := x.tTrig + x.postMs * msU

/-- The word with a serial number is protected from overwriting (R310). -/
def isProtected (s : State) (g ser : Nat) : Bool :=
  let x := segOf s g
  x.state == .postTrigger && decide (x.protSerial ≤ ser) && decide (protectFrom x ≤ recFull s (segWord s g ser))

/-- The timestamps held, oldest word first. -/
def heldTimes (s : State) (g : Nat) : List Nat :=
  let x := segOf s g
  (List.range x.held).map (fun i => recFull s (segWord s g (oldest x + i)))

/-- Earliest and latest of a list of times. -/
def spanOfTimes : List Nat → Option (Nat × Nat)
  | [] => none
  | a :: rest => some (rest.foldl (fun acc b => (min acc.1 b, max acc.2 b)) (a, a))

/-- A mark for the mirror target: a freeze or a release at the origin (R316). -/
def mirrorMark (g : Nat) (freeze : Bool) (s : State) : State :=
  let x := segOf s g
  if x.mirror = 0 then s else emitOut (.mirrorMark (x.mirror - 1) g freeze) s

/-- The segment becomes FROZEN, with its shortfall and event (R310, R381). -/
def freezeNow (g : Nat) (truncated : Bool) (s : State) : State :=
  let x := segOf s g
  let span := spanOfTimes (heldTimes s g)
  let cut := protectFrom x
  let short := match span with
    | none => x.preMs
    | some p => if cut < p.1 then (p.1 - cut + msU - 1) / msU else 0
  let first := match span with | some p => t96 p.1 | none => 0
  let last := match span with | some p => t96 p.2 | none => 0
  let s1 := modSeg g (fun x => { x with state := .frozen, truncated := truncated, shortfallMs := short }) s
  mirrorMark g true (emitNow 0x4001 x.trigSource g
    [BitVec.ofNat 128 (t96 x.tTrig), BitVec.ofNat 128 first,
      mkWord [(0, 96, last), (96, 1, b2n truncated), (97, 31, short)]] s1)

/-- A freeze trigger from a source (0 command, 1 timed action, 2 + n THRESH slot n) at `tTrig` (R309 to R311). -/
def trigger (g src tTrig : Nat) (s : State) : State :=
  let x := segOf s g
  let named := modSeg g (fun x => { x with
    tTrig := tTrig, trigSource := min src 2, protSerial := if tbNow s < tTrig then x.serial else 0 }) s
  if x.state == .unconfigured || !x.sources.getLsbD src then s
  else match x.state with
    | .empty => freezeNow g false named
    | .recording =>
      if x.spillStop && decide (segWords x ≤ x.held) then freezeNow g true named
      else modSeg g (fun x => { x with state := .postTrigger, truncated := false }) named
    | _ => modSeg g (fun x => { x with ignored := x.ignored + 1 }) s

/-! ### Writing (R307, R308, R310, R316) -/

/-- The record is the first of its address since a release, a reset or a refusal. -/
def segGap (x : Segment) (a : Nat) : Bool :=
  x.gapAddrs.contains a || (match x.gapAllBut with | some done => !done.contains a | none => false)

/-- A new metadata entry in the ring of 64 (R308). -/
def addMeta (x : Segment) (e : MetaEntry) : List MetaEntry := (x.metas ++ [e]).drop (x.metas.length + 1 - 64)

/-- Mirroring of a written record (R316): paused at L3, after which each address's first record carries `GAP_BEFORE`. -/
def mirrorOut (g gen : Nat) (w : Word) (s : State) : State :=
  let x := segOf s g
  let a := recAddr w
  if x.mirror = 0 || x.target then s
  else if 3 ≤ s.therm.level then modSeg g (fun x => { x with mirrorGapBut := some [] }) s
  else
    let gap := match x.mirrorGapBut with | some done => !done.contains a | none => false
    sendNext (x.mirror - 1) (5 + x.mirrorTc) 1 (portUp s (x.mirror - 1)) (neighAddr s (x.mirror - 1)) true gen
      [withGap gap w]
      (modSeg g (fun x => { x with mirrorGapBut := x.mirrorGapBut.map (fun l => if l.contains a then l else a :: l) }) s)

/-- Store a record at the write pointer (R307, R308); no metadata entry holds records of two generations (R191). -/
def storeRec (g : Nat) (r : QRec) (s : State) : State :=
  let x := segOf s g
  let a := recAddr r.word
  let w := withGap (segGap x a) r.word
  let ix := indexOf x x.serial
  let full := decide (segWords x ≤ x.held)
  let e : MetaEntry := { serial := x.serial, index := ix, gen := r.gen, epoch := s.time.epoch, time := recFull s w }
  let s1 := modBasin (fun b => { b with
    cells := writeWord b.cells (wordNo g ix) w, badWords := b.badWords.filter (· != wordNo g ix) }) s
  let s2 : State := { s1 with mems := s1.mems.modify 1 (fun m => { m with
    badWords := m.badWords.filter (fun n => segAt s n != some (wordNo g ix)) }) }
  mirrorOut g r.gen w (modSeg g (fun x => { x with
    state := if x.state == .empty then .recording else x.state
    serial := x.serial + 1
    held := if full then x.held else x.held + 1
    written := x.written + 1
    overwritten := if full then satAdd 32 x.overwritten 1 else x.overwritten
    lastWrite := tbNow s
    metas := if x.metaDue || x.state == .empty || x.metas.getLast?.any (·.gen != r.gen) then addMeta x e else x.metas
    metaDue := false
    gapAddrs := x.gapAddrs.filter (· != a)
    gapAllBut := x.gapAllBut.map (fun l => if l.contains a then l else a :: l) }) s2)

/-- A record arrives at a segment (R306, R307, R310). -/
def arrive (g : Nat) (r : QRec) (s : State) : State :=
  let x := segOf s g
  let full := decide (segWords x ≤ x.held)
  let refuse := modSeg g (fun x => { x with
    refused := satAdd 32 x.refused 1
    gapAddrs := if x.gapAddrs.contains (recAddr r.word) then x.gapAddrs else recAddr r.word :: x.gapAddrs }) s
  match x.state with
  | .unconfigured => s
  | .frozen => s
  | .empty => storeRec g r s
  | .recording => if full && x.spillStop then refuse else storeRec g r s
  | .postTrigger =>
    if postEnd x < recFull s r.word then freezeNow g false s
    else if full && x.spillStop then freezeNow g true refuse
    else if full && isProtected s g (oldest x) then freezeNow g true s
    else
      let s1 := storeRec g r s
      if x.spillStop && decide (segWords x ≤ x.held + 1) then freezeNow g true s1 else s1

/-- The oldest record waiting for a segment among the groups' queues (R307: arrival order). -/
def nextFor (s : State) (d : Dest) : Option (DestQueue × QRec) :=
  s.daq.queues.foldl (fun acc q =>
    if q.dest != d then acc
    else match q.recs with
      | [] => acc
      | r :: _ => match acc with
        | some b => if r.at_ < b.2.at_ then some (q, r) else acc
        | none => some (q, r)) none

/-- BASIN_RECORD_WRITE (R307): the oldest record waiting for the segment is taken and written, overwrites, is refused, or
ends post-trigger. -/
def execBasinRecordWrite (t : Time) (seg : Fin 1024) (s0 : State) : Outcome :=
  let s := tick t s0
  if !isUp s .basin || !s.basin.ready then .next s
  else match nextFor s (.basin seg.val) with
    | none => .next s
    | some (q, r) => .next (arrive seg.val r (putQueue { q with recs := q.recs.drop 1 } s))

/-- SEGMENT_IDLE_FREEZE (R310): the end has passed and no record was written for 1 s of timebase. -/
def execSegmentIdleFreeze (t : Time) (seg : Fin 1024) (s0 : State) : Outcome :=
  let s := tick t s0
  let x := segOf s seg.val
  if x.state == .postTrigger && decide (postEnd x < tbNow s) && decide (x.lastWrite + secU ≤ tbNow s) then
    .next (freezeNow seg.val false s)
  else .next s

/-- MIRROR_ORIGIN_LOST (R316): no frame from the origin for 100 ms. -/
def execMirrorOriginLost (t : Time) (seg : Fin 1024) (s0 : State) : Outcome :=
  let s := tick t s0
  let x := segOf s seg.val
  let live := x.target && (x.state == .recording || x.state == .postTrigger)
  match x.lastMirror with
  | some l =>
    if live && decide (l + 100 * msU ≤ s.now) then
      let last := match spanOfTimes (heldTimes s seg.val) with | some p => t96 p.2 | none => 0
      .next (emitNow 0x4002 0 seg.val [BitVec.ofNat 128 last] (modSeg seg.val (fun x => { x with state := .frozen }) s))
    else .next s
  | none => .next s

/-- A metadata entry opens with the next record of every segment: a commit instant or a step (R191, R308). -/
def cutMeta (s : State) : State :=
  modBasin (fun b => { b with segs := b.segs.map (fun x => { x with metaDue := true }) }) s

end Sys2Proof.Machine
end

