-- ==== Sys2Proof/Machine/Basin.lean ====
section
/-! DEFINITION. The BASIN commands (R304 to R316, R377's neighbours in spec/16). -/

namespace Sys2Proof.Machine

/-- Places of the fields of `BASIN.CONFIG_SEGMENT`, in the order of the `UPDATE` bits. -/
def segFields : List (Nat × Nat) := [(10, 14), (24, 1), (25, 22), (47, 22), (69, 34), (103, 2), (105, 2), (107, 1)]

/-- The segment is UNCONFIGURED. -/
def segOff (s : State) (g : Nat) : Bool := (segOf s g).state == .unconfigured

/-- The total size of all segments in MiB, with one at a new size (R305). -/
def totalMib (s : State) (g size : Nat) : Nat :=
  ((List.range 1024).map (fun i => if i = g then size else (segOf s i).sizeMib)).sum

/-- Settings after the fields whose `up` holds. -/
def segMerge (q : Word) (up : Nat → Bool) (x : Segment) : Segment :=
  let size := if up 0 then fld q 10 14 else x.sizeMib
  let resized := up 0 && size != x.sizeMib
  { x with
    sizeMib := size
    spillStop := if up 1 then fbit q 24 else x.spillStop
    preMs := if up 2 then fld q 25 22 else x.preMs
    postMs := if up 3 then fld q 47 22 else x.postMs
    sources := if up 4 then BitVec.ofNat 34 (fld q 69 34) else x.sources
    mirror := if up 5 then fld q 103 2 else x.mirror
    mirrorTc := if up 6 then fld q 105 2 else x.mirrorTc
    target := if up 7 then fbit q 107 else x.target
    state := if size = 0 then .unconfigured else if resized then .empty else x.state
    serial := if resized then 0 else x.serial
    held := if resized then 0 else x.held
    metas := if resized then [] else x.metas }

/-- A change of size, spillway or mirror direction (R305). -/
def segBusyField (q : Word) (x : Segment) (i : Nat) : Bool :=
  (i == 0 && fld q 10 14 != x.sizeMib) || (i == 1 && fbit q 24 != x.spillStop) || (i == 5 && fld q 103 2 != x.mirror)

/-- The segment holds or takes records. -/
def segActive (x : Segment) : Bool := x.state == .recording || x.state == .postTrigger || x.state == .frozen

/-- BASIN.CONFIG_SEGMENT's own part (R304, R305). -/
def ownBasinConfigSegment (img : Bool) (rq : Request) (s : State) : Reply :=
  let q := qword rq 1
  let g := fld q 0 10
  let x := segOf s g
  let up := fun i => fbit q (108 + i)
  let refused := fun i => segActive x && segBusyField q x i
  guardedIn img
    [(!onlyBits q [(0, 116)] || !unusedZero q segFields up || decide (3600000 < fld q 25 22) ||
        decide (3600000 < fld q 47 22) || fld q 103 2 == 3 || fld q 105 2 == 3 ||
        (up 0 && decide (16128 < totalMib s g (fld q 10 14))), stBadParam),
      ((List.range 8).any (fun i => up i && refused i) || isHeld s (.segment g), stBusy)] s
    (fun _ => okay [] (modSeg g (segMerge q (fun i => up i && !refused i)) s))

/-- BASIN.CONFIG_SEGMENT (0x4001). -/
def execBasinConfigSegment (t : Time) (rq : Request) (s : State) : Outcome :=
  command 0x4001 (lenIs 1) (ownBasinConfigSegment false) t rq s

/-- BASIN.CLEAR's own part (R305). -/
def ownBasinClear (rq : Request) (s : State) : Reply :=
  let q := qword rq 1
  let g := fld q 0 10
  guarded [(!onlyBits q [(0, 10)] || segOff s g, stBadParam), (isHeld s (.segment g), stBusy)] s
    (fun _ => okay [] (modSeg g (fun x => { x with
      state := .empty, truncated := false, serial := 0, held := 0, metas := [], metaDue := false }) s))

/-- BASIN.CLEAR (0x4002). -/
def execBasinClear (t : Time) (rq : Request) (s : State) : Outcome := command 0x4002 (lenIs 1) ownBasinClear t rq s

/-- BASIN.FREEZE's own part (R309). -/
def ownBasinFreeze (rq : Request) (s : State) : Reply :=
  let q := qword rq 1
  let w := qword rq 2
  let g := fld q 0 10
  let at_ := fbit q 10
  let tTrig := if at_ then ofT96 w else tbNow s
  guarded
    [(!onlyBits q [(0, 11)] || segOff s g ||
        (at_ && (!t96Form w || !t96Near s w || decide (tbNow s + 3600 * secU < tTrig))), stBadParam),
      (isHeld s (.segment g), stBusy)] s
    (fun _ => okay [] (trigger g 0 tTrig s))

/-- BASIN.FREEZE (0x4003): LEN 1, or 2 with AT. -/
def execBasinFreeze (t : Time) (rq : Request) (s : State) : Outcome :=
  command 0x4003 (lenIs (if fbit (qword rq 1) 10 then 2 else 1)) ownBasinFreeze t rq s

/-- A FROZEN segment records again: its content stays unprotected (R311, R316). -/
def releaseSeg (g : Nat) (s : State) : State :=
  if (segOf s g).state == .frozen then
    mirrorMark g false (modSeg g (fun x => { x with state := .recording, truncated := false, gapAllBut := some [] }) s)
  else s

/-- The oldest words of a segment become free (R307). -/
def freeWords (g n : Nat) (s : State) : State := modSeg g (fun x => { x with held := x.held - n }) s

/-- BASIN.RELEASE's own part (R307, R311). -/
def ownBasinRelease (rq : Request) (s : State) : Reply :=
  let q := qword rq 1
  let g := fld q 0 10
  let n := fld q 32 32
  guarded [(!onlyBits q [(0, 10), (32, 32)] || segOff s g, stBadParam), (isHeld s (.segment g), stBusy)] s
    (fun _ => okay [] (if n = 0 then releaseSeg g s else freeWords g n s))

/-- BASIN.RELEASE (0x4004). -/
def execBasinRelease (t : Time) (rq : Request) (s : State) : Outcome := command 0x4004 (lenIs 1) ownBasinRelease t rq s

/-- The serials from which and before which a request extracts (R312): WHOLE, WORD_RANGE, LAST_N. -/
def extractRange (x : Segment) (what first count : Nat) : Option (Nat × Nat) :=
  match what with
  | 0 => some (oldest x, x.serial)
  | 1 =>
    let back := (indexOf x x.serial + segWords x - first) % (max 1 (segWords x))
    let dist := if back = 0 then segWords x else back
    if count = 0 ∨ segWords x ≤ first ∨ x.held < dist then none
    else some (x.serial - dist, min (x.serial - dist + count) x.serial)
  | 2 => if count = 0 then none else some (x.serial - min count x.held, x.serial)
  | _ => none

/-- BASIN.EXTRACT's own part (R312). -/
def ownBasinExtract (rq : Request) (s : State) : Reply :=
  let q := qword rq 1
  let g := fld q 0 10
  let ch := fld q 10 2
  let x := segOf s g
  let r := extractRange x (fld q 12 2) (fld q 32 32) (fld q 64 32)
  guarded
    [(!onlyBits q [(0, 15), (32, 64)] || segOff s g || r.isNone, stBadParam),
      (isHeld s (.basinDma ch) || isHeld s (.segment g), stBusy)] s
    (fun _ =>
      let p := r.getD (0, 0)
      accepted 1 [.basinDma ch, .segment g] [] (modBasin (fun b => { b with
        extracts := b.extracts ++ [{
          seg := g, channel := some ch, dest := 0, tc := 0, next := p.1, stop := p.2, release := fbit q 14, delivered := 0
          skipped := 0, gapAllBut := none, gapAddrs := [], agent := rq.agent, srcNode := rq.srcNode, seq := rq.seq }] }) s))

/-- BASIN.EXTRACT (0x4005). -/
def execBasinExtract (t : Time) (rq : Request) (s : State) : Outcome := command 0x4005 (lenIs 1) ownBasinExtract t rq s

/-- BASIN.SET_WINDOW's own part (R312). -/
def ownBasinSetWindow (rq : Request) (s : State) : Reply :=
  let q := qword rq 1
  guarded [(!onlyBits q [(0, 4)], stBadParam)] s (fun _ => okay [] (modBasin (fun b => { b with window := fld q 0 4 }) s))

/-- BASIN.SET_WINDOW (0x4006). -/
def execBasinSetWindow (t : Time) (rq : Request) (s : State) : Outcome :=
  command 0x4006 (lenIs 1) ownBasinSetWindow t rq s

/-- BASIN.EXPORT's own part (R312). -/
def ownBasinExport (rq : Request) (s : State) : Reply :=
  let q := qword rq 1
  let g := fld q 0 10
  let r := extractRange (segOf s g) (fld q 12 2) (fld q 32 32) (fld q 64 32)
  guarded
    [(!onlyBits q [(0, 10), (12, 2), (32, 64), (96, 18)] || segOff s g || r.isNone || fld q 112 2 == 3, stBadParam),
      (isHeld s (.segment g), stBusy)] s
    (fun _ =>
      let p := r.getD (0, 0)
      accepted 1 [.segment g] [] (modBasin (fun b => { b with
        extracts := b.extracts ++ [{
          seg := g, channel := none, dest := BitVec.ofNat 16 (fld q 96 16), tc := 5 + fld q 112 2, next := p.1, stop := p.2
          release := false, delivered := 0, skipped := 0, gapAllBut := none, gapAddrs := [], agent := rq.agent, srcNode := rq.srcNode
          seq := rq.seq }] }) s))

/-- BASIN.EXPORT (0x4007). -/
def execBasinExport (t : Time) (rq : Request) (s : State) : Outcome := command 0x4007 (lenIs 1) ownBasinExport t rq s

/-- Segment state codes (R306). -/
def segCode : SegState → Nat
  | .unconfigured => 0 | .empty => 1 | .recording => 2 | .postTrigger => 3 | .frozen => 4

/-- The two words of one segment in `BASIN.STATUS` (R306). -/
def segStatus (s : State) (g : Nat) : List Word :=
  let x := segOf s g
  [mkWord [(0, 3, segCode x.state), (3, 1, b2n x.truncated), (4, 31, indexOf x x.serial), (35, 31, indexOf x (oldest x)),
      (66, 62, x.written)],
    mkWord [(0, 32, x.overwritten), (32, 32, x.refused), (64, 32, x.ignored), (96, 32, x.shortfallMs)]]

/-- BASIN.STATUS's own part (R306). -/
def ownBasinStatus (rq : Request) (s : State) : Reply :=
  let q := qword rq 1
  let first := fld q 0 10
  let n := fld q 10 7
  guarded [(!onlyBits q [(0, 17)] || n == 0 || decide (126 < n) || decide (1024 < first + n), stBadParam)] s
    (fun _ => okay (snap s :: (List.range n).flatMap (fun i => segStatus s (first + i))) s)

/-- BASIN.STATUS (0x4008). -/
def execBasinStatus (t : Time) (rq : Request) (s : State) : Outcome := command 0x4008 (lenIs 1) ownBasinStatus t rq s

end Sys2Proof.Machine
end

