-- ==== Sys2Proof/Machine/Oper.lean ====
section
/-! DEFINITION. The stream operators (R318 to R325) and the OPER commands. -/

namespace Sys2Proof.Machine

def operOf (s : State) (n : Nat) : OpSlot := s.oper.getD n default

/-! ### Settings (R318, R319, R323) -/

/-- Outputs of a kind (R319). -/
def opOutputs : OpKind → Nat
  | .stats _ => 4 | .thresh _ _ => 2 | .correlate _ _ _ _ _ => 3 | _ => 1

/-- Input `i` of `OPER.CONFIG` Q2 and Q3. -/
def opInput (rq : Request) (i : Nat) : OpIn :=
  let w := qword rq (2 + i / 4)
  let b := 27 * (i % 4)
  { addr := fld w b 10, node := if fbit w (b + 10) then some (BitVec.ofNat 16 (fld w (b + 11) 16)) else none }

/-- Kind and parameters of `OPER.CONFIG` Q4 onwards. -/
def opKindOf (rq : Request) (k : Nat) : Option OpKind :=
  let w := qword rq 4
  match k with
  | 0 => some (.stats (fld w 0 16))
  | 1 => some (.thresh (sfld w 0 32) (sfld w 32 32))
  | 2 => some (.combine ((List.range 8).map (fun i => sfld (qword rq (4 + i / 4)) (32 * (i % 4)) 32)) (sfld (qword rq 6) 0 32))
  | 3 =>
    some (.decim ((List.range (fld w 0 9 + 1)).map (fun i => sfld (qword rq (5 + i / 5)) (24 * (i % 5)) 24)) (fld w 9 6))
  | 4 => some (.spectrum (fld w 0 4))
  | 5 => some (.eventTime (sfld w 0 32) (sfld w 32 32))
  | 6 => some (.correlate (fld w 0 32) (fld w 32 32) (fld w 64 32) (fld w 96 4) (fld w 100 16))
  | _ => none

/-- Words that a kind's request needs (R318). -/
def opWords (rq : Request) (k : Nat) : Nat :=
  match k with
  | 2 => 6
  | 3 => 4 + (fld (qword rq 4) 0 9 + 1 + 4) / 5
  | _ => 4

/-- Bits of Q4 that a kind uses. -/
def opParamBits (k : Nat) : List (Nat × Nat) :=
  match k with
  | 0 => [(0, 16)] | 1 => [(0, 64)] | 2 => [(0, 128)] | 3 => [(0, 15)] | 4 => [(0, 4)] | 5 => [(0, 64)] | _ => [(0, 116)]

/-- Reserved bits and unused coefficients from Q5 on are 0 (R10, R126). -/
def opRestOk (rq : Request) (k : Nat) : Bool :=
  match k with
  | 2 => onlyBits (qword rq 6) [(0, 32)]
  | 3 =>
    let taps := fld (qword rq 4) 0 9 + 1
    (List.range ((taps + 4) / 5)).all (fun j => onlyBits (qword rq (5 + j)) [(0, 24 * min 5 (taps - 5 * j))])
  | _ => true

/-- The parameters of a kind are in range (R319). -/
def opRangeOk (k : OpKind) (nIn : Nat) : Bool :=
  match k with
  | .stats w => decide (2 ≤ w) && nIn == 1
  | .thresh u lo => decide (lo < u) && nIn == 1
  | .combine _ _ => true
  | .decim taps d =>
    decide (2 ≤ taps.length) && decide (taps.length ≤ 384) && taps == taps.reverse && decide (2 ≤ d) && decide (d ≤ 64) &&
      nIn == 1
  | .spectrum l => decide (8 ≤ l) && decide (l ≤ 13) && nIn == 1
  | .eventTime _ he => decide (0 ≤ he) && nIn == 1
  | .correlate lo hi _ _ _ => decide (lo ≤ hi) && nIn == 2

/-- The settings of an `OPER.CONFIG` request (R318). -/
def opCfgOf (rq : Request) (k : OpKind) : OpCfg :=
  let q := qword rq 1
  { kind := k
    inputs := (List.range (fld q 8 4)).map (opInput rq)
    outBase := fld q 12 10
    prio := fld q 22 3
    keepL2 := fbit q 25
    incl := fbit q 26
    holdUs := fld q 27 17
    sub := { rings := BitVec.ofNat 8 (fld q 44 8)
             basin := if fbit q 52 then some (fld q 53 10) else none
             export_ := if fbit q 63 then some (BitVec.ofNat 16 (fld q 64 16)) else none
             exportTc := fld q 80 3 } }

/-- The slot whose outputs hold a derived address (R318). -/
def producerOf (slots : List OpSlot) (a : Nat) : Option Nat :=
  (List.range slots.length).find? (fun i =>
    match (slots.getD i default).cfg with
    | some k => decide (k.outBase ≤ a) && decide (a < k.outBase + opOutputs k.kind)
    | none => false)

/-- Slots that feed a slot through derived addresses of this node. -/
def feeders (slots : List OpSlot) (n : Nat) : List Nat :=
  match (slots.getD n default).cfg with
  | some k => k.inputs.filterMap (fun i => if i.node.isNone && decide (512 ≤ i.addr) then producerOf slots i.addr else none)
  | none => []

/-- Slot `n` feeds itself through at most `fuel` others (R323). -/
def inCycle (slots : List OpSlot) (n : Nat) : Nat → List Nat → Bool
  | 0, _ => false
  | fuel + 1, front => front.contains n || inCycle slots n fuel ((front.flatMap (feeders slots)).eraseDups)

/-- Output addresses of two slots overlap (R323). -/
def opOverlap (slots : List OpSlot) (n : Nat) (k : OpCfg) : Bool :=
  (List.range slots.length).any (fun i =>
    i != n && (match (slots.getD i default).cfg with
      | some o => decide (o.outBase < k.outBase + opOutputs k.kind) && decide (k.outBase < o.outBase + opOutputs o.kind)
      | none => false))

/-- COMBINE inputs share one output rate, as far as local channels give it (R323). -/
def combineRateOk (s : State) (k : OpCfg) : Bool :=
  match k.kind with
  | .combine _ _ =>
    let per := (k.inputs.filter (fun i => i.node.isNone && decide (i.addr < 512))).map (fun i =>
      let f := (chanOf s (i.addr / 8)).primary
      cyclesPer f.mode (bankSel f))
    per.all (fun p => p == per.headD 0)
  | _ => true

/-- A slot starts with empty windows, and the first output of each of its addresses carries `GAP_BEFORE` (R321, R324). -/
def opEmpty (n : Nat) (run : OpRun) (s : State) : State :=
  let s1 := modOper n (fun o => { o with
    run := run, inq := [], buf := [], last := none, above := none, event := none, lastPair := none }) s
  match (operOf s n).cfg with
  | some k => (List.range (opOutputs k.kind)).foldl (fun acc i =>
      gapAt (k.outBase + i) (subDests k.sub ++ (List.range 32).map Dest.oper) acc) s1
  | none => s1

/-! ### Cost and budget (R319, R324) -/

/-- Records per second that an address of this node delivers, in 1/1000 (R319). -/
def localRate (s : State) (a : Nat) : Nat :=
  let c := a / 8
  let x := chanOf s c
  if !x.cfg.enable then 0
  else if x.weave.state == .running then
    let img := x.weave.image.getD default
    let kept := ((img.strokes.filter (fun k => k.pos == a % 8)).map (·.keep)).sum
    kept * 20480000000 / max 1 (max (roundCycles img) (img.periodUs * 2048 / 100))
  else if a % 8 ≠ x.pos then 0
  else
    let per := cyclesPer x.primary.mode (bankSel x.primary)
    20480000000 / (if combining s c then per * 2 * (genOf s (c / 4)).cfg.swapK else per)

/-- The rate of an input; that of a derived address follows its slot's kind, one record a second for event kinds. -/
def inputRate (s : State) : Nat → OpIn → Nat
  | 0, _ => 1000
  | fuel + 1, i =>
    match i.node with
    | some node => Config.remoteRate node i.addr
    | none =>
      if i.addr < 512 then localRate s i.addr
      else match producerOf s.oper i.addr with
        | none => 0
        | some n =>
          match (operOf s n).cfg with
          | none => 0
          | some k =>
            let r := inputRate s fuel (k.inputs.headD default)
            match k.kind with
            | .stats w => r / w
            | .combine _ _ => r
            | .decim _ d => r / d
            | .spectrum _ => r
            | _ => 1000

/-- Cost of a slot in operator units (R319). -/
def opCost (s : State) (k : OpCfg) : Nat :=
  let total := (k.inputs.map (inputRate s 33)).sum
  let r := (total + 9999999) / 10000000
  match k.kind with
  | .stats _ => 2 + r
  | .thresh _ _ => 1 + r
  | .combine _ _ => 4 + 2 * r
  | .decim _ _ => 8 + 4 * r
  | .spectrum l => 16 + 2 ^ l / 256 * r
  | .eventTime _ _ => 2 + r
  | .correlate _ _ _ _ _ => 8 + r

/-- The operator budget (R324, R391, R417): 62 units while the control tree runs from the RC oscillator. -/
def opBudget (s : State) : Nat :=
  let b := if s.clk.ctlInternal then 62 else [1000, 750, 500, 250].getD s.pwr.op 250
  if 1 ≤ s.therm.level then min b 500 else b

/-- A slot is to run, apart from the budget and L2. -/
def opWanted (o : OpSlot) : Bool := o.run != .stopped

/-- Slots in the order in which they keep running: highest priority first, then the lowest number (R324). -/
def opOrder (s : State) : List Nat :=
  (List.range 8).flatMap (fun p => (List.range 32).filter (fun n =>
    match (operOf s n).cfg with
    | some k => k.prio == p && opWanted (operOf s n)
    | none => false))

/-- How slot `n` is to run: `none` to run, or the cause of its pause (0 budget, 1 L2) (R324). -/
def opPauses (s : State) : List (Nat × Option Nat) :=
  let go := (opOrder s).foldl (fun (acc : List (Nat × Option Nat) × Nat × Bool) n =>
    let k := ((operOf s n).cfg).getD default
    if 2 ≤ s.therm.level ∧ !k.keepL2 then (acc.1 ++ [(n, some 1)], acc.2.1, acc.2.2)
    else
      let used := acc.2.1 + opCost s k
      if acc.2.2 && decide (used ≤ opBudget s) then (acc.1 ++ [(n, none)], used, true)
      else (acc.1 ++ [(n, some 0)], acc.2.1, false)) ([], 0, true)
  go.1

/-- Pauses and resumptions as the budget and the throttle level now demand, with their events (R324). -/
def opRefresh (s : State) : State :=
  (opPauses s).foldl (fun acc p =>
    match (operOf acc p.1).run, p.2 with
    | .running, some c => emitNow 0x4101 1 (p.1 + c * 256) [] (opEmpty p.1 (.paused c) acc)
    | .paused c, none => emitNow 0x4101 0 (p.1 + c * 256) [] (opEmpty p.1 .running acc)
    | _, _ => acc) s

/-! ### Output (R319, R321) -/

/-- Flags that a derived record takes over from its inputs (R321). -/
def derivedMask : BitVec 12 :=
  flagsOf [(fUncertain, true), (fPath, true), (fBlanked, true), (fSubst, true), (fOpen, true), (fSettling, true)]

/-- Union of flags. -/
def unionFlags (rs : List OpRec) : BitVec 12 := rs.foldl (fun acc r => acc ||| r.flags) 0

/-- A derived record on output `i` of a slot (R318, R319, R321): saturated with `OVERRANGE`, to the slot's destinations and
to the slots that take its address. -/
def emitDerived (n i : Nat) (value : Int) (time : Nat) (flags : BitVec 12) (s : State) : State :=
  match (operOf s n).cfg with
  | none => s
  | some k =>
    let v := max (-2147483648) (min 2147483647 value)
    let a := k.outBase + i
    let fl := (flags &&& derivedMask) ||| flagsOf [(fDerived, true), (fOverrange, v != value), (fDomain, follows s 1)]
    let r : FormedRec := { word := recordWord v time a s.time.epoch fl, gen := s.cfg.activeGen, out := (s.now : Int)
                           gap := !(addrOf s a).gapNext.isEmpty }
    let s1 := modAddr a (fun x => { x with gapNext := [] }) (modOper n (fun o => { o with recsOut := o.recsOut + 1 }) s)
    let s2 := (subDests k.sub).foldl (fun acc d => deliver 9 a r d (destUp acc d) acc) s1
    opDeliverAll none a { word := r.word, gen := r.gen, readable := true, node := none, at_ := s.now } r.gap s2

/-- floor(sqrt n), bit by bit from bit 40. -/
def isqrt (n : Nat) : Nat :=
  ((List.range 41).reverse).foldl (fun r b => if (r + 2 ^ b) * (r + 2 ^ b) ≤ n then r + 2 ^ b else r) 0

/-- sqrt(n / d) rounded to nearest. -/
def sqrtRound (n d : Nat) : Nat :=
  let r := isqrt (n / max 1 d)
  if (2 * r + 1) * (2 * r + 1) * d ≤ 4 * n then r + 1 else r

/-- A time truncated to 1/256 ns (R188, R319). -/
def trunc256 (t : Nat) : Nat := t / 256 * 256

/-! ### Kinds (R319, R320) -/

/-- STATS: a full window gives minimum, maximum, mean and rms. -/
def statsStep (n k : Nat) (s : State) : State :=
  let b := (operOf s n).buf
  if b.length < k then s
  else
    let vs := b.map (·.value)
    let t := trunc256 (((b.headD default).time + (b.getLastD default).time) / 2)
    let fl := unionFlags b
    let mn := vs.foldl min (vs.headD 0)
    let mx := vs.foldl max (vs.headD 0)
    let sq := (vs.map (fun v => v.natAbs * v.natAbs)).sum
    let s1 := modOper n (fun o => { o with buf := [] }) s
    emitDerived n 3 (sqrtRound sq k) t fl (emitDerived n 2 (roundDiv vs.sum k) t fl
      (emitDerived n 1 mx t fl (emitDerived n 0 mn t fl s1)))

/-- Freeze triggers of a THRESH slot (R309). -/
def threshFreeze (n time : Nat) (s : State) : State :=
  (List.range 1024).foldl (fun acc g => if (segOf acc g).sources.getLsbD (2 + n) then trigger g (2 + n) time acc else acc) s

/-- THRESH: rising through U, falling through Lo; the first record only tells the side. -/
def threshStep (n : Nat) (u lo : Int) (r : OpRec) (s : State) : State :=
  match (operOf s n).above with
  | none => modOper n (fun o => { o with above := some (decide (u ≤ r.value)) }) s
  | some true =>
    if r.value < lo then emitDerived n 1 r.value r.time r.flags (modOper n (fun o => { o with above := some false }) s) else s
  | some false =>
    if u ≤ r.value then
      threshFreeze n r.time (emitDerived n 0 r.value r.time r.flags (modOper n (fun o => { o with above := some true }) s))
    else s

/-- COMBINE: once the records of every input at one timestamp are there, their weighted sum. -/
def combineStep (n : Nat) (k : OpCfg) (coefs : List Int) (offset : Int) (r : OpRec) (s : State) : State :=
  let same := (operOf s n).buf.filter (fun x => x.time == r.time)
  let have_ := (List.range k.inputs.length).all (fun i => same.any (fun x => x.input == i))
  if !have_ then s
  else
    let sum := (List.range k.inputs.length).foldl (fun acc i =>
      acc + coefs.getD i 0 * ((same.find? (fun x => x.input == i)).getD default).value) (offset * 65536)
    emitDerived n 0 (roundDiv sum 65536) r.time (unionFlags same)
      (modOper n (fun o => { o with buf := o.buf.filter (fun x => x.time != r.time) }) s)

/-- DECIM: a symmetric FIR over the last taps, every `d` inputs. -/
def decimStep (n : Nat) (taps : List Int) (d : Nat) (s : State) : State :=
  let b := (operOf s n).buf
  let m := taps.length
  if b.length < max m d then s
  else
    let w := b.drop (b.length - m)
    let sum := (taps.zip (w.map (·.value))).foldl (fun acc p => acc + p.1 * p.2) 0
    let t := trunc256 (((w.getD ((m - 1) / 2) default).time + (w.getD (m / 2) default).time) / 2)
    emitDerived n 0 (roundDiv sum (2 ^ 23)) t (unionFlags w) (modOper n (fun o => { o with buf := o.buf.drop d }) s)

/-- pi x 2^80. -/
abbrev piFix : Nat := 3797952473636338580787993

/-- Cosine of x / 2^80 by its series, times 2^80, for 0 <= x <= pi x 2^80. -/
def cosSeries (x : Nat) : Int :=
  let sq : Int := (x * x / 2 ^ 80 : Nat)
  ((List.range 26).foldl (fun (acc : Int × Int) j =>
    let term := -(acc.2 * sq / (2 ^ 80 * (((2 * j + 1) * (2 * j + 2) : Nat) : Int)))
    (acc.1 + term, term)) ((2 ^ 80 : Int), (2 ^ 80 : Int))).1

/-- cos(2 pi k / m) times 2^80. -/
def cosTurn (k m : Nat) : Int :=
  let r := k % m
  let r1 := if m < 2 * r then m - r else r
  cosSeries (2 * piFix * r1 / m)

/-- Bin `b` of a Hann-windowed frame of `m` values: the amplitude of a sine at its centre (R320). -/
def spectrumBin (vs : List Int) (m b : Nat) : Nat :=
  let cs := (List.range m).map (fun i => cosTurn i m)
  let win := fun (i : Nat) => (2 ^ 80 - cs.getD i 0) / 2
  let p := (List.range m).foldl (fun (acc : Int × Int) i =>
    let x := vs.getD i 0 * win i / 2 ^ 40
    (acc.1 + x * cs.getD (b * i % m) 0, acc.2 + x * cs.getD ((b * i + 3 * m / 4) % m) 0)) (0, 0)
  let re := (p.1 / 2 ^ 88).natAbs
  let im := (p.2 / 2 ^ 88).natAbs
  -- re and im are in 2^-32 codes; the window sums to m / 2
  sqrtRound (16 * (re * re + im * im)) (m * m * 2 ^ 64)

/-- SPECTRUM: a frame of 2^l points, bins in ascending order, hop of half the points. -/
def spectrumStep (n l : Nat) (s : State) : State :=
  let b := (operOf s n).buf
  let m := 2 ^ l
  if b.length < m then s
  else
    let vs := b.map (·.value)
    let c := ((b.getD (m / 2 - 1) default).time + (b.getD (m / 2) default).time) / 2
    let tf := c / (32 * nsU) * (32 * nsU)
    let fl := unionFlags (b.take m)
    (List.range (m / 2)).foldl (fun acc i => emitDerived n 0 (spectrumBin vs m i) (tf + i * 256) fl acc)
      (modOper n (fun o => { o with buf := o.buf.drop (m / 2) }) s)

/-- EVENT_TIME: the interpolated rising crossing and the peak until the next fall below Le - He. -/
def eventStep (n : Nat) (le he : Int) (r : OpRec) (s : State) : State :=
  let o := operOf s n
  let s1 := modOper n (fun o => { o with last := some r }) s
  match o.event with
  | some e =>
    if r.value < le - he then
      emitDerived n 0 e.peak e.time e.flags (modOper n (fun o => { o with event := none }) s1)
    else modOper n (fun o => { o with event := some { e with peak := max e.peak r.value, flags := e.flags ||| r.flags } }) s1
  | none =>
    match o.last with
    | some p =>
      if p.value < le ∧ le ≤ r.value then
        let dv := (r.value - p.value).toNat
        let t := trunc256 (p.time + (le - p.value).toNat * (r.time - p.time) / max 1 dv)
        modOper n (fun o => { o with event := some { time := t, peak := r.value, flags := p.flags ||| r.flags } }) s1
      else s1
    | none => s1

/-- A pair of CORRELATE: transit time, speed and, within a train, spacing (R319). With no transit time the speed is beyond
every limit; with no distance either, the manual gives no speed and a free value stands for it. -/
def pairOut (n : Nat) (dMm shift gMs : Nat) (a b : OpRec) (s : State) : State :=
  let fl := a.flags ||| b.flags
  let dt := b.time - a.time
  let s1 := emitDerived n 0 (roundDiv (dt : Int) (nsU * 2 ^ shift)) a.time fl s
  let prev := (operOf s1 n).lastPair
  let (speed, s2) := if dt = 0 then (if dMm = 0 then drawInt s1 else ((2 ^ 40 : Int), s1))
    else (roundDiv ((dMm * secU : Nat) : Int) dt, s1)
  let s3 := emitDerived n 1 speed a.time fl s2
  let s4 := match prev with
    | some p =>
      if p ≤ a.time ∧ a.time - p ≤ gMs * msU then
        let gap := a.time - p
        let (sp, s5) := if dt = 0 then (if dMm * gap = 0 then drawInt s3 else ((2 ^ 40 : Int), s3))
          else (roundDiv ((dMm * gap : Nat) : Int) dt, s3)
        emitDerived n 2 sp a.time fl s5
      else s3
    | none => s3
  modOper n (fun o => { o with lastPair := some a.time }) s4

/-- The earliest record of an input in a list. -/
def earliest (l : List OpRec) : Option OpRec :=
  l.foldl (fun acc r => match acc with | none => some r | some b => if r.time < b.time then some r else acc) none

/-- CORRELATE: each A event, oldest first, with the earliest unpaired B event inside its window. -/
def correlateStep (n lo hi dMm shift gMs : Nat) : Nat → List OpRec → State → State
  | 0, _, s => s
  | fuel + 1, as, s =>
    match earliest as with
    | none => s
    | some a =>
      let bs := (operOf s n).buf.filter (fun r => r.input == 1 && decide (a.time + lo * usU ≤ r.time) &&
        decide (r.time ≤ a.time + hi * usU))
      let rest := as.filter (fun r => r != a)
      match earliest bs with
      | none => correlateStep n lo hi dMm shift gMs fuel rest s
      | some b =>
        correlateStep n lo hi dMm shift gMs fuel rest
          (pairOut n dMm shift gMs a b (modOper n (fun o => { o with buf := (o.buf.erase a).erase b }) s))

/-- An input record is invalid (R321). -/
def opInvalid (w : Word) : Bool :=
  w == poison || (recFlags w &&& flagsOf [(fRange, true), (fOverrange, true), (fSettling, true)]) != 0

/-- A record enters a slot (R319, R321, R325). -/
def opTake (n i : Nat) (r : QRec) (s : State) : State :=
  match (operOf s n).cfg with
  | none => s
  | some k =>
    if r.gen ≠ s.cfg.activeGen then modOper n (fun o => { o with ignored := o.ignored + 1 }) s
    else if opInvalid r.word && !k.incl then modOper n (fun o => { o with recsIn := o.recsIn + 1 }) s
    else
      let x : OpRec := { input := i, value := recValue r.word, time := recFull s r.word, flags := recFlags r.word, arrived := s.now }
      let s1 := modOper n (fun o => { o with recsIn := o.recsIn + 1 }) s
      let held := modOper n (fun o => { o with buf := o.buf ++ [x] }) s1
      match k.kind with
      | .stats w => statsStep n w held
      | .thresh u lo => threshStep n u lo x s1
      | .combine c off => combineStep n k c off x held
      | .decim taps d => decimStep n taps d held
      | .spectrum l => spectrumStep n l held
      | .eventTime le he => eventStep n le he x s1
      | .correlate lo hi d sh g =>
        correlateStep n lo hi d sh g ((operOf held n).buf.length) ((operOf held n).buf.filter (fun y => y.input == 0)) held

/-- OPERATOR_INPUT (R319): the oldest record that waits at the slot enters it. -/
def execOperatorInput (t : Time) (slot : Fin 32) (s0 : State) : Outcome :=
  let s := tick t s0
  let o := operOf s slot.val
  match o.run, o.inq with
  | .running, (i, r) :: rest =>
    if isUp s .oper then .next (opTake slot.val i r (modOper slot.val (fun o => { o with inq := rest }) s)) else .next s
  | _, _ => .next s

/-- OPERATOR_HOLD_EXPIRY (R322): inputs still missing after the hold time count as lost. -/
def execOperatorHoldExpiry (t : Time) (slot : Fin 32) (s0 : State) : Outcome :=
  let s := tick t s0
  let n := slot.val
  match (operOf s n).cfg with
  | none => .next s
  | some k =>
    let hold := k.holdUs * usU
    match k.kind with
    | .combine _ _ =>
      let due := (operOf s n).buf.filter (fun r => decide (r.arrived + hold ≤ s.now))
      match earliest due with
      | none => .next s
      | some r =>
        let there := (operOf s n).buf.filter (fun x => x.time == r.time)
        .next (gapAt k.outBase (subDests k.sub ++ (List.range 32).map Dest.oper) (modOper n (fun o => { o with
          buf := o.buf.filter (fun x => x.time != r.time), lost := o.lost + (k.inputs.length - there.length) }) s))
    | .correlate _ hi _ _ _ =>
      let old := fun (r : OpRec) => decide (r.arrived + hi * usU + hold ≤ s.now)
      let lostA := ((operOf s n).buf.filter (fun r => r.input == 0 && old r)).length
      .next (modOper n (fun o => { o with buf := o.buf.filter (fun r => !old r), lost := o.lost + lostA }) s)
    | _ => .next s

/-! ### Commands -/

/-- OPER.CONFIG's own part (R318, R323). -/
def ownOperConfig (img : Bool) (rq : Request) (s : State) : Reply :=
  let q := qword rq 1
  let n := fld q 0 5
  let kc := fld q 5 3
  match opKindOf rq kc with
  | none =>
    guardedIn img [(opWanted (operOf s n), stNotStopped)] s (fun _ => deny stBadParam s)
  | some kind =>
    let k := opCfgOf rq kind
    let s1 := modOper n (fun o => { o with cfg := some k }) s
    let need := opWords rq kc
    let nIn := fld q 8 4
    let extra := (rq.payload.drop need).all (fun w => w == 0)
    let unusedIn := (List.range 8).all (fun i => decide (i < nIn) || fld (qword rq (2 + i / 4)) (27 * (i % 4)) 27 == 0)
    guardedIn img
      [(opWanted (operOf s n), stNotStopped), (decide (rq.len < need), stBadLength),
        (!onlyBits q [(0, 83)] || nIn == 0 || decide (8 < nIn) || !opRangeOk kind nIn || decide (100000 < k.holdUs) ||
            decide (k.outBase < 512) || decide (1024 < k.outBase + opOutputs kind) || !extra || !unusedIn ||
            !onlyBits (qword rq 2) [(0, 108)] || !onlyBits (qword rq 3) [(0, 108)] ||
            !onlyBits (qword rq 4) (opParamBits kc) || !opRestOk rq kc || (fbit q 63 && !exportClass (fld q 80 3)) ||
            opOverlap s1.oper n k || inCycle s1.oper n 32 (feeders s1.oper n) || !combineRateOk s k, stBadParam)] s
      (fun _ => okay [] s1)

/-- OPER.CONFIG (0x4101). -/
def execOperConfig (t : Time) (rq : Request) (s : State) : Outcome :=
  command 0x4101 (lenIn 4 81) (ownOperConfig false) t rq s

/-- OPER.START's own part: the slots start at once (R318). -/
def ownOperStart (rq : Request) (s : State) : Reply :=
  let q := qword rq 1
  let ns := bitsOf (BitVec.ofNat 32 (fld q 0 32))
  guarded [(!onlyBits q [(0, 32)] || ns.any (fun n => (operOf s n).cfg.isNone), stBadParam)] s
    (fun _ => okay [] (opRefresh (ns.foldl (fun acc n =>
      if opWanted (operOf acc n) then acc else opEmpty n .running acc) s)))

/-- OPER.START (0x4102). -/
def execOperStart (t : Time) (rq : Request) (s : State) : Outcome := command 0x4102 (lenIs 1) ownOperStart t rq s

/-- OPER.STOP's own part: the slots stop at once (R318). -/
def ownOperStop (rq : Request) (s : State) : Reply :=
  let q := qword rq 1
  let ns := bitsOf (BitVec.ofNat 32 (fld q 0 32))
  guarded [(!onlyBits q [(0, 32)], stBadParam)] s
    (fun _ => okay [] (opRefresh (ns.foldl (fun acc n =>
      if opWanted (operOf acc n) then opEmpty n .stopped acc else acc) s)))

/-- OPER.STOP (0x4103). -/
def execOperStop (t : Time) (rq : Request) (s : State) : Outcome := command 0x4103 (lenIs 1) ownOperStop t rq s

/-- State code of a slot (R377's table). -/
def opCode (o : OpSlot) : Nat :=
  match o.cfg, o.run with
  | none, _ => 0
  | _, .stopped => 1
  | _, .running => 2
  | _, .paused _ => 3

/-- Units that running slots use. -/
def opUsed (s : State) : Nat :=
  ((List.range 32).map (fun n =>
    match (operOf s n).cfg, (operOf s n).run with
    | some k, .running => opCost s k
    | _, _ => 0)).sum

/-- OPER.STATUS's own part (R324). -/
def ownOperStatus (rq : Request) (s : State) : Reply :=
  let q := qword rq 1
  let o := operOf s (fld q 0 5)
  let cost := match o.cfg with | some k => opCost s k | none => 0
  guarded [(!onlyBits q [(0, 5)], stBadParam)] s
    (fun _ => okay [snap s,
      mkWord [(0, 2, opCode o), (2, 10, min cost 1023), (12, 10, opBudget s), (22, 10, min (opUsed s) 1023)],
      mkWord [(0, 32, o.recsIn), (32, 32, o.recsOut), (64, 32, o.ignored), (96, 32, o.lost)]] s)

/-- OPER.STATUS (0x4104). -/
def execOperStatus (t : Time) (rq : Request) (s : State) : Outcome := command 0x4104 (lenIs 1) ownOperStatus t rq s

end Sys2Proof.Machine
end

