-- ==== Sys2Proof/Machine/TbRef.lean ====
section
/-! DEFINITION. The control reference and the timebase reference (R386, R392, R393). -/

namespace Sys2Proof.Machine

/-- Change CLK. -/
def modClk (f : ClkSt → ClkSt) (s : State) : State := { s with clk := f s.clk }

/-- State of a PLL by its source code 4 to 17 (R377). -/
def pllOf (s : State) (code : Nat) : PllState := s.clk.plls.getD (code - 4) .locked
def setPll (code : Nat) (p : PllState) (s : State) : State :=
  modClk (fun c => { c with plls := c.plls.set (code - 4) p }) s

/-- Set a PLL that is locked to hold (R387). -/
def holdPll (code : Nat) (s : State) : State := if pllOf s code == .locked then setPll code .hold s else s

/-- One REF: false REFA, true REFB. -/
def refInOf (s : State) (b : Bool) : RefIn := if b then s.clk.refB else s.clk.refA
def modRef (b : Bool) (f : RefIn → RefIn) (s : State) : State :=
  modClk (fun c => if b then { c with refB := f c.refB } else { c with refA := f c.refA }) s

/-- The active REF: the preferred one while it is qualified, otherwise the other while it is (R386). -/
def activeRef (s : State) : Option Bool :=
  if (refInOf s s.clk.preferB).qualified then some s.clk.preferB
  else if (refInOf s (!s.clk.preferB)).qualified then some (!s.clk.preferB)
  else none

/-- The REF that PLL_TB takes as its reference, where it takes one (R392). -/
def tbRefIn (s : State) : Option Bool :=
  match s.clk.tbRef, activeRef s with
  | 0, a => a
  | 1, some a => some (!a)
  | _, _ => none

/-- The lane that `CLK.SET_PRIORITY` names is UP (R392, entry 3). -/
def laneRefUp (s : State) : Bool :=
  decide (s.clk.laneSource < 2) &&
    (((s.line.lanes.getD s.clk.laneSource []).getD s.clk.lane default).state == .up)

/-- PLL_TB switches to an entry of *Timebase reference priority*. The measured difference, which nothing brings to the model
and which is a free value, enters y in the same tick; a switch to the internal reference keeps y, sets `TB_INTERNAL`, and
leaves PLL_TB in hold, which it leaves at a switch to another entry (R387, R392, R393). -/
def switchTb (entry : Nat) (s : State) : State :=
  let s1 := modClk (fun c => { c with tbRef := entry }) s
  if entry = 3 then raiseNmi 4 (holdPll 4 s1)
  else
    let r := drawInt (if pllOf s1 4 == .hold then setPll 4 .locked s1 else s1)
    setY (clampY (r.2.time.y + r.1)) r.2

/-- The first qualified entry (R392). -/
def firstEntry (s : State) : Nat :=
  if (activeRef s).isSome then 0 else if laneRefUp s then 2 else 3

/-- After a change of the active REF, PLL_TB stays on the REF it was on, under its new code; where that REF is not qualified
any more, it switches to the first qualified entry (R386, R390, R392). `was` is the REF it was on. -/
def keepTbRef (was : Option Bool) (s : State) : State :=
  match was with
  | none => s
  | some b =>
    if (refInOf s b).qualified then modClk (fun c => { c with tbRef := if activeRef s == some b then 0 else 1 }) s
    else switchTb (firstEntry s) s

/-- The reference lane has left UP (R392). -/
def laneRefLost (p l : Nat) (s : State) : State :=
  if s.clk.tbRef = 2 ∧ s.clk.laneSource = p ∧ s.clk.lane = l ∧ !laneRefUp s then switchTb (firstEntry s) s else s

end Sys2Proof.Machine
end

