-- ==== Sys2Proof/Machine/Line.lean ====
section
/-! DEFINITION. Line ports: fabric links and ring breaks as the lanes leave them (R268, R269, R285, R293), lanes and their
training, slots, circuits and the drop port (R248 to R268), and the LANE and SLOT commands. -/

namespace Sys2Proof.Machine

/-- A lane in the coding of `ARG_B` (R381). -/
def laneCode (p l : Nat) : Nat := 8 * p + l

/-! ### Fabric links (R259, R269, R285, R293) -/

/-- The port has a fabric link (R262, R269). -/
def fabricLink (s : State) (p : Nat) : Bool :=
  if p = 2 then s.line.drop == 8 && isUp s .drop && isUp s .xbar && loopFree s 2
  else isUp s .xbar && (List.range 64).any (fabricSlot s p)

/-- *ENUM payload* (R285). -/
def enumWords (sub role pos n ring gen port : Nat) (uid heard : BitVec 64) : List Word :=
  [mkWord [(0, 4, sub), (4, 1, role), (5, 10, pos), (15, 10, n), (25, 6, ring), (31, 16, gen), (47, 2, port),
      (64, 64, uid.toNat)], mkWord [(0, 64, heard.toNat)]]

/-- Send an ENUM frame to the neighbour on a port. -/
def sendEnum (p : Nat) (ws : List Word) (s : State) : State := sendNext p 4 6 true 0xFFFF#16 true s.cfg.activeGen ws s

/-- The positions on the two sides of a break at a port of the node at `q` (R293). -/
def breakAt (n : Option Nat) (q p : Nat) : Option Break :=
  if p = 0 then some { west := q, east := match n with | some n => (q + 1) % max n 1 | none => q + 1 }
  else if p = 1 then
    match n with
    | some n => some { west := (q + n - 1) % max n 1, east := q }
    | none => if q = 0 then none else some { west := q - 1, east := q }
  else none

/-- Record or clear a break, with its event (R293, R381). -/
def noteBreak (up : Bool) (b : Break) (s : State) : State :=
  let had := s.fab.breaks.contains b
  if up && had then
    emitNow 0x3205 1 (b.west + b.east * 2 ^ 10) [] (modFab (fun x => { x with breaks := x.breaks.filter (· != b) }) s)
  else if !up && !had then
    emitNow 0x3205 0 (b.west + b.east * 2 ^ 10) [] (modFab (fun x => { x with breaks := x.breaks ++ [b] }) s)
  else s

/-- A ring port of this node goes down or comes back: its node tells the other side and records the break (R293). -/
def portChange (p : Nat) (up : Bool) (s : State) : State :=
  if p = 2 then s
  else
    let s1 := if fabricLink s (1 - p) then
        sendEnum (1 - p) (enumWords (if up then 3 else 2) 0 (s.fab.pos.getD 0) 0 0 0 p s.fuseShadow.uid 0) s
      else s
    match s.fab.pos with
    | some q => match breakAt s.fab.n q p with
      | some b => noteBreak up b s1
      | none => s1
    | none => s1

/-- A port leaves ADJACENT (R285, R293). -/
def leaveAdjacent (p : Nat) (s : State) : State :=
  if (portOf s p).adjacent then portChange p false (modPort p (fun x => { x with adjacent := false }) s) else s

/-- A port whose fabric link has lost every slot leaves ADJACENT at once (R259, R268, R285). -/
def checkLink (p : Nat) (s : State) : State :=
  if fabricLink s p then s
  else leaveAdjacent p (clearEgress p (modPort p (fun x => { x with neigh := none, lastHello := none }) s))

/-- All three ports. -/
def checkLinks (s : State) : State := checkLink 2 (checkLink 1 (checkLink 0 s))

/-! ### Lane states (R252, R257) -/

/-- State codes of `LANE.STATUS` and of the lane-state event. -/
def laneStateCode : LaneState → Nat
  | .down => 0 | .signal => 1 | .negotiate => 2 | .align => 3 | .up => 4 | .failed => 5 | .shed => 6

/-- A lane enters a state, with its event (R252); a lane that leaves UP is no timebase reference any more (R392), and the
link-delay average goes on without it (R268). -/
def toLane (p l : Nat) (new : LaneState) (s : State) : State :=
  let x := laneOf s p l
  if x.state = new then s
  else
    let s1 := modLane p l (fun x => { x with
      state := new, since := s.now
      degraded := x.degraded && new == .up
      berHigh := if new == .up then x.berHigh else 0
      berLow := if new == .up then x.berLow else 0 }) s
    let s2 := emitNow 0x3001 (laneCode p l) (laneStateCode x.state + 8 * laneStateCode new) [] s1
    if x.state == .up then
      laneRefLost p l (checkLink p (modLink p l (fun k => { k with stamps := none, raw := none, window := [] }) s2))
    else s2

/-- The settings of a lane in force: an accepted change waits for the lane's next cycle boundary (R251). -/
def laneCur (x : Lane) (t : Time) : LaneSet :=
  match x.curAt with
  | some a => if a ≤ t then x.set else x.cur
  | none => x.cur

/-- The transmit FIR taps in use: the host's in HOST, else those of training (R251). -/
def firUse (x : Lane) (t : Time) : List Int :=
  let u := laneCur x t
  if u.firHost then [u.cM2, u.cM1, u.cP1, u.cP2] else x.fir

/-- The CTLE peaking in use (R251, R253). -/
def ctleUse (x : Lane) (t : Time) : Nat := if (laneCur x t).ctleHost then (laneCur x t).ctleDb else x.ctle

/-- Training begins: the lane takes its rate and MLSE from the settings, and the taps stand as before training (R251,
R252). -/
def startTraining (p l : Nat) (s : State) : State :=
  toLane p l .signal (modLane p l (fun x => { x with
    half := x.set.half || s.fuseShadow.laneCap
    mlse := x.set.mlse
    signalAt := s.now
    retryAt := none
    attempts := satAdd 64 x.attempts 1
    fir := [0, -4, -6, 0]
    laneRx := none
    seqRx := none
    rxDelete := false
    omitCycle := none
    slipUntil := 0
    shedAt := none }) s)

/-- The port's lanes may run: its island runs and its PLL is locked (R391, R463). -/
def portRuns (s : State) (p : Nat) : Bool :=
  isUp s (lineIsland p) && s.clk.plls.getD (2 + p) .locked != .unlocked && !s.clk.tbHoldExpired

/-- The lanes of the ports that one row names do not exist on the SL-5128-V (R3). -/
def onLane (l : Nat) (s : State) (go : Unit → State) : Outcome :=
  if lanePresent s l then .next (go ()) else .fault .absentPart

/-- LANE_SIGNAL_DETECT (R252, R266): power above the threshold for 100 us; a lane shut for its neighbour retrains too. -/
def execLaneSignalDetect (t : Time) (port : Fin 2) (lane : Fin 8) (s0 : State) : Outcome :=
  let s := tick t s0
  onLane lane.val s (fun _ =>
    let x := laneOf s port.val lane.val
    let waits := match x.retryAt with | some r => decide (s.now < r) | none => false
    if portRuns s port.val && x.set.enable && !waits &&
        (x.state == .down || (x.state == .shed && decide (s.therm.level < 2))) then
      startTraining port.val lane.val s
    else s)

/-- LANE_RX_CONVERGED (R252): the CTLE that adapts settles on a peaking, a free value. -/
def execLaneRxConverged (t : Time) (port : Fin 2) (lane : Fin 8) (s0 : State) : Outcome :=
  let s := tick t s0
  onLane lane.val s (fun _ =>
    let x := laneOf s port.val lane.val
    if x.state = .signal then
      let (v, s1) := drawNat s
      toLane port.val lane.val .negotiate (modLane port.val lane.val (fun x => { x with
        ctle := v % 16, lastCtle := some s.now }) s1)
    else s)

/-- A tap that training has settled on: a free value in the range of R251. -/
def freeTap (s : State) (i : Nat) : Int := (Config.freeNat (s.free + i) % 64 : Nat) - 32

/-- LANE_NEGOTIATION_DONE (R250, R252): with the neighbour at the other rate, the lane does not leave training. -/
def execLaneNegotiationDone (t : Time) (port : Fin 2) (lane : Fin 8) (sameRate : Bool) (s0 : State) : Outcome :=
  let s := tick t s0
  onLane lane.val s (fun _ =>
    let x := laneOf s port.val lane.val
    if x.state ≠ .negotiate then s
    else if !sameRate then emitNow 0x3004 (laneCode port.val lane.val) 0 [] s
    else
      let s1 := modLane port.val lane.val (fun x => { x with
        fir := (List.range 4).map (freeTap s) }) { s with free := s.free + 4 }
      toLane port.val lane.val .align s1)

/-- `LANE` has been seen on another lane of the port, or lies outside its range (R248). -/
def laneOrderBad (s : State) (p l f : Nat) : Bool :=
  !lanePresent s f || (List.range 8).any (fun k => k != l && (laneOf s p k).laneRx == some f)

/-- A lane-order fault: the event, and the lane is held FAILED (R248). -/
def laneOrderFault (p l f : Nat) (s : State) : State :=
  toLane p l .failed (modLane p l (fun x => { x with retryAt := none, laneRx := none })
    (emitNow 0x3003 (laneCode p l) f [] s))

/-- One circuit of the image. -/
def circuitOf (s : State) (id : BitVec 16) : Option Circuit := s.line.circuits.find? (fun c => c.id == id)
def modCircuit (id : BitVec 16) (f : Circuit → Circuit) (s : State) : State :=
  modLine (fun x => { x with circuits := x.circuits.map (fun c => if c.id == id then f c else c) }) s

/-- A carrier slot: one that belongs to a circuit. -/
def carrier (x : Slot) : Bool := x.use == .express || x.use == .terminate || x.use == .regen

/-- Every slot of the lane is UNUSED or belongs to a sheddable circuit (R266). -/
def laneSheddable (s : State) (p l : Nat) : Bool :=
  (List.range 8).all (fun j =>
    let x := lineSlot s p (8 * l + j)
    x.use == .unused || (carrier x && (circuitOf s x.circuit).any (·.sheddable)))

/-- LANE_ALIGNED (R252, R266): four valid framing codewords and alignment bring the lane UP, unless R248 holds it; at L2 a lane
that carries sheddable circuits alone announces shed. -/
def execLaneAligned (t : Time) (port : Fin 2) (lane : Fin 8) (laneField : Fin 8) (s0 : State) : Outcome :=
  let s := tick t s0
  onLane lane.val s (fun _ =>
    let p := port.val
    let l := lane.val
    if (laneOf s p l).state ≠ .align then s
    else if laneOrderBad s p l laneField.val then laneOrderFault p l laneField.val s
    else toLane p l .up (modLane p l (fun x => { x with
      laneRx := some laneField.val, failRun := 0, lastCw := s.now
      shedAt := if 2 ≤ s.therm.level && laneSheddable s p l then some s.now else x.shedAt }) s))

/-- LANE_TRAINING_TIMEOUT (R252): 200 ms after SIGNAL the lane is DOWN and tries again 100 ms later; the third failure in a
row raises the event. -/
def execLaneTrainingTimeout (t : Time) (port : Fin 2) (lane : Fin 8) (s0 : State) : Outcome :=
  let s := tick t s0
  onLane lane.val s (fun _ =>
    let p := port.val
    let l := lane.val
    let x := laneOf s p l
    if (x.state == .signal || x.state == .negotiate || x.state == .align) && decide (x.signalAt + 200 * msU ≤ s.now) then
      let s1 := toLane p l .down (modLane p l (fun x => { x with
        failRun := x.failRun + 1
        trainFailures := satAdd 64 x.trainFailures 1
        retryAt := some (s.now + 100 * msU)
        laneRx := none }) s)
      if x.failRun + 1 = 3 then emitNow 0x3002 (laneCode p l) 3 [] s1 else s1
    else s)

/-- LANE_RETRY_TIMER (R252): 100 ms after a failure, training begins again. -/
def execLaneRetryTimer (t : Time) (port : Fin 2) (lane : Fin 8) (s0 : State) : Outcome :=
  let s := tick t s0
  onLane lane.val s (fun _ =>
    let x := laneOf s port.val lane.val
    match x.retryAt with
    | none => s
    | some r =>
      if decide (r ≤ s.now) && x.set.enable && portRuns s port.val && (x.state == .down || x.state == .failed) then
        startTraining port.val lane.val s
      else s)

/-- Four framing codewords in a row may be missing: the last one lies four cycles back, one more where it announced a cycle
without one (R255, R257). -/
def framingGone (x : Lane) (t : Time) : Bool :=
  decide (10 * (x.lastCw : Nat) + (4 + b2n x.rxDelete) * cycle10 x.half ≤ 10 * t)

/-- LANE_FAILURE (R257, R268): signal lost for 1 us or four framing codewords missing; where both may be, which of them the row
stands for is a free value. -/
def execLaneFailure (t : Time) (port : Fin 2) (lane : Fin 8) (s0 : State) : Outcome :=
  let s := tick t s0
  onLane lane.val s (fun _ =>
    let p := port.val
    let l := lane.val
    let x := laneOf s p l
    if x.state ≠ .up then s
    else
      let (b, s1) := drawBool s
      toLane p l .failed (modLane p l (fun x => { x with
        framingLosses := satAdd 64 x.framingLosses (b2n (b && framingGone x s.now)), retryAt := some (s.now + 100 * msU)
        laneRx := none }) s1))

/-! ### Framing codewords and slot maps (R255, R259, R263) -/

/-- Kinds of slot that the two ends must agree on: 0 unused, 1 fabric, 2 carrier. -/
def useClass (n : Nat) : Nat := min n 2

/-- Codes of *Slot uses* (R258). -/
def useCode : SlotUse → Nat
  | .unused => 0 | .fabric => 1 | .express => 2 | .terminate => 3 | .regen => 4

/-- A slot's uses at the two ends differ. -/
def slotDiffers (x : Slot) : Bool :=
  match x.neigh with
  | some m => useClass m != useClass (useCode x.use)
  | none => false

/-- The difference touches a carrier slot (R259). -/
def carrierDiffers (x : Slot) : Bool :=
  slotDiffers x && (useClass (useCode x.use) == 2 || x.neigh.any (fun m => useClass m == 2))

/-- The neighbour's slot-use map arrives: mismatches are marked, a new set of differing carrier slots raises the event, and
the fabric link follows (R259). -/
def takeMap (p : Nat) (m : List Nat) (s : State) : State :=
  let s1 := modLine (fun x => { x with slots := x.slots.modify p (fun l => l.mapIdx (fun i y =>
    let z := { y with neigh := some (m.getD i 0) }
    { z with mismatch := slotDiffers z })) }) s
  let bad : BitVec 64 := (List.range 64).foldl (fun acc i => setBit acc i (carrierDiffers (lineSlot s1 p i))) 0
  let s2 := if bad ≠ 0 ∧ bad ≠ s.line.mismatchSeen.getD p 0 then emitNow 0x3101 p 0 [bad.setWidth 128] s1 else s1
  checkLink p (modLine (fun x => { x with mismatchSeen := x.mismatchSeen.set p bad }) s2)

/-- A slot that this node forwards express arrives with `HOPS` of 64 or more: the event, at most once per second per slot
(R263). -/
def transitBudget (p i h : Nat) (s : State) : State :=
  let x := lineSlot s p i
  let due := match x.lastBudget with | some b => decide (b + secU ≤ s.now) | none => true
  if x.use == .express && decide (64 ≤ h) && decide (h < 127) && due then
    emitNow 0x3102 p i [] (modLineSlot p i (fun x => { x with lastBudget := some s.now }) s)
  else s

/-- A codeword of the inner code: 120 information bits and 8 check bits (R254). -/
def innerCode (info : BitVec 120) : Word := Config.innerCheck info ++ info

/-- `HOPS` that a slot leaves with (R255, R258, R263, R264, R266): 127 idle; one more than it arrived with where it is
forwarded express, 126 at most; 0 where its stream begins here. -/
def hopsOut (s : State) (p i : Nat) : Nat :=
  let x := lineSlot s p i
  let shed := (s.line.circuits.find? (fun c => c.id == x.circuit)).any (·.shed)
  if !slotPresent s p i then 127
  else match x.use with
    | .unused => 127
    | .fabric => 0
    | .express =>
      let h := (slotSet s (1 - p) x.other).hopsIn
      if shed || h == 127 then 127 else min (h + 1) 126
    | _ => if shed then 127 else 0

/-- The framing codeword of the cycle in progress on a transmit lane (R255); the byte of the side channel, whose coding the
manual does not give, is a free value, and so is `RX_SEQ` before a codeword has arrived. -/
def framingWord (s : State) (p l : Nat) (stuff deleteNext : Bool) : Word :=
  let x := laneOf s p l
  let n := cycleIx x.half s.now
  let h := Config.freeNat s.free
  innerCode ((mkWord [(0, 8, n), (8, 8, x.seqRx.getD (h % 256)), (16, 3, l),
    (19, 40, (tbAt s (cycleAt x.half n)) / 256 % 2 ^ 40), (59, 40, x.rxTs), (99, 7, hopsOut s p (8 * l + n % 8)),
    (106, 8, h / 256 % 256), (114, 1, b2n stuff), (115, 1, b2n deleteNext)]).setWidth 120)

/-- A transmit lane sends a framing codeword, unless its cycle goes without one (R255, R256). -/
def sendFraming (p l : Nat) (stuff deleteNext : Bool) (s : State) : State :=
  let x := laneOf s p l
  if x.omitCycle == some (cycleIx x.half s.now) && !stuff then s
  else emitOut (.framing p l (framingWord s p l stuff deleteNext)) { s with free := s.free + 1 }

/-- The four timestamps of R207 as a marker brings two of them: the marker that it answers left at the start of the last cycle
of that number. -/
def takeStamps (p l : Nat) (half : Bool) (cw : Word) (s : State) : State :=
  let n := cycleIx half s.now
  let sent := n - (n + 256 - fld cw 8 8) % 256
  modLink p l (fun k => { k with
    stamps := some (tbAt s (cycleAt half sent) / 256 % 2 ^ 40, fld cw 59 40, fld cw 19 40, tbNow s / 256 % 2 ^ 40) }) s

/-- The neighbour's receiver asks for one unit on one tap of this lane's transmitter (R253); in HOST the taps hold. -/
def takeFir (p l : Nat) (r : Option (Fin 4 × Bool)) (s : State) : State :=
  match r with
  | none => s
  | some (i, up) => modLane p l (fun x =>
      if (laneCur x s.now).firHost then x
      else { x with fir := x.fir.modify i.val (fun c => if up then min 31 (c + 1) else max (-32) (c - 1)) }) s

/-- The side channel at the end of a superframe (R253, R259, R266). -/
def takeSide (p l : Nat) (m : Option SideMsg) (s : State) : State :=
  match m with
  | none => s
  | some k =>
    let s1 := modLane p l (fun x => { x with
      shedAt := if k.shed then some (x.shedAt.getD s.now) else x.shedAt }) (takeFir p l k.firReq s)
    if k.map.isEmpty then s1 else takeMap p (k.map.map Fin.val) s1

/-- FRAMING_CODEWORD_RX (R207, R248, R255, R259, R263): `cw` is a valid framing codeword that arrives on a receive lane; `side`
is what the side channel has brought where it ends a superframe. A coupling port's lanes carry markers alone (R262). -/
def execFramingCodewordRx (t : Time) (port : Fin 3) (lane : Fin 8) (cw : Word) (side : Option SideMsg) (s0 : State) :
    Outcome :=
  let s := tick t s0
  onLane lane.val s (fun _ =>
    let p := port.val
    let l := lane.val
    let f := fld cw 16 3
    if p = 2 then (if fabricLink s 2 then takeStamps 2 l true cw s else s)
    else if (laneOf s p l).state ≠ .up && (laneOf s p l).state ≠ .align then s
    else if laneOrderBad s p l f then laneOrderFault p l f s
    else
      let s1 := takeStamps p l (laneOf s p l).half cw (modLane p l (fun x => { x with
        laneRx := some f, seqRx := some (fld cw 0 8), rxTs := tbNow s / 256 % 2 ^ 40, lastCw := s.now
        rxDelete := fbit cw 115 }) s)
      let i := 8 * f + fld cw 0 8 % 8
      let h := fld cw 99 7
      let s2 := if slotPresent s1 p i then
          transitBudget p i h (modLineSlot p i (fun x => { x with hopsIn := h }) s1)
        else s1
      sendFraming p l false false (takeSide p l side s2))

/-- LANE_JUSTIFICATION (R256): at least 32 cycles apart; low, the next cycle goes without a framing codeword; high, a second
one marked `STUFF` is sent. Beyond the range the buffer slips by one cycle, whose payload codewords are lost. -/
def execLaneJustification (t : Time) (port : Fin 2) (lane : Fin 8) (bufferHigh beyondRange : Bool) (s0 : State) : Outcome :=
  let s := tick t s0
  onLane lane.val s (fun _ =>
    let p := port.val
    let l := lane.val
    let x := laneOf s p l
    let n := cycleIx x.half s.now
    let near := match x.lastJust with | some j => decide (10 * s.now < 10 * j + 32 * cycle10 x.half) | none => false
    if x.state ≠ .up then s
    else if beyondRange then
      emitNow 0x3006 (laneCode p l) (min (x.slips + 1) (2 ^ 32 - 1)) []
        (modLane p l (fun x => { x with slips := satAdd 64 x.slips 1, slipUntil := cycleAt x.half (n + 1) }) s)
    else if near then s
    else sendFraming p l bufferHigh (!bufferHigh) (modLane p l (fun x => { x with
      justifications := satAdd 64 x.justifications 1, lastJust := some s.now
      omitCycle := if bufferHigh then x.omitCycle else some (n + 1) }) s))

/-- CTLE_REEVALUATE (R253): every 10 ms in UP the CTLE that adapts moves by at most 1 dB. -/
def execCtleReevaluate (t : Time) (port : Fin 2) (lane : Fin 8) (better : Nat) (s0 : State) : Outcome :=
  let s := tick t s0
  onLane lane.val s (fun _ =>
    let x := laneOf s port.val lane.val
    let due := match x.lastCtle with | some c => decide (c + 10 * msU ≤ s.now) | none => true
    if x.state ≠ .up || (laneCur x s.now).ctleHost || !due then s
    else modLane port.val lane.val (fun x => { x with
      lastCtle := some s.now
      ctle := if x.ctle < min better 15 then x.ctle + 1 else if better < x.ctle then x.ctle - 1 else x.ctle }) s)

/-- FIR_TAP_REQUEST (R253): the receiver asks for one unit on one tap, at most once per second and only for 0.1 dB. -/
def execFirTapRequest (t : Time) (port : Fin 2) (lane : Fin 8) (tap : Fin 4) (up : Bool) (gainDb100 : Nat) (s0 : State) :
    Outcome :=
  let s := tick t s0
  onLane lane.val s (fun _ =>
    let x := laneOf s port.val lane.val
    let due := match x.lastFir with | some c => decide (c + secU ≤ s.now) | none => true
    if x.state ≠ .up || !due || decide (gainDb100 < 10) then s
    else emitOut (.firRequest port.val lane.val tap.val up)
      (modLane port.val lane.val (fun x => { x with lastFir := some s.now }) s))

/-- LANE_DEGRADED_CHANGE (R268): the estimate over one second, in 10^-18; three seconds above 2 x 10^-6 degrade the lane, ten
at or below restore it. -/
def execLaneDegradedChange (t : Time) (port : Fin 2) (lane : Fin 8) (ber : Nat) (s0 : State) : Outcome :=
  let s := tick t s0
  onLane lane.val s (fun _ =>
    let p := port.val
    let l := lane.val
    let x := laneOf s p l
    if x.state ≠ .up then s
    else
      let hi := if 2000000000000 < ber then x.berHigh + 1 else 0
      let lo := if 2000000000000 < ber then 0 else x.berLow + 1
      let deg := if x.degraded then decide (lo < 10) else decide (3 ≤ hi)
      let s1 := modLane p l (fun x => { x with berEst := ber, berHigh := hi, berLow := lo, degraded := deg }) s
      if deg == x.degraded then s1 else emitNow 0x3005 (laneCode p l) (b2n deg) [] s1)

/-! ### Sheddable circuits (R266) -/

/-- Throttle level L2 is entered: sheddable circuits go out of service, their drop interfaces send local fault, and lanes that
carry nothing else announce shed (R266). -/
def shedEnter (s : State) : State :=
  let out := s.line.circuits.filter (fun c => c.sheddable && !c.shed)
  let s1 := out.foldl (fun acc c => emitOut (.drop c.id [] true) acc) s
  let s2 := modLine (fun x => { x with circuits := x.circuits.map (fun c => { c with shed := c.shed || c.sheddable }) }) s1
  modLine (fun x => { x with lanes := x.lanes.mapIdx (fun p ls => ls.mapIdx (fun l y =>
    { y with shedAt := if y.state == .up && laneSheddable s2 p l then some (y.shedAt.getD s2.now) else y.shedAt })) }) s2

/-- L2 is left: shed lanes retrain and the circuits resume (R252, R266). -/
def shedLeave (s : State) : State :=
  let s1 := modLine (fun x => { x with
    circuits := x.circuits.map (fun c => { c with shed := false })
    lanes := x.lanes.map (fun ls => ls.map (fun y => { y with shedAt := none })) }) s
  (List.range 16).foldl (fun acc k =>
    if (laneOf acc (k / 8) (k % 8)).state == .shed then startTraining (k / 8) (k % 8) acc else acc) s1

/-- A shed notice has stood for 16 superframes of 256 cycles (R255, R266). -/
def shedDue (x : Lane) (t : Time) : Bool :=
  match x.shedAt with | some a => decide (10 * a + 4096 * cycle10 x.half ≤ 10 * t) | none => false

/-- LANE_SHED_POWERDOWN (R266): after 16 superframes of the notice, this node's or its neighbour's, the lane powers down; one
that carries a FABRIC slot or a slot of another circuit never does. -/
def execLaneShedPowerdown (t : Time) (port : Fin 2) (lane : Fin 8) (s0 : State) : Outcome :=
  let s := tick t s0
  onLane lane.val s (fun _ =>
    let x := laneOf s port.val lane.val
    if x.state == .up && laneSheddable s port.val lane.val && shedDue x s.now then
      toLane port.val lane.val .shed (modLane port.val lane.val (fun x => { x with shedAt := none, laneRx := none }) s)
    else s)

/-! ### Circuits (R260 to R265) -/

/-- A circuit is out of service under L2 (R266). -/
def isShed (s : State) (id : BitVec 16) : Bool := (circuitOf s id).any (·.shed)

/-- Bits in which two words differ. -/
def bitsApart (a b : Word) : Nat := (List.range 128).foldl (fun n i => n + b2n (a.getLsbD i != b.getLsbD i)) 0

/-- What the inner decoder passes on: the codeword it resolves, with the correction counted, or the hard-decision bits, counted
as uncorrectable (R254). -/
def innerDecode (p l : Nat) (cw : Word) (resolved : Option (BitVec 120)) (s : State) : BitVec 120 × State :=
  match resolved with
  | none => (cw.setWidth 120, modLane p l (fun x => { x with uncorrectable := satAdd 64 x.uncorrectable 1 }) s)
  | some v =>
    let n := bitsApart cw (innerCode v)
    (v, modLane p l (fun x => { x with
      corrected := satAdd 64 x.corrected (b2n (decide (0 < n))), correctedBits := satAdd 64 x.correctedBits n }) s)

/-- The slot position of payload codeword `j` of a cycle (R255). -/
def payloadPos (half : Bool) (j : Nat) : Nat := if half then j % 4 else j % 8

/-- A slot whose use has changed carries undefined content for at most one cycle plus the link delay (R258); for how long is a
free choice. -/
def slotSettles (s : State) (p i : Nat) : Bool :=
  match (slotSet s p i).was with
  | some (b, _, _, _) =>
    let x := laneOf s p (i / 8)
    let rt := ((portRt s p).getD 0) / 2 ^ 40
    decide (10 * s.now < 10 * b + cycle10 x.half + (10 * 256 * rt / 2).toNat) && Config.freeBool s.free
  | none => false

/-- A codeword leaves on a slot: lost in a slip of its lane, undefined while the slot's change settles (R256, R258). -/
def sendSlot (p i hops : Nat) (info : BitVec 120) (s : State) : State :=
  if !slotOut s p i || decide (s.now < (laneOf s p (i / 8)).slipUntil) then s
  else if slotSettles s p i then
    emitOut (.codeword p i hops (innerCode ((Config.freeWord s.free).setWidth 120))) { s with free := s.free + 1 }
  else emitOut (.codeword p i hops (innerCode info)) s

/-- An idle codeword, whose content the manual does not give, leaves on a slot (R258, R266). -/
def sendIdle (p i : Nat) (s : State) : State :=
  sendSlot p i 127 ((Config.freeWord s.free).setWidth 120) { s with free := s.free + 1 }

/-- EXPRESS_CODEWORD (R254, R255, R260, R263): payload codeword `j` arrives on a receive lane; where its slot is EXPRESS it
leaves as it is after inner correction, on the named slot of the other port; a shed circuit's slots carry idle codewords. -/
def execExpressCodeword (t : Time) (port : Fin 2) (lane : Fin 8) (j : Fin 1088) (cw : Word) (resolved : Option (BitVec 120))
    (s0 : State) : Outcome :=
  let s := tick t s0
  onLane lane.val s (fun _ =>
    let p := port.val
    let y := laneOf s p lane.val
    match y.laneRx with
    | none => s
    | some f =>
      let i := 8 * f + payloadPos y.half j.val
      let x := lineSlot s p i
      if y.state ≠ .up || x.use ≠ .express || !slotIn s p i then s
      else
        let r := innerDecode p lane.val cw resolved s
        if isShed s x.circuit then sendIdle (1 - p) x.other r.2
        else sendSlot (1 - p) x.other (hopsOut s (1 - p) x.other) r.1 r.2)

/-- The slots of a port that add and drop a circuit here, ascending. -/
def termSlots (s : State) (p : Nat) (id : BitVec 16) : List Nat :=
  (List.range 64).filter (fun i =>
    let x := lineSlot s p i
    x.use == .terminate && x.circuit == id)

/-- Bits of 120-bit codewords, first bit first, and back. -/
def infoBits (ws : List (BitVec 120)) : List Bool :=
  ws.flatMap (fun w => (List.range 120).map (fun i => w.getLsbD i))
def bitsInfo (bs : List Bool) (i : Nat) : BitVec 120 :=
  (List.range 120).foldl (fun acc j => setBit acc j (bs.getD (120 * i + j) false)) 0

/-- Whole RS(544,514) codewords, of 5,440 bits, over `n` slots in ascending order: what slot `k` carries (R261). -/
def shareOf (ws : List (BitVec 120)) (n k : Nat) : List (BitVec 120) :=
  let bits := infoBits ws
  let count := (bits.length + 5439) / 5440
  let mine := (List.range count).filter (fun r => r % n == k)
  let own := mine.flatMap (fun r => (bits.drop (5440 * r)).take 5440)
  (List.range ((own.length + 119) / 120)).map (bitsInfo own)

/-- Send a circuit's stream on one port with `HOPS` 0. -/
def sendCircuit (p : Nat) (id : BitVec 16) (ws : List (BitVec 120)) (s : State) : State :=
  let slots := termSlots s p id
  (List.range slots.length).foldl (fun acc k =>
    let i := slots.getD k 0
    (shareOf ws slots.length k).foldl (fun acc w => sendSlot p i 0 w acc) acc) s

/-- The drop port serves circuits. -/
def dropServes (s : State) : Bool :=
  isUp s .drop && s.clk.plls.getD 4 .locked != .unlocked && s.line.drop != 0 && s.line.drop != 8 && loopFree s 2

/-- CIRCUIT_ADD (R261, R265): the circuit's re-encoded stream goes out east, west, or with 1+1 on both. -/
def execCircuitAdd (t : Time) (circuit : BitVec 16) (codewords : List (BitVec 120)) (s0 : State) : Outcome :=
  let s := tick t s0
  match circuitOf s circuit with
  | none => .next s
  | some c =>
    if !dropServes s || c.shed then .next s
    else
      let w := b2n c.workWest
      let s1 := sendCircuit w circuit codewords s
      .next (if c.prot then sendCircuit (1 - w) circuit codewords s1 else s1)

/-- The circuit's slots on a port are all there (R257, R265). -/
def copyUp (s : State) (p : Nat) (id : BitVec 16) : Bool :=
  let l := termSlots s p id
  !l.isEmpty && l.all (slotIn s p)

/-- CIRCUIT_DROP (R261, R265): skew up to 4,096 ns; the working copy unless it is missing or uncorrectable, else the
protecting one; the working copy alone while the differential delay exceeds the declared one; local fault while down. -/
def execCircuitDrop (t : Time) (circuit : BitVec 16) (working protecting : Option (List (BitVec 120))) (skewNs : Nat)
    (diffDelayUs : Nat) (s0 : State) : Outcome :=
  let s := tick t s0
  match circuitOf s circuit with
  | none => .next s
  | some c =>
    if !dropServes s then .next s
    else if c.shed then .next (emitOut (.drop circuit [] true) s)
    else
      let w := b2n c.workWest
      let lost := decide (4096 < skewNs)
      let s1 := if lost && c.aligned then emitNow 0x3103 0 circuit.toNat [] s else s
      let deg := c.prot && decide (c.declaredUs < diffDelayUs)
      let s2 := if deg == c.degraded then s1 else emitNow 0x3104 (b2n deg) circuit.toNat [] s1
      let work := if copyUp s w circuit && !lost then working else none
      let prot := if c.prot && !deg && copyUp s (1 - w) circuit && !lost then protecting else none
      let s3 := modCircuit circuit (fun c => { c with
        aligned := !lost, degraded := deg, measuredUs := if c.prot then diffDelayUs else c.measuredUs
        onProtecting := work.isNone && prot.isSome }) s2
      match work, prot with
      | some ws, _ => .next (emitOut (.drop circuit ws false) s3)
      | none, some ws => .next (emitOut (.drop circuit ws false) s3)
      | none, none => .next (emitOut (.drop circuit [] true) s3)

/-- CIRCUIT_REGEN (R264): corrected and sent on with `HOPS` 0. -/
def execCircuitRegen (t : Time) (port : Fin 2) (slot : Fin 64) (info : BitVec 120) (s0 : State) : Outcome :=
  let s := tick t s0
  onLane (slot.val / 8) s (fun _ =>
    let p := port.val
    let x := lineSlot s p slot.val
    if x.use ≠ .regen || !slotIn s p slot.val then s
    else if isShed s x.circuit then sendIdle (1 - p) x.other s
    else sendSlot (1 - p) x.other 0 info s)

/-! ### LANE and SLOT commands -/

/-- The settings after the ones whose `UPDATE` bit is 1, in the order of *Per-lane settings* (R251). -/
def laneMerge (q : Word) (up : Nat → Bool) (x : LaneSet) : LaneSet :=
  { enable := if up 0 then fbit q 4 else x.enable
    half := if up 1 then fbit q 5 else x.half
    swing := if up 2 then fld q 6 8 else x.swing
    firHost := if up 3 then fbit q 14 else x.firHost
    cM2 := if up 4 then sfld q 15 6 else x.cM2
    cM1 := if up 4 then sfld q 21 6 else x.cM1
    cP1 := if up 4 then sfld q 27 6 else x.cP1
    cP2 := if up 4 then sfld q 33 6 else x.cP2
    lev1 := if up 5 then sfld q 39 5 else x.lev1
    lev2 := if up 5 then sfld q 44 5 else x.lev2
    ctleHost := if up 6 then fbit q 49 else x.ctleHost
    ctleDb := if up 6 then fld q 50 4 else x.ctleDb
    ffeFreeze := if up 7 then fbit q 54 else x.ffeFreeze
    dfeMode := if up 8 then fld q 55 2 else x.dfeMode
    mlse := if up 9 then fbit q 57 else x.mlse
    trBw := if up 10 then fld q 58 4 + 1 else x.trBw }

/-- LANE.CONFIG's own part (R3, R250, R251): a host value for a setting whose mode is not HOST is refused. -/
def ownLaneConfig (img : Bool) (rq : Request) (s : State) : Reply :=
  let q := qword rq 1
  let p := fld q 0 1
  let l := fld q 1 3
  let up := fun i => fbit q (64 + i)
  let x := laneOf s p l
  let new := laneMerge q up x.set
  guardedIn img
    [(!onlyBits q [(0, 62), (64, 11)] || !lanePresent s l || (up 2 && decide (fld q 6 8 < 64)) ||
        (up 4 && !new.firHost) || (up 6 && !new.ctleHost && fld q 50 4 != 0) || (up 8 && fld q 55 2 == 3), stBadParam),
      (up 1 && !fbit q 5 && s.fuseShadow.laneCap, stDenied)] s
    (fun _ =>
      let now := laneCur x s.now
      let s1 := modLane p l (fun y => { y with
        set := new, cur := now, curAt := some (nextCycle x.half s.now)
        ffeAt := if new.ffeFreeze && !x.set.ffeFreeze then s.free else y.ffeAt
        dfeAt := if new.dfeMode != 0 && x.set.dfeMode == 0 then s.free else y.dfeAt
        retryAt := if new.enable then y.retryAt else none
        laneRx := if new.enable then y.laneRx else none }) { s with free := s.free + 7 }
      okay [] (if new.enable then s1 else toLane p l .down s1))

/-- LANE.CONFIG (0x3001). -/
def execLaneConfig (t : Time) (rq : Request) (s : State) : Outcome := command 0x3001 (lenIs 1) (ownLaneConfig false) t rq s

/-- LANE.RETRAIN's own part (R253): a lane that has left DOWN goes back to SIGNAL; one without a signal, or shut under L2,
has no training to repeat. -/
def ownLaneRetrain (rq : Request) (s : State) : Reply :=
  let q := qword rq 1
  let p := fld q 0 1
  let lanes := bitsOf (BitVec.ofNat 8 (fld q 1 8))
  guarded [(!onlyBits q [(0, 9)] || lanes.any (fun l => !lanePresent s l), stBadParam)] s
    (fun _ => okay [] (lanes.foldl (fun acc l =>
      let x := laneOf acc p l
      if x.state == .down || x.state == .shed then acc
      else if x.state == .signal then startTraining p l (modLane p l (fun y => { y with failRun := 0 }) acc)
      else startTraining p l acc) s))

/-- LANE.RETRAIN (0x3002). -/
def execLaneRetrain (t : Time) (rq : Request) (s : State) : Outcome := command 0x3002 (lenIs 1) ownLaneRetrain t rq s

/-- The words of one lane in `LANE.STATUS` (R267). SNR, skew and the equaliser taps, which the receiver alone estimates, are
free values; the taps stand while they are frozen. -/
def laneWords (s : State) (p l : Nat) : List Word :=
  let x := laneOf s p l
  let fv := fun (i : Nat) => (Config.freeWord (s.free + 16 * l + i)).toNat
  let fir := firUse x s.now
  let rt : Int := match (s.time.links.getD p []).getD l default with
    | k => if k.window.isEmpty then 0 else k.window.sum / (k.window.length : Int)
  [mkWord [(0, 3, laneStateCode x.state), (3, 1, b2n x.degraded), (16, 16, fv 0), (64, 64, (s.now - x.since) / usU)],
    mkWord [(0, 64, x.corrected), (64, 64, x.correctedBits)],
    mkWord [(0, 64, x.uncorrectable), (64, 64, x.framingLosses)],
    mkWord [(0, 64, x.slips), (64, 64, x.justifications)],
    mkWord [(0, 64, x.attempts), (64, 64, x.trainFailures)],
    mkWord [(0, 64, x.berEst), (64, 64, asField rt 64)],
    mkWord [(0, 64, fv 1), (64, 4, ctleUse x s.now), (68, 6, asField (fir.getD 0 0) 6), (74, 6, asField (fir.getD 1 0) 6),
      (80, 6, asField (fir.getD 2 0) 6), (86, 6, asField (fir.getD 3 0) 6),
      (92, 16, (Config.freeWord (x.dfeAt + 6)).toNat)]] ++
    (List.range 6).map (fun i => Config.freeWord (x.ffeAt + i)) ++ [0, 0, 0]

/-- Taps that adapt have moved on since they were last read (R253). -/
def adaptTaps (p : Nat) (s : State) : State :=
  modLine (fun y => { y with lanes := y.lanes.modify p (fun ls => ls.mapIdx (fun l x =>
    let u := laneCur x s.now
    { x with
      ffeAt := if u.ffeFreeze then x.ffeAt else s.free + 16 * l
      dfeAt := if u.dfeMode == 0 then s.free + 16 * l else x.dfeAt })) }) { s with free := s.free + 128 }

/-- LANE.STATUS's own part (R267): a snapshot, then the counters clear where `CLEAR` asks. -/
def ownLaneStatus (rq : Request) (s : State) : Reply :=
  let q := qword rq 1
  let p := fld q 0 1
  guarded [(!onlyBits q [(0, 2)], stBadParam)] s (fun _ =>
    let s0 := adaptTaps p s
    let ws := snap s0 :: (List.range (laneCount s0)).flatMap (laneWords s0 p)
    let s1 := { s0 with free := s0.free + 128 }
    okay ws (if fbit q 1 then
        modLine (fun x => { x with lanes := x.lanes.modify p (fun ls => ls.map (fun y => { y with
          framingLosses := 0, slips := 0, justifications := 0, attempts := 0, trainFailures := 0, corrected := 0
          correctedBits := 0, uncorrectable := 0 })) }) s1
      else s1))

/-- LANE.STATUS (0x3003). -/
def execLaneStatus (t : Time) (rq : Request) (s : State) : Outcome := command 0x3003 (lenIs 1) ownLaneStatus t rq s

/-- Slot bits of a port as one number. -/
def slotMask (s : State) (p : Nat) (f : Slot → Bool) : Nat :=
  (List.range 64).foldl (fun acc i => if f (lineSlot s p i) then acc + 2 ^ i else acc) 0

/-- SLOT.STATUS's own part (R258, R259, R265). -/
def ownSlotStatus (rq : Request) (s : State) : Reply :=
  let q := qword rq 1
  let p := fld q 0 1
  let circ := fun (f : Circuit → Bool) (x : Slot) => carrier x && (circuitOf s x.circuit).any f
  guarded [(!onlyBits q [(0, 1)], stBadParam)] s (fun _ => okay
    ([snap s] ++
      (List.range 2).map (fun w => mkWord ((List.range 32).map (fun i => (4 * i, 4, useCode (lineSlot s p (32 * w + i)).use)))) ++
      [mkWord [(0, 64, slotMask s p (·.mismatch)), (64, 64, slotMask s p (circ (·.shed)))]] ++
      (List.range 4).map (fun w => mkWord ((List.range 16).map (fun i => (8 * i, 8, (lineSlot s p (16 * w + i)).hopsIn)))) ++
      [mkWord [(0, 64, slotMask s p (circ (fun c => !c.aligned))), (64, 64, slotMask s p (circ (·.onProtecting)))]]) s)

/-- SLOT.STATUS (0x3101). -/
def execSlotStatus (t : Time) (rq : Request) (s : State) : Outcome := command 0x3101 (lenIs 1) ownSlotStatus t rq s

end Sys2Proof.Machine
end

