-- ==== Sys2Proof/Machine/Fab.lean ====
section
/-! DEFINITION. The fabric: forwarding (R277 to R280), duplicates and order (R281, R284), adjacency, tokens, breaks and
beacons (R285 to R294, R299), delivery of records, and the FAB commands. -/

namespace Sys2Proof.Machine

/-! ### Duplicates (R281) -/

/-- The window of a source, while it is known: 100 ms without a frame forget it (R281). -/
def winOf (s : State) (gate : Bool) (src : BitVec 16) : Option DupWin :=
  s.fab.wins.find? (fun w => w.src == src && w.gate == gate && decide (s.now < w.last + 100 * msU))

/-- Replace a window. -/
def putWin (w : DupWin) (s : State) : State :=
  modFab (fun x => { x with wins := upsert x.wins (fun y => y.src == w.src && y.gate == w.gate) w }) s

/-- A sequence number was accepted within the window. -/
def winHas (s : State) (gate : Bool) (src : BitVec 16) (q : Nat) : Bool :=
  match winOf s gate src with
  | none => false
  | some w => w.h == q || w.seen.contains q

/-- `keep` of R281: whether a copy whose trailer checked good is accepted, and the window after it. -/
def keepCopy (gate : Bool) (src : BitVec 16) (q : Nat) (s : State) : Bool × State :=
  match winOf s gate src with
  | none => (true, putWin { src := src, gate := gate, h := q, seen := [], last := s.now } s)
  | some w =>
    let d := (q + 65536 - w.h) % 65536
    let w' := { w with last := s.now }
    if d = 0 then (false, modFab (fun x => { x with duplicates := x.duplicates + 1 }) (putWin w' s))
    else if d < 32768 then
      (true, putWin { w' with h := q, seen := (w.h :: w.seen).filter (fun y => decide ((q + 65536 - y) % 65536 ≤ 32767)) } s)
    else if d = 32768 then (false, modFab (fun x => { x with stale := x.stale + 1 }) (putWin w' s))
    else if w.seen.contains q then (false, modFab (fun x => { x with duplicates := x.duplicates + 1 }) (putWin w' s))
    else (true, putWin { w' with seen := q :: w.seen } s)

/-! ### Delivery of received records (R19, R190, R191, R284, R301, R316) -/

/-- One received record to one destination (R19): queue 8 holds the records of other nodes. -/
def deliverRemote (node : BitVec 16) (a : Nat) (r : QRec) (s : State) (d : Dest) : State :=
  let q := queueOf s 8 d
  if 256 ≤ q.recs.length ∨ !destUp s d then
    countDropped d (modRemote node a (fun x => owe d { x with discarded := x.discarded + 1 })
      (putQueue { q with dropped := q.dropped + 1 } s))
  else
    let gap := (remoteOf s node a).gapDue.contains d
    modRemote node a (fun x => { x with
      delivered := x.delivered + 1, gaps := x.gaps + b2n gap, gapDue := x.gapDue.filter (· != d) })
      (putQueue { q with recs := q.recs ++ [{ r with word := withGap gap r.word }] } s)

/-- A record of another node: of another generation it is ignored and counted (R191, R301). -/
def takeRemote (node : BitVec 16) (gen : Nat) (w : Word) (s : State) : State :=
  let a := recAddr w
  let r : QRec := { word := w, gen := gen, readable := true, node := some node, at_ := s.now }
  if gen ≠ s.cfg.activeGen then
    opDeliverAll (some node) a r (fbit w 11) (modRemote node a (fun x => { x with genIgnored := x.genIgnored + 1 }) s)
  else opDeliverAll (some node) a r (fbit w 11) ((subDests (remoteOf s node a).sub).foldl (deliverRemote node a r) s)

/-- The order entry of a source; replace one. -/
def orderOf (s : State) (src : BitVec 16) : Option SrcOrder := s.fab.order.find? (fun o => o.src == src)
def putOrder (o : SrcOrder) (s : State) : State :=
  modFab (fun x => { x with order := upsert x.order (fun y => y.src == o.src) o }) s

/-- After a loss, the next record of every address of the source carries `GAP_BEFORE`, once (R284). -/
def lossGap (src : BitVec 16) (w : Word) (s : State) : Word × State :=
  match orderOf s src with
  | some o =>
    if o.gapAll && !o.gapDone.contains (recAddr w) then
      (withGap true w, putOrder { o with gapDone := recAddr w :: o.gapDone } s)
    else (w, s)
  | none => (w, s)

/-- The records of a RECORDS frame are delivered. -/
def deliverRecords (f : Frame) (s : State) : State :=
  let h := hdrOf (f.flits.getD 0 0)
  ((f.flits.drop 1).dropLast).foldl (fun acc w =>
    let (w1, acc1) := lossGap h.src w acc
    takeRemote h.src h.gen w1 acc1) s

/-! ### Bridged Ethernet frames (R295, R296) -/

/-- Change one ETHM port; one port. -/
def modEth (p : Nat) (f : EthPort → EthPort) (s : State) : State :=
  { s with eth := { s.eth with ports := s.eth.ports.modify p f } }
def ethOf (s : State) (p : Nat) : EthPort := s.eth.ports.getD p default

/-- Six bytes of an Ethernet frame from byte `k`, the first lowest; the frame begins at the first word. -/
def macAt (ws : List Word) (k : Nat) : BitVec 48 := BitVec.ofNat 48 (fld (ws.getD 0 0) (8 * k) 48)

/-- A multicast or broadcast address. -/
def isMulticast (m : BitVec 48) : Bool := m.getLsbD 0

/-- Learn a source address, at most 4,096 per group (R296). -/
def learnMac (g : Nat) (m : BitVec 48) (node : BitVec 16) (port : Option Nat) (s : State) : State :=
  let same := fun (e : MacEntry) => e.group == g && e.mac == m
  if isMulticast m then s
  else if s.eth.macs.any same || decide ((s.eth.macs.filter (fun e => e.group == g)).length < 4096) then
    { s with eth := { s.eth with macs := upsert s.eth.macs same { group := g, mac := m, node := node, port := port, seen := s.now } } }
  else s

/-- The learned place of an address. -/
def macFind (s : State) (g : Nat) (m : BitVec 48) : Option MacEntry :=
  s.eth.macs.find? (fun e => e.group == g && e.mac == m && decide (s.now < e.seen + 300 * secU))

/-- An ETHM port that bridges for a group. -/
def bridges (s : State) (p g : Nat) : Bool :=
  let e := ethOf s p
  e.enable && e.link && e.bridge && e.group == g && isUp s .ethm && loopFree s (3 + p)

/-- Send a bridged frame out of a port. -/
def etherOut (p : Nat) (ws : List Word) (corr : Int) (s : State) : State :=
  emitOut (.ether p ws corr) (modEth p (fun e => { e with framesOut := satAdd 64 e.framesOut 1 }) s)

/-- A bridged frame that has come over the fabric (R296): the source address is learned, and the frame leaves by the port that
learned its destination, or by every port of the group. A PTP event message gains its transit time (R209). -/
def deliverData (f : Frame) (s : State) : State :=
  let h := hdrOf (f.flits.getD 0 0)
  let w1 := f.flits.getD 1 0
  let ws := (f.flits.drop 2).dropLast
  let g := fld w1 16 4
  let s1 := learnMac g (macAt ws 6) h.src none s
  let dst := macAt ws 0
  let corr : Int := if fbit w1 21 then ((tbNow s : Int) - (ofT96 (w1 >>> 32) : Int)) / 256 else 0
  let out := match macFind s1 g dst with
    | some e => e.port.toList
    | none => [0, 1]
  (out.filter (fun p => bridges s1 p g)).foldl (fun acc p => etherOut p ws corr acc) s1

/-! ### Order (R284) -/

/-- A frame reaches the local consumers; an empty one only holds a place in the order. -/
def consume (f : Frame) (s : State) : State :=
  if f.flits.isEmpty then s
  else match (hdrOf (f.flits.getD 0 0)).kind with
    | 0 => deliverData f s
    | 1 => deliverRecords f s
    | _ => s

/-- The hold time of a source: the largest difference between copies over the last 1 s, plus 2 us, at most 32.768 ms. -/
def holdTime (o : SrcOrder) (t : Time) : Nat :=
  min (32768 * usU) (((o.diffs.filter (fun d => decide (t < d.1 + secU))).map Prod.snd).foldl max 0 + 2 * usU)

/-- Deliver held frames that follow on without a gap. -/
def drainOrder (src : BitVec 16) : Nat → State → State
  | 0, s => s
  | n + 1, s =>
    match orderOf s src with
    | none => s
    | some o =>
      match o.held.find? (fun x => x.seq == o.next) with
      | none => s
      | some x =>
        drainOrder src n (consume x.frame (putOrder { o with
          next := (o.next + 1) % 65536, held := o.held.filter (fun y => y.seq != x.seq) } s))

/-- An accepted frame of TC1 to TC3 enters the order of its source (R284). -/
def inOrder (src : BitVec 16) (q : Nat) (f : Frame) (s : State) : State :=
  match orderOf s src with
  | none =>
    consume f (putOrder { src := src, next := (q + 1) % 65536, held := [], arrivals := [(q, s.now)], diffs := [],
                          gapAll := false, gapDone := [] } s)
  | some o =>
    let o1 := { o with arrivals := ((q, s.now) :: o.arrivals).filter (fun a => decide (s.now < a.2 + 33 * msU)) }
    let d := (q + 65536 - o.next) % 65536
    if d = 0 then
      drainOrder src o.held.length (consume f (putOrder { o1 with next := (o.next + 1) % 65536 } s))
    else if d < 32768 then
      putOrder { o1 with held := o1.held ++ [{ seq := q, arrived := s.now, frame := f }] } s
    else putOrder o1 s

/-- The second copy of a frame: the difference in arrival time (R284). -/
def noteSecond (src : BitVec 16) (q : Nat) (s : State) : State :=
  match orderOf s src with
  | none => s
  | some o =>
    match o.arrivals.find? (fun a => a.1 == q) with
    | none => s
    | some a => putOrder { o with
        arrivals := o.arrivals.filter (fun x => x.1 != q)
        diffs := (s.now, s.now - a.2) :: o.diffs.filter (fun d => decide (s.now < d.1 + secU)) } s

/-- A good copy of a dual-path frame for this node: kept once, then in order (R280, R281, R284). -/
def acceptDual (h : Hdr) (f : Frame) (s : State) : State :=
  let (ok, s1) := keepCopy false h.src h.seq s
  if !ok then noteSecond h.src h.seq s1
  else if h.tc = 0 then inOrder h.src h.seq { f with flits := [] } s1
  else inOrder h.src h.seq f s1

/-- Held frames whose hold has expired go on, and what is missing before them is lost (R284). -/
def expireHeld (src : BitVec 16) : Nat → State → State
  | 0, s => s
  | n + 1, s =>
    match orderOf s src with
    | none => s
    | some o =>
      let due := o.held.any (fun x => decide (x.arrived + holdTime o s.now ≤ s.now))
      let ahead := fun (q : Nat) => (q + 65536 - o.next) % 65536
      let first := o.held.foldl (fun acc x => match acc with
        | none => some x
        | some (y : HeldFrame) => if ahead x.seq < ahead y.seq then some x else acc) none
      match first with
      | none => s
      | some x =>
        if !due then s
        else
          let lost := ahead x.seq
          let s1 := modFab (fun y => { y with lost := y.lost + lost })
            (putOrder { o with next := x.seq, gapAll := o.gapAll || decide (0 < lost), gapDone := if 0 < lost then [] else o.gapDone } s)
          expireHeld src n (drainOrder src o.held.length s1)

/-- REORDER_HOLD_EXPIRY (R284). -/
def execReorderHoldExpiry (t : Time) (src : BitVec 16) (s0 : State) : Outcome :=
  let s := tick t s0
  match orderOf s src with
  | none => .next s
  | some o => .next (expireHeld src o.held.length s)

/-- SOURCE_FORGET (R281): 100 ms without a frame. -/
def execSourceForget (t : Time) (src : BitVec 16) (s0 : State) : Outcome :=
  let s := tick t s0
  let old := fun (w : DupWin) => w.src == src && decide (w.last + 100 * msU ≤ s.now)
  let gone := s.fab.wins.any (fun w => old w && !w.gate)
  .next (modFab (fun x => { x with
    wins := x.wins.filter (fun w => !old w)
    order := if gone then x.order.filter (fun o => o.src != src) else x.order }) s)

/-! ### Forwarding (R277 to R280, R291) -/

/-- A header flit that must not be followed (R271, R272, R275, R279, R437). -/
def headerBad (f : Frame) (h : Hdr) : Bool :=
  let w := f.flits.getD 0 0
  f.worn == some true || f.flits.isEmpty || hcrcOf w != w.setWidth 32 || decide (7 < h.tc) || !kindClassOk h.kind h.tc || fbit w 36 ||
    addrRing h.src == 63 || f.flits.length == 2 || h.lenM1 + 1 != f.flits.length

/-- The trailer of a frame, for one that has one. -/
def trailerOf (f : Frame) : Word := f.flits.getLastD 0

/-- The arriving trailer is stomped or fails its check (R273, R274); the payload's CRC fails, or a flit after the header cannot
be read from the buffer (R437). -/
def trailerBad (f : Frame) : Bool :=
  let w := trailerOf f
  f.flits.length != 1 && (fld w 32 8 != 0 || fld w 40 2 == 3 || fld w 48 8 != 0 || tchkOf w != BitVec.ofNat 8 (fld w 56 8))
def payloadBad (f : Frame) : Bool :=
  f.flits.length != 1 && (f.worn == some false || pcrcOf ((f.flits.drop 1).dropLast) != (trailerOf f).setWidth 32)

/-- The arriving trailer says that another node found the error. -/
def alreadyStomped (f : Frame) : Bool :=
  let w := trailerOf f
  tchkOf w == BitVec.ofNat 8 (fld w 56 8) && fld w 32 8 != 0

/-- Count a stomp; a node that finds the error itself raises the event at most once per second per port and class (R279). -/
def noteStomp (p c : Nat) (own : Bool) (s : State) : State :=
  let s1 := modFab (fun x => { x with stomps := x.stomps.modify c (· + 1) }) s
  if !own then s1
  else
    let i := 8 * p + c
    let n := s1.fab.stompSince.getD i 0 + 1
    let due := match s1.fab.stompEvent.getD i none with | some e => decide (e + secU ≤ s1.now) | none => true
    if due then
      emitNow 0x3201 p (c + min n (2 ^ 24 - 1) * 2 ^ 8) []
        (modFab (fun x => { x with stompSince := x.stompSince.set i 0, stompEvent := x.stompEvent.set i (some s1.now) }) s1)
    else modFab (fun x => { x with stompSince := x.stompSince.set i n }) s1

/-- The frame as it leaves on a port: `HOP_LIMIT` one lower, the trailer rewritten, `PCRC` untouched; a TIME frame gains its
link delay and residence, 1/256 ns (R204, R274, R277, R279). -/
def onward (f : Frame) (out : Nat) (bad : Bool) (gain : Int) (ring : Nat) : List Word :=
  let h := hdrOf (f.flits.getD 0 0)
  let h1 := { h with
    hop := h.hop - 1, xring := h.xring || out == 2
    westward := if out = 2 then h.westward else out == 1 }
  let h2 := if h.tc ≤ 3 then h1 else { h1 with westward := h.westward }
  if f.flits.length = 1 then [hdrWord h2]
  else
    let w := trailerOf f
    let dir := if h.tc ≤ 3 then (if out = 2 then fld w 40 2 else out) else fld w 40 2
    let res := if h.tc = 0 then asField ((fld w 64 64 : Int) + gain) 64 else fld w 64 64
    hdrWord h2 :: (f.flits.drop 1).dropLast ++ [trailerWord (w.setWidth 32) (if bad then 0xFF else fld w 32 8) dir ring res]

/-- Send a frame on by the ports named. -/
def passOn (f : Frame) (outs : List Nat) (bad : Bool) (gain : Int) (s : State) : State :=
  let c := (hdrOf (f.flits.getD 0 0)).tc
  outs.foldl (fun acc p =>
    toPort p c f.flits.length (portUp acc p) (fun _ => .forward p (containersOf c (onward f p bad gain acc.fab.ring))) acc) s

/-- Ring ports by which a frame goes on (R277, R290, R291): onward around the ring; from the coupling port both ways for a
dual-path frame, by the shortest way for another. -/
def ringOuts (s : State) (h : Hdr) (p : Nat) : List Nat :=
  if p = 2 then
    (if h.tc ≤ 3 then [0, 1] else match singlePort s h.dest with
      | some q => if q = 2 then [] else [q]
      | none => [])
  else [1 - p]

/-- The copy also crosses this node's coupling port: once per source and number, unless every earlier copy was stomped
(R291). -/
def crossNow (h : Hdr) (p : Nat) (bad : Bool) (s : State) : Bool × State :=
  if p = 2 || !crosses s h.dest then (false, s)
  else if 3 < h.tc then (true, s)
  else if bad then (!winHas s true h.src h.seq, s)
  else keepCopy true h.src h.seq s

/-- A good header is routed (R277, R279, R289, R291). -/
def routeFrame (f : Frame) (h : Hdr) (residence : Nat) (s : State) : State :=
  let p := f.port
  let bad := trailerBad f || payloadBad f
  let mine := ownRing s h.dest && addrPos h.dest == s.fab.pos.getD 1022
  let cast := h.dest == 0xFFFF#16 || (ownRing s h.dest && addrPos h.dest == 1023)
  let reserved := decide (1000 ≤ addrPos h.dest) && decide (addrPos h.dest < 1023)
  let home := h.src == myAddr s
  -- a stomp of a RECORDS or DATA frame for this node is noted where the frame is delivered
  let s1 := if bad && !((mine || cast) && h.kind ≤ 1) then noteStomp p h.tc (!alreadyStomped f) s else s
  -- a frame of another kind than RECORDS and DATA keeps its place in its source's order
  let s2 := if !bad && !home && decide (h.tc ≤ 3) && h.kind != 0 && h.kind != 1 && (mine || cast) then
      acceptDual h { f with flits := [] } s1
    else s1
  if reserved then countDiscardClass h.tc s1
  else if home || mine then s2
  else if h.hop = 0 then countDiscardClass h.tc s2
  else
    let (din, s3) := if h.tc = 0 then dIn s2 p (portRt s2 p) else (0, s2)
    let gain : Int := din / 2 ^ 40 + residence
    let (cr, s4) := crossNow h p bad s3
    let leaves := !cast && !ownRing s h.dest && isGateway s (addrRing h.dest) && p != 2
    passOn f ((if leaves then [] else ringOuts s4 h p) ++ (if cr then [2] else [])) bad gain s4

/-- FRAME_FORWARD (R271 to R280): a frame arrives on a port, or with port 3 this node originates it. `residence` in
1/256 ns. -/
def execFrameForward (t : Time) (f : Frame) (residence : Nat) (s0 : State) : Outcome :=
  let s := tick t s0
  let h := hdrOf (f.flits.getD 0 0)
  if !isUp s .xbar then .next (countDiscard s .xbar)
  else if f.port = 3 then
    let ws := (f.flits.drop 1).dropLast
    if 3 < h.tc then .next (sendSingle h.tc h.kind h.dest h.gen h.last ws s)
    else .next (originate { frameFor h.tc h.kind h.dest h.gen ws with last := h.last } s)
  else if 2 < f.port || !fabricLink s f.port || (portOf s f.port).looped || (portOf s f.port).refused then .next s
  else if headerBad f h then .next (modFab (fun x => { x with invalid := x.invalid + 1 }) s)
  else if h.link || (h.tc == 4 && h.kind != 5) then .next s
  else if s.fab.noAddress && h.tc != 4 then .next (countDiscardClass h.tc s)
  else .next (routeFrame f h residence s)

/-- The mirror target that a link-local RECORDS frame of a class feeds (R316): the lowest-numbered one of that class. -/
def mirrorTarget (s : State) (tc : Nat) : Option Nat :=
  (List.range 1024).find? (fun g =>
    let x := s.basin.segs.getD g default
    x.target && x.state != .unconfigured && 5 + x.mirrorTc == tc)

/-- Records of the neighbour's segment enter the mirror target; of another generation they are ignored and counted (R191), and
at L3 mirroring pauses, after which each address's next record carries `GAP_BEFORE` (R316). -/
def takeMirror (g gen : Nat) (node : BitVec 16) (ws : List Word) (s : State) : State :=
  let s1 := modSeg g (fun x => { x with lastMirror := some s.now }) s
  if gen != s.cfg.activeGen then
    ws.foldl (fun acc w => modRemote node (recAddr w) (fun x => { x with genIgnored := x.genIgnored + 1 }) acc) s1
  else if 3 ≤ s.therm.level then modSeg g (fun x => { x with gapAllBut := some [] }) s1
  else ws.foldl (fun acc w => arrive g { word := w, gen := gen, readable := true, node := some node, at_ := acc.now } acc) s1

/-- A mark in the mirror stream: the origin has frozen, or released, its segment at this word (R316). -/
def takeMark (g : Nat) (mark : Option Bool) (s : State) : State :=
  match mark with
  | none => s
  | some true => if segActive (segOf s g) && (segOf s g).state != .frozen then freezeNow g false s else s
  | some false => releaseSeg g s

/-- RECORDS_FRAME_RX (R14, R191, R280, R281, R284, R316): a frame addressed to this node has arrived whole. `mark` is a
freeze (true) or release that follows its last record in a mirror stream, whose coding the manual does not give. -/
def execRecordsFrameRx (t : Time) (f : Frame) (mark : Option Bool) (s0 : State) : Outcome :=
  let s := tick t s0
  let h := hdrOf (f.flits.getD 0 0)
  arriveAt .xbar s fun s =>
  if headerBad f h || h.kind != 1 then .next s
  else if trailerBad f || payloadBad f then .next (noteStomp (min f.port 2) h.tc (!alreadyStomped f) s)
  else if h.link then
    match mirrorTarget s h.tc with
    | some g => .next (takeMark g mark (takeMirror g h.gen h.src ((f.flits.drop 1).dropLast) s))
    | none => .next s
  else if h.tc = 2 then .next (acceptDual h f s)
  else .next (deliverRecords f s)

/-- DATA_FRAME_RX (R280, R281, R284, R296). -/
def execDataFrameRx (t : Time) (f : Frame) (s0 : State) : Outcome :=
  let s := tick t s0
  let h := hdrOf (f.flits.getD 0 0)
  arriveAt .xbar s fun s =>
  if headerBad f h || h.kind != 0 then .next s
  else if trailerBad f || payloadBad f then .next (noteStomp (min f.port 2) h.tc (!alreadyStomped f) s)
  else if h.tc = 1 then .next (acceptDual h f s)
  else .next s

/-! ### The limiter (R282, R283) -/

/-- ORIGINATION_HOLD_END (R282): 100 ms after an XBAR reset or QUIET the node may originate again. -/
def execOriginationHoldEnd (t : Time) (s0 : State) : Outcome :=
  let s := tick t s0
  .next (if s.fab.holdUntil ≤ s.now then releaseWaiting s.fab.waiting.length s else s)

/-- ORIGINATION_LIMIT_RELEASE (R283): the count has fallen below 1,000. -/
def execOriginationLimitRelease (t : Time) (s0 : State) : Outcome :=
  let s := tick t s0
  .next (releaseWaiting s.fab.waiting.length s)

/-- LIMITER_EXTENSION_END (R283): the count has stayed below 300 for 1 ms. -/
def execLimiterExtensionEnd (t : Time) (s0 : State) : Outcome :=
  let s := tick t s0
  let peaks := (s.now - msU) :: s.now :: s.fab.orig.filter (fun x => decide (s.now < x + msU))
  if peaks.all (fun x => decide (origCount s x < 300)) then .next (modFab (fun x => { x with extended := false }) s)
  else .next s

/-- Close the open live export frame of one queue (R275, R283): at most 16 records, 64 while extended, of one generation. It
waits in the queue while the node may not originate TC2 frames. -/
def closeExport (force : Bool) (g : Nat) (node : BitVec 16) (s : State) : State :=
  let q := queueOf s g (.export_ node)
  match q.recs with
  | [] => s
  | r :: _ =>
    let lim := if s.fab.extended then 64 else 16
    let after := if s.fab.extended then 20 * usU else 5 * usU
    let open_ := (q.recs.takeWhile (fun x => x.gen == r.gen)).take lim
    let due := force || open_.length == lim || open_.length < q.recs.length || decide (r.at_ + after ≤ s.now)
    let a := recAddr r.word
    let tc := if g = 9 then (match producerOf s.oper a with
        | some n => ((s.oper.getD n default).cfg.map (fun k => k.sub.exportTc)).getD 2
        | none => 2)
      else (addrOf s a).sub.exportTc
    if !due || !isUp s .xbar || (tc == 2 && !mayOriginate s) then s
    else
      let s1 := putQueue { q with recs := q.recs.drop open_.length } s
      let ws := open_.map (fun x => x.word)
      if tc = 2 then originate (frameFor 2 1 node r.gen ws) s1 else sendSingle tc 1 node r.gen true ws s1

/-- The nodes that a group's queues export to. -/
def exportNodes (s : State) (g : Nat) : List (BitVec 16) :=
  s.daq.queues.filterMap (fun q => match q.dest with
    | .export_ n => if q.group = g then some n else none
    | _ => none)

/-- EXPORT_FRAME_CLOSE (R275): groups 0 to 7, 8 received records, 9 operator outputs. -/
def execExportFrameClose (t : Time) (g : Fin 10) (s0 : State) : Outcome :=
  let s := tick t s0
  .next ((exportNodes s g.val).foldl (fun acc n => closeExport false g.val n acc) s)

/-! ### Adjacency (R285, R292, R293) -/

/-- HELLO_RX (R285, R292); slots that have changed use at a cycle boundary may have left the port without a fabric link. -/
def execHelloRx (t : Time) (port : Fin 3) (uid heard : BitVec 64) (sameRing : Bool) (s0 : State) : Outcome :=
  let s := checkLink port.val (tick t s0)
  let p := port.val
  let x := portOf s p
  if !fabricLink s p then .next s
  else if uid = s.fuseShadow.uid then
    let s1 := leaveAdjacent p s
    let s2 := if x.looped then s1 else emitNow 0x3203 0 p [] s1
    .next (modPort p (fun x => { x with looped := true, lastHello := some s.now }) s2)
  else if p = 2 && sameRing then
    let s1 := leaveAdjacent p s
    let s2 := if x.refused then s1 else emitNow 0x3203 1 p [] s1
    .next (modPort p (fun x => { x with refused := true, neigh := some uid, lastHello := some s.now }) s2)
  else
    let s1 := if x.neigh.isSome && x.neigh != some uid then leaveAdjacent p s else s
    let s2 := modPort p (fun x => { x with looped := false, refused := false, neigh := some uid, lastHello := some s.now }) s1
    if heard == s.fuseShadow.uid && !(portOf s2 p).adjacent then
      .next (portChange p true (modPort p (fun x => { x with adjacent := true }) s2))
    else .next s2

/-- An interval of 1 ms has passed since an instant. -/
def msPassed (last : Option Time) (n : Nat) (s : State) : Bool :=
  match last with
  | some l => decide (l + n * msU ≤ s.now)
  | none => true

/-- HELLO_TX (R285). -/
def execHelloTx (t : Time) (port : Fin 3) (s0 : State) : Outcome :=
  let s := checkLink port.val (tick t s0)
  let p := port.val
  if !fabricLink s p || !msPassed (portOf s p).lastSent 1 s then .next s
  else .next (modPort p (fun x => { x with lastSent := some s.now })
    (sendEnum p (enumWords 0 0 0 0 0 0 p s.fuseShadow.uid ((portOf s p).neigh.getD 0)) s))

/-- ADJACENCY_TIMEOUT (R285): three intervals without a HELLO. -/
def execAdjacencyTimeout (t : Time) (port : Fin 3) (s0 : State) : Outcome :=
  let s := checkLink port.val (tick t s0)
  .next (if (portOf s port.val).adjacent && msPassed (portOf s port.val).lastHello 3 s then leaveAdjacent port.val s else s)

/-! ### The ring generation (R302, R303) -/

/-- Beacons heard in the last 300 ms. -/
def heardBeacons (s : State) : List Beacon :=
  (s.cfg.beacons.filter (fun h => decide (s.now ≤ h.at_ + 300 * msU))).map (·.beacon)

/-- digest64: the first 8 bytes of a digest (R297). -/
def digest64Of (d : BitVec 256) : BitVec 64 := d.setWidth 64

/-- This node's active generation and digest64. -/
def ownGen (s : State) : Nat × BitVec 64 := (s.cfg.activeGen, digest64Of s.cfg.activeDigest)

/-- The generation and digest that most nodes hold, the anchor's own when counts tie (R302). -/
def ringGenOf (s : State) : Nat × BitVec 64 :=
  let all := ownGen s :: ((heardBeacons s).filter (fun b => b.node != myAddr s)).map (fun b => (b.activeGen.toNat, b.activeDigest))
  let votes := fun (g : Nat × BitVec 64) => (all.filter (· == g)).length
  all.foldl (fun best g => if votes best < votes g then g else best) (ownGen s)

/-- The active generation or digest differs from the ring generation, since when (R303). -/
def noteDivergence (s : State) : State :=
  match s.fab.ringGen with
  | some g =>
    if g == ownGen s then { s with cfg := { s.cfg with divergedSince := none } }
    else { s with cfg := { s.cfg with divergedSince := some (s.cfg.divergedSince.getD s.now) } }
  | none => s

/-! ### Tokens (R286 to R288) -/

/-- The next run of a position given by tokens of one direction. -/
def runStep (r : PosRun) (pos : Nat) : PosRun := if r.pos = pos ∧ 0 < r.run then { pos := pos, run := r.run + 1 } else { pos := pos, run := 1 }

/-- The node takes a new position that three consecutive tokens gave, with the position event; one beyond 999 is no address
(R287). -/
def takePos (r : PosRun) (s : State) : State :=
  if r.run < 3 || s.fab.pos == some r.pos then s
  else if 999 < r.pos then
    let s1 := modFab (fun x => { x with noAddress := true, pos := none }) s
    if s.fab.noAddress then s1 else emitNow 0x3204 0 0 [] s1
  else
    let s1 := modFab (fun x => { x with pos := some r.pos, noAddress := false }) s
    emitNow 0x3202 0 ((myAddr s).toNat + (myAddr s1).toNat * 2 ^ 16) [] s1

/-- TOKEN_RX (R287, R288, R302): an eastward token arrives on WEST, a westward one on EAST. -/
def execTokenRx (t : Time) (port : Fin 2) (payload1 payload2 : Word) (s0 : State) : Outcome :=
  let s := tick t s0
  let east := port.val == 1
  let pos := fld payload1 5 10
  let uid := BitVec.ofNat 64 (fld payload1 64 64)
  let primary := !fbit payload1 4
  if !portUp s port.val || fld payload1 0 4 != 1 || fld payload1 49 15 != 0 || decide (62 < fld payload1 25 6) then .next s
  else if uid == s.fuseShadow.uid then
    -- this node's own token has come round
    if !s.fab.anchorActive || !east then .next s
    else
      let r := runStep s.fab.closure (pos + 1)
      .next (modFab (fun x => { x with closure := r, n := if 3 ≤ r.run then some r.pos else x.n }) s)
  else if s.fab.anchorActive && (s.fab.role == .primary || !primary) then .next s
  else
    let n := fld payload1 15 10
    let newAnchor := s.fab.anchorUid != uid
    let s1 := modFab (fun x => { x with
      anchorActive := false
      anchorUid := uid
      anchorPos := if primary then 0 else if newAnchor then Config.freeNat s.free % 1000 else x.anchorPos
      lastToken := some s.now
      lastPrimary := if primary then some s.now else x.lastPrimary
      ring := fld payload1 25 6
      n := if n = 0 then none else some n
      ringGen := some (fld payload1 31 16, BitVec.ofNat 64 (fld payload2 0 64)) }) { s with free := s.free + 1 }
    if !east && n = 0 then .next (noteDivergence s1)
    else
      let cand := if east then pos + 1 else (pos + n - 1) % n
      let r := runStep (if east then s1.fab.eastRun else s1.fab.westRun) cand
      let s2 := takePos r (modFab (fun x => if east then { x with eastRun := r } else { x with westRun := r }) s1)
      let out := 1 - port.val
      let w1 := BitVec.ofNat 128 (payload1.toNat - pos * 2 ^ 5 + min cand 1023 * 2 ^ 5)
      .next (noteDivergence (if fabricLink s2 out then sendEnum out [w1, payload2] s2 else s2))

/-- TOKEN_TX (R287, R302): every 1 ms the active anchor sends a TOKEN on each port. -/
def execTokenTx (t : Time) (s0 : State) : Outcome :=
  let s := tick t s0
  if !s.fab.anchorActive || !isUp s .xbar || !msPassed s.fab.lastTokenTx 1 s then .next s
  else
    let g := ringGenOf s
    let ws := enumWords 1 (b2n (s.fab.role == .secondary)) (s.fab.pos.getD 0) (s.fab.n.getD 0) s.fab.ring g.1 0
      s.fuseShadow.uid g.2
    let s1 := modFab (fun x => { x with lastTokenTx := some s.now, ringGen := some g }) s
    .next (noteDivergence ([0, 1].foldl (fun acc p => if portUp acc p then sendEnum p ws acc else acc) s1))

/-- SECONDARY_ANCHOR_TAKEOVER (R288): 10 ms without a primary token. A node that has never had a position sends a free one. -/
def execSecondaryAnchorTakeover (t : Time) (s0 : State) : Outcome :=
  let s := tick t s0
  if s.fab.role != .secondary || s.fab.anchorActive || !isUp s .xbar || !msPassed s.fab.lastPrimary 10 s then .next s
  else
    let q := s.fab.pos.getD (Config.freeNat s.free % 1000)
    .next (modFab (fun x => { x with
      anchorActive := true, anchorUid := s.fuseShadow.uid, anchorPos := q, pos := some q
      closure := { pos := 0, run := 0 } }) { s with free := s.free + 1 })

/-- LINK_STATE_RX (R293): the break is recorded or cleared, and the report goes on around the ring. -/
def execLinkStateRx (t : Time) (port : Fin 2) (up : Bool) (pos : Fin 1024) (brokenPort : Fin 3) (s0 : State) : Outcome :=
  let s := tick t s0
  if !portUp s port.val then .next s
  else
    let s1 := match breakAt s.fab.n pos.val brokenPort.val with
      | some b => noteBreak up b s
      | none => s
    let out := 1 - port.val
    if fabricLink s1 out && s.fab.pos != some pos.val then
      .next (sendEnum out (enumWords (if up then 3 else 2) 0 pos.val 0 0 0 brokenPort.val 0 0) s1)
    else .next s1

/-! ### Beacons (R299) -/

/-- No anchor is active in the node's segment: no token for 10 ms (R288, R294). -/
def unanchored (s : State) : Bool := !s.fab.anchorActive && msPassed s.fab.lastToken 10 s

/-- Words 1 to 3 of *Beacon payload* (R299). -/
def beaconWords (s : State) : List Word :=
  let st := s.cfg.staged
  let failedCh := (s.daq.chans.filter (·.failed)).length
  let badLanes := (s.line.lanes.flatten.filter (fun l => l.degraded || l.state == .failed)).length
  let w3 := match s.cfg.armed with
    | some c => mkWord [(0, 96, t96 c.time), (96, 16, c.gen)]
    | none => 0
  [mkWord [(0, 16, s.cfg.activeGen), (16, 16, (st.map (·.gen)).getD 0), (32, 1, b2n st.isSome),
      (33, 1, b2n s.cfg.armed.isSome), (34, 3, s.cfg.lastResult), (64, 64, (digest64Of s.cfg.activeDigest).toNat)],
    mkWord [(0, 64, ((st.map (fun i => digest64Of i.digest)).getD 0).toNat), (64, 1, b2n s.mgmt.lost), (65, 2, tbState s),
      (67, 2, s.therm.level), (69, 1, b2n s.pwr.sagWarn), (70, 1, b2n (unanchored s)), (71, 8, min failedCh 255),
      (79, 8, min badLanes 255)], w3]

/-- This node's own beacon, as its neighbours read it. -/
def ownBeacon (s : State) : Beacon :=
  let ws := beaconWords s
  let w1 := ws.getD 0 0
  let w2 := ws.getD 1 0
  let w3 := ws.getD 2 0
  { node := myAddr s, activeGen := BitVec.ofNat 16 (fld w1 0 16), stagedGen := BitVec.ofNat 16 (fld w1 16 16),
    staged := fbit w1 32, armed := fbit w1 33, lastResult := fld w1 34 3, activeDigest := BitVec.ofNat 64 (fld w1 64 64),
    stagedDigest := BitVec.ofNat 64 (fld w2 0 64), word2 := w2, commitTime := BitVec.ofNat 96 (fld w3 0 96),
    commitGen := BitVec.ofNat 16 (fld w3 96 16) }

/-- BEACON_TX (R299): every 100 ms, in both directions, to the ring broadcast. -/
def execBeaconTx (t : Time) (s0 : State) : Outcome :=
  let s := tick t s0
  if !isUp s .xbar || !msPassed s.cfg.lastBeacon 100 s then .next s
  else
    let s1 := { s with cfg := { s.cfg with lastBeacon := some s.now } }
    let dest := BitVec.ofNat 16 (s.fab.ring * 1024 + 1023)
    .next ([0, 1].foldl (fun acc p =>
      if portUp acc p then sendNext p 4 5 true dest false s.cfg.activeGen (beaconWords s) acc else acc) s1)

/-- BEACON_RX (R299, R302): the view of the ring's nodes is renewed. -/
def execBeaconRx (t : Time) (b : Beacon) (s0 : State) : Outcome :=
  let s := tick t s0
  arriveAt .xbar s fun s =>
  if b.node == myAddr s then .next s
  else .next { s with cfg := { s.cfg with
    beacons := upsert s.cfg.beacons (fun h => h.beacon.node == b.node) { beacon := b, at_ := s.now } } }

/-! ### FAB commands -/

/-- Positions of the ring that no direction reaches (R290, R294). While N is unknown, only positions that a beacon has named
are judged. -/
def unreachablePos (s : State) (p : Nat) : Bool :=
  let exists_ := match s.fab.n with
    | some n => decide (p < n)
    | none => s.cfg.beacons.any (fun h => ownRing s h.beacon.node && addrPos h.beacon.node == p)
  exists_ && s.fab.pos != some p && (chooseDir s p).isNone

/-- FAB.STATUS's own part (R294). -/
def ownFabStatus (_rq : Request) (s : State) : Reply :=
  let f := s.fab
  let role := match f.role with | .none => 0 | .primary => 1 | .secondary => 2
  let adj := (List.range 3).foldl (fun acc p => acc + b2n (portOf s p).adjacent * 2 ^ p) 0
  let looped := f.ports.any (·.looped)
  let brk := (f.breaks.take 5).mapIdx (fun i b => (20 * i + 4, 20, b.west + b.east * 2 ^ 10))
  okay ([snap s,
      mkWord [(0, 16, (myAddr s).toNat), (16, 10, f.n.getD 0), (26, 2, role), (28, 1, b2n f.anchorActive),
        (29, 10, f.anchorPos), (39, 3, adj), (42, 1, b2n looped), (43, 1, b2n (unanchored s)), (44, 1, b2n f.noAddress),
        (64, 64, f.anchorUid.toNat)],
      mkWord ((0, 4, min f.breaks.length 15) :: brk)] ++
    (List.range 8).map (fun w => mkWord ((List.range 128).map (fun b => (b, 1, b2n (unreachablePos s (128 * w + b)))))) ++
    (List.range 8).map (fun c => mkWord [(0, 64, f.stomps.getD c 0), (64, 64, f.discards.getD c 0)]) ++
    [mkWord [(0, 64, f.duplicates), (64, 64, f.lost)]]) s

/-- FAB.STATUS (0x3201). -/
def execFabStatus (t : Time) (rq : Request) (s : State) : Outcome := command 0x3201 (lenIs 0) ownFabStatus t rq s

/-- FAB.PROBE's own part (R271, R289, R290): a header-only MGMT_REQ; `answer` is the round trip and the hops of its answer. -/
def ownFabProbe (ans : Option (Nat × Nat)) (rq : Request) (s : State) : Reply :=
  let q := qword rq 1
  let dest := BitVec.ofNat 16 (fld q 0 16)
  guarded [(!onlyBits q [(0, 16)] || decide (1000 ≤ addrPos dest), stBadParam), (!routedTo dest s, stUnreachable)] s
    (fun _ =>
      let s1 := originate (frameFor 3 2 dest s.cfg.activeGen []) s
      match ans with
      | none => deny stTimeout s1
      | some (rtt, hops) => okay [snap s1, mkWord [(0, 64, rtt), (64, 10, hops)]] s1)

/-- FAB.PROBE (0x3202). -/
def execFabProbe (t : Time) (rq : Request) (answer : Option (Nat × Nat)) (s : State) : Outcome :=
  command 0x3202 (lenIs 1) (ownFabProbe answer) t rq s

end Sys2Proof.Machine
end

