-- ==== Sys2Proof/Machine/Ethm.lean ====
section
/-! DEFINITION. ETHM0 and ETHM1: bridging into TC1 (R295, R296) and the ETHM commands (R208, R370). -/

namespace Sys2Proof.Machine

/-- Payload word 1 of a bridged DATA frame (R296): length, group, ingress port, PTP event mark, T96 ingress time. -/
def bridgeWord (bytes g p : Nat) (ptp : Bool) (tb : Nat) : Word :=
  mkWord [(0, 16, bytes), (16, 4, g), (20, 1, p), (21, 1, b2n ptp), (32, 96, t96 tb)]

/-- Where a bridged frame goes over the fabric (R296): the node that learned the address, else the group's scope. -/
def bridgeDest (s : State) (g : Nat) (dst : BitVec 48) (fabric : Bool) : BitVec 16 :=
  let scope := if fabric then 0xFFFF#16 else BitVec.ofNat 16 (s.fab.ring * 1024 + 1023)
  if isMulticast dst then scope
  else match macFind s g dst with
    | some e => e.node
    | none => scope

/-- A frame accepted on a bridging port goes out of the other port of its group and over the fabric, as its destination asks
(R296); beyond 256 KiB waiting on the port it is discarded and counted (R283). -/
def bridgeFrame (p bytes : Nat) (ptp : Bool) (ws : List Word) (fabric : Bool) (s : State) : State :=
  let g := (ethOf s p).group
  let dst := macAt ws 0
  let s1 := learnMac g (macAt ws 6) (myAddr s) (some p) s
  let known := if isMulticast dst then none else macFind s1 g dst
  let local_ := match known with
    | some e => e.port == some (1 - p)
    | none => true
  let s2 := if local_ && bridges s1 (1 - p) g then etherOut (1 - p) ws 0 s1 else s1
  if known.any (fun e => e.port.isSome) then s2
  else
    let w : WaitFrame := { cls := 1, ftype := 0, dest := bridgeDest s2 g dst fabric, gen := s2.cfg.activeGen, last := true,
                           words := bridgeWord bytes g p ptp (tbNow s2) :: ws, port := p, bytes := bytes }
    let waits := !(mayOriginate s2) || s2.fab.waiting.any (fun x => x.cls == 1)
    if waits && decide (262144 < (ethOf s2 p).queued + bytes) then
      countDiscardClass 1 (modEth p (fun e => { e with queueDiscards := satAdd 64 e.queueDiscards 1 }) s2)
    else originate w (if waits then modEth p (fun e => { e with queued := e.queued + bytes }) s2 else s2)

/-- ETHM_FRAME_RX (R295, R296, R208): on a bridging port, good frames of 64 to 8,144 bytes are bridged, PAUSE is consumed,
the rest is discarded and counted. PTP event messages are the port's own unless it is OFF or a transparent clock. -/
def execEthmFrameRx (t : Time) (port : Fin 2) (bytes : Nat) (fcsOk pause ptpEvent : Bool) (words : List Word) (s0 : State) :
    Outcome :=
  let s := tick t s0
  let p := port.val
  let e := ethOf s p
  let role := (s.time.ptp.getD p default).role
  if !isUp s .ethm || !e.enable || !e.link || !loopFree s (3 + p) then .next s
  else
    let s1 := modEth p (fun e => { e with framesIn := satAdd 64 e.framesIn 1 }) s
    let drop := modEth p (fun e => { e with fcsDiscards := satAdd 64 e.fcsDiscards 1 }) s1
    if !e.bridge then .next s1
    else if !fcsOk || bytes < 64 || 8144 < bytes then .next drop
    else if pause then .next s1
    else if ptpEvent && (role == 1 || role == 2) then .next s1
    else match s.eth.groups.getD e.group none with
      | none => .next drop
      | some fabric => .next (bridgeFrame p bytes (ptpEvent && role == 3) words fabric s1)

/-- ETHM_LINK_CHANGE (R381). -/
def execEthmLinkChange (t : Time) (port : Fin 2) (up : Bool) (s0 : State) : Outcome :=
  let s := tick t s0
  let e := ethOf s port.val
  if !isUp s .ethm || (up && !e.enable) || e.link == up then .next s
  else .next (emitNow 0x3301 port.val (b2n up) [] (modEth port.val (fun e => { e with link := up }) s))

/-- MAC_AGEING (R296): 300 s without refresh. -/
def execMacAgeing (t : Time) (group : Fin 16) (mac : BitVec 48) (s0 : State) : Outcome :=
  let s := tick t s0
  .next { s with eth := { s.eth with macs := s.eth.macs.filter (fun e =>
    !(e.group == group.val && e.mac == mac && decide (e.seen + 300 * secU ≤ s.now))) } }

/-- The port's enable and rate change; a port switched off loses its link. -/
def ethSet (p : Nat) (enable slow : Bool) (s : State) : State :=
  let s1 := modEth p (fun e => { e with enable := enable, slow := slow }) s
  if !enable && (ethOf s p).link then emitNow 0x3301 p 0 [] (modEth p (fun e => { e with link := false }) s1) else s1

/-- ETHM.CONFIG's own part (R370). -/
def ownEthmConfig (rq : Request) (s : State) : Reply :=
  let q := qword rq 1
  let p := fld q 0 1
  let e := ethOf s p
  guarded [(!onlyBits q [(0, 5)], stBadParam)] s (fun _ =>
    okay [] (ethSet p (if fbit q 3 then fbit q 1 else e.enable) (if fbit q 4 then fbit q 2 else e.slow) s))

/-- ETHM.CONFIG (0x3301). -/
def execEthmConfig (t : Time) (rq : Request) (s : State) : Outcome := command 0x3301 (lenIs 1) ownEthmConfig t rq s

/-- `ETHM.PTP_CONFIG` Q1 is in form: the message rates of *PTP features*, and a port setting that exists (R208). -/
def ptpWordOk (q : Word) : Bool :=
  let rate := fun (lo : Nat) (a b : Int) => decide (a ≤ sfld q lo 4) && decide (sfld q lo 4 ≤ b)
  onlyBits q [(0, 84), (96, 32)] && rate 14 (-8) 0 && rate 18 (-3) 4 && rate 22 (-8) 0 && fld q 26 2 != 3

/-- The PTP side of a port takes the settings of the word; its master's data and delay start anew (R208, R209). -/
def setPtp (q : Word) (s : State) : State :=
  let p := fld q 0 1
  let s1 := modPtp p (fun x => { x with
    role := fld q 1 2, transport := fld q 3 1, delayMech := fld q 4 1, twoStep := fbit q 5, domainNumber := fld q 6 8
    logSync := sfld q 14 4, logAnnounce := sfld q 18 4, logDelay := sfld q 22 4
    masterOnly := fld q 26 2 == 1, slaveOnly := fld q 26 2 == 2
    prio1 := fld q 44 8, prio2 := fld q 52 8, classLocked := fld q 60 8, classHoldover := fld q 68 8
    classUncertain := fld q 76 8, gm := none, gmRank := 0, syncWaits := none, roundTrip := none }) s
  modEth p (fun e => { e with
    vlan := fbit q 28, vid := fld q 29 12, pcp := fld q 41 3, ipv4 := BitVec.ofNat 32 (fld q 96 32) }) s1

/-- ETHM.PTP_CONFIG's own part (R208). -/
def ownEthmPtpConfig (rq : Request) (s : State) : Reply :=
  let q := qword rq 1
  guarded [(!ptpWordOk q, stBadParam)] s (fun _ => okay [] (setPtp q s))

/-- ETHM.PTP_CONFIG (0x3302). -/
def execEthmPtpConfig (t : Time) (rq : Request) (s : State) : Outcome := command 0x3302 (lenIs 1) ownEthmPtpConfig t rq s

/-- portState of IEEE 1588-2019: 3 DISABLED, 4 LISTENING, 6 MASTER, 8 UNCALIBRATED, 9 SLAVE; a transparent clock has none,
and a free value stands for it (PRESUMED). -/
def ptpState (s : State) (p : Nat) : Nat :=
  let x := s.time.ptp.getD p default
  match x.role with
  | 0 => 3
  | 1 => if x.gm.isNone then 4 else if (ptpDom s p).any (fun d => (domOf s d).state == .locked) then 9 else 8
  | 2 => 6
  | _ => 1 + Config.freeNat s.free % 9

/-- ETHM.STATUS's own part (R208). A port without a master names this node's own identity (PRESUMED). -/
def ownEthmStatus (rq : Request) (s : State) : Reply :=
  let q := qword rq 1
  let p := fld q 0 1
  let e := ethOf s p
  let x := s.time.ptp.getD p default
  guarded [(!onlyBits q [(0, 1)], stBadParam)] s (fun _ => okay
    [snap s,
      mkWord [(0, 1, b2n e.link), (1, 1, b2n e.slow), (2, 1, b2n e.bridge), (3, 4, e.group), (7, 4, ptpState s p),
        (64, 64, (x.gm.getD s.fuseShadow.uid).toNat)],
      mkWord [(0, 64, e.framesIn), (64, 64, e.framesOut)],
      mkWord [(0, 64, e.fcsDiscards), (64, 64, e.queueDiscards)],
      mkWord [(0, 32, x.otherDomain), (32, 32, x.negotiation), (64, 32, x.altTimescale), (96, 32, x.management)],
      mkWord [(0, 64, asField ((x.roundTrip.getD 0) / 2) 64),
        (64, 16, (s.eth.macs.filter (fun m => m.group == e.group)).length)]]
    { s with free := s.free + 1 })

/-- ETHM.STATUS (0x3303). -/
def execEthmStatus (t : Time) (rq : Request) (s : State) : Outcome := command 0x3303 (lenIs 1) ownEthmStatus t rq s

end Sys2Proof.Machine
end

