-- ==== Sys2Proof/Machine/Resets.lean ====
section
/-! DEFINITION. The loss of everything volatile that SAG, RESET_N, thermal shutdown and HIBERNATE share (R445, R446, R459),
and the thermal rows of AON (R421, R422). -/

namespace Sys2Proof.Machine

/-- Everything volatile is lost: what stays are the queue of commands, the NV store, the fuses with the shadow copy of the
last start, the AON records, the hard classifications since the last POR (R434), and what the block has put out (R445, R446,
R459). AON stops loading its seconds (R449). -/
def powerCut (s : State) : State :=
  { State.reset with
    pending := s.pending, now := s.now, free := s.free, nv := s.nv, fuses := s.fuses, fuseShadow := s.fuseShadow
    line := Reset.line s.fuseShadow.laneCap
    mems := s.mems.map (fun m => { Reset.mem with hardWords := m.hardWords })
    aon := { s.aon with loading := false }, out := s.out }

/-- Change AON. -/
def modAon (f : AonSt → AonSt) (s : State) : State := { s with aon := f s.aon }

/-- AON's coarse seconds now, to whole seconds of its own count; since the last load the count departs from the time elapsed
by at most 500 ppm plus 1 s (R449). -/
def coarseNow (s : State) : Nat × State :=
  if s.aon.fromPor then (0, s)
  else
    let el := (s.now - s.aon.coarseAt) / secU
    if s.aon.loading then (s.aon.coarse + el, s)
    else
      let b := el * 500 / 1000000 + 1
      let r := drawNat s
      (s.aon.coarse + el + r.1 % (2 * b + 1) - b, r.2)

/-- A thermal shutdown: every island except AON loses clock and power, and AON records the cause (R421). -/
def thermalShutdown (s : State) : State :=
  modAon (fun a => { a with
    resetCause := 4, shutdowns := s.now :: a.shutdowns, thermalOff := true, startDue := false })
    { powerCut s with pwr := { Reset.pwr with resetNLow := s.pwr.resetNLow, supplyHold := false } }

/-- Three thermal shutdowns within 1 h (R422). -/
def shutdownLimit (l : List Time) : Bool :=
  match l with
  | a :: _ :: c :: _ => decide (a ≤ c + 3600 * secU)
  | _ => false

/-- AON_THERMAL_TRIP (R422): AON's own comparator causes the same shutdown. -/
def execAonThermalTrip (t : Time) (s0 : State) : Outcome :=
  let s := tick t s0
  if s.aon.thermalOff then .next s else .next (thermalShutdown s)

/-- THERMAL_RESTART (R422): AON restarts the device as a cold start, unless 3 shutdowns fell within 1 h. -/
def execThermalRestart (t : Time) (s0 : State) : Outcome :=
  let s := tick t s0
  if s.aon.thermalOff && !shutdownLimit s.aon.shutdowns then
    .next (modAon (fun a => { a with thermalOff := false, startDue := true }) s)
  else .next s

end Sys2Proof.Machine
end

