-- ==== Sys2Proof/Machine/Power.lean ====
section
/-! DEFINITION. Operating points: the raise and lowering sequences and the VCTL regulator (R398 to R403, R379). -/

namespace Sys2Proof.Machine

/-- Change PWR. -/
def modPwr (f : PwrSt → PwrSt) (s : State) : State := { s with pwr := f s.pwr }

/-- VCTL setpoint of an operating point, mV (R398). -/
def opMv (op : Nat) : Nat := [900, 820, 750, 700].getD op 700

/-- The setpoint to which the VCTL sag thresholds belong, mV: the lower of those between which VCTL may be moving, and that of
OP3 until VCTL has verified (R400, R402, R407). -/
def vctlBase (s : State) : Nat :=
  if !s.pwr.vctlConfirmed then 700
  else match s.pwr.change with
    | none => s.pwr.vctlMv
    | some c => min c.fromMv (opMv c.target)

/-- VCTL thresholds in 1/100 mV: warning 95 %, reset 91 %, clearing 96 % of the setpoint (R398, R405). -/
def vctlWarn (s : State) : Nat := 95 * vctlBase s
def vctlReset (s : State) : Nat := 91 * vctlBase s
def vctlClear (s : State) : Nat := 96 * vctlBase s

/-- The reading lies from −1 % to +3 % of the setpoint (R399). -/
def vctlPasses (mv reading : Nat) : Bool := decide (99 * mv ≤ 100 * reading) && decide (100 * reading ≤ 103 * mv)

/-- Put an operating point into force: the divider of PLL_SYS changes, and the operator budget with it (R398, R324). -/
def setOp (op : Nat) (s : State) : State := opRefresh (modPwr (fun p => { p with op := op }) s)

/-- Begin a change (R399): a raise asks for the new setpoint first; a lowering changes the divider at once. -/
def startChange (target : Nat) (s : State) : State :=
  let c : AvsChange :=
    { target := target, fromOp := s.pwr.op, fromMv := s.pwr.vctlMv, toMv := opMv target, tries := 0, since := s.now }
  modPwr (fun p => { p with change := some c, opWanted := none }) (if s.pwr.op < target then setOp target s else s)

/-- Nothing is left to change towards an operating point. -/
def opInForce (target : Nat) (s : State) : Bool :=
  s.pwr.change.isNone && s.pwr.op == target && s.pwr.vctlMv == opMv target && s.pwr.vctlConfirmed

/-- The device's own change to an operating point, now or when the change in progress or the warning ends (R401, R420). -/
def wantOp (target : Nat) (s : State) : State :=
  if s.pwr.change.isSome || s.pwr.sagWarn then modPwr (fun p => { p with opWanted := some target }) s
  else if opInForce target s then modPwr (fun p => { p with opWanted := none }) s
  else startChange target s

/-- A change that waited begins (R401). -/
def opNext (s : State) : State :=
  match s.pwr.opWanted with
  | none => s
  | some target => wantOp target s

/-- The previous setpoint is written back; the step is not done (R399, R401). -/
def writeBack (c : AvsChange) (s : State) : State :=
  modPwr (fun p => { p with change := some { c with toMv := c.fromMv, tries := 1, since := s.now } }) s

/-- Steps of a change that are done before its voltage step: the divider of a lowering (R379, R399). -/
def doneBefore (c : AvsChange) : Nat := if c.target < c.fromOp then 0 else 1

/-- VCTL_VERIFY (R399, R400): the regulator has acknowledged and the reading judges the setpoint asked for. A passing reading
ends the voltage step; the raise then changes the divider. -/
def execVctlVerify (t : Time) (readingMv : Nat) (s0 : State) : Outcome :=
  let s := tick t s0
  match s.pwr.change with
  | none => .next s
  | some c =>
    if !vctlPasses c.toMv readingMv then .next s
    else
      let s1 := modPwr (fun p => { p with change := none, vctlMv := c.toMv, vctlConfirmed := true }) s
      if c.tries = 0 then
        .next (opNext (endHolder .op stOk 2 (emitNow 0x5102 c.target c.fromOp [] (setOp c.target s1))))
      else .next (opNext (endHolder .op stSupplyLimit (doneBefore c) s1))

/-- AVS_TIMEOUT (R399): no acknowledgement or passing reading within 1 ms of the write. The previous setpoint is written back
and verified in the same way; when that fails too, the command ends. -/
def execAvsTimeout (t : Time) (s0 : State) : Outcome :=
  let s := tick t s0
  match s.pwr.change with
  | none => .next s
  | some c =>
    if s.now < c.since + msU then .next s
    else if c.tries = 0 then .next (writeBack c s)
    else .next (opNext (endHolder .op stSupplyLimit (doneBefore c)
      (modPwr (fun p => { p with change := none, vctlMv := c.fromMv }) s)))

/-- A sag warning stops a change (R401): the previous setpoint is written back and the command ends with `SUPPLY_LIMIT`; a
change of the device itself is tried again when the warning clears. -/
def sagStopsChange (s : State) : State :=
  match s.pwr.change with
  | none => s
  | some c =>
    if c.tries ≠ 0 then s
    else if (holderOf s .op).isSome then endHolder .op stSupplyLimit (doneBefore c) (writeBack c s)
    else modPwr (fun p => { p with opWanted := some c.target }) (writeBack c s)

/-! ### Commands -/

/-- PWR.SET_OP (R379, R399). While level L1 is in force, the operating point set here is the one to which the device returns
when L1 is lifted (R418). -/
def ownPwrSetOp (rq : Request) (s : State) : Reply :=
  let q := qword rq 1
  let op := fld q 0 2
  guarded [(!onlyBits q [(0, 2)], stBadParam), (isHeld s .op || s.pwr.change.isSome, stBusy),
    (decide (op < 2) && decide (1 ≤ s.therm.level), stThermalLimit), (s.pwr.sagWarn, stSupplyLimit)] s (fun _ =>
    let s1 := if 1 ≤ s.therm.level then modPwr (fun p => { p with opBeforeL1 := some op }) s else s
    if opInForce op s1 then okaySteps 2 [] s1 else begun 2 [.op] (startChange op s1))

/-- PWR_SET_OP. -/
def execPwrSetOp (t : Time) (rq : Request) (s : State) : Outcome := commandSupply 0x5101 (lenIs 1) ownPwrSetOp t rq s

/-- The operating point of an image: applied by the same sequence, without a wait (R384, R402, R459); above OP2 at L1 it waits
until L1 is lifted (R417, R418). -/
def imageOp (op : Nat) (s : State) : State :=
  if 1 ≤ s.therm.level then
    let s1 := modPwr (fun p => { p with opBeforeL1 := some op }) s
    if op < 2 then s1 else wantOp op s1
  else wantOp op s

/-- Operating point, state and setpoint; the monitors' voltages and the regulators' currents by rail; the power they make
(R378, R404). -/
def pwrStatusWords (mv : List Nat) (s : State) : List Word :=
  let ma := s.pwr.currents
  let lane16 := fun (l : List Nat) => mkWord ((List.range 8).map (fun r => (16 * r, 16, min (l.getD r 0) 65535)))
  let power := ((List.range 8).map (fun r =>
    if ma.getD r 0xFFFF = 0xFFFF then 0 else mv.getD r 0 * ma.getD r 0 / 1000)).sum
  [mkWord [(0, 2, s.pwr.op), (2, 1, b2n (s.pwr.state == .quiet)), (16, 16, s.pwr.vctlMv)], lane16 mv, lane16 ma,
    mkWord [(0, 32, power)]]

/-- PWR.STATUS (R404). -/
def ownPwrStatus (railMv : List Nat) (_ : Request) (s : State) : Reply := okay (snap s :: pwrStatusWords railMv s) s

/-- PWR_STATUS. -/
def execPwrStatus (t : Time) (rq : Request) (railMv : List Nat) (s : State) : Outcome :=
  command 0x5102 (lenIs 0) (ownPwrStatus railMv) t rq s

/-- PMBUS_POLL (R404): the regulators of VDSP to VMEM2 give their currents, an absent answer reads 0xFFFF; VCTL's current comes
over AVSBus (R403). The oscillator temperature may move the holdover frequency (R222). -/
def execPmbusPoll (t : Time) (currents : List (Option Nat)) (oscTemp : Int) (s0 : State) : Outcome :=
  let s := tick t s0
  if !s.mgmt.run then .next s
  else .next (followTable (modPwr (fun p => { p with
    currents := (List.range 8).map (fun r => ((currents.getD r none).map (fun a => min a 65535)).getD 0xFFFF)
    oscTemp := oscTemp }) s))

end Sys2Proof.Machine
end

