-- ==== Sys2Proof/Machine/Therm.lean ====
section
/-! DEFINITION. Temperature sensors, zones, the throttle demand and the throttle levels (R409 to R421). -/

namespace Sys2Proof.Machine

/-- Change thermal management. -/
def modTherm (f : ThermSt → ThermSt) (s : State) : State := { s with therm := f s.therm }
def modZone (z : Nat) (f : Zone → Zone) (s : State) : State := modTherm (fun x => { x with zones := x.zones.modify z f }) s
def modSensor (i : Nat) (f : Sensor → Sensor) (s : State) : State :=
  modTherm (fun x => { x with sensors := x.sensors.modify i f }) s

/-- One sensor; 16 is the sensor of the in-package DRAM. -/
def sensorOf (s : State) (i : Nat) : Sensor := s.therm.sensors.getD i default
/-- One zone. -/
def zoneOf (s : State) (z : Nat) : Zone := s.therm.zones.getD z default

/-- *Thermal zones* (R409). -/
def zoneSensors (z : Nat) : List Nat :=
  match z with
  | 0 => [0, 1, 2, 3, 4, 5] | 1 => [6, 7] | 2 => [8, 9] | 3 => [10, 11] | 4 => [12, 13] | 5 => [14, 15] | _ => [16]

/-- The zone of a sensor. -/
def sensorZone (i : Nat) : Nat :=
  if i < 6 then 0 else if i < 8 then 1 else if i < 10 then 2 else if i < 12 then 3 else if i < 14 then 4
  else if i < 16 then 5 else 6

/-- *Comparison set for disagreement* of a sensor (R409). -/
def comparison (i : Nat) : List Nat :=
  let own := (zoneSensors (sensorZone i)).filter (· != i)
  match sensorZone i with
  | 0 => own
  | 1 => own ++ [12, 13]
  | 2 => own ++ [12, 13]
  | 3 => own ++ [12, 13]
  | 4 => own ++ [6, 7, 8, 9]
  | 5 => own ++ [16]
  | _ => [14, 15]

/-- One degree Celsius in the unit of a reading. -/
abbrev degU : Int := 128

/-- Rising order. -/
def insertInt (n : Int) : List Int → List Int
  | [] => [n]
  | a :: l => if n ≤ a then n :: a :: l else a :: insertInt n l

/-- Twice the median; of an even number, the mean of the middle two. None of an empty list. -/
def median2 (l : List Int) : Option Int :=
  let o := l.foldr insertInt []
  if o.isEmpty then none else some (o.getD ((o.length - 1) / 2) 0 + o.getD (o.length / 2) 0)

/-- The reading differs by more than 15 °C from the median of its comparison set's good sensors (R411). -/
def disagrees (s : State) (readings : List Int) (i : Nat) : Bool :=
  match median2 (((comparison i).filter (fun j => !(sensorOf s j).broken)).map (fun j => readings.getD j 0)) with
  | none => false
  | some m2 => decide (30 * 128 < (2 * readings.getD i 0 - m2).natAbs)

/-- A reading meets one of the conditions of a broken sensor (R411). -/
def badReading (s : State) (readings : List Int) (openShort : BitVec 17) (i : Nat) : Bool :=
  let r := readings.getD i 0
  let x := sensorOf s i
  openShort.getLsbD i || decide (r < -55 * degU) || decide (150 * degU < r) ||
    (x.read && decide (10 * 128 < (r - x.reading).natAbs)) || disagrees s readings i

/-- One sensor takes its reading: its runs of bad and good readings (R411). -/
def takeReading (s : State) (readings : List Int) (openShort : BitVec 17) (i : Nat) (x : Sensor) : Sensor :=
  let bad := badReading s readings openShort i
  { x with
    reading := readings.getD i 0
    openShort := openShort.getLsbD i
    read := true
    badRun := if bad then x.badRun + 1 else 0
    goodRun := if bad then 0 else x.goodRun + 1 }

/-- The highest reading of the good ones among some sensors. -/
def highest (s : State) (l : List Nat) : Option Int :=
  ((l.filter (fun i => !(sensorOf s i).broken)).map (fun i => (sensorOf s i).reading)).foldl
    (fun acc r => some (match acc with | none => r | some a => max a r)) none

/-- A zone's temperature (R410); with the DRAM sensor broken, zone 6 takes the higher of TS14 and TS15 plus 5 °C (R412). None
while no sensor of it is good. -/
def zoneTemp (s : State) (z : Nat) : Option Int :=
  if z = 6 ∧ (sensorOf s 16).broken then (highest s [14, 15]).map (· + 5 * degU) else highest s (zoneSensors z)

/-- A run of consecutive readings. -/
def runOn (c : Bool) (n : Nat) : Nat := if c then n + 1 else 0

/-- A zone takes a temperature: the runs of *Zone thresholds* (R413) and of rising fast (R414); 4 s earlier is 4,000 readings
earlier. -/
def takeTemp (v : Int) (x : Zone) : Zone :=
  let rise := (x.history[3999]?).map (fun e => v - e)
  { x with
    temp := v
    history := (v :: x.history).take 4000
    warmUp := runOn (decide (95 * degU ≤ v)) x.warmUp
    warmDown := runOn (decide (v < 92 * degU)) x.warmDown
    hotUp := runOn (decide (105 * degU ≤ v)) x.hotUp
    hotDown := runOn (decide (v < 102 * degU)) x.hotDown
    l3Up := runOn (decide (115 * degU ≤ v)) x.l3Up
    l3Down := runOn (decide (v < 112 * degU)) x.l3Down
    critUp := runOn (decide (120 * degU ≤ v)) x.critUp
    riseUp := runOn (rise.any (fun d => decide (12 * degU < d))) x.riseUp
    riseDown := runOn (rise.any (fun d => decide (d ≤ 9 * degU))) x.riseDown }

/-- SENSOR_READ (R410): every sensor is read, then every zone takes its temperature. A zone without a good sensor keeps its
temperature and its runs. The holdover frequency follows its temperature (R222). -/
def execSensorRead (t : Time) (readings : List Int) (openShort : BitVec 17) (s0 : State) : Outcome :=
  let s := tick t s0
  let rs := (List.range 17).map (fun i => readings.getD i (sensorOf s i).reading)
  let s1 := modTherm (fun x => { x with sensors := x.sensors.mapIdx (takeReading s rs openShort) }) s
  let s2 := (List.range 7).foldl (fun acc z =>
    match zoneTemp acc z with
    | none => acc
    | some v => modZone z (takeTemp v) acc) s1
  .next (followTable s2)

/-! ### Zone states, demand and levels (R411 to R418) -/

/-- One or more sensors of a zone are broken. -/
def someBroken (s : State) (z : Nat) : Bool := (zoneSensors z).any (fun i => (sensorOf s i).broken)

/-- No sensor is left that gives the zone a temperature: all of its own, and for zone 6 TS14 and TS15 as well (R412). -/
def allBroken (s : State) (z : Nat) : Bool := (zoneTemp s z).isNone

/-- A zone is HOT, or treated as at least HOT for a broken sensor (R411, R412). -/
def effHot (s : State) (z : Nat) : Bool := (zoneOf s z).hot || (zoneOf s z).crit || someBroken s z

/-- The condition of a throttle demand: a zone HOT or rising fast (R416). -/
def demandNow (s : State) : Bool := (List.range 7).any (fun z => effHot s z || (zoneOf s z).rising)

/-- Since when each zone is HOT without interruption (R417), and since when no sensor of it is good (R412). -/
def noteZones (s : State) : State :=
  (List.range 7).foldl (fun acc z => modZone z (fun x => { x with
    hotSince := if effHot s z then some (x.hotSince.getD s.now) else none
    allBrokenSince := if allBroken s z then some (x.allBrokenSince.getD s.now) else none }) acc) s

/-- The demand begins or ends; at its beginning THERM_N, `THERM` of `INT_STATUS` and vector 35 (R416). -/
def noteDemand (s : State) : State :=
  match demandNow s, s.therm.demandSince with
  | true, none =>
    msixIf 19 35 (setInt 19 (modTherm (fun x => { x with demandSince := some s.now, graceNow := x.graceMs }) s))
  | false, some _ => modTherm (fun x => { x with demandSince := none }) s
  | _, _ => s

/-- The throttle level whose condition holds (R417). -/
def levelNow (s : State) : Nat :=
  match s.therm.demandSince with
  | none => 0
  | some a =>
    if s.now < a + s.therm.graceNow * msU then 0
    else if (List.range 7).any (fun z => (zoneOf s z).l3) then 3
    else if (List.range 7).any (fun z => (zoneOf s z).hotSince.any (fun h => decide (h + 10 * secU ≤ s.now))) then 2
    else 1

/-- L1 is entered: OP2 by the lowering sequence unless OP2 or OP3 is in force (R417). -/
def enterL1 (s : State) : State :=
  let op := match s.pwr.change with
    | some c => if (holderOf s .op).isSome then c.target else s.pwr.op
    | none => s.pwr.op
  let s1 := modPwr (fun p => { p with opBeforeL1 := some op }) s
  if op < 2 then wantOp 2 s1 else s1

/-- L1 is left: the operating point before it, by the raise sequence (R418). -/
def leaveL1 (s : State) : State :=
  match s.pwr.opBeforeL1 with
  | none => s
  | some op => wantOp op (modPwr (fun p => { p with opBeforeL1 := none }) s)

/-- The throttle level in force becomes `n`: every level between the old one and the new one is entered or left (R417,
R418), with the throttle-level event (0x5202). -/
def setLevel (n : Nat) (s : State) : State :=
  let o := s.therm.level
  if n = o then s
  else
    let s1 := emitNow 0x5202 n o [] (modTherm (fun x => { x with level := n }) s)
    let s2 := if o < 1 ∧ 1 ≤ n then enterL1 s1 else if n < 1 ∧ 1 ≤ o then leaveL1 s1 else s1
    let s3 := if o < 2 ∧ 2 ≤ n then shedEnter s2 else if n < 2 ∧ 2 ≤ o then shedLeave s2 else s2
    opRefresh (calRefreshAll (capRefreshAll s3))

/-- Firmware enforces the level whose condition holds; without a running pair the level stays (R420). -/
def checkLevel (s : State) : State := if s.mgmt.run then setLevel (levelNow s) s else s

/-- After any change of a zone or sensor. -/
def thermCheck (s : State) : State := checkLevel (noteDemand (noteZones s))

/-- The thermal-crossing event (R415). -/
def crossing (z what : Nat) (entry : Bool) (s : State) : State := emitNow 0x5201 z (what + 4 * b2n entry) [] s

/-- SENSOR_BROKEN_CHANGE (R411): 8 bad readings break a sensor, 1,000 good ones restore it. -/
def execSensorBrokenChange (t : Time) (sensor : Fin 17) (s0 : State) : Outcome :=
  let s := tick t s0
  let x := sensorOf s sensor.val
  if !x.broken && decide (8 ≤ x.badRun) then
    .next (thermCheck (crossing (sensorZone sensor.val) 1 true (modSensor sensor.val (fun x => { x with broken := true }) s)))
  else if x.broken && decide (1000 ≤ x.goodRun) then
    .next (thermCheck (crossing (sensorZone sensor.val) 1 false (modSensor sensor.val (fun x => { x with broken := false }) s)))
  else .next s

/-- One threshold of a zone: its new state, and its event where it has one (R413, R415). -/
def crossOne (z : Nat) (what : Option Nat) (cur : Bool) (up down : Nat) (put : Bool → Zone → Zone) (s : State) : State :=
  let new := if cur then !decide (8 ≤ down) else decide (8 ≤ up)
  if new = cur then s
  else match what with
    | some w => crossing z w new (modZone z (put new) s)
    | none => modZone z (put new) s

/-- A zone has reached CRIT: the event, and the shutdown (R415, R421). -/
def reachCrit (z : Nat) (s : State) : State :=
  thermalShutdown (crossing z 2 true (modZone z (fun x => { x with crit := true }) s))

/-- ZONE_THRESHOLD_CROSSING (R413, R415): the runs of 8 readings that have completed change the zone's states. -/
def execZoneThresholdCrossing (t : Time) (zone : Fin 7) (s0 : State) : Outcome :=
  let s := tick t s0
  let z := zone.val
  let x := zoneOf s z
  let s1 := crossOne z (some 0) x.warm x.warmUp x.warmDown (fun b y => { y with warm := b }) s
  let s2 := crossOne z (some 1) x.hot x.hotUp x.hotDown (fun b y => { y with hot := b }) s1
  let s3 := crossOne z none x.l3 x.l3Up x.l3Down (fun b y => { y with l3 := b }) s2
  .next (if !x.crit && decide (8 ≤ x.critUp) then reachCrit z s3 else thermCheck s3)

/-- ZONE_RISING_FAST_CHANGE (R414, R415). -/
def execZoneRisingFastChange (t : Time) (zone : Fin 7) (s0 : State) : Outcome :=
  let s := tick t s0
  let x := zoneOf s zone.val
  .next (thermCheck (crossOne zone.val (some 3) x.rising x.riseUp x.riseDown (fun b y => { y with rising := b }) s))

/-- GRACE_TIME_EXPIRY (R416, R417): the grace time has run out with the demand present. -/
def execGraceTimeExpiry (t : Time) (s0 : State) : Outcome := .next (checkLevel (tick t s0))

/-- L2_HOT_TIMER (R417): a zone has been HOT for 10 s. -/
def execL2HotTimer (t : Time) (s0 : State) : Outcome := .next (checkLevel (tick t s0))

/-- ZONE_ALL_BROKEN_TIMER (R412): the grace time has run since the last sensor of a zone broke. -/
def execZoneAllBrokenTimer (t : Time) (zone : Fin 7) (s0 : State) : Outcome :=
  let s := tick t s0
  let x := zoneOf s zone.val
  if !x.crit && allBroken s zone.val && x.allBrokenSince.any (fun a => decide (a + s.therm.graceMs * msU ≤ s.now)) then
    .next (reachCrit zone.val s)
  else .next s

/-! ### Commands -/

/-- THERM.CONFIG (R416); `img` for a record of an image. -/
def ownThermConfig (img : Bool) (rq : Request) (s : State) : Reply :=
  let q := qword rq 1
  let ms := fld q 0 16
  guardedIn img [(!onlyBits q [(0, 16)] || decide (60000 < ms), stBadParam)] s
    (fun _ => okay [] (modTherm (fun x => { x with graceMs := ms }) s))

/-- THERM_CONFIG. -/
def execThermConfig (t : Time) (rq : Request) (s : State) : Outcome := command 0x5201 (lenIs 1) (ownThermConfig false) t rq s

/-- The state of a zone as THERM.STATUS gives it (R409). -/
def zoneCode (s : State) (z : Nat) : Nat :=
  if (zoneOf s z).crit then 3 else if effHot s z then 2 else if (zoneOf s z).warm then 1 else 0

/-- Eight temperatures in a word. -/
def tempWord (s : State) (l : List Nat) : Word :=
  mkWord (l.mapIdx (fun k i => (16 * k, 16, asField (sensorOf s i).reading 16)))

/-- THERM.STATUS (R411, R417). -/
def ownThermStatus (_ : Request) (s : State) : Reply :=
  let zones := (List.range 7).map (fun z => (2 + 2 * z, 2, zoneCode s z))
  let broken := (List.range 16).map (fun i => (16 + i, 1, b2n (sensorOf s i).broken))
  okay [snap s, mkWord ((0, 2, s.therm.level) :: zones ++ broken ++ [(32, 1, b2n (sensorOf s 16).broken)]),
    tempWord s (List.range 8), tempWord s ((List.range 8).map (· + 8)), tempWord s [16]] s

/-- THERM_STATUS. -/
def execThermStatus (t : Time) (rq : Request) (s : State) : Outcome := command 0x5202 (lenIs 0) ownThermStatus t rq s

end Sys2Proof.Machine
end

