-- ==== Sys2Proof/Machine/Islands.lean ====
section
/-! DEFINITION. Island resets, power gates and QUIET (R14, R15, R317, R395, R396, R454 to R458). -/

namespace Sys2Proof.Machine

/-! ### What an island loses, and how it starts again (R454, R459 column "Island reset, gate opened") -/

/-- A channel of a group that goes down: weaves, cross-fades and loop-backs stop; the settings, those accepted included, are
firmware's own copy; its counts return to their values after POR. -/
def chanDown (c : Nat) (s : State) : State :=
  let x := chanOf s c
  let stopRun := fun (f : FiltInst) =>
    { f with run := if f.run == .starting || f.run == .running then RunState.running else RunState.stopped }
  let y : Chan := { Reset.chan with
    cfg := effCfg x, pos := x.pendingPos.getD x.pos, primary := stopRun x.primary, shadow := stopRun x.shadow
    markMode := x.markMode, markNext := x.markNext, blanks := x.blanks, failed := x.failed, failedBy := x.failedBy
    unsubstituted := x.unsubstituted, softFaulted := x.softFaulted
    subst := if x.subst == .calibration then .none else x.subst
    weave := { Reset.weave with
      state := if x.weave.image.isSome then .loaded else .idle, image := x.weave.image }
    temp := x.temp, capped := x.capped }
  endHolder (.channel c) stResourceFailed 0 (modChan c (fun _ => y) s)

/-- A generator of a group that goes down. -/
def genDown (n : Nat) (s : State) : State :=
  modGen n (fun g => { Reset.gen with cfg := effGen g, tripped := g.tripped, vsOk := g.vsOk, loopRes := g.loopRes }) s

/-- A spare that was connecting serves its channel from firmware's record. -/
def spareKept (x : SpareState) : SpareState :=
  match x with
  | .connecting c _ => .substituting c
  | .settling c _ => .substituting c
  | .calibrating => .free
  | y => y

/-- A DAQ group goes down (R454, R459): what runs stops; a calibration slot is abandoned, and the cycle begins again. -/
def daqDown (g : Nat) (s : State) : State :=
  let s1 := forChans (chansOf g) chanDown (genDown (2 * g + 1) (genDown (2 * g) s))
  let s2 := modDaq (fun d => { d with queues := d.queues.filter (fun q => q.group != g) }) s1
  endSlotAs false g (modGroup g (fun x => { x with
    syncs := [], spare := spareKept x.spare, firstRecord := none
    cal := { x.cal with nextSlotAt := none, retryAt := none, slotIndex := 0, nextChan := 0 } }) s2)

/-- A DAQ group starts: its grid begins now, every address's first record carries `GAP_BEFORE`, and with automatic sync on a
sync is armed for the first whole second at least 100 ms ahead (R136, R186, R451). Its converters take the sets of the NV
store first (R178). -/
def daqUp (g : Nat) (s : State) : State :=
  let s1 := modGroup g (fun x => { x with tSync := s.now / 256 * 256, synced := false })
    (((64 + g) :: chansOf g).foldl (fun acc c => loadConv c acc) s)
  let s2 := [2 * g, 2 * g + 1].foldl (fun acc n =>
    modGen n (fun x => { x with acNeg := false, acPhaseAt := s.now, acFrom := s.now, acDeadEnd := none }) acc) s1
  let s3 := forChans (chansOf g) (fun c acc => gapChanAll c (restartChan c s.now false acc)) s2
  if s.daq.autoLock && s.time.everLocked then
    addSync g (localOf s ((tbNow s + 100 * msU + secU - 1) / secU * secU)) s3
  else s3

/-- DIAG loopbacks at the named ports end: 0 EAST, 1 WEST, 2 DROP, 3 ETHM0, 4 ETHM1 (R380, R459). -/
def loopsOff (ports : List Nat) (s : State) : State :=
  { s with diag := { s.diag with loopback := ports.foldl (fun l p => l.set p 0) s.diag.loopback } }

/-- A lane whose island goes down; QUIET keeps its counts (R459). -/
def laneDown (keep : Bool) (y : Lane) : Lane :=
  let z : Lane := { Reset.lane y.half with set := y.set, cur := y.set, half := y.half, mlse := y.mlse, since := y.since }
  if keep then
    { z with
      framingLosses := y.framingLosses, slips := y.slips, justifications := y.justifications, attempts := y.attempts
      trainFailures := y.trainFailures, corrected := y.corrected, correctedBits := y.correctedBits
      uncorrectable := y.uncorrectable }
  else z

/-- A line port goes down: its lanes are DOWN and everything learned on them is lost; settings stay (R454, R459). -/
def lineDown (keep : Bool) (p : Nat) (s : State) : State :=
  let s1 := (List.range 8).foldl (fun acc l => toLane p l .down acc) s
  modLine (fun x => { x with
    lanes := x.lanes.modify p (fun ls => ls.map (laneDown keep))
    slots := x.slots.modify p (fun is => is.map (fun y =>
      { y with hopsIn := 127, neigh := none, mismatch := false, alignLost := false, protecting := false,
               lastBudget := none })) }) s1

/-- The XBAR goes down, as it does in QUIET alone: everything learned from the links and the ring is lost; the routing table,
the ring identifier and the counts stay (R459). -/
def xbarDown (s : State) : State :=
  modFab (fun x => { Reset.fab with
    ports := x.ports.map (fun _ => Reset.fab.ports.headD default)
    role := x.role, ring := x.ring, routes := x.routes, lastPrimary := x.lastPrimary
    stomps := x.stomps, discards := x.discards, duplicates := x.duplicates, lost := x.lost, stale := x.stale
    invalid := x.invalid }) s

/-- The XBAR starts: no frame of TC0 to TC3 of its own for 100 ms (R282). -/
def xbarUp (s : State) : State := modFab (fun x => { x with holdUntil := s.now + 100 * msU }) s

/-- The BASIN goes down (R317): extractions end, and a segment in POST_TRIGGER is FROZEN with TRUNCATED; the DRAM, the
settings and the pointers stay, and the counts return to 0 (R305, R459). -/
def basinDown (s : State) : State :=
  let s1 := s.basin.extracts.foldl (fun acc e => endLong e.agent e.srcNode e.seq stResourceFailed 0 acc) s
  let s2 := modBasin (fun b => { b with
    extracts := []
    segs := b.segs.map (fun x => { x with
      written := 0, overwritten := 0, refused := 0, ignored := 0, shortfallMs := 0 }) }) s1
  (List.range 1024).foldl (fun acc g =>
    if (segOf acc g).state == .postTrigger then freezeNow g true acc else acc) s2

/-- The BASIN starts: the first record of each address that a segment accepts carries `GAP_BEFORE` (R317). -/
def basinUp (s : State) : State :=
  modBasin (fun b => { b with segs := b.segs.map (fun x => { x with gapAllBut := some [] }) }) s

/-- An ETHM port whose island goes down; QUIET keeps its counts (R459). -/
def ethPortDown (keep : Bool) (e : EthPort) : EthPort :=
  let z : EthPort := { Reset.ethPort with
    enable := e.enable, slow := e.slow, bridge := e.bridge, group := e.group, vlan := e.vlan, vid := e.vid, pcp := e.pcp
    ipv4 := e.ipv4 }
  if keep then
    { z with framesIn := e.framesIn, framesOut := e.framesOut, fcsDiscards := e.fcsDiscards, queueDiscards := e.queueDiscards }
  else z

/-- The ETHM island goes down: links, learned addresses and queued frames are lost (R459). -/
def ethmDown (keep : Bool) (s : State) : State :=
  { s with eth := { s.eth with macs := [], ports := s.eth.ports.map (ethPortDown keep) } }

/-- The loopbacks that an island holds (R380). -/
def islandLoops (i : Island) : List Nat :=
  match i with
  | .lineE => [0]
  | .lineW => [1]
  | .drop => [2]
  | .ethm => [3, 4]
  | _ => []

/-- An island leaves RUN for a phase in which its ports answer ABSENT. Its counts return to their values after POR, except
in QUIET, where `keep` is true (R459). -/
def islandDown (keep : Bool) (i : Island) (ph : IslandPhase) (s : State) : State :=
  let s1 := loopsOff (islandLoops i) (modIsland s i (fun x =>
    if keep then { x with phase := ph } else { phase := ph, discards := 0, aborts := 0 }))
  match i with
  | .daq g => daqDown g.val s1
  | .lineE => checkLinks (lineDown keep 0 s1)
  | .lineW => checkLinks (lineDown keep 1 s1)
  | .drop => checkLinks s1
  | .xbar => xbarDown (checkLinks s1)
  | .basin => basinDown s1
  | .ethm => ethmDown keep s1
  | _ => s1

/-- An island runs again, under the settings that firmware reloads (R396, R454). -/
def islandUp (i : Island) (s : State) : State :=
  let s1 := setPhase s i .run
  match i with
  | .daq g => daqUp g.val s1
  | .xbar => xbarUp s1
  | .basin => basinUp s1
  | _ => s1

/-! ### SYS.ISLAND_RESET (R15, R454) -/

/-- *ISLAND_RESET* codes: 0 to 7 DAQ-G0 to DAQ-G7, 8 LINE-E, 9 LINE-W, 10 BASIN. -/
def resetIsland (n : Nat) : Island :=
  match n with
  | 8 => .lineE
  | 9 => .lineW
  | 10 => .basin
  | k => daqIsland k

/-- What a reset or a gate of an island holds (R352). -/
def islandHolds (i : Island) : List Resource :=
  match i with
  | .daq g => [.group g.val]
  | .lineE => [.port 0]
  | .lineW => [.port 1]
  | _ => []

/-- SYS.ISLAND_RESET's own part: the inbound ports switch to ABSENT and the wait for open handshakes begins. -/
def ownSysIslandReset (rq : Request) (s : State) : Reply :=
  let q := qword rq 1
  let n := fld q 0 4
  let i := resetIsland n
  guarded [(!onlyBits q [(0, 4)] || decide (10 < n), stBadParam), (!isUp s i, stResourceFailed),
    ((islandHolds i).any (isHeld s) || isHeld s (.island (32 + n)), stBusy)] s
    (fun _ => accepted 1 (.island (32 + n) :: islandHolds i) [] (setPhase s i .draining))

/-- SYS_ISLAND_RESET (0x0104). -/
def execSysIslandReset (t : Time) (rq : Request) (s : State) : Outcome :=
  command 0x0104 (lenIs 1) ownSysIslandReset t rq s

/-- The first running command of an opcode, with the island code that it holds. -/
def runningIsland (s : State) (op : Nat) : Option (Running × Nat) :=
  match s.mgmt.running.find? (fun r => r.opcode.toNat == op) with
  | none => none
  | some r => some (r, (r.holds.filterMap (fun h => match h with | .island n => some n | _ => none)).headD 0)

/-- A partner island receives an ABORT completion, which closes its side of the handshake, and counts it (R15). -/
def abortShake (s : State) (p : Fin 21) : State :=
  { s with islands := s.islands.modify p.val (fun x => { x with aborts := x.aborts + 1 }) }

/-- ISLAND_RESET_DRAIN_END (R15): handshakes still open, named by their partner islands, are aborted; the island resets and
reopens. -/
def execIslandResetDrainEnd (t : Time) (openShakes : List (Fin 21)) (s0 : State) : Outcome :=
  let s := tick t s0
  match runningIsland s 0x0104 with
  | none => .next s
  | some (r, n) =>
    let i := resetIsland (n - 32)
    let s1 := islandUp i (islandDown false i .inReset (openShakes.foldl abortShake s))
    .next (endLong r.agent r.srcNode r.seq stOk 1 s1)

/-! ### CLK.GATE (R378, R395, R396) -/

/-- Codes of `CLK.GATE`: 0 to 7 DAQ-G0 to DAQ-G7, 8 DROP, 9 OPER, 10 and 11 ETHM0 and ETHM1. -/
def gateIsland (n : Nat) : Island :=
  match n with
  | 8 => .drop
  | 9 => .oper
  | 10 => .ethm
  | 11 => .ethm
  | k => daqIsland k

/-- The condition under which an island may be closed (R395). -/
def mayClose (s : State) (n : Nat) : Bool :=
  match n with
  | 8 => s.line.drop == 0
  | 9 => (List.range 32).all (fun k => (operOf s k).cfg.isNone)
  | 10 => !(ethOf s 0).enable
  | 11 => !(ethOf s 1).enable
  | g => (chansOf g).all (fun c => !(effCfg (chanOf s c)).enable)

/-- CLK.GATE's own part: a close begins while its condition holds; an open begins at once; an island already as asked is left
so. -/
def ownClkGate (rq : Request) (s : State) : Reply :=
  let q := qword rq 1
  let n := fld q 0 4
  let i := gateIsland n
  let open_ := fbit q 4
  let port := n == 10 || n == 11
  guarded [(!onlyBits q [(0, 5)] || decide (11 < n), stBadParam),
    (isHeld s (.island n) || isHeld s (.island (16 + n)) || (islandHolds i).any (isHeld s) ||
      (!open_ && !mayClose s n), stBusy)] s (fun _ =>
    if s.clk.gated.getLsbD n = !open_ then okay [0, 0] s
    else if open_ then
      begun 1 (.island (16 + n) :: islandHolds i) (if port && isUp s i then s else setPhase s i .opening)
    else begun 1 (.island n :: islandHolds i) (if port then s else setPhase s i .closing))

/-- CLK_GATE (0x5003). -/
def execClkGate (t : Time) (rq : Request) (s : State) : Outcome := command 0x5003 (lenIs 1) ownClkGate t rq s

/-- The gate of a code closes; the ETHM island goes down with its second port. -/
def gateClosed (n : Nat) (s : State) : State :=
  let s1 := modClk (fun c => { c with gated := setBit c.gated n true }) s
  if n = 10 ∨ n = 11 then
    if s1.clk.gated.getLsbD 10 && s1.clk.gated.getLsbD 11 then islandDown false .ethm .gated s1 else s1
  else islandDown false (gateIsland n) .gated s1

/-- The gate of a code is open. -/
def gateOpened (n : Nat) (s : State) : State :=
  let s1 := modClk (fun c => { c with gated := setBit c.gated n false }) s
  if isUp s1 (gateIsland n) then s1 else islandUp (gateIsland n) s1

/-- GATE_CLOSE_DRAIN_END (R395): with its ports idle the island is gated; otherwise its ports reopen and the command answers
`BUSY` with `GATE_DENIED`. -/
def execGateCloseDrainEnd (t : Time) (idle : Bool) (s0 : State) : Outcome :=
  let s := tick t s0
  match s.mgmt.running.find? (fun r => r.opcode.toNat == 0x5003 && r.holds.any (fun h =>
      match h with | .island n => decide (n < 16) | _ => false)) with
  | none => .next s
  | some r =>
    let n := (r.holds.filterMap (fun h => match h with | .island n => some n | _ => none)).headD 0
    if idle then .next (endWith r.agent r.srcNode r.seq stOk 1 [0, 0] (gateClosed n s))
    else
      let s1 := if n = 10 ∨ n = 11 then s else setPhase s (gateIsland n) .run
      .next (endWith r.agent r.srcNode r.seq stBusy 0 [0, 1] s1)

/-- GATE_OPEN_DONE (R396, R454): the island runs under its reloaded settings, then the command answers `OK`. -/
def execGateOpenDone (t : Time) (s0 : State) : Outcome :=
  let s := tick t s0
  match s.mgmt.running.find? (fun r => r.opcode.toNat == 0x5003 && r.holds.any (fun h =>
      match h with | .island n => decide (16 ≤ n) | _ => false)) with
  | none => .next s
  | some r =>
    let n := (r.holds.filterMap (fun h => match h with | .island n => some n | _ => none)).headD 0 - 16
    .next (endWith r.agent r.srcNode r.seq stOk 1 [0, 0] (gateOpened n s))

/-! ### QUIET and HIBERNATE (R455 to R458) -/

/-- The islands that QUIET gates (R455). -/
def quietIslands : List Island := [.lineE, .lineW, .drop, .xbar, .ethm]

/-- Domains fed over the links lose their signal (R456). -/
def quietDom (d : Nat) (s : State) : State :=
  match (domOf s d).source with
  | .fabric _ _ => if (domOf s d).state == .disabled then s else toState d .noSignal s
  | .ptp _ => if (domOf s d).state == .disabled then s else toState d .noSignal s
  | _ => s

/-- QUIET is entered (R456). -/
def enterQuiet (s : State) : State :=
  let s1 := quietIslands.foldl (fun acc i => if isUp acc i then islandDown true i .gated acc else acc) s
  quietTime (quietDom 1 (quietDom 0 (modPwr (fun p => { p with state := .quiet }) s1)))

/-- The device returns from QUIET to RUN (R457): the gates open that no command has closed. -/
def leaveQuiet (s : State) : State :=
  let keep := fun (i : Island) =>
    (i == .drop && s.clk.gated.getLsbD 8) || (i == .ethm && s.clk.gated.getLsbD 10 && s.clk.gated.getLsbD 11)
  chooseDom (quietIslands.foldl (fun acc i => if keep i then acc else islandUp i acc)
    (modPwr (fun p => { p with state := .run }) s))

/-- PWR.SET_STATE's own part; `idle` says whether every port reaches idle (R456). -/
def ownPwrSetState (idle : Bool) (rq : Request) (s : State) : Reply :=
  let q := qword rq 1
  let st := fld q 0 2
  guarded [(!onlyBits q [(0, 2), (96, 32)] || st == 3 || (st == 2 && fld q 96 32 != 0x5128C0DE), stBadParam),
    (isHeld s .power, stBusy), (s.pwr.sagWarn, stSupplyLimit)] s (fun _ =>
    match st with
    | 0 => okay [] (if s.pwr.state == .quiet then leaveQuiet s else s)
    | 1 =>
      if s.pwr.state == .quiet then okay [] s
      else if idle then okay [] (enterQuiet s)
      else { deny stBusy s with words := [0, 1] }
    | _ => okay [] { s with mgmt := { s.mgmt with hibernateDue := some (s.now + msU) } })

/-- PWR_SET_STATE (0x5103). -/
def execPwrSetState (t : Time) (rq : Request) (idle : Bool) (s : State) : Outcome :=
  commandSupply 0x5103 (lenIs 1) (ownPwrSetState idle) t rq s

/-- HIBERNATE_ENTRY (R458): 1 ms after the command every island except AON is gated. -/
def execHibernateEntry (t : Time) (s0 : State) : Outcome :=
  let s := tick t s0
  match s.mgmt.hibernateDue with
  | none => .next s
  | some d =>
    if s.now < d then .next s
    else
      let s1 := powerCut s
      .next (modAon (fun a => { a with startDue := false }) (modPwr (fun p => { p with state := .hibernate, supplyHold := false })
        { s1 with islands := s1.islands.mapIdx (fun i x => if i = 0 then x else { x with phase := .gated }) }))

end Sys2Proof.Machine
end

