-- ==== Sys2Proof/Machine/Clk.lean ====
section
/-! DEFINITION. Clock monitors, failures, qualification, PLLs, frequency counters and the CLK commands (R385 to R397, R463). -/

namespace Sys2Proof.Machine

/-- PLLs that take the control reference: PLL_SYS, PLL_DP, PLL_MEM (R385). -/
def controlPlls : List Nat := [5, 8, 9]

/-- PLLs fed by PLL_TB: PLL_LE, PLL_LW and the synthesizers (R385). -/
def tbPlls : List Nat := [6, 7, 10, 11, 12, 13, 14, 15, 16, 17]

/-- The control tree switches to the RC oscillator; the operator budget follows (R390, R391). -/
def toRc (s : State) : State := opRefresh (modClk (fun c => { c with ctlInternal := true }) s)

/-- The control reference has failed: the control tree goes to the RC oscillator and the PLLs that took it hold (R387,
R390). -/
def controlLost (s : State) : State := controlPlls.foldl (fun acc p => holdPll p acc) (toRc s)

/-- The lanes of a port that run go to FAILED (R391, R268). -/
def failPort (p : Nat) (s : State) : State :=
  (List.range 8).foldl (fun acc l =>
    let x := (laneOf acc p l).state
    if x == .down || x == .shed || x == .failed then acc
    else toLane p l .failed (modLane p l (fun y => { y with retryAt := some (acc.now + 100 * msU), laneRx := none }) acc)) s

/-- A REF has failed (R386, R389, R390). -/
def refFails (b : Bool) (s : State) : State :=
  let was := tbRefIn s
  let ctl := activeRef s == some b
  let s1 := modRef b (fun _ => { qualified := false, failed := true, qualSince := s.now }) s
  keepTbRef was (if ctl then controlLost s1 else s1)

/-- The effect of a failed source beyond `CLK_FAIL` and its event (*Effect of a failed clock*, R391, R463). -/
def sourceFails (src : Nat) (s : State) : State :=
  match src with
  | 0 => refFails false s
  | 1 => refFails true s
  | 4 =>
    let s1 := tbPlls.foldl (fun acc p => holdPll p acc) (setPll 4 .unlocked s)
    let s2 := modClk (fun c => { c with tbHoldSince := some (c.tbHoldSince.getD s.now) }) s1
    if (activeRef s).isNone then controlLost s2 else s2
  | 5 => toRc (setPll 5 .unlocked s)
  | 6 => checkLinks (failPort 0 (setPll 6 .unlocked s))
  | 7 => checkLinks (failPort 1 (setPll 7 .unlocked s))
  | 8 => setPll 8 .unlocked s
  | 9 => if isUp s .basin then islandDown false .basin .inReset (setPll 9 .unlocked s) else setPll 9 .unlocked s
  | 18 => switchTb (if (activeRef s).isSome then 0 else 3) s
  | 19 => switchTb (if (activeRef s).isSome then 0 else 3) s
  | n => if 10 ≤ n ∧ n ≤ 17 then modGroup (n - 10) (fun g => { g with ssLost := true }) (setPll n .unlocked s) else s

/-- Sources that a monitor watches (R389): of the recovered lane clocks, the one in use. -/
def monitored (s : State) (src : Nat) : Bool :=
  decide (src < 3) || (decide (4 ≤ src) && decide (src ≤ 17)) || (s.clk.tbRef == 2 && src == 18 + s.clk.laneSource)

/-- CLOCK_SOURCE_FAILURE (R389, R390): `CLK_FAIL` and vector 0, the switches, and the clock-source event. -/
def execClockSourceFailure (t : Time) (src : Fin 32) (_stopped : Bool) (s0 : State) : Outcome :=
  let s := tick t s0
  if !monitored s src.val || s.clk.failed.getLsbD src.val then .next s
  else
    let s1 := raiseNmi 0 (modClk (fun c => { c with failed := setBit c.failed src.val true }) s)
    .next (emitNow 0x5001 src.val 0 [] (sourceFails src.val s1))

/-- CLOCK_FORCED_SWITCH (R394). -/
def execClockForcedSwitch (t : Time) (src : Fin 32) (s0 : State) : Outcome :=
  let s := tick t s0
  .next (emitNow 0x5002 src.val 0 [] (raiseNmi 1 (modClk (fun c => { c with forced := satAdd 16 c.forced 1 }) s)))

/-- A source that had failed is restored, with its event (R390). -/
def restored (src : Nat) (s : State) : State :=
  if s.clk.failed.getLsbD src then
    emitNow 0x5001 src 1 [] (modClk (fun c => { c with failed := setBit c.failed src false }) s)
  else s

/-- REF_QUALIFIED (R386, R388): a REF qualifies, one that has failed no sooner than 10 s after; the preferred one becomes the
active REF, PLL_TB stays on its reference. -/
def execRefQualified (t : Time) (refB : Bool) (s0 : State) : Outcome :=
  let s := tick t s0
  let r := refInOf s refB
  if r.qualified || !isUp s .time || (r.failed && decide (s.now < r.qualSince + 10 * secU)) then .next s
  else
    let was := tbRefIn s
    let s1 := modRef refB (fun _ => { qualified := true, failed := false, qualSince := s.now }) s
    .next (restored (if refB then 1 else 0) (keepTbRef was s1))

/-- Every PLL that runs from what a start gives it is locked (R388 step 5). -/
def lockAll (s : State) : State :=
  modClk (fun c => { c with plls := c.plls.mapIdx (fun _ _ => .locked) }) s

/-- CLOCK_QUALIFY_TIMEOUT (R388): no REF has qualified 100 ms after step 1 of the start, which takes 1 ms. PLL_TB starts in hold
from its factory control word and the other PLLs lock to it; the reference reads internal. -/
def execClockQualifyTimeout (t : Time) (s0 : State) : Outcome :=
  let s := tick t s0
  if !isUp s .time || (activeRef s).isSome || pllOf s 4 != .unlocked || s.clk.tbHoldSince.isSome ||
      decide (s.now < s.aon.coarseAt + 101 * msU) then .next s
  else
    let s1 := setPll 4 .hold (lockAll s)
    .next (opRefresh (modClk (fun c => { c with ctlInternal := false }) (raiseNmi 4 (modClk (fun c => { c with tbRef := 3 }) s1))))

/-- TB_REF_SWITCH_UP (R392): an entry above the one in use has been qualified for 10 s: 0 the active REF, 1 the other REF, 2
the lane. -/
def execTbRefSwitchUp (t : Time) (entry : Fin 3) (s0 : State) : Outcome :=
  let s := tick t s0
  let since : Option Time := match entry.val with
    | 0 => (activeRef s).map (fun b => (refInOf s b).qualSince)
    | 1 => (activeRef s).bind (fun b => if (refInOf s (!b)).qualified then some (refInOf s (!b)).qualSince else none)
    | _ => if laneRefUp s then some (laneOf s s.clk.laneSource s.clk.lane).since else none
  let ok := since.any (fun a => decide (a + 10 * secU ≤ s.now))
  let use := fun (x : State) => if entry.val = 2 then restored (18 + x.clk.laneSource) x else x
  if ok && decide (entry.val < s.clk.tbRef) then .next (use (switchTb entry.val s)) else .next s

/-- A group whose synthesizer has relocked emits again; the next record of each address carries `GAP_BEFORE` (R463). -/
def groupResumes (g : Nat) (s : State) : State :=
  forChans (chansOf g) gapChanAll (modGroup g (fun x => { x with ssLost := false }) s)

/-- PLL_LOCKED (R391, R463). PLL_TB on the internal reference stays in hold (R392). -/
def execPllLocked (t : Time) (src : Fin 32) (s0 : State) : Outcome :=
  let s := tick t s0
  let n := src.val
  if n < 4 ∨ 17 < n then .next s
  else if pllOf s n == .locked || (n == 4 && s.clk.tbRef == 3 && pllOf s n == .hold) then .next s
  else
    let s1 := restored n (setPll n .locked s)
    .next (match n with
      | 4 =>
        let s2 := tbPlls.foldl (fun acc p => if pllOf acc p == .hold then setPll p .locked acc else acc) s1
        let s3 := modClk (fun c => { c with tbHoldSince := none, tbHoldExpired := false }) s2
        if s.clk.tbHoldExpired then
          (List.range 8).foldl (fun acc g => if (groupOf acc g).ssLost then acc else groupResumes g acc) s3
        else s3
      | 5 => opRefresh (modClk (fun c => { c with ctlInternal := false }) s1)
      | 9 => if (islandOf s1 .basin).phase == .inReset then islandUp .basin s1 else s1
      | k => if 10 ≤ k then groupResumes (k - 10) s1 else s1)

/-- PLL_HOLD_EXPIRY (R463): PLL_TB has not relocked within 10 s; groups and lanes stop until it does. -/
def execPllHoldExpiry (t : Time) (s0 : State) : Outcome :=
  let s := tick t s0
  match s.clk.tbHoldSince with
  | none => .next s
  | some a =>
    if s.now < a + 10 * secU || s.clk.tbHoldExpired then .next s
    else .next (checkLinks (failPort 1 (failPort 0 (modClk (fun c => { c with tbHoldExpired := true }) s))))

/-! ### Frequency counters (R397) -/

/-- Nominal frequency of a source in mHz (R385); 0 where it has none. A line PLL is at half its frequency while its lane (for
PLL_LE and PLL_LW lane 0) is at half rate. -/
def nominal (s : State) (code lane : Nat) : Nat :=
  let line := fun (p l : Nat) => if (laneOf s p l).half then 443115234375 else 886230468750
  let eth := fun (p : Nat) => if (ethOf s p).slow then 156250000000 else 390625000000
  match code with
  | 0 => 156250000000
  | 1 => 156250000000
  | 2 => 100000000000
  | 3 => 1000
  | 4 => 800000000000
  | 5 => [1600000000000, 1200000000000, 800000000000, 400000000000].getD s.pwr.op 400000000000
  | 6 => line 0 0
  | 7 => line 1 0
  | 8 => 830078125000
  | 9 => 937500000000
  | 18 => line 0 lane
  | 19 => line 1 lane
  | 20 => 830078125000
  | 21 => eth 0
  | 22 => eth 1
  | 31 => 100000000000
  | n => if 10 ≤ n ∧ n ≤ 17 then 20480000000 else 0

/-- N_ref (R397): the edges of the reference that make the gate. -/
def refEdges (f gateMs : Nat) : Nat := max 1 ((gateMs * f + 500000) / 1000000)

/-- The signed quotient, rounded towards zero as the pseudocode's integer division does, saturating at 2^31 - 1 (R397). -/
def ppmOf (expect meas : Nat) : Int :=
  max (-2147483647) (min 2147483647 (Int.tdiv (((meas : Int) - expect) * 1000000000) expect))

/-- COUNTER_GATE_CLOSE (R397): the result is stored and the command completes. A reference without a nominal frequency leaves
N_ref open, and no expected edge leaves the ratio open: free values. -/
def execCounterGateClose (t : Time) (c : Fin 4) (measCount : Nat) (s0 : State) : Outcome :=
  let s := tick t s0
  let k := s.clk.counters.getD c.val default
  if !k.running then .next s
  else
    let fm := nominal s k.meas k.lane
    let fr := nominal s k.ref k.lane
    let rn := if fr = 0 then drawNat s else (refEdges fr k.gateMs, s)
    let n := rn.1 % 2 ^ 64
    let expect := if fr = 0 then 0 else n * fm / fr
    let rp := if fm = 0 ∨ fr = 0 then ((-2147483648 : Int), rn.2)
      else if expect = 0 then drawInt rn.2 else (ppmOf expect measCount, rn.2)
    let done : Counter := { k with running := false, measCount := measCount, refCount := n, ppm := rp.1 }
    .next (endHolder (.counter c.val) stOk 1
      (modClk (fun x => { x with counters := x.counters.set c.val done }) rp.2))

/-! ### Commands (R377, R378) -/

/-- Sources that run, as `PRESENT` gives them: REFs, RC oscillator, PLLs and synthesizers; what the others give is not
stated, and their bits are free. -/
def presentMask (s : State) : Nat × State :=
  let r := drawNat s
  let pll := ((List.range 14).map (fun i => b2n (s.clk.plls.getD i .unlocked != .unlocked) * 2 ^ (4 + i))).sum
  (b2n s.clk.refA.qualified + 2 * b2n s.clk.refB.qualified + 4 * b2n (!s.clk.failed.getLsbD 2) + 8 * (r.1 % 2) + pll +
    2 ^ 18 * (r.1 / 2 % 2 ^ 14), r.2)

/-- CLK.STATUS. -/
def ownClkStatus (_ : Request) (s : State) : Reply :=
  let (m, s1) := presentMask s
  okay ([snap s, mkWord [(0, 32, s.clk.failed.toNat), (32, 32, m), (64, 2, s.clk.tbRef), (66, 1, b2n s.clk.ctlInternal),
      (80, 16, s.clk.forced)]] ++ s.clk.counters.map (fun k => mkWord [(0, 64, k.measCount), (64, 64, k.refCount)]) ++
    [mkWord (s.clk.counters.mapIdx (fun i k => (32 * i, 32, asField k.ppm 32)))]) s1

/-- CLK_STATUS (0x5001). -/
def execClkStatus (t : Time) (rq : Request) (s : State) : Outcome := command 0x5001 (lenIs 0) ownClkStatus t rq s

/-- CLK.COUNTER's own part (R397). -/
def ownClkCounter (rq : Request) (s : State) : Reply :=
  let q := qword rq 1
  let c := fld q 0 2
  let meas := fld q 2 5
  let ref := fld q 7 5
  let lane := fld q 12 3
  let ms := fld q 15 14
  let named := meas == 18 || meas == 19 || ref == 18 || ref == 19
  guarded [(!onlyBits q [(0, 29)] || meas == ref || ms == 0 || decide (10000 < ms) || (named && !lanePresent s lane),
      stBadParam), ((s.clk.counters.getD c default).running, stBusy)] s
    (fun _ => accepted 1 [.counter c] [] (modClk (fun x => { x with counters := x.counters.modify c (fun k =>
      { k with
        running := true, meas := meas, ref := ref, lane := lane, gateMs := ms }) }) s))

/-- CLK_COUNTER (0x5002). -/
def execClkCounter (t : Time) (rq : Request) (s : State) : Outcome := command 0x5002 (lenIs 1) ownClkCounter t rq s

/-- CLK.SET_PRIORITY's own part (R386, R392): a preferred REF that is qualified becomes the active one; a named lane that is
not UP is no reference. On an SL-5128-V a `LANE` of 4 to 7 names an absent lane whatever `LANE_SOURCE` holds, 2 (none) too
(DESIGN CHOICE, log 114). -/
def ownClkSetPriority (rq : Request) (s : State) : Reply :=
  let q := qword rq 1
  let src := fld q 1 2
  let lane := fld q 3 3
  guarded [(!onlyBits q [(0, 6)] || src == 3 || !lanePresent s lane, stBadParam)] s (fun _ =>
    let was := tbRefIn s
    let moved := s.clk.tbRef = 2 ∧ (s.clk.laneSource, s.clk.lane) ≠ (src, lane)
    let s1 := keepTbRef was (modClk (fun c => { c with preferB := fbit q 0, laneSource := src, lane := lane }) s)
    okay [] (if moved then switchTb (firstEntry s1) s1 else s1))

/-- CLK_SET_PRIORITY (0x5004). -/
def execClkSetPriority (t : Time) (rq : Request) (s : State) : Outcome :=
  command 0x5004 (lenIs 1) ownClkSetPriority t rq s

end Sys2Proof.Machine
end

