-- ==== Sys2Proof/Machine/Dma.lean ====
section
/-! DEFINITION. The DMA engine: descriptor rings, buffers, halts and the ACTION register (R191, R193, R313, R314, R346 to
R350). -/

namespace Sys2Proof.Machine

/-- One channel. -/
def dmaOf (s : State) (c : Nat) : DmaCh := s.host.dma.getD c default
def modDma (c : Nat) (f : DmaCh → DmaCh) (s : State) : State := modHost (fun h => { h with dma := h.dma.modify c f }) s

/-- Channels that use descriptor rings (R346). -/
def ringChannel (c : Nat) : Bool := decide (c < 15) && c != 8

/-- Descriptors of a ring; a size outside 4 to 16 is not stated, and its exponent is a free value. -/
def ringSize (d : DmaCh) : Nat :=
  let n := d.log2.toNat
  2 ^ (if 4 ≤ n ∧ n ≤ 16 then n else Config.dmaLog2 n % 17)

/-- The host has posted a descriptor that is not used up (R347). -/
def posted (d : DmaCh) : Bool := d.prod % ringSize d != d.cons % ringSize d

/-- A channel in RUNNING without a posted descriptor is STARVED, and runs again when one is posted (R347). -/
def starve (d : DmaCh) : DmaCh :=
  match d.state with
  | .running => if posted d then d else { d with state := .starved }
  | .starved => if posted d then { d with state := .running } else d
  | _ => d

/-- A completion, halt or abort of a channel shows: `DMA` of `INT_STATUS`, and the channel's vector (R329, R331). -/
def dmaSignal (c : Nat) (s : State) : State := msixIf 17 (17 + c) (setInt 17 s)

/-- Why a buffer is closed, as its completion entry tells (R347). -/
inductive Close
  | full | byCommit | byTimer | isMeta | ended
deriving DecidableEq, Repr, Inhabited

/-- A completion entry (R347); `GEN` is of the REC channels alone. -/
def completionEntry (c : Nat) (desc : Word) (words gen : Nat) (poisoned : Bool) (why : Close) : Word :=
  mkWord [(0, 24, words), (24, 16, if c < 8 then gen else 0), (40, 1, b2n (why == .byCommit)), (41, 1, b2n (why == .byTimer)),
    (42, 1, b2n poisoned), (43, 1, b2n (why == .isMeta)), (44, 1, b2n (why == .ended)), (95, 1, 1),
    (96, 32, fld desc 96 32)]

/-- The descriptor in use is overwritten with its completion entry, and `CONS` advances (R347). -/
def completeDesc (c : Nat) (b : DmaBuf) (why : Close) (s : State) : State :=
  let d := dmaOf s c
  let s1 := emitOut (.completion c d.cons (completionEntry c b.desc b.words b.gen b.poison why)) s
  let s2 := modDma c (fun x => starve { x with buf := none, cons := (x.cons + 1) % ringSize x }) s1
  if fbit b.desc 88 then dmaSignal c s2 else s2

/-- The open buffer of a channel closes. -/
def closeBuf (c : Nat) (why : Close) (s : State) : State :=
  match (dmaOf s c).buf with
  | none => s
  | some b => completeDesc c b why s

/-- At a commit instant every open ring buffer closes (R191, R348). -/
def closeRings (s : State) : State := (List.range 8).foldl (fun acc c => closeBuf c .byCommit acc) s

/-! ### Words of a channel -/

/-- The record that waits longest for a ring; among equals, that of the lowest group. -/
def nextQueue (s : State) (c : Nat) : Option DestQueue :=
  (s.daq.queues.filter (fun q => q.dest == .ring c && !q.recs.isEmpty)).foldl (fun best q =>
    match best with
    | none => some q
    | some b =>
      let tq : Nat := (q.recs.head?.map (·.at_)).getD 0
      let tb : Nat := (b.recs.head?.map (·.at_)).getD 0
      if tq < tb ∨ (tq = tb ∧ q.group < b.group) then some q else best) none

/-- The next word of a channel that moves word by word: of its queue, or of its feed; with its generation and whether it is
readable; and the state without it. -/
def takeWord (c : Nat) (s : State) : Option (QRec × State) :=
  if c < 8 then
    match nextQueue s c with
    | none => none
    | some q =>
      match q.recs with
      | [] => none
      | r :: rest => some (r, putQueue { q with recs := rest } s)
  else
    match (dmaOf s c).feed with
    | [] => none
    | w :: rest => some ({ word := w, gen := 0, readable := true, node := none, at_ := s.now },
      modDma c (fun d => { d with feed := rest }) s)

/-- The word that `takeWord` would take. -/
def peekWord (c : Nat) (s : State) : Option QRec := (takeWord c s).map (·.1)

/-- A word goes into the open buffer, which closes when it is full; the last word of a feed closes its buffer too. -/
def putWord (c : Nat) (w : Word) (poisoned : Bool) (s : State) : State :=
  match (dmaOf s c).buf with
  | none => s
  | some b =>
    let n := b.words + 1
    let b1 := { b with words := n, poison := b.poison || poisoned }
    let s1 := modDma c (fun d => { d with buf := some b1 }) (emitOut (.hostWrite (fld b.desc 0 64 + 16 * b.words) w) s)
    if fld b.desc 64 24 ≤ n || (8 ≤ c && (dmaOf s1 c).feed.isEmpty) then closeBuf c .full s1 else s1

/-- The channel halts at a bad word (R349). -/
def haltDma (c : Nat) (w : Word) (s : State) : State :=
  dmaSignal c (modDma c (fun d => { d with
    state := .haltedUe, haltDesc := d.cons, haltWord := (d.buf.map (·.words)).getD 0, badWord := some w }) s)

/-- It halts at a bad word of a queue, whose node it keeps. -/
def haltAt (c : Nat) (r : QRec) (s : State) : State := modDma c (fun d => { d with badNode := r.node }) (haltDma c r.word s)

/-- One word of a REC, LOG or SPARE channel. A record of another generation closes the open buffer first (R191); `desc` is the
descriptor at `CONS`, read where a buffer opens; a buffer of length 0 takes nothing. -/
def moveWord (c : Nat) (desc : Word) (bad : Bool) (s : State) : State :=
  match peekWord c s with
  | none => s
  | some r =>
    let s1 := match (dmaOf s c).buf with
      | some b => if b.gen != r.gen then closeBuf c .byCommit s else s
      | none => s
    let d := dmaOf s1 c
    if d.buf.isNone && !posted d then s1
    else
      let s2 := match d.buf with
        | some _ => s1
        | none => modDma c (fun d => { d with
            buf := some { desc := desc, words := 0, gen := r.gen, first := s1.now, poison := false } }) s1
      if d.buf.isNone && fld desc 64 24 == 0 then closeBuf c .full s2
      else match takeWord c s2 with
        | none => s2
        | some (_, s3) => if bad || !r.readable then haltAt c r s3 else putWord c r.word false s3

/-! ### Extractions (R308, R312 to R314, R348) -/

/-- One word of an extraction: skipped words are counted, and then each address's first record carries `GAP_BEFORE`; so does
the next record of a bad word's address, or of every address where the address cannot be read (a free choice). -/
def extractOne (e : Extract) (s : State) : Extract × Word :=
  let x := segOf s e.seg
  let from_ := max e.next (oldest x)
  let skip := from_ - e.next
  let gaps := if 0 < skip then some [] else e.gapAllBut
  let w := segWord s e.seg from_
  let e1 : Extract := { e with next := from_ + 1, delivered := e.delivered + 1, skipped := e.skipped + skip, gapAllBut := gaps }
  if w = poison then
    let a := recAddr (readWord s.basin.cells (wordNo e.seg (indexOf x from_)))
    if Config.freeBool (s.free + e.delivered) then
      ({ e1 with gapAddrs := if e.gapAddrs.contains a then e.gapAddrs else a :: e.gapAddrs }, w)
    else ({ e1 with gapAllBut := some [] }, w)
  else
    let a := recAddr w
    let gap := e.gapAddrs.contains a || (match gaps with | some done => !done.contains a | none => false)
    ({ e1 with
        gapAllBut := gaps.map (fun l => if l.contains a then l else a :: l), gapAddrs := e.gapAddrs.filter (· != a) },
      withGap gap w)

/-- Up to `n` words of an extraction. -/
def extractMany : Nat → Extract → State → List Word → Extract × List Word
  | 0, e, _, acc => (e, acc)
  | n + 1, e, s, acc =>
    if e.stop ≤ max e.next (oldest (segOf s e.seg)) then
      ({ e with skipped := e.skipped + (min e.stop (oldest (segOf s e.seg)) - e.next), next := e.stop }, acc)
    else
      let r := extractOne e s
      extractMany n r.1 s (acc ++ [r.2])

/-- The metadata entries that describe the serials from `a` to before `b`, each as its two words (R308, R348). -/
def metaWords (x : Segment) (a b : Nat) : List Word :=
  let ends := (x.metas.drop 1).map (·.serial) ++ [x.serial]
  ((x.metas.zip ends).filter (fun p => decide (p.1.serial < b) && decide (a < p.2))).flatMap (fun p =>
    [mkWord [(0, 40, p.1.index), (40, 16, p.1.gen), (56, 16, p.1.epoch)], mkWord [(0, 96, t96 p.1.time)]])

/-- The words from `i` on written to the buffer of a descriptor. -/
def writeBuf (desc : Word) (ws : List Word) (s : State) : State :=
  { s with out := s.out ++ ws.mapIdx (fun i w => Out.hostWrite (fld desc 0 64 + 16 * i) w) }

/-- Replace an extraction. -/
def putExtract (e : Extract) (s : State) : State :=
  modBasin (fun b => { b with extracts := b.extracts.map (fun x =>
    if x.seq == e.seq && x.agent == e.agent && x.srcNode == e.srcNode then e else x) }) s

/-- One descriptor of a BASIN channel: the metadata of the buffer before it, or the next words of the extraction. -/
def moveBasin (c : Nat) (desc : Word) (s : State) : State :=
  let d := dmaOf s c
  let n := fld desc 64 24
  if !posted d then s
  else if !d.feed.isEmpty then
    let ws := d.feed.take n
    completeDesc c { desc := desc, words := ws.length, gen := 0, first := s.now, poison := false } .isMeta
      (modDma c (fun x => { x with feed := x.feed.drop n }) (writeBuf desc ws s))
  else match s.basin.extracts.find? (fun e => e.channel == some (c - 9)) with
    | none => s
    | some e =>
      let r := extractMany n e s []
      if r.2.isEmpty && n != 0 then putExtract r.1 s
      else
        let x := segOf s e.seg
        let s1 := putExtract r.1 { s with free := s.free + e.delivered + r.2.length }
        let s2 := modDma c (fun k => { k with feed := metaWords x (max e.next (oldest x)) r.1.next }) (writeBuf desc r.2 s1)
        completeDesc c { desc := desc, words := r.2.length, gen := 0, first := s.now, poison := r.2.contains poison } .full s2

/-- DMA_WRITE (R347 to R349): a channel in RUNNING moves what waits for it into the buffer of `desc`, the descriptor at
`CONS`: one word of a REC, LOG or SPARE channel, one buffer of a BASIN channel. -/
def execDmaWrite (t : Time) (c : Fin 16) (desc : Word) (bad : Bool) (s0 : State) : Outcome :=
  let s := tick t s0
  if !ringChannel c.val || (dmaOf s c.val).state != .running || !s.host.linkUp || !isUp s .hostif then .next s
  else if 9 ≤ c.val ∧ c.val ≤ 12 then .next (moveBasin c.val desc s)
  else .next (moveWord c.val desc bad s)

/-- REC_BUFFER_FLUSH (R348): `FLUSH_US` after its first record, the open buffer closes; 0 counts as 1. -/
def execRecBufferFlush (t : Time) (c : Fin 8) (s0 : State) : Outcome :=
  let s := tick t s0
  let d := dmaOf s c.val
  match d.buf with
  | none => .next s
  | some b =>
    if d.state == .running && decide (b.first + max 1 d.flushUs * usU ≤ s.now) && s.host.linkUp then
      .next (closeBuf c.val .byTimer s)
    else .next s

/-! ### Registers of a channel (R331, R350) -/

/-- `PROD` (R347). -/
def setProd (c : Nat) (v : BitVec 32) (s : State) : State :=
  modDma c (fun d => starve { d with prod := v.toNat % 65536 }) s

/-- DMA_PROD_WRITE. -/
def execDmaProdWrite (t : Time) (c : Fin 16) (value : BitVec 32) (s0 : State) : Outcome :=
  let s := tick t s0
  if isUp s .hostif then .next (setProd c.val value s) else .next s

/-- `DMA.START`: fits IDLE, STOPPED and ABORTED. -/
def startDma (c : Nat) (s : State) : State :=
  let st := (dmaOf s c).state
  if ringChannel c && (st == .idle || st == .stopped || st == .aborted) then
    modDma c (fun d => starve { d with state := .running }) s
  else s

/-- `DMA.STOP`: fits RUNNING, STARVED and HALTED_UE; the buffer in use ends with `ENDED` (R350). -/
def stopDma (c : Nat) (s : State) : State :=
  let st := (dmaOf s c).state
  if st == .running || st == .starved || st == .haltedUe then
    modDma c (fun d => { d with state := .stopped, badWord := none }) (closeBuf c .ended s)
  else s

/-- The channel goes on with a word in the bad one's place. -/
def resumeWith (c : Nat) (w : Word) (poisoned : Bool) (s : State) : State :=
  let s1 := putWord c w poisoned (modDma c (fun d => { d with state := .running, badWord := none }) s)
  modDma c (fun d => if d.buf.isSome then d else starve d) s1

/-- The first word that satisfies a test takes `GAP_BEFORE`. -/
def gapFirst (p : QRec → Bool) : List QRec → List QRec
  | [] => []
  | r :: rest => if p r then { r with word := withGap true r.word } :: rest else r :: gapFirst p rest

/-- The words that wait for a ring. -/
def ringWords (s : State) (c : Nat) : List QRec :=
  (s.daq.queues.filter (fun q => q.dest == .ring c)).flatMap (·.recs)

/-- `GAP_BEFORE` on the next record of an address that reaches a ring (R186): the first that waits for it, else the next one
accepted for it. -/
def gapAtRing (c : Nat) (s : State) (k : Option (BitVec 16) × Nat) : State :=
  let hit : QRec → Bool := fun r => r.node == k.1 && recAddr r.word == k.2
  match (ringWords s c).find? hit with
  | some r => modPath k.1 k.2 (fun x => { x with gaps := x.gaps + b2n (!fbit r.word 11) }) (modDaq (fun d => { d with
      queues := d.queues.map (fun q => if q.dest == .ring c then { q with recs := gapFirst hit q.recs } else q) }) s)
  | none => modPath k.1 k.2 (owe (.ring c)) s

/-- Every address that a ring receives: of this node's channels and operators, and of other nodes; each once. -/
def ringAddrs (s : State) (c : Nat) : List (Option (BitVec 16) × Nat) :=
  let takes : Sub → Bool := fun u => (subDests u).contains (.ring c)
  let own := (List.range 512).filter (fun a => takes (addrOf s a).sub || takes (subFor (addrOf s a) s.now))
  let derived := s.oper.flatMap (fun o => match o.cfg with
    | some k => if takes k.sub then (List.range (opOutputs k.kind)).map (k.outBase + ·) else []
    | none => [])
  let far := (s.daq.remoteSubs.filter (fun r => takes r.st.sub)).map (fun r => (some r.node, r.addr))
  ((own ++ derived).map (fun a => ((none : Option (BitVec 16)), a)) ++ far ++
    (ringWords s c).map (fun r => (r.node, recAddr r.word))).eraseDups

/-- The channel halted at a bad word goes on where `DMA.RESUME` fits it; otherwise nothing happens (R350). -/
def resumeFit (c : Nat) (f : Word → State → State) (s : State) : State :=
  let d := dmaOf s c
  match d.badWord with
  | some w => if d.state == .haltedUe then f w s else s
  | none => s

/-- `DMA.RESUME` (R350): the bad word is read again, and the channel halts again if it is still uncorrectable. -/
def resumeDma (c : Nat) (stillBad : Bool) (s : State) : State :=
  resumeFit c (fun w x => if stillBad then haltDma c w x else resumeWith c w false x) s

/-- What a poison record in a bad word's place leaves at its ring: whether the word's address can be read is a free choice
(R193). -/
def skipGaps (c : Nat) (w : Word) (s : State) : State :=
  let r := drawBool s
  if r.1 then gapAtRing c r.2 ((dmaOf s c).badNode, recAddr w) else (ringAddrs r.2 c).foldl (gapAtRing c) r.2

/-- `DMA.RESUME` with skip (R193, R350): a poison record in the bad word's place, and, on a REC ring, `GAP_BEFORE` on the next
record of the bad record's address, or of every address where the address cannot be read. -/
def resumeSkipDma (c : Nat) (s : State) : State :=
  resumeFit c (fun w x => resumeWith c poison true (if 8 ≤ c then x else skipGaps c w x)) s

/-- `ACTION` (R8, R350): 1 start, 2 stop, 3 resume, 4 resume with skip; whether the word read again is still bad is a free
choice here, and an operand of the row DMA_RESUME. -/
def dmaAction (c : Nat) (v : BitVec 32) (s : State) : State :=
  match v.toNat % 8 with
  | 1 => startDma c s
  | 2 => stopDma c s
  | 3 =>
    let r := drawBool s
    resumeDma c r.1 r.2
  | 4 => resumeSkipDma c s
  | _ => s

/-- An action on a channel, while the island runs. -/
def dmaDo (t : Time) (f : State → State) (s0 : State) : Outcome :=
  let s := tick t s0
  .next (if isUp s .hostif then f s else s)

/-- DMA_START (R350). -/
def execDmaStart (t : Time) (c : Fin 16) (s : State) : Outcome := dmaDo t (startDma c.val) s

/-- DMA_STOP (R350). -/
def execDmaStop (t : Time) (c : Fin 16) (s : State) : Outcome := dmaDo t (stopDma c.val) s

/-- DMA_RESUME (R350). -/
def execDmaResume (t : Time) (c : Fin 16) (stillBad : Bool) (s : State) : Outcome := dmaDo t (resumeDma c.val stillBad) s

/-- DMA_RESUME_SKIP (R193, R350). -/
def execDmaResumeSkip (t : Time) (c : Fin 16) (s : State) : Outcome := dmaDo t (resumeSkipDma c.val) s

/-- DMA_DROPPED_READ (R8, R349): `DROPPED` reads and clears. -/
def execDmaDroppedRead (t : Time) (ring : Fin 8) (s0 : State) : Outcome :=
  let s := tick t s0
  if !isUp s .hostif then .next s
  else
    let n := (dmaOf s ring.val).dropped
    .next (modHost (fun h => { h with rcData := n }) (modDma ring.val (fun d => { d with dropped := 0 }) s))

end Sys2Proof.Machine
end

