-- ==== Sys2Proof/Machine/Image.lean ====
section
/-! DEFINITION. The configuration image: its records (R382), the checks at staging (R259, R316, R383), and how a commit
applies it (R135, R384, R420). -/

namespace Sys2Proof.Machine

/-! ### Records (R382) -/

/-- One record of an image. -/
structure ImgRec where
  kind : Nat
  first : Nat
  last : Nat
  body : List Word
deriving DecidableEq, Repr, Inhabited

/-- Cut an image into records: none where a header word has reserved bits or a payload is cut short. -/
def parseImage : Nat → List Word → Option (List ImgRec)
  | _, [] => some []
  | 0, _ :: _ => none
  | n + 1, h :: rest =>
    let len := fld h 16 8
    if !onlyBits h [(0, 44)] || decide (rest.length < len) then none
    else (parseImage n (rest.drop len)).map (fun rs =>
      { kind := fld h 0 16, first := fld h 24 10, last := fld h 34 10, body := rest.take len } :: rs)

/-- The lengths a type admits: as the equivalent command's (R382). -/
def recLen (kind : Nat) : Option (Nat × Nat) :=
  match kind with
  | 0x01 => some (1, 1) | 0x02 => some (1, 1) | 0x03 => some (1, 1) | 0x04 => some (1, 1) | 0x05 => some (1, 1)
  | 0x06 => some (1, 1) | 0x07 => some (2, 2) | 0x08 => some (1, 1) | 0x09 => some (1, 1) | 0x0A => some (4, 81)
  | 0x0B => some (1, 1) | 0x10 => some (1, 1) | 0x11 => some (1, 1) | 0x12 => some (1, 1) | 0x13 => some (3, 79)
  | 0x14 => some (1, 1) | 0x15 => some (2, 66) | 0x16 => some (1, 1) | 0x20 => some (1, 1) | 0x21 => some (2, 2)
  | 0x22 => some (1, 1) | 0x23 => some (1, 1) | 0x24 => some (1, 1) | 0x30 => some (1, 1) | 0x31 => some (1, 1)
  | 0xFFFF => some (0, 0)
  | _ => none

/-- The type exists and its length is right (R383). -/
def recLenOk (r : ImgRec) : Bool :=
  match recLen r.kind with
  | none => false
  | some b => decide (b.1 ≤ r.body.length) && decide (r.body.length ≤ b.2)

/-- A record for the whole ring. -/
def wholeRing (r : ImgRec) : Bool := r.first == 0 && r.last == 999

/-- The records of an image in form: HEADER first, END last and nowhere else, every type and length right (R382, R383). -/
def recordsOf (ws : List Word) : Option (List ImgRec) :=
  match parseImage ws.length ws with
  | none => none
  | some rs =>
    match rs with
    | [] => none
    | h :: rest =>
      let fin := rest.getLastD h
      if h.kind == 1 && wholeRing h && onlyBits (h.body.getD 0 0) [(0, 39)] && fin.kind == 0xFFFF && wholeRing fin &&
          rs.all recLenOk && rest.dropLast.all (fun r => r.kind != 1 && r.kind != 0xFFFF) then some rs
      else none

/-- A record applies to the node at a position; one without a position takes the records of the whole ring only (R382). -/
def recFor (pos : Option Nat) (r : ImgRec) : Bool :=
  wholeRing r || (match pos with | some p => decide (r.first ≤ p) && decide (p ≤ r.last) | none => false)

/-- The generation that an image's HEADER names, where it has one. -/
def headerGen (ws : List Word) : Option Nat :=
  match ws with
  | h :: b :: _ => if fld h 0 16 = 1 then some (fld b 0 16) else none
  | _ => none

/-! ### What the records say -/

/-- A record as the request of its equivalent command. -/
def imgReq (body : List Word) : Request :=
  { agent := .host, mailbox := 0, srcNode := 0, seq := 0, bell := 0, arrival := 0, len := body.length,
    eventOnDone := false, noMsix := false, remote := none, payload := body, readable := true }

/-- The entry of the routing table that a ROUTE record names (R291, R382). -/
def routeOf (w : Word) : Option Route :=
  let gate := fun (lo : Nat) => let a := BitVec.ofNat 16 (fld w lo 16); if a = 0xFFFF#16 then none else some a
  match fld w 6 2 with
  | 0 => some .own
  | 1 => some .unreachable
  | 2 => some (.gateways (gate 8) (gate 24))
  | _ => none

/-- The use that a SLOT_USE record names. -/
def useOf (n : Nat) : SlotUse :=
  match n with | 0 => .unused | 1 => .fabric | 2 => .express | 3 => .terminate | _ => .regen

/-- A slot under a SLOT_USE record: unchanged use is not disturbed; another one comes into use at `b`, the first cycle boundary
of its lane at or after the commit, and until then the slot stays as it is at `t` (R258). -/
def slotTo (t b : Time) (w : Word) (x : Slot) : Slot :=
  let u := useOf (fld w 7 3)
  let o := fld w 10 6
  let c := BitVec.ofNat 16 (fld w 16 16)
  if x.use == u && x.other == o && x.circuit == c then x
  else { x with
    use := u, other := o, circuit := c, was := some (b, (slotInUse x t).use, (slotInUse x t).other, (slotInUse x t).circuit)
    hopsIn := 127, alignLost := false, protecting := false, lastBudget := none }

/-- The circuit of a CIRCUIT record, over what the node knows of it. -/
def circuitTo (w : Word) (old : Option Circuit) : Circuit :=
  let x := old.getD { id := BitVec.ofNat 16 (fld w 0 16), slots := 0, prot := false, workWest := false, sheddable := false,
                      declaredUs := 0, dropIf := 0, shed := false, aligned := false, degraded := false, measuredUs := 0,
                      onProtecting := false }
  { x with slots := fld w 16 6, prot := fbit w 22, workWest := fbit w 23, sheddable := fbit w 24, declaredUs := fld w 25 20,
           dropIf := fld w 45 3 }

/-- The drop configuration exists on this variant (R261): 1 to 4 on a W part, 5 to 7 on a V part. -/
def dropAllowed (v : Bool) (n : Nat) : Bool :=
  n == 0 || n == 8 || (if v then decide (5 ≤ n) && decide (n ≤ 7) else decide (1 ≤ n) && decide (n ≤ 4))

/-- What a ROUTE, SLOT_USE, CIRCUIT, DROP, ETHM or BRIDGE_GROUP record does (R382). -/
def applyFabricRec (kind : Nat) (body : List Word) (s : State) : Reply :=
  let w := body.getD 0 0
  match kind with
  | 0x02 =>
    match routeOf w with
    | some r =>
      if !onlyBits w [(0, 40)] || fld w 0 6 == 63 then deny stBadParam s
      else okay [] (modFab (fun x => { x with routes := x.routes.set (fld w 0 6) r }) s)
    | none => deny stBadParam s
  | 0x04 =>
    if !onlyBits w [(0, 32)] || decide (4 < fld w 7 3) then deny stBadParam s
    else
      let b := nextCycle (laneOf s (fld w 0 1) (fld w 1 6 / 8)).half s.now
      okay [] (modLineSlot (fld w 0 1) (fld w 1 6) (slotTo s.now b w) s)
  | 0x05 =>
    let id := BitVec.ofNat 16 (fld w 0 16)
    if !onlyBits w [(0, 48)] || (fbit w 22 && fbit w 24) then deny stBadParam s
    else okay [] (modLine (fun x => { x with
      circuits := upsert x.circuits (fun c => c.id == id) (circuitTo w (circuitOf s id)) }) s)
  | 0x06 =>
    if !onlyBits w [(0, 4)] || !dropAllowed (isV s) (fld w 0 4) then deny stBadParam s
    else okay [] (modLine (fun x => { x with drop := fld w 0 4 }) s)
  | 0x07 =>
    let q := body.getD 1 0
    let p := fld w 0 1
    if !onlyBits w [(0, 8)] || !ptpWordOk q || fld q 0 1 != p then deny stBadParam s
    else okay [] (setPtp q (modEth p (fun e => { e with bridge := fbit w 3, group := fld w 4 4 })
      (ethSet p (fbit w 1) (fbit w 2) s)))
  | _ =>
    if !onlyBits w [(0, 5)] then deny stBadParam s
    else okay [] { s with eth := { s.eth with groups := s.eth.groups.set (fld w 0 4) (some (fbit w 4)) } }

/-- What a record does, checked as its equivalent command checks it (R382, R383). An OPERATOR record's slot runs from the
commit. -/
def applyRec (r : ImgRec) (s : State) : Reply :=
  let rq := imgReq r.body
  match r.kind with
  | 0x01 => okay [] s
  | 0x03 => ownLaneConfig true rq s
  | 0x09 => ownBasinConfigSegment true rq s
  | 0x0A =>
    let x := ownOperConfig true rq s
    if x.status = stOk then okay [] (opEmpty (fld (r.body.getD 0 0) 0 5) .running x.st) else x
  | 0x0B => ownRecSubscribe true rq s
  | 0x10 => ownChanConfig true rq s
  | 0x11 => ownExcConfig true rq s
  | 0x12 => ownFiltConfig true rq s
  | 0x13 => ownFiltLoadBank true rq s
  | 0x14 => ownFiltSelectMode true rq s
  | 0x15 => ownWeaveLoad true rq s
  | 0x16 => ownCalConfig true rq s
  | 0x20 => ownTimeConfigDomain true rq s
  | 0x21 => ownTimeConfigServo true rq s
  | 0x22 => ownTimeSetAsym true rq s
  | 0x23 => ownTimeConfigRoot true rq s
  | 0x24 => ownTimeSelectDomain true rq s
  | 0x30 => ownThermConfig true rq s
  | 0x31 =>
    let w := r.body.getD 0 0
    if !onlyBits w [(0, 2)] then deny stBadParam s else okay [] (imageOp (fld w 0 2) s)
  | 0xFFFF => okay [] s
  | k => applyFabricRec k r.body s

/-! ### The checks of one node (R383) -/

/-- The records that apply, checked in image order against the state that the earlier ones would leave: the status that
refuses the image, if any, and the state they would leave. -/
def tryRecords (rs : List ImgRec) (s : State) : Option (BitVec 16) × State :=
  rs.foldl (fun acc r =>
    match acc.1 with
    | some st => (some st, acc.2)
    | none =>
      let x := applyRec r acc.2
      if x.status = stOk then (none, x.st) else (some x.status, acc.2)) (none, s)

/-! ### The rules over the whole image (R259, R263 to R265, R316) -/

/-- What the rules read of one node: its slots by port, its circuits, its drop port, its segments (number, size, mirror,
target). -/
structure NodeView where
  slots : List (List Slot)
  circuits : List Circuit
  drop : Nat
  segs : List (Nat × Nat × Nat × Bool)
deriving DecidableEq, Repr, Inhabited

/-- A record's part in a node's view. -/
def viewRec (v : NodeView) (r : ImgRec) : NodeView :=
  let w := r.body.getD 0 0
  match r.kind with
  | 0x04 => { v with slots := v.slots.modify (fld w 0 1) (fun l => l.modify (fld w 1 6) (slotTo 0 0 w)) }
  | 0x05 =>
    let id := BitVec.ofNat 16 (fld w 0 16)
    { v with circuits := upsert v.circuits (fun c => c.id == id) (circuitTo w (v.circuits.find? (fun c => c.id == id))) }
  | 0x06 => { v with drop := fld w 0 4 }
  | 0x09 =>
    let g := fld w 0 10
    let old := (v.segs.find? (fun x => x.1 == g)).getD (g, 0, 0, false)
    let new := (g, if fbit w 108 then fld w 10 14 else old.2.1, if fbit w 113 then fld w 103 2 else old.2.2.1,
      if fbit w 115 then fbit w 107 else old.2.2.2)
    { v with segs := upsert v.segs (fun x => x.1 == g) new }
  | _ => v

/-- This node's own view. -/
def ownView (s : State) : NodeView :=
  { slots := s.line.slots, circuits := s.line.circuits, drop := s.line.drop
    segs := (List.range 1024).filterMap (fun g =>
      let x := segOf s g
      if x.sizeMib = 0 then none else some (g, x.sizeMib, x.mirror, x.target)) }

/-- The view of a node after POR. -/
def porView : NodeView :=
  { slots := State.reset.line.slots, circuits := State.reset.line.circuits, drop := State.reset.line.drop, segs := [] }

/-- The node at a position under the image: this node as it stands, another one after POR with the image in force here. -/
def viewAt (s : State) (rs : List ImgRec) (p : Nat) : NodeView :=
  let before := (s.cfg.active.bind (fun i => recordsOf i.words)).getD []
  let base := if s.fab.pos = some p then ownView s
    else (before.filter (recFor (some p))).foldl viewRec porView
  (rs.filter (recFor (some p))).foldl viewRec base

/-- Nodes of the ring: its size, or as far as the image names positions while the size is unknown. -/
def ringSpan (s : State) (rs : List ImgRec) : Nat :=
  let named := (rs.filter (fun r => !wholeRing r)).map (fun r => min r.last 999 + 1)
  match s.fab.n with
  | some n => n
  | none => (((s.fab.pos.map (· + 1)).getD 1) :: named).foldl max 1

/-- The position that a port's link leads to. -/
def nextPos (s : State) (n p port : Nat) : Option Nat :=
  if n < 2 then none
  else if s.fab.n.isSome then some (if port = 0 then (p + 1) % n else (p + n - 1) % n)
  else if port = 0 then (if p + 1 < n then some (p + 1) else none)
  else if 0 < p then some (p - 1) else none

def vSlot (v : NodeView) (p i : Nat) : Slot := (v.slots.getD p []).getD i default

/-- FABRIC slots of a port, as numbers. -/
def fabricSet (v : NodeView) (p : Nat) : List Nat := (List.range 64).filter (fun i => (vSlot v p i).use == .fabric)

/-- A forwarded slot names one slot of the other port, which names it (R259). -/
def pairedOk (v : NodeView) (p i : Nat) : Bool :=
  let x := vSlot v p i
  if x.use == .express || x.use == .regen then
    let y := vSlot v (1 - p) x.other
    y.use == x.use && y.other == i
  else true

/-- Slots per circuit of a drop configuration, and its interfaces (R261). -/
def dropShape (n : Nat) : Nat × Nat :=
  match n with
  | 1 => (32, 1) | 2 => (16, 2) | 3 => (8, 4) | 4 => (4, 8) | 5 => (16, 1) | 6 => (8, 2) | 7 => (4, 4)
  | _ => (0, 0)

/-- TERMINATE slots of a circuit on a port. -/
def termCount (v : NodeView) (p : Nat) (id : BitVec 16) : Nat :=
  ((List.range 64).filter (fun i => (vSlot v p i).use == .terminate && (vSlot v p i).circuit == id)).length

/-- The circuits that a node terminates. -/
def terminated (v : NodeView) : List Circuit := v.circuits.filter (fun c => decide (0 < termCount v 0 c.id + termCount v 1 c.id))

/-- The rules that read one node (R259, R261, R264, R265). -/
def nodeRules (v : NodeView) : Bool :=
  let ports := [0, 1]
  let sh := dropShape v.drop
  let named := (ports.flatMap (fun p => (List.range 64).map (vSlot v p))).all (fun x =>
    x.use != .terminate || v.circuits.any (fun c => c.id == x.circuit))
  let circ := (terminated v).all (fun c =>
    let w := b2n c.workWest
    c.slots == sh.1 && decide (c.dropIf < sh.2) && termCount v w c.id == c.slots &&
      (if c.prot then termCount v (1 - w) c.id == c.slots else termCount v (1 - w) c.id == 0))
  let align : Nat := ((terminated v).map (fun c => if c.prot then c.slots * c.declaredUs else 0)).sum
  ports.all (fun p => decide (1 ≤ (fabricSet v p).length) && decide ((fabricSet v p).length ≤ 16) &&
      (List.range 64).all (pairedOk v p) &&
      decide (((List.range 64).filter (fun i => (vSlot v p i).use == .regen)).length ≤ 16)) &&
    named && circ && decide (align ≤ 10100) && v.circuits.all (fun c => !(c.prot && c.sheddable))

/-- Express transits in a row from an ingress slot, up to `fuel` (R263). -/
def transits (s : State) (n : Nat) (vs : List NodeView) : Nat → Nat → Nat → Nat → Nat
  | 0, _, _, _ => 0
  | fuel + 1, p, port, i =>
    let x := vSlot (vs.getD p porView) port i
    if x.use == .express then
      match nextPos s n p (1 - port) with
      | some q => 1 + transits s n vs fuel q port x.other
      | none => 1
    else 0

/-- A segment with a mirror has a target of its number and at least its size at the neighbour (R316). -/
def mirrorOk (s : State) (n : Nat) (vs : List NodeView) (p : Nat) : Bool :=
  ((vs.getD p porView).segs).all (fun x =>
    if x.2.1 = 0 ∨ x.2.2.1 = 0 then true
    else match nextPos s n p (x.2.2.1 - 1) with
      | none => false
      | some q => ((vs.getD q porView).segs).any (fun y => y.1 == x.1 && y.2.2.2 && decide (x.2.1 ≤ y.2.1)))

/-- The rules over the whole image hold (R259, R316). -/
def imageRules (s : State) (rs : List ImgRec) : Bool :=
  let n := ringSpan s rs
  let vs := (List.range n).map (viewAt s rs)
  vs.all nodeRules && (List.range n).all (fun p =>
    mirrorOk s n vs p &&
    (match nextPos s n p 0 with
      | some q => fabricSet (vs.getD p porView) 0 == fabricSet (vs.getD q porView) 1
      | none => true) &&
    [0, 1].all (fun port => (List.range 64).all (fun i => decide (transits s n vs 65 p port i ≤ 64))))

/-- No slot of this node lies on an absent or half-rate-missing position (R257, R259), under the lanes' settings. -/
def slotsThere (s : State) : Bool :=
  [0, 1].all (fun p => (List.range 64).all (fun i =>
    (slotSet s p i).use == .unused ||
      (lanePresent s (i / 8) && (!(laneOf s p (i / 8)).set.half || decide (i % 8 < 4)))))

/-- An image as one node judges it (R298, R383): the status that refuses it. -/
def nodeCheck (ws : List Word) (s : State) : Option (BitVec 16) :=
  match recordsOf ws with
  | none => some stBadParam
  | some rs =>
    let x := tryRecords (rs.filter (recFor s.fab.pos)) s
    match x.1 with
    | some st => some st
    | none =>
      let v := ownView x.2
      if nodeRules v && slotsThere x.2 then none else some stBadParam

/-! ### Applying an image (R135, R384, R420) -/

/-- The channel that a FILTER, BANK, MODE or WEAVE record names while its weave runs: the record is not applied (R384). -/
def weaveKept (s : State) (r : ImgRec) : Option Nat :=
  let c := fld (r.body.getD 0 0) 0 6
  if decide (0x12 ≤ r.kind) && decide (r.kind ≤ 0x15) && woven s c then some c else none

/-- A BANK or MODE record for a shadow that runs is not applied: the command would find it not stopped (R383). -/
def shadowKept (s : State) (r : ImgRec) : Bool :=
  let w := r.body.getD 0 0
  (r.kind == 0x13 || r.kind == 0x14) && fbit w 6 && running (chanOf s (fld w 0 6)).shadow

/-- Channels of which a CHANNEL or EXCITATION record leaves parts out (R157, R384). -/
def partsKept (s : State) (r : ImgRec) : List Nat :=
  let w := r.body.getD 0 0
  match r.kind with
  | 0x10 =>
    let c := fld w 0 6
    if (List.range 10).any (fun i => fbit w (64 + i) && chanRefused (chanOf s c) w i) then [c] else []
  | 0x11 =>
    let n := fld w 0 4
    let new := excMerge w (fun i => fbit w (89 + i)) (effGen (genOf s n))
    if weaveOwned s n then [4 * n] else if new.mode == .ac then (fedBy n).filter (woven s) else []
  | _ => []

/-- Add channels to those that a commit reports. -/
def noteChans (old new : List Nat) : List Nat := old ++ new.filter (fun c => !old.contains c)

/-- The records in image order; at a start only EMPTY and UNCONFIGURED segments change (R384, R450). -/
def applyRecords (start : Bool) (rs : List ImgRec) (s : State) : State × List Nat :=
  rs.foldl (fun acc r =>
    let seg := fld (r.body.getD 0 0) 0 10
    match weaveKept acc.1 r with
    | some c => (acc.1, noteChans acc.2 [c])
    | none =>
      if shadowKept acc.1 r || (start && r.kind == 9 && !segOff acc.1 seg && (segOf acc.1 seg).state != .empty) then acc
      else
        let x := applyRec r acc.1
        if x.status = stOk then (x.st, noteChans acc.2 (partsKept acc.1 r)) else acc) (s, [])

/-- Two instances filter alike: the same mode and, in a bank mode, the same bank. -/
def sameFilter (a b : FiltInst) : Bool := a.mode == b.mode && bankSel a == bankSel b

/-- The shadow that firmware prepared is ready at the commit: it runs the new filter and its window, which passes over
blanked samples, is full (R52, R135). -/
def shadowReady (s : State) (c : Nat) (new : FiltInst) : Bool :=
  let x := chanOf s c
  s.cfg.prepared.contains c && x.fade == .normal && x.shadow.run == .running && sameFilter x.shadow new &&
    decide ((x.shadow.start : Int) ≤
      (windowStart x.blanks (x.blanks.length + 1) s.now ((spanOf new.mode (bankSel new) + 7) * cycU)).1)

/-- A running channel's filter changes at the commit (R135, R419): as a switch of one record onto the prepared shadow, else by
a stop and start of the primary, which is reported; a mode above RILL is capped under L3. -/
def changeFilter (c : Nat) (old new : FiltInst) (s : State) : State × List Nat :=
  let cap := decide (3 ≤ s.therm.level) && fastMode new
  let s0 := modChan c (fun x => { x with capped := if cap then some new.mode else none }) s
  if !cap && shadowReady s c new then
    (modChan c (fun x => { x with
      primary := { old with merger := x.primary.merger }
      shadow := { x.shadow with bankA := new.bankA, bankB := new.bankB }
      fade := .pending 1, lastFadeTs := none, fadeFrom := s.now - 1 }) s0, [])
  else
    let f := { new with mode := if cap then 2 else new.mode, run := .running }
    let s1 := cutFade c s0.now s0
    let s2 := modChan c (fun x => { x with
      primary := restartInst (max (s1.now + 1) (phaseFloor s1 c)) false f
      shadow := if s.cfg.prepared.contains c then { x.shadow with run := .stopped } else x.shadow
      last := none }) s1
    (gapChan c s2, [c])

/-- The filter changes of an image, channel by channel, against the instances of before. -/
def changeFilters (before : State) (s : State) : State × List Nat :=
  (List.range 64).foldl (fun acc c =>
    let old := (chanOf before c).primary
    let new := (chanOf acc.1 c).primary
    if old.run == .running && !sameFilter old new then
      let x := changeFilter c old new acc.1
      (x.1, noteChans acc.2 x.2)
    else acc) (s, [])

/-- Firmware's shadows for a staged image stop. -/
def dropPrepared (s : State) : State :=
  let s1 := s.cfg.prepared.foldl (fun acc c =>
    if (chanOf acc c).fade == .normal then modChan c (fun x => { x with shadow := { x.shadow with run := .stopped } }) acc
    else acc) s
  { s1 with cfg := { s1.cfg with prepared := [] } }

/-- At staging firmware starts the shadow of every running channel whose filter the image changes, unless a weave or a
cross-fade runs or the host runs the shadow (R135). -/
def prepareShadows (after : State) (s : State) : State :=
  (List.range 64).foldl (fun acc c =>
    let x := chanOf acc c
    let new := (chanOf after c).primary
    if x.primary.run == .running && !sameFilter x.primary new && !woven acc c && x.fade == .normal &&
        x.shadow.run == .stopped && !(decide (3 ≤ acc.therm.level) && fastMode new) then
      let s1 := modChan c (fun x => { x with
        shadow := { x.shadow with mode := new.mode, bankA := new.bankA, bankB := new.bankB, run := .starting } }) acc
      { s1 with cfg := { s1.cfg with prepared := s1.cfg.prepared ++ [c] } }
    else acc) s

/-- An image comes into force over the settings: the state and the channels reported. -/
def applyImage (start : Bool) (ws : List Word) (s : State) : State × List Nat :=
  let rs := ((recordsOf ws).getD []).filter (recFor s.fab.pos)
  let a := applyRecords start rs s
  let b := changeFilters s a.1
  let s1 := checkLinks b.1
  let s2 := if 2 ≤ s1.therm.level then shedEnter s1 else s1
  (calRefreshAll (capRefreshAll (opRefresh s2)), noteChans a.2 b.2)

end Sys2Proof.Machine
end

