-- ==== Sys2Proof/Machine/Cfg.lean ====
section
/-! DEFINITION. Configuration: staging, the commit and its outcomes, catch-up, and the CFG commands (R297 to R303, R372,
R375, R376, R384). -/

namespace Sys2Proof.Machine

/-- Change the configuration state. -/
def modCfg (f : CfgSt → CfgSt) (s : State) : State := { s with cfg := f s.cfg }

/-- The ring broadcast address of this node's ring (R289). -/
def ringCast (s : State) : BitVec 16 := BitVec.ofNat 16 (s.fab.ring * 1024 + 1023)

/-- A commit is armed, or a stage runs (R298, R300). -/
def cfgBusy (s : State) : Bool := s.cfg.armed.isSome || isHeld s .config

/-- A long command that ends in the row that started it: what follows `ACCEPTED` (R338). -/
def finishing (rq : Request) (before after : State) (f : State → State) : State :=
  let mine := fun (x : Running) => x.agent == rq.agent && x.seq == rq.seq && x.srcNode == rq.srcNode
  if after.mgmt.running.any mine && !before.mgmt.running.any mine then f after else after

/-- The command of a request ends. -/
def endRq (rq : Request) (status : BitVec 16) (steps : Nat) (s : State) : State :=
  endLong rq.agent rq.srcNode rq.seq status steps s

/-! ### The staged image (R135, R298) -/

/-- The staged image and what firmware prepared for it are lost or replaced; a commit armed for it frees slot 63 (R298,
R300). -/
def dropStaged (s : State) : State :=
  let s1 := dropPrepared s
  match s1.cfg.armed with
  | none => modCfg (fun x => { x with staged := none, catchingUp := false }) s1
  | some a => putSlot 63 none (modCfg (fun x => { x with
      staged := none, catchingUp := false, armed := none, lostCommit := if a.catchup then x.lostCommit else some a }) s1)

/-- An image becomes this node's staged image; firmware prepares shadows for the filters it changes (R135, R298). -/
def stageImage (img : Image) (catchup : Bool) (s : State) : State :=
  let s1 := modCfg (fun x => { x with staged := some img, catchingUp := catchup }) (dropPrepared s)
  let rs := ((recordsOf img.words).getD []).filter (recFor s.fab.pos)
  prepareShadows (applyRecords false rs s1).1 s1

/-- A CONFIG frame's payload (R275): byte offset, generation and digest64, then image bytes. -/
def configWords (img : Image) (offset : Nat) (ws : List Word) : List Word :=
  mkWord [(0, 32, offset), (32, 16, img.gen), (64, 64, (digest64Of img.digest).toNat)] :: ws

/-- An image goes out as CONFIG frames of at most 510 image words. -/
def sendImage (img : Image) (dest : BitVec 16) (s : State) : State :=
  (List.range ((img.words.length + 509) / 510)).foldl (fun acc i =>
    originate (frameFor 3 7 dest acc.cfg.activeGen
      (configWords img (8160 * i) ((img.words.drop (510 * i)).take 510))) acc) s

/-- The bytes of an image. -/
def imageBytes (ws : List Word) : List Byte := ws.flatMap wordBytes

/-! ### The commit (R232, R258, R299 to R301, R308, R384) -/

/-- The commit result (R299, R381). -/
def commitResult (code gen : Nat) (chans : List Nat) (s : State) : State :=
  emitNow 0x0201 code gen [mkWord (chans.map (fun c => (c, 1, 1)))] (modCfg (fun x => { x with lastResult := code }) s)

/-- The image is written to the inactive configuration slot and marked active (R300, R440). -/
def storeConfig (img : Image) (s : State) : State :=
  let toB := s.nv.activeCfg == 0
  let header := nvHeader (b2n toB) s.nv.cfgSeq img.words.length 0
  let slot : CfgSlot :=
    { header := header, commit := nvCommit header img.words, gen := img.gen, digest := img.digest, words := img.words }
  { s with nv := { s.nv with
      cfgSeq := (s.nv.cfgSeq + 1) % 2 ^ 32
      cfgA := if toB then s.nv.cfgA else slot
      cfgB := if toB then slot else s.nv.cfgB
      activeCfg := b2n toB
      invalid := setBit s.nv.invalid (b2n toB) false
      writesSince := s.nv.writesSince + 1 } }

/-- Live export frames close: no frame holds records of two generations (R191, R275). -/
def closeExports (s : State) : State :=
  (List.range 10).foldl (fun acc g => (exportNodes acc g).foldl (fun a n => closeExport true g n a) acc) s

/-- An anchor takes the ring identifier from its committed image (R286). -/
def takeRing (ws : List Word) (s : State) : State :=
  match ws with
  | _ :: b :: _ => if s.fab.role == .none then s else modFab (fun x => { x with ring := fld b 16 6 }) s
  | _ => s

/-- The node switches to an image (R300): its records apply, its generation and digest come into force, and firmware stores
it. -/
def commitSwitch (img : Image) (code : Nat) (s : State) : State :=
  let s1 := closeRings (cutMeta (closeExports s))
  let a := applyImage false img.words s1
  let s2 := modCfg (fun x => { x with
    activeGen := img.gen, activeDigest := img.digest, active := some img, staged := none, catchingUp := false
    prepared := [] }) a.1
  noteDivergence (storeConfig img (commitResult code img.gen a.2 (takeRing img.words s2)))

/-- Slot 63 fires (R300 *Commit outcomes*): `late` when a step of the timebase carried it past T. -/
def fireCommit (late : Bool) (s : State) : State :=
  match s.cfg.armed with
  | none => s
  | some a =>
    let s1 := modCfg (fun x => { x with armed := none }) s
    if s1.pwr.sagWarn then commitResult 5 a.gen [] s1
    else match s1.cfg.staged with
      | none => commitResult 4 a.gen [] s1
      | some img =>
        if img.gen = a.gen ∧ img.digest = a.digest then commitSwitch img (if late then 7 else 1) s1
        else commitResult 3 a.gen [] s1

/-- At T of a commit whose staged image and slot a restart lost: the node stays, NOT_STAGED (R300). -/
def lostCommitDue (s : State) : State :=
  match s.cfg.lostCommit with
  | none => s
  | some a =>
    if a.time ≤ tbNow s then commitResult 4 a.gen [] (modCfg (fun x => { x with lostCommit := none }) s) else s

/-- At a start with autoload on, the committed image is applied over the values after POR (R384, R441, R448). A copy that the
mark names and that is invalid gives way to the other one, with the NV fallback event. -/
def autoload (s : State) : State :=
  let firstB := s.nv.activeCfg == 1
  let a := if firstB then s.nv.cfgB else s.nv.cfgA
  let b := if firstB then s.nv.cfgA else s.nv.cfgB
  let take := fun (c : CfgSlot) (x : State) =>
    let img : Image := { gen := c.gen, digest := c.digest, words := c.words }
    if x.nv.autoload then
      modCfg (fun k => { k with activeGen := c.gen, activeDigest := c.digest, active := some img })
        (takeRing c.words (applyImage true c.words x).1)
    else x
  if cfgSlotValid a then take a s
  else if cfgSlotValid b then
    take b (emitNow 0x5401 (b2n firstB) 0 [] { s with nv := { s.nv with invalid := setBit s.nv.invalid (b2n firstB) true } })
  else { s with nv := { s.nv with invalid := setBit (setBit s.nv.invalid 0 true) 1 true } }

/-! ### CFG.STAGE (R298, R372, R375, R383) -/

/-- The digest that a request names in Q3 and Q4. -/
def rqDigest (rq : Request) : BitVec 256 := qword rq 4 ++ qword rq 3

/-- CFG.STAGE's own part: what is checked before `ACCEPTED`. -/
def ownCfgStage (rq : Request) (s : State) : Reply :=
  let q := qword rq 1
  let n := fld (qword rq 2) 0 17
  guarded
    [(!onlyBits q [(0, 17), (64, 64)] || !onlyBits (qword rq 2) [(0, 17)] || n == 0 || decide (65536 < n), stBadParam),
      (cfgBusy s, stBusy)] s
    (fun _ => accepted 3 [.config] [] s)

/-- What follows `ACCEPTED`: the fetched image is verified, checked, staged here, and sent to the ring. -/
def stageFetched (rq : Request) (img : ImageFetch) (othersOk : Bool) (s : State) : State :=
  let q := qword rq 1
  let n := fld (qword rq 2) 0 17
  let gen := fld q 1 16
  let ws := (img.words ++ List.replicate n 0).take n
  let dig := sha256 (imageBytes ws)
  let new : Image := { gen := gen, digest := dig, words := ws }
  if !img.ok then endRq rq stUncorrectable 0 s
  else if dig ≠ rqDigest rq ∨ (headerGen ws).any (fun g => g != gen) then endRq rq stGenMismatch 0 s
  else match recordsOf ws with
    | none => endRq rq stBadParam 0 s
    | some rs =>
      if !imageRules s rs then endRq rq stBadParam 0 s
      else match nodeCheck ws s with
        | some st => endRq rq st 0 s
        | none =>
          let s1 := stageImage new false s
          if fbit q 0 then
            let s2 := sendImage new (ringCast s1) s1
            if othersOk then endRq rq stOk 3 s2 else endRq rq stPartial 2 s2
          else endRq rq stOk 3 s1

/-- CFG.STAGE (0x0201). -/
def execCfgStage (t : Time) (rq : Request) (img : ImageFetch) (othersOk : Bool) (s : State) : Outcome :=
  let s1 := serve 0x0201 true (lenIs 4) false routedTo (reaching 0x0201 ownCfgStage rq) t rq s
  .next (finishing rq s s1 (stageFetched rq img othersOk))

/-! ### CFG.COMMIT_AT and CFG.CANCEL_COMMIT (R236, R300) -/

/-- The slot of a commit: always under REJECT (R300). -/
def commitArm (target : Word) (a : Agent) : SlotArm := oneShot target .commit 1 a

/-- CFG.COMMIT_AT's own part: armed here. One that reaches a node after T by the fabric leaves MISSED (R300). -/
def ownCfgCommitAt (rq : Request) (s : State) : Reply :=
  let q := qword rq 1
  let tw := qword rq 2
  let gen := fld q 1 16
  let dig := rqDigest rq
  let past := decide (ofT96 tw < tbNow s)
  let missed := past && rq.agent == .fabric
  guarded
    [(!onlyBits q [(0, 17)] || !t96Form tw || !t96Near s tw, stBadParam), (past, stTimePast), (cfgBusy s, stBusy),
      (s.cfg.staged.isNone, stNotStaged),
      (s.cfg.staged.any (fun i => i.gen != gen || i.digest != dig), stGenMismatch)]
    (if missed && onlyBits q [(0, 17)] && t96Form tw && t96Near s tw then commitResult 2 gen [] s else s)
    (fun _ => accepted 3 [.config] [] (putSlot 63 (some (commitArm tw rq.agent))
      (modCfg (fun x => { x with
        armed := some { time := ofT96 tw, gen := gen, digest := dig, catchup := false }, lostCommit := none }) s)))

/-- The command goes to the nodes of its scope, which execute it for themselves (R300, R339), and ends. -/
def castScope (op : Nat) (rq : Request) (othersOk : Bool) (s : State) : State :=
  if fbit (qword rq 1) 0 then
    let body := BitVec.ofNat 128 ((qword rq 1).toNat - 1) :: rq.payload.drop 1
    let s1 := originate (frameFor 3 2 (ringCast s) s.cfg.activeGen (mboxHeader rq.seq op rq.len 0 0 false false :: body)) s
    if othersOk then endRq rq stOk 3 s1 else endRq rq stPartial 2 s1
  else endRq rq stOk 3 s

/-- CFG.COMMIT_AT (0x0202). -/
def execCfgCommitAt (t : Time) (rq : Request) (othersOk : Bool) (s : State) : Outcome :=
  let s1 := serve 0x0202 true (lenIs 4) false routedTo (reaching 0x0202 ownCfgCommitAt rq) t rq s
  .next (finishing rq s s1 (castScope 0x0202 rq othersOk))

/-- CFG.CANCEL_COMMIT's own part: slot 63 is freed here. -/
def ownCfgCancelCommit (rq : Request) (s : State) : Reply :=
  let q := qword rq 1
  let armed := s.cfg.armed.any (fun a => a.gen == fld q 1 16 && !a.catchup)
  guarded [(!onlyBits q [(0, 17)] || !armed, stBadParam)] s
    (fun _ => accepted 3 [.config] [] (putSlot 63 none (modCfg (fun x => { x with armed := none }) s)))

/-- CFG.CANCEL_COMMIT (0x0203). -/
def execCfgCancelCommit (t : Time) (rq : Request) (othersOk : Bool) (s : State) : Outcome :=
  let s1 := serve 0x0203 true (lenIs 1) false routedTo (reaching 0x0203 ownCfgCancelCommit rq) t rq s
  .next (finishing rq s s1 (castScope 0x0203 rq othersOk))

/-! ### CFG.REPORT and CFG.CONFIG (R302, R376) -/

/-- A node of the report: its last beacon, and whether it is silent. -/
abbrev ReportNode := Beacon × Bool

/-- The staged state of a node (R376): no staged image counts as one. -/
def stagedState (b : Beacon) : Option (BitVec 16 × BitVec 64) := if b.staged then some (b.stagedGen, b.stagedDigest) else none

/-- The staged state that most nodes hold; the first of those that tie. -/
def mostStaged (l : List Beacon) : Option (BitVec 16 × BitVec 64) :=
  let votes := fun (x : Option (BitVec 16 × BitVec 64)) => (l.filter (fun b => stagedState b == x)).length
  l.foldl (fun best b => if votes best < votes (stagedState b) then stagedState b else best) (stagedState (l.headD default))

/-- The active generation or digest differs from the ring's. -/
def activeDiff (g : Nat × BitVec 64) (b : Beacon) : Bool := b.activeGen.toNat != g.1 || b.activeDigest != g.2

/-- The words of a report (R302, R376): state, ring generation, counts, and the listed nodes from `first`. `ring` gives the
ring generation by which a node is judged. -/
def reportWords (nodes : List ReportNode) (ring : Beacon → Nat × BitVec 64) (own : Nat × BitVec 64) (first : Nat) :
    List Word :=
  let heard := (nodes.filter (fun x => !x.2)).map (·.1)
  let most := mostStaged heard
  let staged := fun (b : Beacon) => stagedState b != most
  let listed := nodes.filter (fun x => x.2 || activeDiff (ring x.1) x.1 || staged x.1)
  let other := fun (b : Beacon) => b.staged && (b.stagedGen.toNat != (ring b).1 || b.stagedDigest != (ring b).2)
  let st := if heard.any (fun b => activeDiff (ring b) b) then 2 else if heard.any other then 1 else 0
  let entries := (listed.drop first).take 84
  [mkWord [(0, 2, st), (2, 16, own.1), (18, 16, heard.length), (34, 16, listed.length),
      (50, 16, (heard.filter (·.armed)).length), (66, 7, entries.length)],
    mkWord [(0, 64, own.2.toNat)]] ++
  entries.flatMap (fun x =>
    let b := x.1
    [mkWord [(0, 16, b.node.toNat), (16, 1, b2n x.2), (17, 1, b2n (activeDiff (ring b) b)), (18, 1, b2n (staged b))],
      mkWord [(0, 16, b.activeGen.toNat), (16, 16, b.stagedGen.toNat), (32, 1, b2n b.staged), (33, 1, b2n b.armed),
        (34, 3, b.lastResult), (64, 64, b.activeDigest.toNat)],
      b.word2])

/-- The nodes that this node knows of its ring: itself, and every node whose beacon it has heard (R376). -/
def ringNodes (s : State) : List ReportNode :=
  (ownBeacon s, false) :: s.cfg.beacons.map (fun h => (h.beacon, decide (h.at_ + 300 * msU < s.now)))

/-- The ring generation here: of the latest token, or this node's own before any (R376). -/
def ringHere (s : State) : Nat × BitVec 64 := s.fab.ringGen.getD (ownGen s)

/-- The generation and digest that most nodes of a collected ring hold. -/
def majority (l : List Beacon) : Nat × BitVec 64 :=
  let g := fun (b : Beacon) => (b.activeGen.toNat, b.activeDigest)
  let votes := fun (x : Nat × BitVec 64) => (l.filter (fun b => g b == x)).length
  l.foldl (fun best b => if votes best < votes (g b) then g b else best) (g (l.headD default))

/-- CFG.REPORT's own part; `collected` is what the anchors of the rings answer to `SCOPE` 1. -/
def ownCfgReport (collected : Option (List Beacon)) (rq : Request) (s : State) : Reply :=
  let q := qword rq 1
  let scope := fld q 0 2
  let first := fld q 2 10
  guarded [(!onlyBits q [(0, 12)] || scope == 3 || (scope == 2 && s.cfg.report.isNone), stBadParam),
      (scope == 1 && collected.isNone, stUnreachable)] s
    (fun _ =>
      match scope with
      | 0 => okay (snap s :: reportWords (ringNodes s) (fun _ => ringHere s) (ringHere s) first) s
      | 1 => accepted 1 [.report] [] s
      | _ =>
        let l := s.cfg.report.getD []
        let ring := fun (b : Beacon) => majority (l.filter (fun x => addrRing x.node == addrRing b.node))
        okay (snap s :: reportWords (l.map (fun b => (b, false))) ring (ringHere s) first) s)

/-- CFG.REPORT (0x0204). -/
def execCfgReport (t : Time) (rq : Request) (collected : Option (List Beacon)) (s : State) : Outcome :=
  let s1 := serve 0x0204 true (lenIs 1) false routedTo (reaching 0x0204 (ownCfgReport collected) rq) t rq s
  .next (finishing rq s s1 (fun x => endRq rq stOk 1 (modCfg (fun c => { c with report := some (collected.getD []) }) x)))

/-- CFG.CONFIG's own part. -/
def ownCfgConfig (rq : Request) (s : State) : Reply :=
  let q := qword rq 1
  guarded [(!onlyBits q [(0, 4)], stBadParam)] s (fun _ =>
    okay [] { s with nv := { s.nv with
      autoload := if fbit q 2 then fbit q 0 else s.nv.autoload
      catchup := if fbit q 3 then fbit q 1 else s.nv.catchup } })

/-- CFG.CONFIG (0x0205). -/
def execCfgConfig (t : Time) (rq : Request) (s : State) : Outcome := command 0x0205 (lenIs 1) ownCfgConfig t rq s

/-! ### CONFIG frames and catch-up (R275, R298, R303) -/

/-- A frame of an image: bytes at an offset; a frame at offset 0, or of another image, begins a new transfer. -/
def takePart (gen : Nat) (d64 : BitVec 64) (offset : Nat) (ws : List Word) (s : State) : State :=
  let old := match s.cfg.rx with
    | some x => if x.gen = gen ∧ x.digest64 = d64 ∧ offset ≠ 0 then x.words else []
    | none => []
  let k := offset / 16
  let held := (old ++ List.replicate (k - old.length) 0).take k
  modCfg (fun x => { x with rx := some { gen := gen, digest64 := d64, words := held ++ ws } }) s

/-- This node may be brought to the ring generation (R303). -/
def mayCatchUp (s : State) : Bool :=
  s.mgmt.run && s.nv.catchup && allowed s 0x0201 .fabric && !unanchored s && s.cfg.armed.isNone &&
    (match s.cfg.divergedSince with | some d => decide (d + secU ≤ s.now) | none => false)

/-- An image that has come by CONFIG frames is the ring image of a catch-up. -/
def isRingImage (s : State) (gen : Nat) (d64 : BitVec 64) : Bool := s.fab.ringGen == some (gen, d64) && mayCatchUp s

/-- The first whole second of the timebase at least 1 s ahead (R303). -/
def catchupTime (s : State) : Nat := (tbNow s + secU + secU - 1) / secU * secU

/-- The last frame has come: verified, checked and staged (R298, R303). -/
def finishTransfer (gen : Nat) (d64 : BitVec 64) (s : State) : State :=
  let ws := (s.cfg.rx.map (·.words)).getD []
  let dig := sha256 (imageBytes ws)
  let s1 := modCfg (fun x => { x with rx := none }) s
  if digest64Of dig ≠ d64 ∨ headerGen ws ≠ some gen ∨ (nodeCheck ws s1).isSome ∨ s1.cfg.armed.isSome ∨
      65536 < ws.length then s1
  else
    let img : Image := { gen := gen, digest := dig, words := ws }
    if isRingImage s1 gen d64 then
      modCfg (fun x => { x with
        armed := some { time := catchupTime s1, gen := gen, digest := dig, catchup := true } }) (stageImage img true s1)
    else stageImage img false s1

/-- CONFIG_FRAME_RX (R298, R303). -/
def execConfigFrameRx (t : Time) (gen : BitVec 16) (offset : Nat) (words : List Word) (last : Bool) (digest64 : BitVec 64)
    (s0 : State) : Outcome :=
  let s := tick t s0
  let g := gen.toNat
  arriveAt .xbar s fun s =>
  if !s.mgmt.run || !allowed s 0x0201 .fabric then .next s
  else
    let s1 := if offset = 0 && isRingImage s g digest64 then emitNow 0x0202 0 g [] s else s
    let s2 := takePart g digest64 offset words s1
    .next (if last then finishTransfer g digest64 s2 else s2)

/-- Hops from a position to the active anchor, by the shorter way. -/
def anchorHops (s : State) (p : Nat) : Nat :=
  let a := s.fab.anchorPos
  match s.fab.n with
  | some n => if n = 0 then 0 else min ((a + n - p % n) % n) ((p + n - a % n) % n)
  | none => max a p - min a p

/-- This node is the neighbour of a position that has fewer hops to the active anchor, or its WEST neighbour on a tie
(R303). -/
def isCatchupNeighbour (s : State) (q : Nat) : Bool :=
  match s.fab.pos with
  | none => false
  | some p =>
    let n := s.fab.n.getD 1000
    let west := (q + n - 1) % n
    let east := (q + 1) % n
    if p = west then decide (anchorHops s p ≤ anchorHops s east)
    else p == east && decide (anchorHops s p < anchorHops s west)

/-- CATCHUP_TRIGGER (R303): the neighbour of a node that has differed for 1 s sends it the ring image. -/
def execCatchupTrigger (t : Time) (node : BitVec 16) (s0 : State) : Outcome :=
  let s := tick t s0
  let differs := s.cfg.beacons.any (fun h => h.beacon.node == node && decide (s.now ≤ h.at_ + 300 * msU) &&
    activeDiff (ringHere s) h.beacon)
  match s.cfg.active with
  | some img =>
    if s.mgmt.run && differs && !unanchored s && ownRing s node && isCatchupNeighbour s (addrPos node) &&
        ownGen s == ringHere s then .next (sendImage img node s)
    else .next s
  | none => .next s

/-- CATCHUP_COMMIT (R303): the node commits the ring image and reports CAUGHT_UP. -/
def execCatchupCommit (t : Time) (s0 : State) : Outcome :=
  let s := tick t s0
  match s.cfg.armed with
  | some a =>
    if !a.catchup || tbNow s < a.time || !s.mgmt.run then .next s
    else
      let s1 := modCfg (fun x => { x with armed := none }) s
      if s1.pwr.sagWarn then .next (commitResult 5 a.gen [] s1)
      else match s1.cfg.staged with
        | none => .next (commitResult 4 a.gen [] s1)
        | some img => .next (emitNow 0x0202 1 a.gen [] (commitSwitch img 6 s1))
  | none => .next s

end Sys2Proof.Machine
end

