-- ==== Sys2Proof/Machine/Tact.lean ====
section
/-! DEFINITION. Timed actions: firing, steps of the timebase, TEV pins, the 1PPS output, time capture, and the TACT commands
(R220, R221, R228 to R247, R368). -/

namespace Sys2Proof.Machine

/-- Change TIME's action part; one TEV pin; one TCAP input. -/
def modTact (f : TactSt → TactSt) (s : State) : State := { s with tact := f s.tact }
def modTev (n : Nat) (f : TevPin → TevPin) (s : State) : State :=
  modTact (fun x => { x with tev := x.tev.modify n f }) s
def modTcap (n : Nat) (f : TcapIn → TcapIn) (s : State) : State :=
  modTact (fun x => { x with tcap := x.tcap.modify n f }) s
def slotAt (s : State) (i : Nat) : Option SlotArm := s.tact.slots.getD i none
def tevAt (s : State) (n : Nat) : TevPin := s.tact.tev.getD n default
def tcapAt (s : State) (n : Nat) : TcapIn := s.tact.tcap.getD n default

/-! ### TEV pulses (R231, R233, R242) -/

/-- An edge of a TEV pin at a local instant, issued `dTev` earlier. -/
def tevEdge (n : Nat) (at_ : Time) (drive : Bool) (dTev : Int) (level : Bool) (s : State) : State :=
  if drive then emitOut (.tev n ((at_ : Int) - dTev * 256) level) s else s

/-- A pulse from `f` over `width` (1/256 ns) on a pin that takes pulses: one that overlaps or touches the pulse in progress
merges with it (R233). -/
def tevPulse (n : Nat) (f : Time) (width : Nat) (s : State) : State :=
  let p := tevAt s n
  let end_ := f + width * 256
  match p.pulse with
  | some q =>
    if f ≤ q.until_ then modTev n (fun p => { p with pulse := some { q with until_ := max q.until_ end_ }, merges := p.merges + 1 }) s
    else
      let s1 := tevEdge n q.until_ q.drive q.dTev q.activeLow s
      tevEdge n f p.drive p.dTev (!p.activeLow) (modTev n (fun p => { p with
        pulse := some { until_ := end_, drive := p.drive, activeLow := p.activeLow, dTev := p.dTev } }) s1)
  | none =>
    tevEdge n f p.drive p.dTev (!p.activeLow) (modTev n (fun p => { p with
      pulse := some { until_ := end_, drive := p.drive, activeLow := p.activeLow, dTev := p.dTev } }) s)

/-- A slot's pulse: a pin in a static mode, or in PPS mode, ignores and counts it (R242). -/
def slotPulse (n : Nat) (f : Time) (width : Nat) (s : State) : State :=
  if (tevAt s n).mode = 0 then tevPulse n f width s else modTev n (fun p => { p with ignored := p.ignored + 1 }) s

/-- The level of a driven pin outside a pulse. -/
def restLevel (p : TevPin) : Bool := match p.mode with | 1 => false | 2 => true | _ => p.activeLow

/-- A pin outside a pulse takes the level of its settings now; with drive off it is not driven (R242). -/
def showRest (n : Nat) (s : State) : State :=
  let p := tevAt s n
  emitOut (if p.drive then .tev n (s.now : Int) (restLevel p) else .tevOff n (s.now : Int)) s

/-- TEV_PULSE_END (R231, R233, R242): the inactive edge under the settings of the pulse; then what was set during it shows. -/
def execTevPulseEnd (t : Time) (pin : Fin 16) (s0 : State) : Outcome :=
  let s := tick t s0
  match (tevAt s pin.val).pulse with
  | none => .next s
  | some q =>
    if s.now < q.until_ then .next s
    else
      let p := tevAt s pin.val
      let s1 := tevEdge pin.val q.until_ q.drive q.dTev q.activeLow (modTev pin.val (fun p => { p with pulse := none }) s)
      let same := p.drive == q.drive && restLevel p == q.activeLow
      .next (if same then s1 else showRest pin.val s1)

/-! ### What an occurrence does (R231, R232) -/

/-- Precedence of the kinds within one tick (R232). -/
def kindRank : SlotKind → Nat
  | .commit => 0 | .blankWindow _ _ => 1 | .sync _ => 2 | .weaveStop _ _ => 3 | .weaveStart _ => 4 | .basinFreeze _ => 5
  | .tevPulse _ _ => 6 | .hostEvent _ => 7

/-- A timebase instant truncated to 1/256 ns. -/
def trunc256ns (tb : Nat) : Nat := tb / 256 * 256

/-- A sync of several groups at a local instant that has come (R137, R138). -/
def syncNow (gs : List Nat) (ts : Time) (s : State) : State :=
  gs.foldl (fun acc g =>
    let a := addSync g ts acc
    match (groupOf a g).syncs with
    | [] => countDiscard a (daqIsland g)
    | x :: xs => syncGroup g (xs.foldl min x) a) s

/-- The status of R153 for a timed start: weaves that wait for this slot count as free. -/
def timedStart (s : State) (cs : List Nat) : BitVec 16 :=
  if startBad s cs then stBadParam
  else if cs.any (fun c => woven s c || ((chanOf s c).weave.state == .armed && !(chanOf s c).weave.armedSlot)) then stBusy
  else stOk

/-- Weaves that waited for a slot are LOADED again. -/
def releaseArmed (cs : List Nat) (s : State) : State :=
  forChans cs (fun c acc =>
    if (chanOf acc c).weave.armedSlot then
      modWeave c (fun w => { w with state := if w.state == .armed then .loaded else w.state, armedSlot := false }) acc
    else acc) s

/-- Start weaves at `ts` (R152, R153): all or none. -/
def startWeaves (cs : List Nat) (ts : Time) (s : State) : BitVec 16 × State :=
  let st := timedStart s cs
  if st = stOk then
    (st, forChans cs (fun c acc => if isUp acc (daqIsland (c / 8)) then beginWeave c ts acc
      else countDiscard acc (daqIsland (c / 8))) s)
  else (st, releaseArmed cs s)

/-- The effect of occurrence `k` of a slot at timebase instant `f`: the status of its kind and the state (R231). -/
def applyKind (a : SlotArm) (k f : Nat) (late : Bool) (s : State) : BitVec 16 × State :=
  match a.kind with
  | .tevPulse pin w => (0, slotPulse pin (localOf s ((f + 1280) / 2560 * 2560)) w s)
  | .sync gs => (0, syncNow (bitsOf gs) (localOf s (trunc256ns f)) s)
  | .weaveStart cs => startWeaves (bitsOf cs) (localOf s (trunc256ns f)) s
  | .weaveStop cs m =>
    if (bitsOf cs).any (fun c => (chanOf s c).weave.armedSlot) then (0, s)
    else (0, forChans (bitsOf cs) (stopWeave m (localOf s f)) s)
  | .commit => (0, fireCommit late s)
  | .blankWindow line us => (0, blankWindow line (localOf s f) (localOf s (occTarget a k + us * usU)) s)
  | .basinFreeze seg => (0, if isUp s .basin then trigger seg 1 f s else countDiscard s .basin)
  | .hostEvent _ => (0, s)

/-- The slot ends: FREE, with the slot-done event (R235, R241). -/
def slotDone (i : Nat) (a : SlotArm) (f : Nat) (s : State) : State :=
  emit 0x2102 i a.tag.toNat [] f (putSlot i none s)

/-- No occurrence is left after `k` of them (R230). -/
def noneLeft (a : SlotArm) (k : Nat) : Bool := if a.period = 0 then decide (1 ≤ k) else a.count != 0 && decide (a.count ≤ k)

/-- Occurrence `a.next` of slot `i` fires (R231, R237, R241): on time at its target, or late at its arming or at this instant,
that of a step. -/
def fireOcc (i : Nat) (a : SlotArm) (late : Bool) (s : State) : State :=
  let k := a.next
  let target := occTarget a k
  let f := if late then a.lateAt.getD (tbNow s) else target
  let user := match a.kind with | .hostEvent u => u.toNat | _ => 0
  let isHost := match a.kind with | .hostEvent _ => true | _ => false
  let b := { a with next := k + 1, fired := a.fired + 1, lastIndex := some k, lateAt := none }
  let done := noneLeft a (k + 1)
  let x := applyKind a k f late (putSlot i (if done then none else some b) s)
  let report := late || a.reportEach || isHost || x.1 != 0
  let s1 := if report then slotEvent i a k a.skippedSinceEvent (f - target) f x.1 user x.2 else x.2
  let s2 := if report && !done then putSlot i ((slotAt s1 i).map (fun y => { y with skippedSinceEvent := 0 })) s1 else s1
  if done then slotDone i a f s2 else s2

/-! ### Firing on time (R231, R232) -/

/-- The 800 MHz tick at or after a local instant (R200). -/
def tickOf (at_ : Time) : Nat := (at_ + 81919) / 81920

/-- An armed slot's next occurrence is due: its target has come (R198), or it fires late at its arming. -/
def slotIsDue (s : State) (a : SlotArm) : Bool := a.lateAt.isSome || decide (tbDiff (occTarget a a.next) (tbNow s) ≤ 0)

/-- The tick at which a due occurrence fires. -/
def dueTick (s : State) (a : SlotArm) : Nat := tickOf (localOf s (a.lateAt.getD (occTarget a a.next)))

/-- The order in which due occurrences apply: by tick, then kind, then slot (R232). -/
def dueKey (s : State) (i : Nat) (a : SlotArm) : Nat := dueTick s a * 512 + kindRank a.kind * 64 + i

/-- The slot whose occurrence applies next. -/
def nextDue (s : State) : Option Nat :=
  ((List.range 64).foldl (fun (acc : Option (Nat × Nat)) i =>
    match slotAt s i with
    | none => acc
    | some a =>
      if !slotIsDue s a then acc
      else match acc with
        | none => some (dueKey s i a, i)
        | some b => if dueKey s i a < b.1 then some (dueKey s i a, i) else acc) none).map Prod.snd

/-- Fire what is due, in order, until slot `i` has fired. -/
def fireThrough : Nat → Option Nat → State → State
  | 0, _, s => s
  | n + 1, i, s =>
    match nextDue s with
    | none => s
    | some j =>
      match slotAt s j with
      | none => s
      | some a =>
        let s1 := fireOcc j a a.lateAt.isSome s
        if i == some j then s1 else fireThrough n i s1

/-- Fire what has a firing tick before this one (R236). -/
def fireBefore : Nat → State → State
  | 0, s => s
  | n + 1, s =>
    match nextDue s with
    | none => s
    | some j =>
      match slotAt s j with
      | none => s
      | some a => if dueTick s a < tickOf s.now then fireBefore n (fireOcc j a a.lateAt.isSome s) else s

/-- ACTION_FIRE (R231, R232): an occurrence has reached its target; those that precede it apply first. A commit whose slot a
restart freed ends as R300 states. -/
def execActionFire (t : Time) (slot : Fin 64) (s0 : State) : Outcome :=
  let s := tick t s0
  if !isUp s .time then .next s
  else match slotAt s slot.val with
    | some a => if slotIsDue s a then .next (fireThrough 256 (some slot.val) s) else .next s
    | none => if slot.val = 63 then .next (lostCommitDue s) else .next s

/-! ### A step of the timebase (R220, R230, R238, R239) -/

/-- A slot whose targets a forward step has passed (R238): `n` occurrences from the next one lie before the new value. -/
def stepSlot (i : Nat) (s : State) : State :=
  match slotAt s i with
  | none => s
  | some a =>
    let n := occBefore a (tbNow s) - a.next
    if n = 0 then s
    else if a.period = 0 then fireOcc i a true s
    else if latePolicy a = 2 then
      fireOcc i { a with next := a.next + n - 1, skipped := a.skipped + n - 1, skippedSinceEvent := a.skippedSinceEvent + n - 1 }
        true s
    else
      let b := { a with
        next := a.next + n, skipped := a.skipped + n, skippedSinceEvent := 0, lastIndex := some (a.next + n - 1) }
      let done := noneLeft a (a.next + n)
      let s1 := slotEvent i a (a.next + n - 1) (a.skippedSinceEvent + n) 0 (tbNow s) 0 0
        (putSlot i (if done then none else some b) s)
      if done then slotDone i a (tbNow s) s1 else s1

/-- An occurrence whose target equals the new value fires on time at the step tick (R238). -/
def stepOnTime (i : Nat) (s : State) : State :=
  match slotAt s i with
  | none => s
  | some a => if occTarget a a.next = tbNow s then fireOcc i a false s else s

/-- The slots at a step tick, in the order of R232: by kind, then by number. -/
def stepSlots (s : State) : State :=
  (List.range 8).foldl (fun acc r => (List.range 64).foldl (fun x i =>
    match slotAt x i with
    | some a => if kindRank a.kind = r then stepOnTime i (stepSlot i x) else x
    | none => x) acc) s

/-- The step itself (R220): Δ is added, the epoch counts, the shadow clocks of domains that are not followed are set, the log
is written, and passed occurrences are handled. -/
def stepBy (delta : Int) (cause : StepCause) (origin : Option Nat) (s0 : State) : State :=
  let s := fireThrough 256 none (advance s0)
  let before := tbNow s
  let s1 := modTime (fun x => { x with
    stepSum := x.stepSum + delta, epoch := (x.epoch + 1) % 65536
    dom := x.dom.mapIdx (fun d y => if follows s d then y
      else { y with shadowOff := if origin = some d then 0 else y.theta, shadowAt := s.now }) }) s
  let e : StepEntry := { epoch := s1.time.epoch, before := before, after := tbNow s1, cause := cause }
  let s2 := modTime (fun x => { x with stepLog := (e :: x.stepLog).take 16 }) s1
  let s3 := emitNow 0x2006 (causeCode cause) s2.time.epoch [BitVec.ofNat 128 (t96 before)] s2
  let s4 := if s3.daq.autoStep && cause != .initialSet then autoSync s3 else s3
  stepSlots (cutMeta s4)

/-- A step that has been decided takes effect. -/
def stepPending (s : State) : State :=
  match s.time.stepDue with
  | none => s
  | some d => stepBy d.delta d.cause d.origin (modTime (fun x => { x with stepDue := none }) s)

/-- TIMEBASE_STEP (R220). -/
def execTimebaseStep (t : Time) (s0 : State) : Outcome := .next (stepPending (tick t s0))

/-- The timebase follows a LOCKED domain. -/
def followsLocked (s : State) : Bool := s.time.mode == .follow && (domOf s s.time.active).state == .locked

/-- TIME.SET's own part (R195, R221). -/
def ownTimeSet (rq : Request) (s : State) : Reply :=
  let q := qword rq 1
  guarded [(!t96Form q, stBadParam), (followsLocked s, stBusy)] s (fun _ =>
    let s1 := stepPending s
    okay [] (stepBy ((ofT96 q : Int) - (tbNow s1 : Int)) .hostSet none s1))

/-- TIME.SET (0x200C). -/
def execTimeSet (t : Time) (rq : Request) (s : State) : Outcome := command 0x200C (lenIs 1) ownTimeSet t rq s

/-- TIME.STEP_ACCEPT's own part (R221): the Δ of the step-pending event, while the offset still lies within the agreement
window of it. -/
def ownTimeStepAccept (rq : Request) (s : State) : Reply :=
  let q := qword rq 1
  let d := fld q 0 1
  let x := domOf s d
  match x.pendingDelta with
  | none => deny stBadParam s
  | some delta =>
    let near := decide (((x.thetaTb + delta * 2 ^ 32).natAbs : Int) ≤ nsOff x.servo.agreeNs)
    guarded [(!onlyBits q [(0, 1)] || followsLocked s || x.state != .faulty || !near, stBadParam)] s (fun _ =>
      let s1 := stepBy delta .hostAccept (some d) (stepPending s)
      okay [] (chooseDom (toState d .acquiring s1)))

/-- TIME.STEP_ACCEPT (0x200D). -/
def execTimeStepAccept (t : Time) (rq : Request) (s : State) : Outcome :=
  command 0x200D (lenIs 1) ownTimeStepAccept t rq s

/-! ### 1PPS (R244) -/

/-- The whole second whose pulse starts now: the timebase is OFFSET past it (R244). -/
def ppsSecond (s : State) : Option Nat :=
  let whole : Int := (tbNow s : Int) - s.tact.pps.offset * 256
  if 0 ≤ whole ∧ whole % (secU : Int) = 0 then some (whole.toNat / secU) else none

/-- PPS_OUT_PULSE (R244): the active edge of a whole second's pulse, OFFSET from that second (log 113); a second passed over by
a step has no pulse, one reached again has. -/
def execPpsOutPulse (t : Time) (s0 : State) : Outcome :=
  let s := tick t s0
  let p := s.tact.pps
  match ppsSecond s with
  | none => .next s
  | some sec =>
  if !isUp s .time || p.last == some (sec, s.time.epoch) || (p.squelch && uncertain s) then .next s
  else
    let edge : Time := s.now
    let end_ := edge + p.width * 256
    let s1 := match p.pulseEnd with
      | some e => if edge ≤ e then s else emitOut (.pps (edge : Int) true) (emitOut (.pps (e : Int) false) s)
      | none => emitOut (.pps (edge : Int) true) s
    let s2 := modTact (fun x => { x with pps := { x.pps with
      pulseEnd := some (match p.pulseEnd with | some e => max e end_ | none => end_), last := some (sec, s.time.epoch) } }) s1
    let s3 := modTod (fun x => { x with txDue := some (edge + 200 * msU) }) s2
    .next (if (tevAt s3 15).mode = 3 then tevPulse 15 edge p.width s3 else s3)

/-- PPS_PULSE_END (R244). -/
def execPpsPulseEnd (t : Time) (s0 : State) : Outcome :=
  let s := tick t s0
  match s.tact.pps.pulseEnd with
  | none => .next s
  | some e =>
    if s.now < e then .next s
    else .next (emitOut (.pps (e : Int) false) (modTact (fun x => { x with pps := { x.pps with pulseEnd := none } }) s))

/-! ### Time capture (R245 to R247) -/

/-- `OVERFLOW` of a capture record. -/
def markOverflow (w : Word) : Word := w ||| (1#128 <<< 102)

/-- TCAP_EDGE (R246, R247). `pulse` is the length in 2^-16 ns of the shorter of the two pulses that the edge bounds; a pulse
shorter than 2 ns is ignored. -/
def execTcapEdge (t : Time) (input : Fin 8) (falling : Bool) (pulse : Nat) (s0 : State) : Outcome :=
  let s := tick t s0
  let n := input.val
  let x := tcapAt s n
  let wanted := if falling then x.edge == 2 || x.edge == 3 else x.edge == 1 || x.edge == 3
  if !isUp s .time || !wanted || decide (pulse < 2 * nsU) then .next s
  else if x.lastCapture.any (fun l => decide (s.now < l + 20 * nsU)) then
    .next (modTcap n (fun x => { x with missed := x.missed + 1, overflowDue := true }) s)
  else
    let tb := trunc256ns ((tbNow s : Int) - x.dCap * 256).toNat
    let w := mkWord [(0, 96, t96 tb), (96, 3, n), (99, 1, b2n falling), (100, 1, b2n (follows s 1)),
      (101, 1, b2n (uncertain s)), (102, 1, b2n x.overflowDue), (112, 16, s.time.epoch)]
    let full := decide (64 ≤ x.queue.length)
    let kept := if full then (match x.queue.drop 1 with | o :: r => markOverflow o :: r | [] => []) else x.queue
    let s1 := modTcap n (fun x => { x with
      queue := kept ++ [w], lastCapture := some s.now, overflowDue := false
      discarded := x.discarded + b2n full }) s
    .next (if x.event then emit 0x2103 n 0 [w] tb s1 else s1)

/-! ### TACT commands (R229, R235, R236, R242 to R247, R368) -/

/-- TACT.ARM's own part. -/
def ownTactArm (rq : Request) (s : State) : Reply :=
  let w0 := qword rq 1
  match slotOf w0 (qword rq 2) (qword rq 3) rq.agent with
  | none => deny stBadParam s
  | some a =>
    let tArm := tbNow s
    match freeSlot s, armPlan a tArm with
    | i, p =>
      guarded [(!t96Near s w0, stBadParam), (i.isNone, stBusy), (p.isNone, stTimePast)] s (fun _ =>
        let n := i.getD 0
        let q := p.getD default
        okay [mkWord [(0, 6, n), (6, 32, q.skipped)], t96Word tArm s.time.epoch, mkWord [(0, 64, q.lateness)]]
          (armSlot n q s))

/-- TACT.ARM (0x2101). -/
def execTactArm (t : Time) (rq : Request) (s : State) : Outcome := command 0x2101 (lenIs 3) ownTactArm t rq s

/-- `LAST_INDEX`: all ones when no occurrence has fired or been skipped (R236). -/
def lastIndexWord (a : SlotArm) : Nat := a.lastIndex.getD 0xFFFFFFFF

/-- TACT.CANCEL's own part (R236): what has fired by this tick has fired; weaves that waited for the slot are LOADED again. -/
def ownTactCancel (rq : Request) (s0 : State) : Reply :=
  let q := qword rq 1
  let i := fld q 0 6
  guarded [(!onlyBits q [(0, 6)], stBadParam), (i == 63, stDenied)] s0 (fun _ =>
    let s := fireBefore 256 s0
    match slotAt s i with
    | none => okay [mkWord [(0, 1, 1), (33, 32, 0xFFFFFFFF)]] s
    | some a =>
      let s1 := putSlot i none s
      let s2 := match a.kind with | .weaveStart cs => releaseArmed (bitsOf cs) s1 | _ => s1
      okay [mkWord [(1, 32, a.fired), (33, 32, lastIndexWord a)]] s2)

/-- TACT.CANCEL (0x2102). -/
def execTactCancel (t : Time) (rq : Request) (s : State) : Outcome := command 0x2102 (lenIs 1) ownTactCancel t rq s

/-- The two words of a slot in `TACT.STATUS`. -/
def slotWords (a : Option SlotArm) : List Word :=
  match a with
  | none => [0, 0]
  | some a => [mkWord [(0, 1, 1), (1, 2, agentIx a.agent), (3, 32, a.tag.toNat), (35, 32, a.fired), (67, 32, a.skipped)],
      mkWord [(0, 96, t96 (occTarget a a.next)), (96, 32, a.next)]]

/-- TACT.STATUS's own part (R235). -/
def ownTactStatus (rq : Request) (s0 : State) : Reply :=
  let q := qword rq 1
  let first := fld q 0 6
  let n := fld q 6 7
  let s := fireBefore 256 s0
  guarded [(!onlyBits q [(0, 13)] || n == 0 || decide (64 < first + n), stBadParam)] s0
    (fun _ => okay (snap s :: (List.range n).flatMap (fun k => slotWords (slotAt s (first + k)))) s)

/-- TACT.STATUS (0x2103). -/
def execTactStatus (t : Time) (rq : Request) (s : State) : Outcome := command 0x2103 (lenIs 1) ownTactStatus t rq s

/-- TACT.CONFIG_PIN's own part (R242): at once, but a pulse in progress completes as it began. -/
def ownTactConfigPin (rq : Request) (s : State) : Reply :=
  let q := qword rq 1
  let n := fld q 0 4
  let d := sfld q 32 32
  let new := { tevAt s n with drive := fbit q 4, mode := fld q 5 2, activeLow := fbit q 7, dTev := d }
  guarded [(!onlyBits q [(0, 8), (32, 32)] || (fld q 5 2 == 3 && n != 15) || decide (256000 < d.natAbs), stBadParam)] s
    (fun _ =>
      let s1 := modTev n (fun _ => new) s
      okay [] (if new.pulse.isNone then showRest n s1 else s1))

/-- TACT.CONFIG_PIN (0x2104). -/
def execTactConfigPin (t : Time) (rq : Request) (s : State) : Outcome :=
  command 0x2104 (lenIs 1) ownTactConfigPin t rq s

/-- TACT.CONFIG_PPS's own part (R244). -/
def ownTactConfigPps (rq : Request) (s : State) : Reply :=
  let q := qword rq 1
  let w := fld q 0 38
  let o := sfld q 64 32
  guarded [(!onlyBits q [(0, 38), (64, 33)] || decide (w < 2048) || decide (230400000000 < w) ||
      decide (256000000 < o.natAbs), stBadParam)] s
    (fun _ => okay [] (modTact (fun x => { x with pps := { x.pps with
      width := roundWidth w, offset := o, squelch := fbit q 96 } }) s))

/-- TACT.CONFIG_PPS (0x2105). -/
def execTactConfigPps (t : Time) (rq : Request) (s : State) : Outcome :=
  command 0x2105 (lenIs 1) ownTactConfigPps t rq s

/-- TACT.CONFIG_CAPTURE's own part (R245). -/
def ownTactConfigCapture (rq : Request) (s : State) : Reply :=
  let q := qword rq 1
  let d := sfld q 32 32
  guarded [(!onlyBits q [(0, 6), (32, 32)] || decide (256000 < d.natAbs), stBadParam)] s
    (fun _ => okay [] (modTcap (fld q 0 3) (fun x => { x with edge := fld q 3 2, event := fbit q 5, dCap := d }) s))

/-- TACT.CONFIG_CAPTURE (0x2106). -/
def execTactConfigCapture (t : Time) (rq : Request) (s : State) : Outcome :=
  command 0x2106 (lenIs 1) ownTactConfigCapture t rq s

/-- TACT.READ_CAPTURE's own part (R247, R368): the records returned leave the queue. -/
def ownTactReadCapture (rq : Request) (s : State) : Reply :=
  let q := qword rq 1
  let n := fld q 0 3
  let k := fld q 3 7
  let x := tcapAt s n
  let out := x.queue.take k
  guarded [(!onlyBits q [(0, 10)] || k == 0 || decide (64 < k), stBadParam)] s
    (fun _ => okay ([snap s, mkWord [(0, 7, out.length), (7, 32, x.discarded)]] ++ out)
      (modTcap n (fun x => { x with queue := x.queue.drop k, discarded := 0 }) s))

/-- TACT.READ_CAPTURE (0x2107). -/
def execTactReadCapture (t : Time) (rq : Request) (s : State) : Outcome :=
  command 0x2107 (lenIs 1) ownTactReadCapture t rq s

end Sys2Proof.Machine
end

