-- ==== Sys2Proof/Machine/Start.lean ====
section
/-! DEFINITION. Resets, sag, starts, the warm reset, and what the firmware does at a start (R286, R388, R402, R405 to R407,
R435, R445 to R451, R470, R477). -/

namespace Sys2Proof.Machine

/-! ### Reset kinds (R445 to R447, R477) -/

/-- POWER_ON_RESET (R445, R446): everything, the AON records included; the start waits for the rails (R477). -/
def execPowerOnReset (t : Time) (s0 : State) : Outcome :=
  let s := tick t s0
  .next { State.reset with
    pending := s.pending, now := s.now, free := s.free, nv := s.nv, fuses := s.fuses, fuseShadow := s.fuseShadow
    aon := { Reset.aon with coarseAt := s.now }, out := s.out }

/-- RESET_N_ASSERT (R447): a low pulse of 1 us or longer resets, one shorter than 100 ns does not, and between them it may or
may not. `RESET_CAUSE` becomes 2, or 5 from HIBERNATE (R445, R458). -/
def execResetNAssert (t : Time) (lowNs : Nat) (s0 : State) : Outcome :=
  let s := tick t s0
  let r := if 100 ≤ lowNs ∧ lowNs < 1000 then drawBool s else (decide (1000 ≤ lowNs), s)
  if !r.1 then .next r.2
  else
    let s1 := r.2
    .next (modAon (fun a => { a with
      resetCause := if s1.pwr.state == .hibernate then 5 else 2, thermalOff := false, startDue := true })
      (modPwr (fun p => { p with resetNLow := true, supplyHold := s1.pwr.supplyHold }) (powerCut s1)))

/-- RESET_N_RELEASE (R447): the device starts at the rising edge, or once the rails meet the release condition. -/
def execResetNRelease (t : Time) (railsOk : Bool) (s0 : State) : Outcome :=
  let s := tick t s0
  if s.pwr.resetNLow then .next (modPwr (fun p => { p with resetNLow := false, supplyHold := !railsOk }) s) else .next s

/-- SUPPLY_RELEASE (R407, R477). -/
def execSupplyRelease (t : Time) (s0 : State) : Outcome :=
  .next (modPwr (fun p => { p with supplyHold := false }) (tick t s0))

/-! ### Sag (R405 to R407) -/

/-- SAG_WARNING (R406): SAGWARN_N and vector 34 at the first rail; `SAG_NOW` and `SAG_SEEN`; a sag event for each rail. A
change of operating point stops (R401). -/
def execSagWarning (t : Time) (rail : Fin 8) (s0 : State) : Outcome :=
  let s := tick t s0
  if !isUp s .hostif || s.pwr.sagNow.getLsbD rail.val then .next s
  else
    let s1 := modHost (fun h => { h with sagSeen := setBit h.sagSeen rail.val true })
      (modPwr (fun p => { p with sagNow := setBit p.sagNow rail.val true }) s)
    let s2 := if s1.pwr.sagWarn then s1
      else sagStopsChange (msixIf 18 34 (setInt 18 (modPwr (fun p => { p with
        sagWarn := true, sagSince := s1.now }) s1)))
    .next (if s2.mgmt.run then emitNow 0x5101 rail.val 1 [] s2 else s2)

/-- Firmware stores the field-repair queue in the repair table, with an event for each new entry (R434), while it may write. -/
def storeQueue (s : State) : State :=
  if nvWritable s then
    let fresh := s.repairQueue.filter (fun e => !s.nv.repairTable.contains e)
    fresh.foldl (fun acc e => emitNow 0x5301 4 e.mem [BitVec.ofNat 128 e.row] acc)
      { s with nv := { s.nv with repairTable := s.repairQueue } }
  else s

/-- SAG_WARNING_CLEAR (R406): held NV records complete, and the change of operating point that waited begins (R401). The
commands that waited are taken up by their own rows. -/
def execSagWarningClear (t : Time) (s0 : State) : Outcome :=
  let s := tick t s0
  if !s.pwr.sagWarn then .next s
  else
    let s1 := modPwr (fun p => { p with sagWarn := false, sagNow := 0 }) s
    let s2 := if s1.mgmt.run then (bitsOf s.pwr.sagNow).foldl (fun acc r => emitNow 0x5101 r 0 [] acc) s1 else s1
    .next (opNext (storeQueue (if s2.mgmt.run then flushStores s2 else s2)))

/-- SAG_COMMAND_TIMEOUT (R406): the commands that wait since a warning of 100 ms are answered `SUPPLY_LIMIT`, in order, and
journalled ABANDONED. -/
def execSagCommandTimeout (t : Time) (s0 : State) : Outcome :=
  let s := tick t s0
  if !s.pwr.sagWarn || !s.mgmt.run || decide (s.now < s.pwr.sagSince + 100 * msU) then .next s
  else .next (s.mgmt.waiting.foldl (fun acc w => refuse w.opcode.toNat w.rq stSupplyLimit (unpark w.rq acc)) s)

/-- SAG_RESET (R407): rails below their reset thresholds for 2 us. In HIBERNATE the monitors watch VANA alone (R458). -/
def execSagReset (t : Time) (rails : BitVec 8) (s0 : State) : Outcome :=
  let s := tick t s0
  let seen := if s.pwr.state == .hibernate then rails &&& 0x10#8 else rails
  if seen = 0 ∨ s.pwr.supplyHold ∨ s.aon.thermalOff then .next s
  else .next (modAon (fun a => { a with resetCause := 1, sagResetRails := seen, startDue := true })
    (modPwr (fun p => { p with resetNLow := s.pwr.resetNLow }) (powerCut s)))

/-! ### Cold start (R286, R388, R402, R435, R448, R449) -/

/-- The references at a start (R388 steps 2 to 4); a REF that disagrees with the preferred one is not qualified. -/
def qualifyRefs (env : StartEnv) (s : State) : State :=
  let good : RefIn := { qualified := true, failed := false, qualSince := s.now }
  let bad : RefIn := { qualified := false, failed := true, qualSince := s.now }
  if env.refA && env.refB && !env.agree then
    let other := b2n (!s.clk.preferB)
    emitNow 0x5001 other 0 [] (modClk (fun c => { c with
      refA := if c.preferB then bad else good, refB := if c.preferB then good else bad
      failed := setBit c.failed other true }) s)
  else modClk (fun c => { c with
    refA := if env.refA then good else c.refA, refB := if env.refB then good else c.refB }) s

/-- The PLLs lock to the active REF (R388 step 5); without one they wait for the 100 ms. -/
def startPlls (s : State) : State :=
  if (activeRef s).isSome then
    modClk (fun c => { c with tbRef := 0, ctlInternal := false }) (lockAll s)
  else s

/-- The VCTL setpoint of OP0 is confirmed, or the control tree runs at OP3 (R402). -/
def confirmVctl (ok : Bool) (s : State) : State :=
  if ok then modPwr (fun p => { p with op := 0, vctlMv := 900, vctlConfirmed := true }) s
  else modPwr (fun p => { p with op := 3, vctlMv := 900, vctlConfirmed := false }) s

/-- The anchor role by fuse and straps (R286). -/
def strapRole (straps : BitVec 2) (s : State) : State :=
  if !s.fuseShadow.anchorCap then modFab (fun x => { x with role := .none }) s
  else match straps.toNat with
    | 1 => modFab (fun x => { x with role := .primary }) s
    | 2 => modFab (fun x => { x with role := .secondary }) s
    | 3 => emitNow 0x3203 2 0 [] (modFab (fun x => { x with role := .none }) s)
    | _ => modFab (fun x => { x with role := .none }) s

/-- Repair maps: field-repair fuses, then the queued entries of the repair table (R435). -/
def repairMaps (s : State) : State :=
  let fused := s.fuseShadow.repairs
  let queued := s.nv.repairTable
  { s with
    mems := s.mems.mapIdx (fun m x => { x with
      repairs := (fused.filter (fun e => e.1 == m)).map (fun e => { row := e.2.1, spare := e.2.2, seen := 0 }) ++
        (queued.filter (fun e => e.mem == m)).map (fun e => { row := e.row, spare := e.spare, seen := e.firstSeen }) })
    repairQueue := queued }

/-- Islands that leave reset at a start; the DAQ groups wait for the firmware (R448 step 5). -/
def startIslands : List Island := [.mgmtA, .mgmtB, .hostif, .time, .lineE, .lineW, .drop, .xbar, .basin, .oper, .nvs, .ethm]

/-- The islands of `l` run. -/
def runIslands (l : List Island) (s : State) : State := xbarUp (l.foldl (fun acc i => setPhase acc i .run) s)

/-- COLD_START_RELEASE (R448 steps 1 and 2, R449): reset is released once RESET_N is high and the rails have held. -/
def execColdStartRelease (t : Time) (env : StartEnv) (s0 : State) : Outcome :=
  let s := tick t s0
  if !s.aon.startDue || s.aon.thermalOff || s.pwr.resetNLow || s.pwr.supplyHold then .next s
  else
    let s1 : State := { s with fuseShadow := s.fuses, line := Reset.line s.fuses.laneCap }
    let c := coarseNow s1
    let s2 := modTime (fun x => { x with stepSum := (c.1 * secU : Nat) - (s1.now : Int), epoch := 0, stepLog := [] }) c.2
    let s3 := modAon (fun a => { a with
      startDue := false, fromPor := false, coarse := c.1, coarseAt := s1.now, loading := false }) s2
    let s4 := repairMaps (runIslands startIslands s3)
    .next (strapRole env.straps (confirmVctl env.vctlOk (startPlls (qualifyRefs env s4))))

/-- BASIN_INIT_DONE (R448 step 7). -/
def execBasinInitDone (t : Time) (s0 : State) : Outcome :=
  let s := tick t s0
  if s.basin.ready || !isUp s .basin then .next s
  else .next (basinUp (modBasin (fun b => { b with ready := true }) s))

/-! ### Secure boot (R470) and the start of the data plane (R448 steps 3 to 5) -/

/-- The blown anti-rollback fuses. -/
def rollbackCount (s : State) : Nat := (bitsOf s.fuses.rollback).length

/-- A key is trusted: its hash equals a programmed key slot that is not revoked (R470). -/
def trusted (s : State) (h : BitVec 384) : Bool :=
  let f := s.fuseShadow
  (h == f.keyHash0 && !f.keyRevoke.getLsbD 0) || (h == f.keyHash1 && f.keyHash1 != 0 && !f.keyRevoke.getLsbD 1) ||
    (h == f.keyHash2 && f.keyHash2 != 0 && !f.keyRevoke.getLsbD 2)

/-- The checks of R470 on the key, the signature and the security version. -/
def imageTrusted (s : State) (h : BitVec 384) (sig : Bool) (sv : Nat) : Bool :=
  trusted s h && sig && decide (rollbackCount s ≤ sv) && decide (sv ≤ 64)

/-- A stored image is accepted. -/
def bootable (s : State) (x : FwSlot) (sig : Bool) : Bool :=
  x.valid && imageTrusted s x.keyHash (sig && x.signatureOk) x.sv

/-- Firmware resolves what a reset left open in the journal (R354): the interrupted commands end with `RESTARTING`. -/
def resolveJournal (s : State) : State :=
  let fix := fun (e : JEntry) =>
    if e.state == .running || e.state == .queued then
      { e with status := stRestarting, state := if e.stepsDone = 0 then JState.abandoned else JState.partially }
    else e
  { s with nv := { s.nv with journal := s.nv.journal.map fix } }

/-- A recorded failed channel gets the spare, or stays without a substitute (R110, R111). -/
def recallFailed (soft : Bool) (c : Nat) (s : State) : State :=
  let g := c / 8
  let s1 := modChan c (fun x => if soft then { x with softFaulted := true } else { x with failed := true }) s
  if (groupOf s1 g).spare == .free then
    modChan c (fun x => { x with subst := if soft then .softFault else .failure })
      (modGroup g (fun q => { q with spare := .substituting c }) s1)
  else if soft then s1
  else modChan c (fun x => { x with unsubstituted := true }) s1

/-- Substitution records and holdover table from the NV store (R111, R222), with the NV fallback event where the region has
no valid copy; each group takes its calibration sets as it starts (R178). `table` is false at a warm reset, which keeps the
holdover table. -/
def loadCal (table : Bool) (s : State) : State :=
  let r := s.nv.cal
  let s1 := if r.valid then s
    else emitNow 0x5401 2 0 [] { s with nv := { s.nv with invalid := setBit s.nv.invalid 2 true } }
  let s2 := r.softFaulted.foldl (fun acc c => recallFailed true c acc)
    (r.failed.foldl (fun acc c => recallFailed false c acc) s1)
  if table then modTime (fun x => { x with table := r.holdover }) s2 else s2

/-- The management complex starts the data plane (R448 steps 4 and 5): calibration, the committed image, the DAQ groups. -/
def startPlane (s : State) : State :=
  let s0 : State := { s with nv := { s.nv with lastRefreshCheck := none } }
  let s1 := autoload (loadCal (s.aon.resetCause != 3) s0)
  let s2 := (List.range 8).foldl (fun acc g => daqUp g (setPhase acc (daqIsland g) .run)) s1
  chooseDom (calRefreshAll (thermCheck s2))

/-- An image runs on pair A: the release and security version, since when, and where the release reads (R331). -/
def runImage (n : Nat) (x : FwSlot) (s : State) : State :=
  let s1 := { s with mgmt := { s.mgmt with
    run := true, starting := false, recovery := false, lost := false, takeoverDue := false, active := 0
    pairA := { Reset.pair with state := .active }, pairB := Reset.pair
    image := n, release := x.release, sv := x.sv, since := s.now } }
  modHost (fun h => { h with
    fwRelease := BitVec.ofNat 16 (x.release.toNat % 256 * 256 + x.release.toNat / 256 % 256) }) s1

/-- BOOT_IMAGE_VERIFY (R448 step 3, R470): the preferred image, then the other; with neither, recovery. -/
def execBootImageVerify (t : Time) (sigA sigB : Bool) (s0 : State) : Outcome :=
  let s := tick t s0
  let m := s.mgmt
  if m.run || m.recovery || m.lost || m.takeoverDue || !isUp s .hostif then .next s
  else
    let okA := bootable s s.nv.fwA sigA
    let okB := bootable s s.nv.fwB sigB
    let preferB := s.nv.preferred == 1
    let first := if preferB then okB else okA
    let second := if preferB then okA else okB
    if !first && !second then .next { s with mgmt := { m with recovery := true } }
    else
      let n := if first then b2n preferB else b2n (!preferB)
      let s1 := resolveJournal (runImage n (if n = 0 then s.nv.fwA else s.nv.fwB) s)
      let s2 := if first then s1 else emitNow 0x5401 (4 + b2n preferB) 0 [] s1
      let s3 := if s.pwr.vctlConfirmed then s2 else emitNow 0x5102 3 0 [] s2
      .next (if m.starting then startPlane s3 else checkLevel s3)

/-! ### Warm reset (R402, R450, R451, R459) -/

/-- A DMA channel ends ABORTED: its progress is kept, its other registers return to their values after POR (R351, R450). -/
def dmaAborted (d : DmaCh) : DmaCh :=
  match d.buf with
  | some b => { Reset.dmaCh with state := .aborted, haltDesc := d.cons, haltWord := b.words }
  | none => { Reset.dmaCh with
      state := .aborted, haltDesc := if d.state == .running || d.state == .starved then d.cons else d.haltDesc
      haltWord := if d.state == .running || d.state == .starved then 0 else d.haltWord }

/-- What a warm reset leaves: TIME with action slots 0 to 62 and its clocks, AON, the NV store and the fuses, the PCIe
configuration, the supplies, the basin's content, and the soft repairs (R450, R459 column Warm). -/
def warmCut (s0 : State) : State :=
  let s := basinDown (dropStaged s0)
  let host := s.host
  { State.reset with
    pending := s.pending, now := s.now, free := s.free, out := s.out, nv := s.nv, fuses := s.fuses
    fuseShadow := s.fuseShadow, islands := s.islands.mapIdx (fun i x => if i = 0 ∨ i = 4 then x else
      { phase := .inReset, discards := 0, aborts := 0 })
    host := { Reset.host with
      dma := host.dma.map dmaAborted, linkUp := host.linkUp, msixFnMask := host.msixFnMask, msixMask := host.msixMask
      msixPending := host.msixPending }
    time := { s.time with ptp := Reset.time.ptp, links := Reset.time.links }
    tact := { s.tact with slots := s.tact.slots.set 63 none }
    pwr := { Reset.pwr with
      currents := s.pwr.currents, oscTemp := s.pwr.oscTemp, sagNow := s.pwr.sagNow, sagSince := s.pwr.sagSince
      sagWarn := s.pwr.sagWarn, supplyHold := false }
    clk := { s.clk with gated := 0, counters := Reset.clk.counters }
    cfg := { Reset.cfg with lostCommit := s.cfg.lostCommit }
    line := Reset.line s.fuseShadow.laneCap
    basin := { s.basin with window := 0 }
    mems := s.mems.map (fun m => { m with corrected := 0, uncorrectable := 0 })
    softRepairs := s.softRepairs, repairQueue := s.repairQueue
    aon := { s.aon with resetCause := 3 } }

/-- WARM_RESET (R450): 1 ms after SYS.RESET; the firmware then boots again. -/
def execWarmReset (t : Time) (env : StartEnv) (s0 : State) : Outcome :=
  let s := tick t s0
  if !s.mgmt.warmDue.any (fun d => decide (d ≤ s.now)) then .next s
  else .next (strapRole env.straps (confirmVctl env.vctlOk
    (basinUp (runIslands (startIslands.filter (· != .time)) (warmCut s)))))

/-- SYS.RESET's own part (R373, R450). -/
def ownSysReset (rq : Request) (s : State) : Reply :=
  guarded [(!onlyBits (qword rq 1) [(96, 32)] || fld (qword rq 1) 96 32 != 0x5128C0DE, stBadParam),
    (s.pwr.sagWarn, stSupplyLimit)] s
    (fun _ => okay [] { s with mgmt := { s.mgmt with warmDue := some (s.now + msU) } })

/-- SYS_RESET (0x0103). -/
def execSysReset (t : Time) (rq : Request) (s : State) : Outcome := commandSupply 0x0103 (lenIs 1) ownSysReset t rq s

end Sys2Proof.Machine
end

