-- ==== Sys2Proof/Machine/Mgmt.lean ====
section
/-! DEFINITION. The two management pairs: faults, failover, takeover, restarts, anti-rollback and the loading of firmware
(R22, R23, R354, R374, R452, R453, R471). -/

namespace Sys2Proof.Machine

/-- Change the management complex. -/
def modMgmt (f : MgmtSt → MgmtSt) (s : State) : State := { s with mgmt := f s.mgmt }

/-- A pair by its number: 0 MGMT-A, 1 MGMT-B. -/
def pairOf (s : State) (n : Nat) : Pair := if n = 0 then s.mgmt.pairA else s.mgmt.pairB
def modPair (n : Nat) (f : Pair → Pair) (s : State) : State :=
  modMgmt (fun m => if n = 0 then { m with pairA := f m.pairA } else { m with pairB := f m.pairB }) s

/-- A standby is ready (`STANDBY_READY`). -/
def standbyUp (s : State) : Bool := s.mgmt.pairA.state == .standby || s.mgmt.pairB.state == .standby

/-! ### Faults (R23, R452, R453) -/

/-- A domain that PTP feeds is lost while no management pair runs (R23). -/
def ptpLost (d : Nat) (s : State) : State :=
  match (domOf s d).source with
  | .ptp _ => if (domOf s d).state == .disabled then s else toState d .noSignal s
  | _ => s

/-- The active pair has failed (R452, R453): the standby takes over, or both pairs are lost. The staged image is lost at once,
and slot 63 with it (R234, R298). -/
def activeFails (cause : Nat) (s0 : State) : State :=
  let s := dropStaged s0
  let a := s.mgmt.active
  let b := 1 - a
  if (pairOf s b).state == .standby then
    let s1 := modPair a (fun p => { p with state := .reloading, attempts := 0 }) (modPair b (fun p => { p with
      state := .active, attempts := 0 }) s)
    emitNow 0x0101 b cause [] (raiseNmi 2 (modMgmt (fun m => { m with
      active := b, run := false, takeoverDue := true, since := s.now }) s1))
  else
    let lose := fun (p : Pair) => { p with attempts := 0, lastAttempt := s.now }
    let s1 := modPair a (fun p => { p with state := .reloading }) (modPair a lose (modPair b lose s))
    chooseDom (calRefreshAll (ptpLost 1 (ptpLost 0 (raiseNmi 3 (modMgmt (fun m => { m with
      run := false, lost := true, takeoverDue := false }) s1)))))

/-- A fault of a pair: of the active one, or of the standby, which restarts alone; that too is a management restart, which
loses the staged image (R234, R298). -/
def pairFails (standby : Bool) (cause : Nat) (s : State) : State :=
  let b := 1 - s.mgmt.active
  if standby then
    if (pairOf s b).state == .standby then
      modMgmt (fun m => { m with since := s.now })
        (modPair b (fun p => { p with state := .reloading, attempts := 0 }) (dropStaged s))
    else s
  else if (pairOf s s.mgmt.active).state == .active then activeFails cause s
  else s

/-- MGMT_FAULT (R452): a lockstep mismatch, or an uncorrectable fetch. -/
def execMgmtFault (t : Time) (standbyPair fetch : Bool) (s : State) : Outcome :=
  .next (pairFails standbyPair (b2n fetch) (tick t s))

/-- WATCHDOG_EXPIRY (R452). -/
def execWatchdogExpiry (t : Time) (standbyPair : Bool) (s : State) : Outcome := .next (pairFails standbyPair 2 (tick t s))

/-! ### Takeover (R354) -/

/-- Steps that a takeover finds done beyond those recorded. -/
def foundDone (open_ : List OpenStep) (a : Agent) (src : BitVec 16) (seq : BitVec 32) : Nat :=
  (open_.filter (fun o => o.inForce && o.agent == a && o.seq == seq && (a != .fabric || o.srcNode == src))).length

/-- An interrupted command's entry: PARTIAL(k of n) or ABANDONED, with `RESTARTING`. -/
def journalRestart (k : Nat) (a : Agent) (src : BitVec 16) (seq : BitVec 32) (s : State) : State :=
  journalMod a src seq (fun e => { e with
    stepsDone := min (e.stepsDone + k) e.steps, status := stRestarting
    state := if min (e.stepsDone + k) e.steps = 0 then JState.abandoned else JState.partially
    durationUs := durationUs s e.arrivalLocal }) s

/-- One interrupted command ends (R354): one that has not answered answers `RESTARTING`, a long one has its completion event. -/
def interrupt (open_ : List OpenStep) (r : Running) (s : State) : State :=
  let lowering := match s.pwr.change with
    | some c => if r.holds.contains .op && foundDone open_ r.agent r.srcNode r.seq = 0 then doneBefore c else 0
    | none => 0
  let s1 := journalRestart (foundDone open_ r.agent r.srcNode r.seq + lowering) r.agent r.srcNode r.seq s
  match r.ask with
  | none => completionEvent r.agent r.opcode.toNat r.seq stRestarting s1
  | some rq =>
    let s2 := if r.mute then s1 else answer rq r.seq stRestarting [] false s1
    if rq.eventOnDone then completionEvent r.agent r.opcode.toNat r.seq stRestarting s2 else s2

/-- A command sent to another node and not answered ends in the same way (R339, R354). -/
def interruptRemote (p : RemotePending) (s : State) : State :=
  answer p.rq p.rq.seq stRestarting [] false (journalRestart 0 p.rq.agent p.rq.srcNode p.rq.seq s)

/-- An island whose drain a command had begun goes back to where it stood (R15, R395). -/
def drainBack (x : IslandSt) : IslandSt :=
  match x.phase with
  | .draining => { x with phase := .run }
  | .closing => { x with phase := .run }
  | .opening => { x with phase := .gated }
  | _ => x

/-- A management restart ends the running commands (R354) and with them their parts under way: the staged image and slot 63
(R298, R300), the calibration slots (R175), a change of operating point, extractions, drains; DIAG loopbacks are off (R459). -/
def restartEnds (open_ : List OpenStep) (s : State) : State :=
  let rs := s.mgmt.running
  let ps := s.mgmt.remotes
  let s1 := rs.foldl (fun acc r => interrupt open_ r acc) s
  let s2 := ps.foldl (fun acc p => interruptRemote p acc) s1
  let s3 := match s2.pwr.change with
    | some c => if (holderOf s2 .op).isSome && c.tries = 0 then writeBack c s2 else s2
    | none => s2
  let s4 := modMgmt (fun m => { m with running := [], remotes := [] }) s3
  let s5 := modBasin (fun b => { b with extracts := [] }) (dropStaged { s4 with islands := s4.islands.map drainBack })
  abandonAll (checkLinks { modCfg (fun c => { c with report := none, rx := none }) s5 with
    diag := { s5.diag with loopback := s5.diag.loopback.map (fun _ => 0) } })

/-- MGMT_TAKEOVER (R354, R420): the pair that has become active resolves the interrupted commands and serves. -/
def execMgmtTakeover (t : Time) (openSteps : List OpenStep) (s0 : State) : Outcome :=
  let s := tick t s0
  if !s.mgmt.takeoverDue then .next s
  else .next (checkLevel (flushStores (storeQueue (restartEnds openSteps (modMgmt (fun m => { m with
    run := true, takeoverDue := false, lost := false, since := s.now }) s)))))

/-! ### Restarts (R452, R453) -/

/-- STANDBY_READY (R452, R453): a pair that has reloaded is the standby, or the active pair when none is; one whose self-test
fails stays out of service. -/
def execStandbyReady (t : Time) (pairB selfTestOk : Bool) (s0 : State) : Outcome :=
  let s := tick t s0
  let n := b2n pairB
  if (pairOf s n).state != .reloading || !(s.mgmt.run || s.mgmt.takeoverDue || s.mgmt.lost) then .next s
  else if !selfTestOk then .next (emitNow 0x0101 (n + 2) 0 [] (modPair n (fun p => { p with state := .out }) s))
  else if s.mgmt.lost then
    .next (modMgmt (fun m => { m with active := n, lost := false, takeoverDue := true })
      (modPair n (fun p => { p with state := .active, attempts := 0 }) s))
  else .next (modPair n (fun p => { p with state := .standby, attempts := 0 }) s)

/-- MGMT_RESTART_ATTEMPT (R453): AON restarts a lost pair at 1 s intervals, at most 3 times. -/
def execMgmtRestartAttempt (t : Time) (pairB : Bool) (s0 : State) : Outcome :=
  let s := tick t s0
  let n := b2n pairB
  let p := pairOf s n
  if !s.mgmt.lost || decide (3 ≤ p.attempts) || decide (s.now < p.lastAttempt + secU) then .next s
  else .next (modPair n (fun p => { p with state := .reloading, attempts := p.attempts + 1, lastAttempt := s.now }) s)

/-! ### Anti-rollback and firmware (R374, R470, R471) -/

/-- ROLLBACK_ADVANCE (R471): the image with a higher security version has run 600 s with a standby ready and no management
restart; its fuses are blown, unless a sag warning is asserted. -/
def execRollbackAdvance (t : Time) (s0 : State) : Outcome :=
  let s := tick t s0
  if !s.mgmt.run || !standbyUp s || s.pwr.sagWarn || decide (s.now < s.mgmt.since + 600 * secU) ||
      decide (s.mgmt.sv ≤ rollbackCount s) then .next s
  else .next { s with fuses := { s.fuses with
    rollback := s.fuses.rollback ||| BitVec.ofNat 64 (2 ^ (min s.mgmt.sv 64) - 1) } }

/-- SYS.LOAD_FIRMWARE's own part (R374). -/
def ownSysLoadFirmware (rq : Request) (s : State) : Reply :=
  let q := qword rq 1
  let n := fld q 64 17
  guarded [(!onlyBits q [(0, 82)] || n == 0 || decide (98304 < n), stBadParam), (s.pwr.sagWarn, stSupplyLimit)] s
    (fun _ => accepted 3 [.firmware] [] s)

/-- The image slot that does not run: 0 A, 1 B. -/
def inactiveImage (s : State) : Nat := 1 - (if s.mgmt.recovery then s.nv.preferred else s.mgmt.image)

/-- The image is stored in the inactive slot and marked preferred. -/
def storeFirmware (img : FwImage) (s : State) : State :=
  let n := inactiveImage s
  let x : FwSlot :=
    { valid := true, release := img.release, sv := img.sv, keyHash := img.keyHash, signatureOk := img.signatureOk }
  { s with nv := { s.nv with
      fwA := if n = 0 then x else s.nv.fwA, fwB := if n = 0 then s.nv.fwB else x, preferred := n
      invalid := setBit s.nv.invalid (4 + n) false, writesSince := s.nv.writesSince + 1 } }

/-- A management restart onto the preferred image (R374): the boot code verifies it next. -/
def restartOnto (s : State) : State :=
  modMgmt (fun m => { m with
    run := false, recovery := false, lost := false, takeoverDue := false, pairA := Reset.pair, pairB := Reset.pair })
    (restartEnds [] s)

/-- What follows `ACCEPTED`: the image is fetched and verified, stored, marked preferred, and restarted onto. -/
def firmwareFetched (rq : Request) (img : FwImage) (s : State) : State :=
  if !img.fetchOk then endRq rq stUncorrectable 0 s
  else if !imageTrusted s img.keyHash img.signatureOk img.sv then endRq rq stDenied 0 s
  else
    let s1 := endRq rq stOk 3 (storeFirmware img s)
    if fbit (qword rq 1) 81 then restartOnto s1 else s1

/-- SYS_LOAD_FIRMWARE (0x0105). -/
def execSysLoadFirmware (t : Time) (rq : Request) (img : FwImage) (s : State) : Outcome :=
  let s1 := serve 0x0105 true (lenIs 1) true routedTo (reaching 0x0105 ownSysLoadFirmware rq) t rq s
  .next (finishing rq s s1 (firmwareFetched rq img))

end Sys2Proof.Machine
end

