-- ==== Sys2Proof/Machine/Host.lean ====
section
/-! DEFINITION. HOSTIF: BAR0 and its registers, doorbells, the event queue's registers, the SPI port, BAR2, host resets and
the PCIe link (R8 to R10, R315, R326 to R336, R340 to R345, R351). -/

namespace Sys2Proof.Machine

/-- A protocol error: an access or a write that the device discards (R328, R336, R337). -/
def protoErr (s : State) : State := modHost (fun h => { h with protoErr := satAdd 16 h.protoErr 1 }) s

/-! ### Reading BAR0 (R8, R331) -/

/-- State codes of a DMA channel. -/
def dmaCode : DmaState → Nat
  | .idle => 0 | .running => 1 | .starved => 2 | .haltedUe => 3 | .aborted => 4 | .stopped => 5

/-- Identity and device status, 0x000 to 0x1FF. -/
def readStatus (s : State) (off : Nat) : Nat :=
  let m := s.mgmt
  match off with
  | 0x000 => 0x5128 + b2n (isV s) * 2 ^ 16 + 2 ^ 20 + 2 ^ 24
  | 0x004 => s.fuseShadow.uid.toNat % 2 ^ 32
  | 0x008 => s.fuseShadow.uid.toNat / 2 ^ 32
  | 0x00C => 1
  | 0x010 => b2n m.run + 2 * m.active + 4 * b2n (standbyUp s) + s.host.fwRelease.toNat * 2 ^ 16
  | 0x100 => s.host.nmiCause.toNat
  | 0x104 => s.pwr.sagNow.toNat + s.host.sagSeen.toNat * 2 ^ 8 + s.aon.sagResetRails.toNat * 2 ^ 16
  | 0x108 => s.therm.level + 4 * b2n s.therm.demandSince.isSome
  | 0x10C => s.aon.resetCause
  | _ => 0

/-- Event queue registers. -/
def readEvq (s : State) (off : Nat) : Nat :=
  let e := s.host.evq
  match off with
  | 0x400 => e.baseLo.toNat
  | 0x404 => e.baseHi.toNat
  | 0x408 => e.log2.toNat
  | 0x40C => e.tail
  | 0x410 => e.head
  | 0x414 => b2n e.enable + e.modCount * 2 ^ 8 + e.modTime * 2 ^ 16
  | 0x418 => e.lost
  | _ => 0

/-- Registers of a DMA channel, by offset in its block. -/
def readDma (s : State) (c off : Nat) : Nat :=
  let d := dmaOf s c
  match off with
  | 0x00 => d.ringLo.toNat
  | 0x04 => d.ringHi.toNat
  | 0x08 => d.log2.toNat + d.flushUs * 2 ^ 16
  | 0x0C => d.prod
  | 0x10 => d.cons
  | 0x18 => dmaCode d.state
  | 0x1C => d.haltDesc
  | 0x20 => d.haltWord
  | 0x24 => d.dropped
  | _ => 0

/-- Registers and payload of a mailbox, by offset in its block; payload word k lies at 16 k. -/
def readMbox (s : State) (n off : Nat) : Nat :=
  let m := s.host.mbox.getD n default
  match off with
  | 0x000 => m.seq.toNat
  | 0x004 => m.opcode.toNat + m.len * 2 ^ 16
  | 0x008 => b2n m.remote + 2 * b2n m.eventOnDone + 4 * b2n m.noMsix + m.dest.toNat * 2 ^ 16
  | 0x00C => m.status.toNat + m.rspLen * 2 ^ 16 + 2 ^ 24 * b2n m.done + 2 ^ 25 * b2n m.pending + 2 ^ 26 * b2n m.duplicate
  | o => fld (m.payload.getD (o / 16 - 1) 0) (o % 16 * 8) 32

/-- What a 32-bit register of BAR0 reads; offsets that the map does not show read 0 (R328). -/
def readReg (s : State) (off : Nat) : BitVec 32 :=
  BitVec.ofNat 32 (
    if off < 0x200 then readStatus s off
    else if off = 0x200 then s.host.intStatus.toNat + 2 ^ 20 * b2n (s.host.nmiCause != 0)
    else if off = 0x204 then s.host.intEnable.toNat
    else if off = 0x208 then b2n s.host.irqPinEn
    else if off = 0x3C0 then s.host.protoErr
    else if 0x400 ≤ off ∧ off < 0x41C then readEvq s off
    else if 0x800 ≤ off ∧ off < 0xC00 then readDma s ((off - 0x800) / 64) (off % 64)
    else if 0x10000 ≤ off ∧ off < 0x20000 then readMbox s ((off - 0x10000) / 4096) (off % 4096)
    else 0)

/-! ### Writing BAR0 (R8, R331, R334, R336) -/

/-- W1C writes (R8, R330). -/
def clearInt (v : BitVec 32) (s : State) : State :=
  modHost (fun h => { h with intStatus := h.intStatus &&& ~~~(v.setWidth 20) }) s
def clearNmi (v : BitVec 32) (s : State) : State :=
  modHost (fun h => { h with nmiCause := h.nmiCause &&& ~~~(v.setWidth 5) }) s
def clearSagSeen (v : BitVec 32) (s : State) : State :=
  modHost (fun h => { h with sagSeen := h.sagSeen &&& ~~~((v >>> 8).setWidth 8) }) s

/-- `EVQ_HEAD`: room for held events (R342). -/
def setHead (v : BitVec 32) (s : State) : State :=
  evqDrain (modHost (fun h => { h with evq := { h.evq with head := v.toNat % 65536 } }) s)

/-- `EVQ_ENABLE` and the moderation. Enabling begins a first pass at index 0, with `PHASE` 1 (R331, R340). -/
def setEvqCtrl (v : BitVec 32) (s : State) : State :=
  let n := v.toNat
  let on := n % 2 == 1
  evqDrain (modHost (fun h =>
    let e := h.evq
    let fresh := on && !e.enable
    { h with evq := { e with
        enable := on, modCount := n / 2 ^ 8 % 256, modTime := n / 2 ^ 16
        phase := fresh || e.phase, tail := if fresh then 0 else e.tail } }) s)

/-- The other registers of the event queue; base and size are ignored while `EVQ_ENABLE` is 1. Bits [3:0] of `EVQ_BASE_LO`
must be 0 (R331); that a write of others stores them as 0 is the model's choice (DESIGN CHOICE, log 109). -/
def writeEvq (off : Nat) (v : BitVec 32) (s : State) : State :=
  let e := s.host.evq
  let put := fun (x : EvqSt) => modHost (fun h => { h with evq := x }) s
  match off with
  | 0x400 => if e.enable then s else put { e with baseLo := v &&& 0xFFFFFFF0#32 }
  | 0x404 => if e.enable then s else put { e with baseHi := v }
  | 0x408 => if e.enable then s else put { e with log2 := v.setWidth 5 }
  | 0x410 => setHead v s
  | 0x414 => setEvqCtrl v s
  | _ => s

/-- Registers of a DMA channel; ring address and size are ignored while it is RUNNING, STARVED or
HALTED_UE. Bits [3:0] of `RING_LO` must be 0; that a write of others stores them as 0 is the model's choice (DESIGN CHOICE,
log 109). -/
def writeDma (c off : Nat) (v : BitVec 32) (s : State) : State :=
  let st := (dmaOf s c).state
  let busy := st == .running || st == .starved || st == .haltedUe
  match off with
  | 0x00 => if busy then s else modDma c (fun d => { d with ringLo := v &&& 0xFFFFFFF0#32 }) s
  | 0x04 => if busy then s else modDma c (fun d => { d with ringHi := v }) s
  | 0x08 => modDma c (fun d => { d with
      log2 := if busy then d.log2 else v.setWidth 5, flushUs := v.toNat / 2 ^ 16 }) s
  | 0x0C => setProd c v s
  | 0x14 => dmaAction c v s
  | _ => s

/-- 32 bits of a 128-bit payload word. -/
def setPart (w : Word) (k : Nat) (v : BitVec 32) : Word :=
  (w &&& ~~~(BitVec.ofNat 128 ((2 ^ 32 - 1) * 2 ^ (32 * k)))) ||| BitVec.ofNat 128 (v.toNat * 2 ^ (32 * k))

/-- Registers and payload of a mailbox; discarded and counted while it is PENDING (R336). -/
def writeMbox (n off : Nat) (v : BitVec 32) (s : State) : State :=
  let m := s.host.mbox.getD n default
  if m.pending then protoErr s
  else
    let x := v.toNat
    match off with
    | 0x000 => modMbox n (fun m => { m with seq := v }) s
    | 0x004 => modMbox n (fun m => { m with opcode := v.setWidth 16, len := x / 2 ^ 16 }) s
    | 0x008 => modMbox n (fun m => { m with
        remote := v.getLsbD 0, eventOnDone := v.getLsbD 1, noMsix := v.getLsbD 2
        dest := BitVec.ofNat 16 (x / 2 ^ 16) }) s
    | o =>
      if o < 16 then s
      else
        let k := o / 16 - 1
        modMbox n (fun m =>
          let p := m.payload ++ List.replicate (k + 1 - m.payload.length) 0
          { m with payload := p.set k (setPart (p.getD k 0) (o % 16 / 4) v) }) s

/-- A doorbell (R334 step 2): `DONE` is cleared, `PENDING` set, and the arrival stamped; one that rings a PENDING mailbox is
discarded and counted (R336). -/
def ring (n : Nat) (v : BitVec 32) (viaSpi : Bool) (s : State) : State :=
  if (s.host.mbox.getD n default).pending then protoErr s
  else modMbox n (fun m => { m with
    done := false, pending := true, bell := v, arrival := s.now, viaSpi := viaSpi }) s

/-- A 32-bit write to BAR0 (R8, R328): read-only and read-to-clear fields, and offsets that the map does not show, ignore it. -/
def writeReg (viaSpi : Bool) (off : Nat) (v : BitVec 32) (s : State) : State :=
  if off = 0x100 then clearNmi v s
  else if off = 0x104 then clearSagSeen v s
  else if off = 0x200 then clearInt v s
  else if off = 0x204 then modHost (fun h => { h with intEnable := v.setWidth 20 }) s
  else if off = 0x208 then modHost (fun h => { h with irqPinEn := v.getLsbD 0 }) s
  else if 0x380 ≤ off ∧ off < 0x3C0 then ring ((off - 0x380) / 4) v viaSpi s
  else if 0x400 ≤ off ∧ off < 0x41C then writeEvq off v s
  else if 0x800 ≤ off ∧ off < 0xC00 then writeDma ((off - 0x800) / 64) (off % 64) v s
  else if 0x10000 ≤ off ∧ off < 0x20000 then writeMbox ((off - 0x10000) / 4096) (off % 4096) v s
  else s

/-- An event of the host on HOSTIF, while the island runs. -/
def hostDo (t : Time) (f : State → State) (s0 : State) : Outcome :=
  let s := tick t s0
  if isUp s .hostif then .next (f s) else .next s

/-- DOORBELL (R334). Over SPI only `DOORBELL`15 is reachable (R345). -/
def execDoorbell (t : Time) (n : Fin 16) (value : BitVec 32) (viaSpi : Bool) (s : State) : Outcome :=
  hostDo t (fun x =>
    if viaSpi && n.val != 15 then modHost (fun h => { h with spiAddrErr := true }) x else ring n.val value viaSpi x) s

/-- REGISTER_WRITE (R8): offsets are those of aligned 32-bit registers. -/
def execRegisterWrite (t : Time) (offset : Nat) (value : BitVec 32) (s : State) : Outcome :=
  hostDo t (fun x => if offset % 4 = 0 then writeReg false offset value x else protoErr x) s

/-- BAR0_INVALID_ACCESS (R328). -/
def execBar0InvalidAccess (t : Time) (s : State) : Outcome := hostDo t protoErr s

/-- PROTO_ERR_READ (R8). -/
def execProtoErrRead (t : Time) (s : State) : Outcome :=
  hostDo t (modHost (fun h => { h with rcData := h.protoErr, protoErr := 0 })) s

/-- EVQ_LOST_READ (R8, R343). -/
def execEvqLostRead (t : Time) (s : State) : Outcome :=
  hostDo t (modHost (fun h => { h with rcData := h.evq.lost, evq := { h.evq with lost := 0 } })) s

/-- INT_STATUS_CLEAR (R330). -/
def execIntStatusClear (t : Time) (mask : BitVec 32) (s : State) : Outcome := hostDo t (clearInt mask) s

/-- NMI_CAUSE_CLEAR (R330). -/
def execNmiCauseClear (t : Time) (mask : BitVec 32) (s : State) : Outcome := hostDo t (clearNmi mask) s

/-- SAG_SEEN_CLEAR (R8): `mask` is the word written to `SAG_STATUS`, whose bits 15 to 8 are `SAG_SEEN`. -/
def execSagSeenClear (t : Time) (mask : BitVec 32) (s : State) : Outcome := hostDo t (clearSagSeen mask) s

/-- Held events of which a word is uncorrectable in the device's buffer, by their places in it, are discarded and counted
(R343, R437). -/
def dropHeld (bad : List Nat) (s : State) : State :=
  let old := s.host.evq.held
  let good := ((List.range old.length).filter (fun i => !bad.contains i)).map (fun i => old.getD i [])
  if good.length = old.length then s
  else modHost (fun h => { h with evq := { h.evq with
    held := good, lost := satAdd 32 h.evq.lost (old.length - good.length), lostDue := true } }) s

/-- EVQ_HEAD_WRITE (R342, R343): `bad` are the held events of which a word is uncorrectable as the device reads them. -/
def execEvqHeadWrite (t : Time) (value : BitVec 32) (bad : List Nat) (s : State) : Outcome :=
  hostDo t (fun x => setHead value (dropHeld bad x)) s

/-- EVQ_MOD_TIMER (R342): `EVQ_MOD_TIME` after the first event not yet signalled; 0 means no timer. -/
def execEvqModTimer (t : Time) (s : State) : Outcome :=
  hostDo t (fun x =>
    let e := x.host.evq
    match e.firstUnsignalled with
    | none => x
    | some a =>
      if e.modTime = 0 ∨ x.now < a + e.modTime * usU then x
      else msixIf 16 33 (modHost (fun h => { h with evq := { h.evq with unsignalled := 0, firstUnsignalled := none } }) x)) s

/-! ### BAR2 (R312, R315) -/

/-- BAR2_READ (R315): a word of the window's region of the basin, or all ones, counted, for a word that is uncorrectable or
whose tag does not match. What the reserved area holds is a free value. -/
def execBar2Read (t : Time) (word : Fin 67108864) (s : State) : Outcome :=
  hostDo t (fun x =>
    let n := x.basin.window * 67108864 + word.val
    match segAt x n with
    | none =>
      let r := drawWord x
      modHost (fun h => { h with bar2Data := r.1 }) r.2
    | some k =>
      if x.basin.badWords.contains k then
        modHost (fun h => { h with bar2Data := poison, bar2Poison := satAdd 64 h.bar2Poison 1 }) x
      else modHost (fun h => { h with bar2Data := readWord x.basin.cells k }) x) s

/-- BAR2_WRITE (R315): discarded and counted. -/
def execBar2Write (t : Time) (s : State) : Outcome :=
  hostDo t (modHost (fun h => { h with bar2Discards := satAdd 64 h.bar2Discards 1 })) s

/-! ### SPI (R344, R345) -/

/-- Offsets reachable over SPI (R345). -/
def spiReach (off : Nat) : Bool := decide (off < 0x200) || off == 0x3BC || (decide (0x1F000 ≤ off) && decide (off < 0x20000))

/-- One data frame of a transaction: the state, what MISO carries, and whether the offset is out of reach. -/
def spiFrame (read : Bool) (off : Nat) (v : BitVec 32) (s : State) : State × BitVec 32 × Bool :=
  if !spiReach off then (s, 0, true)
  else if read then (s, readReg s off, false)
  else (writeReg true off v s, 0, false)

/-- The data frames, in order; the offset increases by 4. -/
def spiFrames (read : Bool) : Nat → List (BitVec 32) → State → State × List (BitVec 32) × Bool
  | _, [], s => (s, [], false)
  | off, v :: rest, s =>
    let a := spiFrame read off v s
    let b := spiFrames read (off + 4) rest a.1
    (b.1, a.2.1 :: b.2.1, a.2.2 || b.2.2)

/-- The status that the command frame brings back: of the previous transaction (R344). -/
def spiStatus (s : State) : BitVec 32 :=
  BitVec.ofNat 32 (b2n s.host.spiAddrErr + 2 * b2n ((s.host.mbox.getD 15 default).done) + 4 * b2n s.host.linkUp +
    8 * b2n s.mgmt.run)

/-- SPI_TRANSACTION (R344): `data` are the whole data frames on MOSI; frames beyond the count of the command frame do not
belong to it. -/
def execSpiTransaction (t : Time) (cmd : BitVec 32) (data : List (BitVec 32)) (s : State) : Outcome :=
  hostDo t (fun x =>
    let n := cmd.toNat / 2 ^ 24 % 128 + 1
    let off := cmd.toNat % 2 ^ 24 / 4 * 4
    let r := spiFrames (cmd.getLsbD 31) off (data.take n) x
    modHost (fun h => { h with spiMiso := spiStatus x :: r.2.1, spiAddrErr := r.2.2 }) r.1) s

/-! ### Host resets and the PCIe link (R29, R351) -/

/-- HOST_RESET (R351): a function-level reset or PCIe hot reset. Mailbox 15, `DOORBELL`15 and the SPI port stay. -/
def execHostReset (t : Time) (s0 : State) : Outcome :=
  let s := tick t s0
  if !isUp s .hostif then .next s
  else
    let host := s.host
    let mine : Running → Bool := fun r => match r.ask with
      | some rq => rq.agent == .host && rq.mailbox.val != 15
      | none => false
    let fresh : HostSt := { Reset.host with
      dma := host.dma.map dmaAborted, mbox := host.mbox.mapIdx (fun i m => if i = 15 then m else Reset.mailbox)
      spiAddrErr := host.spiAddrErr, spiMiso := host.spiMiso, linkUp := host.linkUp }
    .next (checkLinks (loopsOff [0, 1, 2, 3, 4] (modBasin (fun b => { b with window := 0 }) { s with
      host := fresh
      mgmt := { s.mgmt with running := s.mgmt.running.map (fun r => if mine r then { r with mute := true } else r) } })))

/-- The channels halt with recorded progress when the link is lost (R29). -/
def linkLost (s : State) : State :=
  (List.range 16).foldl (fun acc c =>
    let d := dmaOf acc c
    if d.state == .running || d.state == .starved then
      dmaSignal c (modDma c (fun d => { d with
        state := .aborted, haltDesc := d.cons, haltWord := (d.buf.map (·.words)).getD 0, buf := none }) acc)
    else acc) s

/-- Vectors pending that no mask holds are sent (R329). -/
def msixFlush (s : State) : State :=
  (List.range 36).foldl (fun acc v =>
    if acc.host.msixPending.getLsbD v then
      msix v (modHost (fun h => { h with msixPending := setBit h.msixPending v false }) acc)
    else acc) s

/-- PCIE_LINK_CHANGE (R29). -/
def execPcieLinkChange (t : Time) (up : Bool) (s0 : State) : Outcome :=
  let s := tick t s0
  if !isUp s .hostif || s.host.linkUp == up then .next s
  else
    let s1 := modHost (fun h => { h with linkUp := up }) s
    .next (if up then evqDrain (msixFlush s1) else linkLost s1)

end Sys2Proof.Machine
end

