-- ==== Sys2Proof/Machine/Store.lean ====
section
/-! DEFINITION. Memory integrity, the NV store, the fuses, the log and diagnostics (R371, R380, R424 to R444, R465 to R474).
-/

namespace Sys2Proof.Machine

/-! ### Memory integrity (R424 to R434) -/

/-- One memory: 0 SRAM, 1 basin, 2 NV store. -/
def memOf (s : State) (m : Nat) : MemSt := s.mems.getD m default
def modMem (m : Nat) (f : MemSt → MemSt) (s : State) : State := { s with mems := s.mems.modify m f }

/-- Words, words of a row and spare rows of a memory (R424). -/
def memWords (m : Nat) : Nat := [2 ^ 22, 2 ^ 30, 2 ^ 19].getD m 1
def rowWords (m : Nat) : Nat := if m = 1 then 512 else 64
def spareRows (m : Nat) : Nat := [256, 16384, 128].getD m 0

/-- How one byte is judged by its bad bits (R424): good, corrected or uncorrectable. -/
inductive ByteJudge
  | good | corrected | uncorrectable
deriving DecidableEq, Repr, Inhabited

/-- A byte with three or more bad bits has no guaranteed outcome: a free choice. -/
def judgeByte (bits : Nat) (free : Nat) : ByteJudge :=
  match bits with
  | 0 => .good
  | 1 => .corrected
  | 2 => .uncorrectable
  | _ => match free % 3 with
    | 0 => .good
    | 1 => .corrected
    | _ => .uncorrectable

/-- The bytes of a word, judged. -/
def judgeWord : List Nat → State → List ByteJudge × State
  | [], s => ([], s)
  | b :: rest, s =>
    let d := if 3 ≤ b then drawNat s else (0, s)
    let r := judgeWord rest d.2
    (judgeByte b d.1 :: r.1, r.2)

/-- Event 0x5301 (R381): what, memory, and address or row. -/
def memEvent (what m at_ : Nat) (s : State) : State := emitNow 0x5301 what m [BitVec.ofNat 128 at_] s

/-- An uncorrectable word (R432): counted and told once while it is among the 1,024 held; beyond them at every pass. A word of
a basin segment reads as poison from then on (R313). -/
def badWord (m n : Nat) (s : State) : State :=
  let x := memOf s m
  if x.badWords.contains n then s
  else
    let s1 := modMem m (fun x => { x with
      uncorrectable := satAdd 64 x.uncorrectable 1
      badWords := if x.badWords.length < 1024 then x.badWords ++ [n] else x.badWords }) s
    let s2 := if m = 1 then
        match segAt s1 n with
        | some k => modBasin (fun b => { b with badWords := if b.badWords.contains k then b.badWords else k :: b.badWords }) s1
        | none => s1
      else s1
    memEvent 1 m n s2

/-- A spare row that no repair uses, if one is left; which of them is a free choice. -/
def freeSpare (m : Nat) (s : State) : Option Nat × State :=
  let x := memOf s m
  let used := (x.repairs ++ x.copying).map (·.spare)
  let left := (List.range (spareRows m)).filter (fun i => !used.contains i)
  if left.isEmpty then (none, s)
  else
    let r := drawNat s
    (some (left.getD (r.1 % left.length) 0), r.2)

/-- A hard classification of a row (R433, R434): at the second, its copy to a spare row begins. -/
def hardFault (m n : Nat) (s : State) : State :=
  let row := n / rowWords m
  let s1 := memEvent 2 m row (modMem m (fun x => { x with hardWords := x.hardWords ++ [row] }) s)
  let x := memOf s1 m
  if (x.hardWords.filter (· == row)).length < 2 || x.copying.any (fun r => r.row == row) then s1
  else match freeSpare m s1 with
    | (none, s2) => s2
    | (some sp, s2) => modMem m (fun x => { x with
        copying := x.copying ++ [{ row := row, spare := sp, seen := tbNow s2 / secU }]
        hardWords := x.hardWords.filter (· != row) }) s2

/-- A corrected word (R431, R433): counted, told at most once per second, and watched; one that was watched is a hard fault.
The oldest watch ends when 4,096 words are watched. -/
def correctedWord (m n : Nat) (s : State) : State :=
  let x := memOf s m
  let s1 := modMem m (fun x => { x with corrected := satAdd 64 x.corrected 1 }) s
  let s2 := if x.lastCorrected.any (fun a => decide (s.now < a + secU)) then s1
    else memEvent 0 m n (modMem m (fun x => { x with lastCorrected := some s.now }) s1)
  let s3 := modMem m (fun x => { x with
    watch := (x.watch.filter (· != n) ++ [n]).drop ((x.watch.filter (· != n)).length + 1 - 4096) }) s2
  if x.watch.contains n then hardFault m n s3 else s3

/-- SCRUB_WORD (R427, R430 to R433): the scrubber reads the next word of a memory; `badBits` are the bad bits of its bytes. A
write-back to the NV store waits while a sag warning is asserted, and the scrubber with it at that word, since its read and its
write-back are one operation (R431, R432). -/
def execScrubWord (t : Time) (mem : Fin 3) (badBits : List Nat) (tagOk : Bool) (s0 : State) : Outcome :=
  let s := tick t s0
  let m := mem.val
  let n := (memOf s m).scrub
  let s1 := modMem m (fun x => { x with scrub := (n + 1) % memWords m }) s
  if m = 1 && !tagOk then .next (badWord m n (memEvent 5 m n { s1 with tagMismatch := satAdd 64 s1.tagMismatch 1 }))
  else
    let (js, s2) := judgeWord (badBits.take 16) s1
    let s3 := if js.contains .uncorrectable then badWord m n s2 else s2
    if js.contains .corrected && m == 2 && s.pwr.sagWarn then .next { s with free := s2.free }
    else if js.contains .corrected then .next (correctedWord m n s3)
    else .next (modMem m (fun x => { x with watch := x.watch.filter (· != n) }) s3)

/-- SOFT_REPAIR_COMPLETE (R434): the row's copy finishes and accesses switch to the spare. -/
def execSoftRepairComplete (t : Time) (mem : Fin 3) (row : Nat) (s0 : State) : Outcome :=
  let s := tick t s0
  let m := mem.val
  match (memOf s m).copying.find? (fun r => r.row == row) with
  | none => .next s
  | some r =>
    let s1 := modMem m (fun x => { x with
      copying := x.copying.filter (fun y => y.row != row), repairs := upsert x.repairs (fun y => y.row == row) r }) s
    let e : QueueEntry := { mem := m, row := row, spare := r.spare, firstSeen := r.seen }
    let s2 : State := { s1 with
      softRepairs := satAdd 32 s1.softRepairs 1
      repairQueue := upsert s1.repairQueue (fun y => y.mem == m && y.row == row) e }
    .next (storeQueue (memEvent 3 m row s2))

/-- MEM.STATUS (R436). -/
def ownMemStatus (_ : Request) (s : State) : Reply :=
  let counts := (List.range 3).map (fun m =>
    mkWord [(0, 64, (memOf s m).corrected), (64, 64, (memOf s m).uncorrectable)])
  let entries := s.repairQueue.map (fun e => mkWord [(0, 2, e.mem), (2, 32, e.row), (64, 64, e.firstSeen)])
  okay ([snap s] ++ counts ++ [mkWord [(0, 64, s.tagMismatch), (64, 32, s.softRepairs), (96, 8, s.repairQueue.length),
    (104, 8, s.fuses.repairs.length)]] ++ entries.take 250) s

/-- MEM_STATUS (0x5301). -/
def execMemStatus (t : Time) (rq : Request) (s : State) : Outcome := command 0x5301 (lenIs 0) ownMemStatus t rq s

/-- MEM.COMMIT_REPAIR's own part (R436, R474): the entry is blown, and dequeued once it has verified. -/
def ownMemCommitRepair (verified : Bool) (rq : Request) (s : State) : Reply :=
  let q := qword rq 1
  let i := fld q 0 8
  guarded [(!onlyBits q [(0, 8)] || decide (s.repairQueue.length ≤ i), stBadParam), (isHeld s .fuses, stBusy),
    (decide (64 ≤ s.fuses.repairs.length), stDenied), (s.pwr.sagWarn, stSupplyLimit)] s (fun _ =>
    let e := s.repairQueue.getD i default
    let s1 : State := { s with fuses := { s.fuses with repairs := s.fuses.repairs ++ [(e.mem, e.row, e.spare)] } }
    if verified then
      let q1 := s1.repairQueue.filter (· != e)
      okaySteps 2 [] { s1 with repairQueue := q1, nv := { s1.nv with repairTable := q1 } }
    else { okaySteps 2 [] s1 with status := stResourceFailed, done := 1 })

/-- MEM_COMMIT_REPAIR (0x5302). -/
def execMemCommitRepair (t : Time) (rq : Request) (verified : Bool) (s : State) : Outcome :=
  commandSupply 0x5302 (lenIs 1) (ownMemCommitRepair verified) t rq s

/-! ### The NV store (R441, R443, R444) -/

/-- NV_WRITE_COUNT_STORE (R443): hourly. The model counts record writes, not those of each row: how far the highest row count
has risen is a free value. -/
def execNvWriteCountStore (t : Time) (s0 : State) : Outcome :=
  let s := tick t s0
  if !nvWritable s || decide (s.now < s.nv.lastCountStore + 3600 * secU) then .next s
  else
    let r := drawNat s
    .next { r.2 with nv := { s.nv with
      maxWrites := satAdd 64 s.nv.maxWrites r.1, storedWrites := s.nv.storedWrites + s.nv.writesSince, writesSince := 0
      lastCountStore := s.now } }

/-- Regions are rewritten in place (R444). -/
def refreshRegions (rs : List Nat) (s : State) : State :=
  { s with nv := { s.nv with
      refreshed := rs.foldl (fun l i => l.set i (tbNow s / secU % 2 ^ 48)) s.nv.refreshed
      writesSince := s.nv.writesSince + rs.length } }

/-- Five years in seconds (R443, R444). -/
abbrev fiveYears : Nat := 157788000

/-- NV_REFRESH_CHECK (R444): at the first lock after a start and once a day after that, regions not refreshed for 5 years are. -/
def execNvRefreshCheck (t : Time) (s0 : State) : Outcome :=
  let s := tick t s0
  let due := s.nv.lastRefreshCheck.all (fun a => decide (a + 86400 * secU ≤ s.now))
  if !nvWritable s || !s.time.everLocked || !due then .next s
  else
    let old := (List.range 7).filter (fun i => decide (s.nv.refreshed.getD i 0 + fiveYears ≤ tbNow s / secU))
    .next (refreshRegions old { s with nv := { s.nv with lastRefreshCheck := some s.now } })

/-- NVS.STATUS (R443, R444): the oldest refresh, the regions without a valid copy, write counts, and the images' releases. -/
def ownNvsStatus (_ : Request) (s : State) : Reply :=
  let oldest := s.nv.refreshed.foldl min (s.nv.refreshed.headD 0)
  okay [snap s, mkWord [(0, 48, oldest), (48, 7, s.nv.invalid.toNat)],
    mkWord [(0, 64, s.nv.maxWrites), (64, 16, s.nv.journal.length)],
    mkWord [(0, 32, s.nv.fwA.release.toNat), (32, 32, s.nv.fwB.release.toNat), (64, 1, b2n s.nv.fwA.valid),
      (65, 1, b2n s.nv.fwB.valid)]] s

/-- NVS_STATUS (0x5401). -/
def execNvsStatus (t : Time) (rq : Request) (s : State) : Outcome := command 0x5401 (lenIs 0) ownNvsStatus t rq s

/-- The regions that a request names. -/
def refreshMask (rq : Request) : List Nat := (List.range 7).filter (fun i => fbit (qword rq 1) i)

/-- NVS.REFRESH's own part (R444). -/
def ownNvsRefresh (rq : Request) (s : State) : Reply :=
  let q := qword rq 1
  let rs := refreshMask rq
  guarded [(!onlyBits q [(0, 7)] || rs.isEmpty, stBadParam), (rs.any (fun i => isHeld s (.nvRegion i)), stBusy),
    (s.pwr.sagWarn, stSupplyLimit)] s (fun _ => accepted rs.length (rs.map Resource.nvRegion) [] s)

/-- NVS_REFRESH (0x5402): the regions are refreshed, one step each, and the command ends. -/
def execNvsRefresh (t : Time) (rq : Request) (s : State) : Outcome :=
  let s1 := serve 0x5402 true (lenIs 1) true routedTo (reaching 0x5402 ownNvsRefresh rq) t rq s
  .next (finishing rq s s1 (fun x => endRq rq stOk (refreshMask rq).length (refreshRegions (refreshMask rq) x)))

/-! ### Fuses (R465 to R474) -/

/-- A 384-bit hash as three words. -/
def hashWords (h : BitVec 384) : List Word := [h.setWidth 128, (h >>> 128).setWidth 128, (h >>> 256).setWidth 128]

/-- The banks as FUSE.READ returns them (R466). -/
def bankWords (f : FuseBank) (bank : Nat) : List Word :=
  match bank with
  | 0 => mkWord [(0, 64, f.uid.toNat), (64, 4, b2n f.variantV), (72, 8, f.factoryRepairs)] ::
      hashWords f.keyHash0 ++ [mkWord [(0, 64, f.rollback.toNat)]]
  | 1 => mkWord [(0, 96, f.protDeny.toNat), (96, 2, f.debugLock.toNat), (98, 1, b2n f.anchorCap), (99, 1, b2n f.laneCap),
      (100, 3, f.keyRevoke.toNat), (127, 1, b2n f.sealed)] :: hashWords f.keyHash1 ++ hashWords f.keyHash2
  | _ =>
    let entry := fun (i : Nat) => match f.repairs[i]? with
      | some e => e.1 % 4 + (e.2.1 % 2 ^ 32) * 2 ^ 2 + (e.2.2 % 2 ^ 14) * 2 ^ 34 + 2 ^ 48
      | none => 0
    (List.range 32).map (fun k => mkWord [(0, 64, entry (2 * k)), (64, 64, entry (2 * k + 1))])

/-- FUSE.READ's own part (R466). -/
def ownFuseRead (rq : Request) (s : State) : Reply :=
  let q := qword rq 1
  guarded [(!onlyBits q [(0, 2)] || fld q 0 2 == 3, stBadParam)] s
    (fun _ => okay (snap s :: bankWords s.fuses (fld q 0 2)) s)

/-- FUSE_READ (0x5501). -/
def execFuseRead (t : Time) (rq : Request) (s : State) : Outcome := command 0x5501 (lenIs 1) ownFuseRead t rq s

/-- Width of a customer-bank field by its code (R466); 0 for a code that names none. -/
def fieldWidth (code : Nat) : Nat := [0, 96, 2, 1, 1, 384, 384, 3].getD code 0

/-- `VALUE` of a FUSE.PROGRAM: the words of the request from Q2 on. -/
def fuseValue (rq : Request) : BitVec 512 :=
  let w := fun (n : Nat) => if n ≤ rq.len then (qword rq n).toNat else 0
  BitVec.ofNat 512 (w 2 + w 3 * 2 ^ 128 + w 4 * 2 ^ 256 + w 5 * 2 ^ 384)

/-- Blow bits of a field into a bank. -/
def blow (code : Nat) (v : BitVec 384) (f : FuseBank) : FuseBank :=
  match code with
  | 1 => { f with protDeny := f.protDeny ||| v.setWidth 96 }
  | 2 => { f with debugLock := f.debugLock ||| v.setWidth 2 }
  | 3 => { f with anchorCap := f.anchorCap || v.getLsbD 0 }
  | 4 => { f with laneCap := f.laneCap || v.getLsbD 0 }
  | 5 => { f with keyHash1 := f.keyHash1 ||| v }
  | 6 => { f with keyHash2 := f.keyHash2 ||| v }
  | _ => { f with keyRevoke := f.keyRevoke ||| v.setWidth 3 }

/-- A map that denies group FUSE to both HOST and SPI (R469). -/
def locksOut (f : FuseBank) : Bool := f.protDeny.getLsbD 84 && f.protDeny.getLsbD 85

/-- No programmed key slot is left unrevoked (R471). -/
def noKeyLeft (f : FuseBank) : Bool :=
  f.keyRevoke.getLsbD 0 && (f.keyHash1 == 0 || f.keyRevoke.getLsbD 1) && (f.keyHash2 == 0 || f.keyRevoke.getLsbD 2)

/-- What a FUSE.PROGRAM does that no check refuses (R473, R474): it blows `val` and reads it back; `unblown` are the bits that
do not read back as blown. A verified blow of `PROT_DENY` or `KEY_REVOKE` applies at once. A sag warning during step 1 ends it
with the bits blown so far, `cut`. -/
def fuseBlow (unblown : BitVec 384) (cut : Option (BitVec 384)) (code : Nat) (val : BitVec 384) (s : State) : Reply :=
  let held := val &&& ~~~unblown &&& cut.getD (BitVec.allOnes 384)
  let s1 : State := { s with fuses := blow code held s.fuses }
  if cut.isSome then { okaySteps 2 [] s1 with status := stSupplyLimit, done := 1 }
  else if (val &&& unblown).toNat = 0 then
    okaySteps 2 [] (if code = 1 ∨ code = 7 then { s1 with fuseShadow := blow code held s1.fuseShadow } else s1)
  else { okaySteps 2 [] s1 with status := stResourceFailed, done := 1 }

/-- The field code and the bits that a FUSE.PROGRAM asks for (R373). -/
def fuseCode (rq : Request) : Nat := fld (qword rq 1) 0 8
def fuseBits (rq : Request) : BitVec 384 := (fuseValue rq).setWidth 384

/-- The checks of FUSE.PROGRAM (R373, R469, R471, R474). -/
def fuseChecks (rq : Request) (s : State) : List (Bool × BitVec 16) :=
  [(!onlyBits (qword rq 1) [(0, 8), (96, 32)] || fld (qword rq 1) 96 32 != 0x5128C0DE || fieldWidth (fuseCode rq) == 0 ||
      decide (2 ^ fieldWidth (fuseCode rq) ≤ (fuseValue rq).toNat) ||
      (fuseCode rq == 1 && locksOut (blow (fuseCode rq) (fuseBits rq) s.fuses) && !s.fuses.sealed) ||
      (fuseCode rq == 7 && noKeyLeft (blow (fuseCode rq) (fuseBits rq) s.fuses)), stBadParam),
    (isHeld s .fuses, stBusy), (s.fuses.sealed, stDenied), (s.pwr.sagWarn, stSupplyLimit)]

/-- FUSE.PROGRAM's own part. -/
def ownFuseProgram (unblown : BitVec 384) (cut : Option (BitVec 384)) (rq : Request) (s : State) : Reply :=
  guarded (fuseChecks rq s) s (fun _ => fuseBlow unblown cut (fuseCode rq) (fuseBits rq) s)

/-- FUSE_PROGRAM (0x5502). -/
def execFuseProgram (t : Time) (rq : Request) (unblown : BitVec 384) (cut : Option (BitVec 384)) (s : State) : Outcome :=
  commandSupply 0x5502 (lenIn 2 5) (ownFuseProgram unblown cut) t rq s

/-- FUSE.LOCK's own part (R373, R474). -/
def ownFuseLock (rq : Request) (s : State) : Reply :=
  let q := qword rq 1
  guarded [(!onlyBits q [(96, 32)] || fld q 96 32 != 0x5128C0DE, stBadParam), (isHeld s .fuses, stBusy),
    (s.fuses.sealed, stDenied), (s.pwr.sagWarn, stSupplyLimit)] s
    (fun _ => okay [] { s with
      fuses := { s.fuses with sealed := true }, fuseShadow := { s.fuseShadow with sealed := true } })

/-- FUSE_LOCK (0x5503). -/
def execFuseLock (t : Time) (rq : Request) (s : State) : Outcome := commandSupply 0x5503 (lenIs 1) ownFuseLock t rq s

/-! ### LOG and DIAG (R371, R380) -/

/-- LOG.CONFIG's own part. -/
def ownLogConfig (rq : Request) (s : State) : Reply :=
  let q := qword rq 1
  guarded [(!onlyBits q [(0, 3)], stBadParam)] s
    (fun _ => okay [] { s with diag := { s.diag with level := fld q 0 2, stream := fbit q 2 } })

/-- LOG_CONFIG (0x5601). -/
def execLogConfig (t : Time) (rq : Request) (s : State) : Outcome := command 0x5601 (lenIs 1) ownLogConfig t rq s

/-- `n` free words. -/
def drawWords : Nat → State → List Word × State
  | 0, s => ([], s)
  | n + 1, s =>
    let r := drawWord s
    let rest := drawWords n r.2
    (r.1 :: rest.1, rest.2)

/-- LOG.READ's own part: two words per entry go to channel LOG. What firmware logs and how many entries it holds is not
stated: free values. -/
def ownLogRead (rq : Request) (s : State) : Reply :=
  let q := qword rq 1
  guarded [(!onlyBits q [(0, 64)], stBadParam), (isHeld s .log, stBusy)] s (fun _ =>
    let held := drawNat s
    let ws := drawWords (2 * min (fld q 32 32) (held.1 - fld q 0 32)) held.2
    accepted 1 [.log] [] (modDma 13 (fun d => { d with feed := d.feed ++ ws.1 }) ws.2))

/-- LOG_READ (0x5602). -/
def execLogRead (t : Time) (rq : Request) (s : State) : Outcome := command 0x5602 (lenIs 1) ownLogRead t rq s

/-- A port carries FABRIC slots, circuits, a bridge group or a PTP role (R380). -/
def portCarries (s : State) (p : Nat) : Bool :=
  match p with
  | 2 => !s.line.circuits.isEmpty || s.line.drop == 8
  | 3 => (ethOf s 0).bridge || (s.time.ptp.getD 0 default).role != 0
  | 4 => (ethOf s 1).bridge || (s.time.ptp.getD 1 default).role != 0
  | k => (List.range 64).any (fun i => slotPresent s k i && (slotSet s k i).use != .unused)

/-- DIAG.LOOPBACK's own part (R380): while a loopback is on, the port's traffic stops. -/
def ownDiagLoopback (rq : Request) (s : State) : Reply :=
  let q := qword rq 1
  let p := fld q 0 3
  let mode := fld q 3 2
  guarded [(!onlyBits q [(0, 6)] || decide (4 < p) || mode == 3, stBadParam),
    (mode != 0 && portCarries s p && !fbit q 5, stBusy)] s
    (fun _ => okay [] (checkLinks { s with diag := { s.diag with loopback := s.diag.loopback.set p mode } }))

/-- DIAG_LOOPBACK (0x5F01). -/
def execDiagLoopback (t : Time) (rq : Request) (s : State) : Outcome := command 0x5F01 (lenIs 1) ownDiagLoopback t rq s

/-- DIAG.SELFTEST's own part. -/
def ownDiagSelftest (rq : Request) (s : State) : Reply :=
  let q := qword rq 1
  guarded [(!onlyBits q [(0, 4)] || decide (3 < fld q 0 4), stBadParam), (isHeld s .selftest, stBusy)] s
    (fun _ => accepted 1 [.selftest] [] s)

/-- DIAG_SELFTEST (0x5F02): it ends with `OK` or `RESOURCE_FAILED`. -/
def execDiagSelftest (t : Time) (rq : Request) (passed : Bool) (s : State) : Outcome :=
  let s1 := serve 0x5F02 true (lenIs 1) false routedTo (reaching 0x5F02 ownDiagSelftest rq) t rq s
  .next (finishing rq s s1 (fun x => if passed then endRq rq stOk 1 x else endRq rq stResourceFailed 0 x))

/-- DIAG.CAPTURE's own part: the samples go to channel SPARE. -/
def ownDiagCapture (samples : List Word) (rq : Request) (s : State) : Reply :=
  let q := qword rq 1
  let n := fld q 5 17
  guarded [(!onlyBits q [(0, 22)] || !lanePresent s (fld q 1 3) || decide (n < 1024) || decide (65536 < n), stBadParam),
    (isHeld s .capture, stBusy)] s
    (fun _ => accepted 1 [.capture] [] (modDma 14 (fun d => { d with feed := d.feed ++ samples }) s))

/-- DIAG_CAPTURE (0x5F03). -/
def execDiagCapture (t : Time) (rq : Request) (samples : List Word) (s : State) : Outcome :=
  command 0x5F03 (lenIs 1) (ownDiagCapture samples) t rq s

end Sys2Proof.Machine
end

