-- ==== Sys2Proof/Machine/Sys.lean ====
section
/-! DEFINITION. SYS.IDENTIFY and SYS.CMD_STATUS, the end of long commands, and commands to and from other nodes (R2, R290,
R338, R339, R353, R466). -/

namespace Sys2Proof.Machine

/-! ### SYS.IDENTIFY and SYS.CMD_STATUS -/

/-- SYS.IDENTIFY (R2, R466): device, step, release, identifier and fuse states. -/
def ownSysIdentify (_ : Request) (s : State) : Reply :=
  let f := s.fuses
  okay [snap s,
    mkWord [(0, 16, 0x5128), (16, 4, b2n f.variantV), (20, 4, 1), (24, 4, 1), (32, 32, s.mgmt.release.toNat),
      (64, 64, f.uid.toNat)],
    mkWord [(0, 64, f.rollback.toNat), (64, 1, b2n f.anchorCap), (65, 1, b2n f.laneCap), (66, 1, b2n (f.debugLock != 0)),
      (67, 1, b2n f.sealed), (68, 1, s.mgmt.image)]] s

/-- SYS_IDENTIFY (0x0101). -/
def execSysIdentify (t : Time) (rq : Request) (s : State) : Outcome := command 0x0101 (lenIs 0) ownSysIdentify t rq s

/-- An agent by its number. -/
def agentOf (n : Nat) : Agent :=
  match n with
  | 0 => .host | 1 => .spi | 2 => .fabric | _ => .debug

/-- SYS.CMD_STATUS's own part (R353): the journal entry, this command's own as running; all zero if not found. -/
def ownSysCmdStatus (rq : Request) (s : State) : Reply :=
  let q := qword rq 1
  let seq := BitVec.ofNat 32 (fld q 0 32)
  let a := agentOf (fld q 32 2)
  let src := BitVec.ofNat 16 (fld q 34 16)
  let mine : JEntry := { entryOf s 0x0102 rq with state := .running }
  guarded [(!onlyBits q [(0, 50)] || seq == 0 || (a != .fabric && src != 0), stBadParam)] s (fun _ =>
    match (mine :: s.nv.journal).find? (sameCommand a src seq) with
    | some e => okay (snap s :: journalWords e) s
    | none => okay [snap s, 0, 0] s)

/-- SYS_CMD_STATUS (0x0102). -/
def execSysCmdStatus (t : Time) (rq : Request) (s : State) : Outcome := command 0x0102 (lenIs 1) ownSysCmdStatus t rq s

/-! ### The end of long commands (R312, R314, R338) -/

/-- The generation in force at a word of a segment (R308); of a word older than every entry left it is not known: a free
value. -/
def genAt (s : State) (g ser : Nat) : Nat :=
  match (segOf s g).metas.reverse.find? (fun e => decide (e.serial ≤ ser)) with
  | some e => e.gen
  | none => Config.freeNat s.free % 65536

/-- The rest of an export: words with their generations. -/
def exportRest : Nat → Extract → State → List (Nat × Word) → Extract × List (Nat × Word)
  | 0, e, _, acc => (e, acc.reverse)
  | n + 1, e, s, acc =>
    if e.stop ≤ max e.next (oldest (segOf s e.seg)) then
      ({ e with skipped := e.skipped + (min e.stop (oldest (segOf s e.seg)) - e.next), next := e.stop }, acc.reverse)
    else
      let r := extractOne e s
      exportRest n r.1 s ((genAt s e.seg (r.1.next - 1), r.2) :: acc)

/-- Words into frames: at most 510 to a frame, and none of two generations (R312). -/
def frameUp : List (Nat × Word) → List (Nat × List Word) → List (Nat × List Word)
  | [], acc => acc.reverse
  | (g, w) :: rest, (h, ws) :: acc =>
    if g = h ∧ ws.length < 510 then frameUp rest ((h, ws ++ [w]) :: acc) else frameUp rest ((g, [w]) :: (h, ws) :: acc)
  | (g, w) :: rest, [] => frameUp rest [(g, [w])]

/-- The words that an extraction with release frees: the oldest ones it has delivered (R307). -/
def freedBy (e : Extract) (s : State) : Nat :=
  let old := oldest (segOf s e.seg)
  if e.next - e.delivered - e.skipped ≤ old then e.stop - old else 0

/-- An extraction's command ends: `PARTIAL` when words were skipped (R314). -/
def endExtract (e : Extract) (s : State) : State :=
  let s1 := modBasin (fun b => { b with extracts := b.extracts.filter (fun x =>
    !(x.seq == e.seq && x.agent == e.agent && x.srcNode == e.srcNode)) }) s
  let s2 := if e.release then freeWords e.seg (freedBy e s) s1 else s1
  endLong e.agent e.srcNode e.seq (if e.skipped = 0 then stOk else stPartial) 1 s2

/-- An extraction ends once its words and their metadata are delivered; an export sends what is left of its words. -/
def finishExtract (e : Extract) (s : State) : State :=
  match e.channel with
  | some c =>
    if e.stop ≤ max e.next (oldest (segOf s e.seg)) && (dmaOf s (9 + c)).feed.isEmpty then
      endExtract (extractMany 1 e s []).1 s
    else s
  | none =>
    let r := exportRest (e.stop - e.next + 1) e s []
    let s1 : State := { s with free := s.free + e.delivered + r.2.length + 1 }
    let s2 := (frameUp r.2 []).foldl (fun acc f => sendSingle e.tc 1 e.dest f.1 true f.2 acc) s1
    endExtract r.1 s2

/-- LONG_COMMAND_COMPLETE (R338): an extraction, an export, a log read or a capture ends when its words have gone out. The
other long commands end in the rows of what they wait for. -/
def execLongCommandComplete (t : Time) (agent : Agent) (seq : BitVec 32) (_status : BitVec 16) (_stepsDone : Nat)
    (s0 : State) : Outcome :=
  let s := tick t s0
  match s.mgmt.running.find? (fun r => r.agent == agent && r.seq == seq) with
  | none => .next s
  | some r =>
    let drained := fun (c : Nat) => if (dmaOf s c).feed.isEmpty && (dmaOf s c).badWord.isNone then
      endLong r.agent r.srcNode r.seq stOk 1 s else s
    if !s.mgmt.run then .next s
    else if r.opcode = 0x4005 ∨ r.opcode = 0x4007 then
      match s.basin.extracts.find? (fun e => e.seq == seq && e.agent == agent && e.srcNode == r.srcNode) with
      | some e => .next (finishExtract e s)
      | none => .next s
    else if r.opcode = 0x5602 then .next (drained 13)
    else if r.opcode = 0x5F03 then .next (drained 14)
    else .next s

/-! ### Responses of other nodes (R290, R339) -/

/-- The journal takes the outcome of a command executed elsewhere. -/
def remoteOutcome (rq : Request) (status : BitVec 16) (s : State) : State :=
  let ok := status == stOk || status == stAccepted || status == stPartial || status == stTimeout
  journalMod rq.agent rq.srcNode rq.seq (fun e => { e with
    stepsDone := if ok then 1 else 0, state := if ok then JState.done else JState.abandoned, status := status
    durationUs := durationUs s e.arrivalLocal }) s

/-- The command that waits for a response on a mailbox. -/
def remoteOn (s : State) (mailbox : Nat) (seq : Option (BitVec 32)) : Option RemotePending :=
  s.mgmt.remotes.find? (fun p => p.rq.mailbox.val == mailbox && (match seq with | some q => p.rq.seq == q | none => true))

/-- A remote command ends with a response (R339). -/
def remoteEnds (p : RemotePending) (status : BitVec 16) (words : List Word) (s : State) : State :=
  let s1 := remoteOutcome p.rq status (modMgmt (fun m => { m with remotes := m.remotes.filter (· != p) }) s)
  let s2 := answer p.rq p.rq.seq status words false s1
  if p.rq.eventOnDone && status != stAccepted then completionEvent p.rq.agent p.opcode.toNat p.rq.seq status s2 else s2

/-- MGMT_RSP_RX (R339): the response goes into the mailbox; the completion event of a command that the other node had
accepted goes into the local event queue. -/
def execMgmtRspRx (t : Time) (mailbox : Fin 16) (seq : BitVec 32) (status : BitVec 16) (words : List Word) (s0 : State) :
    Outcome :=
  let s := tick t s0
  arriveAt .xbar s fun s =>
  if !s.mgmt.run then .next s
  else match remoteOn s mailbox.val (some seq) with
    | some p => .next (remoteEnds p status words s)
    | none =>
      match s.nv.journal.find? (fun e => e.seq == seq && e.mailbox == mailbox.val && e.status == stAccepted &&
          e.state == .done && e.agent != .fabric) with
      | none => .next s
      | some e =>
        .next (completionEvent e.agent e.opcode.toNat seq status
          (journalMod e.agent e.srcNode seq (fun x => { x with status := status }) s))

/-- REMOTE_COMMAND_TIMEOUT (R290): no response within 1 s. -/
def execRemoteCommandTimeout (t : Time) (mailbox : Fin 16) (s0 : State) : Outcome :=
  let s := tick t s0
  match remoteOn s mailbox.val none with
  | none => .next s
  | some p =>
    if s.now < p.sentAt + secU || !s.mgmt.run then .next s else .next (remoteEnds p stTimeout [] s)

end Sys2Proof.Machine
end

