-- ==== Sys2Proof/Machine/Remote.lean ====
section
/-! DEFINITION. Commands that come over the fabric, and opcodes that do not exist (R271, R335, R339, R352). -/

namespace Sys2Proof.Machine

/-! ### Which opcodes exist (R332, R355) -/

/-- The highest function code of each group; the codes of a group run from 1 (R355). -/
def groupFns : List (Nat × Nat) :=
  [(0x01, 5), (0x02, 5), (0x10, 5), (0x11, 3), (0x12, 8), (0x13, 4), (0x14, 6), (0x15, 2), (0x20, 14),
    (0x21, 7), (0x30, 3), (0x31, 1), (0x32, 2), (0x33, 3), (0x40, 8), (0x41, 4), (0x50, 4), (0x51, 3), (0x52, 2),
    (0x53, 2), (0x54, 2), (0x55, 3), (0x56, 2), (0x5F, 3)]

/-- An opcode that the device knows. -/
def knownOp (op : Nat) : Bool := groupFns.any (fun g => g.1 == op / 256 && decide (1 ≤ op % 256) && decide (op % 256 ≤ g.2))

/-- UNKNOWN_COMMAND (R335 step 4): `UNKNOWN_OPCODE`. -/
def execUnknownCommand (t : Time) (rq : Request) (opcode : BitVec 16) (s : State) : Outcome :=
  if knownOp opcode.toNat then .next (tick t s)
  else .next (serve opcode.toNat false (fun _ => true) false routedTo (fun x => okay [] x) t rq s)

/-! ### Executing a request of another node (R339) -/

/-- A request that needs something from outside (a fetched image, a regulator's answer) waits for its own row; at most 64 do,
and one beyond them is answered `BUSY` (R352). -/
def queueRemote (op : Nat) (t : Time) (rq : Request) (s0 : State) : Outcome :=
  let s := tick t s0
  if (s.mgmt.fabricQueue ++ s.mgmt.waiting).length < 64 then
    .next (modMgmt (fun m => { m with fabricQueue := m.fabricQueue ++ [{ opcode := BitVec.ofNat 16 op, rq := rq }] }) s)
  else .next (answer rq rq.seq stBusy [] false s)

/-- Group SYS. -/
def remoteSys (op : Nat) (t : Time) (rq : Request) (s : State) : Outcome :=
  match op % 256 with
  | 1 => execSysIdentify t rq s
  | 2 => execSysCmdStatus t rq s
  | 3 => execSysReset t rq s
  | 4 => execSysIslandReset t rq s
  | _ => queueRemote op t rq s

/-- Group CFG. -/
def remoteCfg (op : Nat) (t : Time) (rq : Request) (s : State) : Outcome :=
  match op % 256 with
  | 1 => queueRemote op t rq s
  | 2 => (if fbit (qword rq 1) 0 then queueRemote op t rq s else execCfgCommitAt t rq true s)
  | 3 => (if fbit (qword rq 1) 0 then queueRemote op t rq s else execCfgCancelCommit t rq true s)
  | 4 => queueRemote op t rq s
  | _ => execCfgConfig t rq s

/-- Group CHAN. -/
def remoteChan (op : Nat) (t : Time) (rq : Request) (s : State) : Outcome :=
  match op % 256 with
  | 1 => execChanConfig t rq s
  | 2 => execChanSetInput t rq s
  | 3 => execChanStatus t rq s
  | 4 => execChanSubstitute t rq s
  | _ => execChanConfigBlank t rq s

/-- Group EXC. -/
def remoteExc (op : Nat) (t : Time) (rq : Request) (s : State) : Outcome :=
  match op % 256 with
  | 1 => execExcConfig t rq s
  | 2 => execExcStatus t rq s
  | _ => execExcLoopback t rq s

/-- Group FILT. -/
def remoteFilt (op : Nat) (t : Time) (rq : Request) (s : State) : Outcome :=
  match op % 256 with
  | 1 => execFiltConfig t rq s
  | 2 => execFiltLoadBank t rq s
  | 3 => execFiltSelectMode t rq s
  | 4 => execFiltStart t rq s
  | 5 => execFiltStop t rq s
  | 6 => execFiltCrossfade t rq s
  | 7 => execFiltSync t rq s
  | _ => execFiltStatus t rq s

/-- Group WEAVE. -/
def remoteWeave (op : Nat) (t : Time) (rq : Request) (s : State) : Outcome :=
  match op % 256 with
  | 1 => execWeaveLoad t rq s
  | 2 => execWeaveStart t rq s
  | 3 => execWeaveStop t rq s
  | _ => execWeaveStatus t rq s

/-- Group CAL. -/
def remoteCal (op : Nat) (t : Time) (rq : Request) (s : State) : Outcome :=
  match op % 256 with
  | 1 => execCalConfig t rq s
  | 2 => execCalStart t rq s
  | 3 => execCalStop t rq s
  | 4 => queueRemote op t rq s
  | 5 => execCalWrite t rq s
  | _ => execCalRestoreFactory t rq s

/-- Group REC. -/
def remoteRec (op : Nat) (t : Time) (rq : Request) (s : State) : Outcome :=
  match op % 256 with
  | 1 => execRecSubscribe t rq s
  | _ => execRecStatus t rq s

/-- Group TIME. -/
def remoteTime (op : Nat) (t : Time) (rq : Request) (s : State) : Outcome :=
  match op % 256 with
  | 1 => execTimeGetTime t rq s
  | 2 => execTimeStatus t rq s
  | 3 => execTimeConfigDomain t rq s
  | 4 => execTimeConfigServo t rq s
  | 5 => execTimeSelectDomain t rq s
  | 6 => execTimeClearFault t rq s
  | 7 => execTimeSetAsym t rq s
  | 8 => execTimeConfigRoot t rq s
  | 9 => execTimeConfigHoldover t rq s
  | 10 => execTimeConfigTod t rq s
  | 11 => execTimeSetUtcOffset t rq s
  | 12 => execTimeSet t rq s
  | 13 => execTimeStepAccept t rq s
  | _ => execTimeStepLog t rq s

/-- Group TACT. -/
def remoteTact (op : Nat) (t : Time) (rq : Request) (s : State) : Outcome :=
  match op % 256 with
  | 1 => execTactArm t rq s
  | 2 => execTactCancel t rq s
  | 3 => execTactStatus t rq s
  | 4 => execTactConfigPin t rq s
  | 5 => execTactConfigPps t rq s
  | 6 => execTactConfigCapture t rq s
  | _ => execTactReadCapture t rq s

/-- Group LANE. -/
def remoteLane (op : Nat) (t : Time) (rq : Request) (s : State) : Outcome :=
  match op % 256 with
  | 1 => execLaneConfig t rq s
  | 2 => execLaneRetrain t rq s
  | _ => execLaneStatus t rq s

/-- Group SLOT. -/
def remoteSlot (op : Nat) (t : Time) (rq : Request) (s : State) : Outcome :=
  match op % 256 with
  | _ => execSlotStatus t rq s

/-- Group FAB. -/
def remoteFab (op : Nat) (t : Time) (rq : Request) (s : State) : Outcome :=
  match op % 256 with
  | 1 => execFabStatus t rq s
  | _ => queueRemote op t rq s

/-- Group ETHM. -/
def remoteEthm (op : Nat) (t : Time) (rq : Request) (s : State) : Outcome :=
  match op % 256 with
  | 1 => execEthmConfig t rq s
  | 2 => execEthmPtpConfig t rq s
  | _ => execEthmStatus t rq s

/-- Group BASIN. -/
def remoteBasin (op : Nat) (t : Time) (rq : Request) (s : State) : Outcome :=
  match op % 256 with
  | 1 => execBasinConfigSegment t rq s
  | 2 => execBasinClear t rq s
  | 3 => execBasinFreeze t rq s
  | 4 => execBasinRelease t rq s
  | 5 => execBasinExtract t rq s
  | 6 => execBasinSetWindow t rq s
  | 7 => execBasinExport t rq s
  | _ => execBasinStatus t rq s

/-- Group OPER. -/
def remoteOper (op : Nat) (t : Time) (rq : Request) (s : State) : Outcome :=
  match op % 256 with
  | 1 => execOperConfig t rq s
  | 2 => execOperStart t rq s
  | 3 => execOperStop t rq s
  | _ => execOperStatus t rq s

/-- Group CLK. -/
def remoteClk (op : Nat) (t : Time) (rq : Request) (s : State) : Outcome :=
  match op % 256 with
  | 1 => execClkStatus t rq s
  | 2 => execClkCounter t rq s
  | 3 => execClkGate t rq s
  | _ => execClkSetPriority t rq s

/-- Group PWR. -/
def remotePwr (op : Nat) (t : Time) (rq : Request) (s : State) : Outcome :=
  match op % 256 with
  | 1 => execPwrSetOp t rq s
  | 2 => queueRemote op t rq s
  | _ => queueRemote op t rq s

/-- Group THERM. -/
def remoteTherm (op : Nat) (t : Time) (rq : Request) (s : State) : Outcome :=
  match op % 256 with
  | 1 => execThermConfig t rq s
  | _ => execThermStatus t rq s

/-- Group MEM. -/
def remoteMem (op : Nat) (t : Time) (rq : Request) (s : State) : Outcome :=
  match op % 256 with
  | 1 => execMemStatus t rq s
  | _ => queueRemote op t rq s

/-- Group NVS. -/
def remoteNvs (op : Nat) (t : Time) (rq : Request) (s : State) : Outcome :=
  match op % 256 with
  | 1 => execNvsStatus t rq s
  | _ => execNvsRefresh t rq s

/-- Group FUSE. -/
def remoteFuse (op : Nat) (t : Time) (rq : Request) (s : State) : Outcome :=
  match op % 256 with
  | 1 => execFuseRead t rq s
  | 2 => queueRemote op t rq s
  | _ => execFuseLock t rq s

/-- Group LOG. -/
def remoteLog (op : Nat) (t : Time) (rq : Request) (s : State) : Outcome :=
  match op % 256 with
  | 1 => execLogConfig t rq s
  | _ => execLogRead t rq s

/-- Group DIAG. -/
def remoteDiag (op : Nat) (t : Time) (rq : Request) (s : State) : Outcome :=
  match op % 256 with
  | 1 => execDiagLoopback t rq s
  | 2 => queueRemote op t rq s
  | _ => queueRemote op t rq s

/-- A known request of another node is executed as agent FABRIC (R339). -/
def remoteExec (op : Nat) (t : Time) (rq : Request) (s : State) : Outcome :=
  match op / 256 with
  | 0x01 => remoteSys op t rq s
  | 0x02 => remoteCfg op t rq s
  | 0x10 => remoteChan op t rq s
  | 0x11 => remoteExc op t rq s
  | 0x12 => remoteFilt op t rq s
  | 0x13 => remoteWeave op t rq s
  | 0x14 => remoteCal op t rq s
  | 0x15 => remoteRec op t rq s
  | 0x20 => remoteTime op t rq s
  | 0x21 => remoteTact op t rq s
  | 0x30 => remoteLane op t rq s
  | 0x31 => remoteSlot op t rq s
  | 0x32 => remoteFab op t rq s
  | 0x33 => remoteEthm op t rq s
  | 0x40 => remoteBasin op t rq s
  | 0x41 => remoteOper op t rq s
  | 0x50 => remoteClk op t rq s
  | 0x51 => remotePwr op t rq s
  | 0x52 => remoteTherm op t rq s
  | 0x53 => remoteMem op t rq s
  | 0x54 => remoteNvs op t rq s
  | 0x55 => remoteFuse op t rq s
  | 0x56 => remoteLog op t rq s
  | _ => remoteDiag op t rq s

/-- MGMT_REQ_RX (R271, R280, R301, R339): a request of another node has arrived whole. A header-only one is answered with a
header-only MGMT_RSP of the same frame sequence number. -/
def execMgmtReqRx (t : Time) (src : BitVec 16) (headerOnly : Bool) (opcode : BitVec 16) (rq : Request) (s0 : State) : Outcome :=
  let s := tick t s0
  arriveAt .xbar s fun s =>
  if !s.mgmt.run then .next s
  else if headerOnly then
    .next (sendDual {
      dest := src, src := myAddr s, tc := 3, kind := 3, seq := rq.seq.toNat % 65536, gen := s.cfg.activeGen
      lenM1 := 0, hop := 1022, westward := false, link := false, xring := false, last := true } [] s)
  else
    let rq1 : Request := { rq with agent := .fabric, srcNode := src, bell := rq.seq, arrival := s.now, remote := none }
    if !knownOp opcode.toNat then execUnknownCommand t rq1 opcode s else remoteExec opcode.toNat t rq1 s

end Sys2Proof.Machine
end

