-- ==== Sys2Proof/Machine/Dispatch.lean ====
section
/-! DEFINITION. The dispatch of the commands: one arm for each constructor of `Instr`. -/

namespace Sys2Proof.Machine

def exec (i : Instr) (s : State) : Host.Outcome State Fault Refusal :=
  match i with
  | .powerOnReset t => Sys2Proof.Machine.execPowerOnReset t s
  | .coldStartRelease t env => Sys2Proof.Machine.execColdStartRelease t env s
  | .bootImageVerify t sigA sigB => Sys2Proof.Machine.execBootImageVerify t sigA sigB s
  | .basinInitDone t => Sys2Proof.Machine.execBasinInitDone t s
  | .resetNAssert t lowNs => Sys2Proof.Machine.execResetNAssert t lowNs s
  | .resetNRelease t railsOk => Sys2Proof.Machine.execResetNRelease t railsOk s
  | .sagWarning t rail => Sys2Proof.Machine.execSagWarning t rail s
  | .sagWarningClear t => Sys2Proof.Machine.execSagWarningClear t s
  | .sagCommandTimeout t => Sys2Proof.Machine.execSagCommandTimeout t s
  | .sagReset t rails => Sys2Proof.Machine.execSagReset t rails s
  | .supplyRelease t => Sys2Proof.Machine.execSupplyRelease t s
  | .warmReset t env => Sys2Proof.Machine.execWarmReset t env s
  | .hostReset t => Sys2Proof.Machine.execHostReset t s
  | .hibernateEntry t => Sys2Proof.Machine.execHibernateEntry t s
  | .mgmtFault t standbyPair fetch => Sys2Proof.Machine.execMgmtFault t standbyPair fetch s
  | .watchdogExpiry t standbyPair => Sys2Proof.Machine.execWatchdogExpiry t standbyPair s
  | .mgmtTakeover t openSteps => Sys2Proof.Machine.execMgmtTakeover t openSteps s
  | .standbyReady t pairB selfTestOk => Sys2Proof.Machine.execStandbyReady t pairB selfTestOk s
  | .mgmtRestartAttempt t pairB => Sys2Proof.Machine.execMgmtRestartAttempt t pairB s
  | .aonThermalTrip t => Sys2Proof.Machine.execAonThermalTrip t s
  | .thermalRestart t => Sys2Proof.Machine.execThermalRestart t s
  | .doorbell t n value viaSpi => Sys2Proof.Machine.execDoorbell t n value viaSpi s
  | .longCommandComplete t agent seq status stepsDone => Sys2Proof.Machine.execLongCommandComplete t agent seq status stepsDone s
  | .registerWrite t offset value => Sys2Proof.Machine.execRegisterWrite t offset value s
  | .bar0InvalidAccess t => Sys2Proof.Machine.execBar0InvalidAccess t s
  | .protoErrRead t => Sys2Proof.Machine.execProtoErrRead t s
  | .evqLostRead t => Sys2Proof.Machine.execEvqLostRead t s
  | .dmaDroppedRead t ring => Sys2Proof.Machine.execDmaDroppedRead t ring s
  | .intStatusClear t mask => Sys2Proof.Machine.execIntStatusClear t mask s
  | .nmiCauseClear t mask => Sys2Proof.Machine.execNmiCauseClear t mask s
  | .sagSeenClear t mask => Sys2Proof.Machine.execSagSeenClear t mask s
  | .evqHeadWrite t value bad => Sys2Proof.Machine.execEvqHeadWrite t value bad s
  | .dmaProdWrite t c value => Sys2Proof.Machine.execDmaProdWrite t c value s
  | .dmaStart t c => Sys2Proof.Machine.execDmaStart t c s
  | .dmaStop t c => Sys2Proof.Machine.execDmaStop t c s
  | .dmaResume t c stillBad => Sys2Proof.Machine.execDmaResume t c stillBad s
  | .dmaResumeSkip t c => Sys2Proof.Machine.execDmaResumeSkip t c s
  | .bar2Read t word => Sys2Proof.Machine.execBar2Read t word s
  | .bar2Write t => Sys2Proof.Machine.execBar2Write t s
  | .spiTransaction t cmd data => Sys2Proof.Machine.execSpiTransaction t cmd data s
  | .dmaWrite t c desc bad => Sys2Proof.Machine.execDmaWrite t c desc bad s
  | .recBufferFlush t c => Sys2Proof.Machine.execRecBufferFlush t c s
  | .evqModTimer t => Sys2Proof.Machine.execEvqModTimer t s
  | .chanConfig t rq => Sys2Proof.Machine.execChanConfig t rq s
  | .chanSetInput t rq => Sys2Proof.Machine.execChanSetInput t rq s
  | .chanStatus t rq => Sys2Proof.Machine.execChanStatus t rq s
  | .chanSubstitute t rq => Sys2Proof.Machine.execChanSubstitute t rq s
  | .chanConfigBlank t rq => Sys2Proof.Machine.execChanConfigBlank t rq s
  | .excConfig t rq => Sys2Proof.Machine.execExcConfig t rq s
  | .excStatus t rq => Sys2Proof.Machine.execExcStatus t rq s
  | .excLoopback t rq => Sys2Proof.Machine.execExcLoopback t rq s
  | .filtConfig t rq => Sys2Proof.Machine.execFiltConfig t rq s
  | .filtLoadBank t rq => Sys2Proof.Machine.execFiltLoadBank t rq s
  | .filtSelectMode t rq => Sys2Proof.Machine.execFiltSelectMode t rq s
  | .filtStart t rq => Sys2Proof.Machine.execFiltStart t rq s
  | .filtStop t rq => Sys2Proof.Machine.execFiltStop t rq s
  | .filtCrossfade t rq => Sys2Proof.Machine.execFiltCrossfade t rq s
  | .filtSync t rq => Sys2Proof.Machine.execFiltSync t rq s
  | .filtStatus t rq => Sys2Proof.Machine.execFiltStatus t rq s
  | .weaveLoad t rq => Sys2Proof.Machine.execWeaveLoad t rq s
  | .weaveStart t rq => Sys2Proof.Machine.execWeaveStart t rq s
  | .weaveStop t rq => Sys2Proof.Machine.execWeaveStop t rq s
  | .weaveStatus t rq => Sys2Proof.Machine.execWeaveStatus t rq s
  | .calConfig t rq => Sys2Proof.Machine.execCalConfig t rq s
  | .calStart t rq => Sys2Proof.Machine.execCalStart t rq s
  | .calStop t rq => Sys2Proof.Machine.execCalStop t rq s
  | .calRead t rq readable => Sys2Proof.Machine.execCalRead t rq readable s
  | .calWrite t rq => Sys2Proof.Machine.execCalWrite t rq s
  | .calRestoreFactory t rq => Sys2Proof.Machine.execCalRestoreFactory t rq s
  | .recSubscribe t rq => Sys2Proof.Machine.execRecSubscribe t rq s
  | .recStatus t rq => Sys2Proof.Machine.execRecStatus t rq s
  | .timeGetTime t rq => Sys2Proof.Machine.execTimeGetTime t rq s
  | .timeStatus t rq => Sys2Proof.Machine.execTimeStatus t rq s
  | .timeConfigDomain t rq => Sys2Proof.Machine.execTimeConfigDomain t rq s
  | .timeConfigServo t rq => Sys2Proof.Machine.execTimeConfigServo t rq s
  | .timeSelectDomain t rq => Sys2Proof.Machine.execTimeSelectDomain t rq s
  | .timeClearFault t rq => Sys2Proof.Machine.execTimeClearFault t rq s
  | .timeSetAsym t rq => Sys2Proof.Machine.execTimeSetAsym t rq s
  | .timeConfigRoot t rq => Sys2Proof.Machine.execTimeConfigRoot t rq s
  | .timeConfigHoldover t rq => Sys2Proof.Machine.execTimeConfigHoldover t rq s
  | .timeConfigTod t rq => Sys2Proof.Machine.execTimeConfigTod t rq s
  | .timeSetUtcOffset t rq => Sys2Proof.Machine.execTimeSetUtcOffset t rq s
  | .timeSet t rq => Sys2Proof.Machine.execTimeSet t rq s
  | .timeStepAccept t rq => Sys2Proof.Machine.execTimeStepAccept t rq s
  | .timeStepLog t rq => Sys2Proof.Machine.execTimeStepLog t rq s
  | .tactArm t rq => Sys2Proof.Machine.execTactArm t rq s
  | .tactCancel t rq => Sys2Proof.Machine.execTactCancel t rq s
  | .tactStatus t rq => Sys2Proof.Machine.execTactStatus t rq s
  | .tactConfigPin t rq => Sys2Proof.Machine.execTactConfigPin t rq s
  | .tactConfigPps t rq => Sys2Proof.Machine.execTactConfigPps t rq s
  | .tactConfigCapture t rq => Sys2Proof.Machine.execTactConfigCapture t rq s
  | .tactReadCapture t rq => Sys2Proof.Machine.execTactReadCapture t rq s
  | .sysIdentify t rq => Sys2Proof.Machine.execSysIdentify t rq s
  | .sysCmdStatus t rq => Sys2Proof.Machine.execSysCmdStatus t rq s
  | .sysReset t rq => Sys2Proof.Machine.execSysReset t rq s
  | .sysIslandReset t rq => Sys2Proof.Machine.execSysIslandReset t rq s
  | .sysLoadFirmware t rq img => Sys2Proof.Machine.execSysLoadFirmware t rq img s
  | .cfgStage t rq img othersOk => Sys2Proof.Machine.execCfgStage t rq img othersOk s
  | .cfgCommitAt t rq othersOk => Sys2Proof.Machine.execCfgCommitAt t rq othersOk s
  | .cfgCancelCommit t rq othersOk => Sys2Proof.Machine.execCfgCancelCommit t rq othersOk s
  | .cfgReport t rq collected => Sys2Proof.Machine.execCfgReport t rq collected s
  | .cfgConfig t rq => Sys2Proof.Machine.execCfgConfig t rq s
  | .laneConfig t rq => Sys2Proof.Machine.execLaneConfig t rq s
  | .laneRetrain t rq => Sys2Proof.Machine.execLaneRetrain t rq s
  | .laneStatus t rq => Sys2Proof.Machine.execLaneStatus t rq s
  | .slotStatus t rq => Sys2Proof.Machine.execSlotStatus t rq s
  | .fabStatus t rq => Sys2Proof.Machine.execFabStatus t rq s
  | .fabProbe t rq answer => Sys2Proof.Machine.execFabProbe t rq answer s
  | .ethmConfig t rq => Sys2Proof.Machine.execEthmConfig t rq s
  | .ethmPtpConfig t rq => Sys2Proof.Machine.execEthmPtpConfig t rq s
  | .ethmStatus t rq => Sys2Proof.Machine.execEthmStatus t rq s
  | .basinConfigSegment t rq => Sys2Proof.Machine.execBasinConfigSegment t rq s
  | .basinClear t rq => Sys2Proof.Machine.execBasinClear t rq s
  | .basinFreeze t rq => Sys2Proof.Machine.execBasinFreeze t rq s
  | .basinRelease t rq => Sys2Proof.Machine.execBasinRelease t rq s
  | .basinExtract t rq => Sys2Proof.Machine.execBasinExtract t rq s
  | .basinSetWindow t rq => Sys2Proof.Machine.execBasinSetWindow t rq s
  | .basinExport t rq => Sys2Proof.Machine.execBasinExport t rq s
  | .basinStatus t rq => Sys2Proof.Machine.execBasinStatus t rq s
  | .operConfig t rq => Sys2Proof.Machine.execOperConfig t rq s
  | .operStart t rq => Sys2Proof.Machine.execOperStart t rq s
  | .operStop t rq => Sys2Proof.Machine.execOperStop t rq s
  | .operStatus t rq => Sys2Proof.Machine.execOperStatus t rq s
  | .clkStatus t rq => Sys2Proof.Machine.execClkStatus t rq s
  | .clkCounter t rq => Sys2Proof.Machine.execClkCounter t rq s
  | .clkGate t rq => Sys2Proof.Machine.execClkGate t rq s
  | .clkSetPriority t rq => Sys2Proof.Machine.execClkSetPriority t rq s
  | .pwrSetOp t rq => Sys2Proof.Machine.execPwrSetOp t rq s
  | .pwrStatus t rq railMv => Sys2Proof.Machine.execPwrStatus t rq railMv s
  | .pwrSetState t rq idle => Sys2Proof.Machine.execPwrSetState t rq idle s
  | .thermConfig t rq => Sys2Proof.Machine.execThermConfig t rq s
  | .thermStatus t rq => Sys2Proof.Machine.execThermStatus t rq s
  | .memStatus t rq => Sys2Proof.Machine.execMemStatus t rq s
  | .memCommitRepair t rq verified => Sys2Proof.Machine.execMemCommitRepair t rq verified s
  | .nvsStatus t rq => Sys2Proof.Machine.execNvsStatus t rq s
  | .nvsRefresh t rq => Sys2Proof.Machine.execNvsRefresh t rq s
  | .fuseRead t rq => Sys2Proof.Machine.execFuseRead t rq s
  | .fuseProgram t rq unblown cut => Sys2Proof.Machine.execFuseProgram t rq unblown cut s
  | .fuseLock t rq => Sys2Proof.Machine.execFuseLock t rq s
  | .logConfig t rq => Sys2Proof.Machine.execLogConfig t rq s
  | .logRead t rq => Sys2Proof.Machine.execLogRead t rq s
  | .diagLoopback t rq => Sys2Proof.Machine.execDiagLoopback t rq s
  | .diagSelftest t rq passed => Sys2Proof.Machine.execDiagSelftest t rq passed s
  | .diagCapture t rq samples => Sys2Proof.Machine.execDiagCapture t rq samples s
  | .unknownCommand t rq opcode => Sys2Proof.Machine.execUnknownCommand t rq opcode s
  | .filterOutput t ch o => Sys2Proof.Machine.execFilterOutput t ch o s
  | .recordDispatch t ch => Sys2Proof.Machine.execRecordDispatch t ch s
  | .pendingSettingApply t ch => Sys2Proof.Machine.execPendingSettingApply t ch s
  | .settlingDelayEnd t ch => Sys2Proof.Machine.execSettlingDelayEnd t ch s
  | .blankAssert t pin widthNs => Sys2Proof.Machine.execBlankAssert t pin widthNs s
  | .blankRelease t pin => Sys2Proof.Machine.execBlankRelease t pin s
  | .blankStuck t src => Sys2Proof.Machine.execBlankStuck t src s
  | .tblkWindowEnd t line => Sys2Proof.Machine.execTblkWindowEnd t line s
  | .syncNEdge t lowNs => Sys2Proof.Machine.execSyncNEdge t lowNs s
  | .groupSync t g => Sys2Proof.Machine.execGroupSync t g s
  | .channelFailureDetect t g ch detector firstBad => Sys2Proof.Machine.execChannelFailureDetect t g ch detector firstBad s
  | .spareConnect t g => Sys2Proof.Machine.execSpareConnect t g s
  | .spareSettleEnd t g => Sys2Proof.Machine.execSpareSettleEnd t g s
  | .substituteBistDone t g passed => Sys2Proof.Machine.execSubstituteBistDone t g passed s
  | .refValidityChange t gen valid => Sys2Proof.Machine.execRefValidityChange t gen valid s
  | .pathMismatchCheck t ch meanHg meanLg => Sys2Proof.Machine.execPathMismatchCheck t ch meanHg meanLg s
  | .excComplianceChange t n entry => Sys2Proof.Machine.execExcComplianceChange t n entry s
  | .excTrip t n pins => Sys2Proof.Machine.execExcTrip t n pins s
  | .excOverload t n averageMa belowFor => Sys2Proof.Machine.execExcOverload t n averageMa belowFor s
  | .leadDropMeasure t n dropP dropN => Sys2Proof.Machine.execLeadDropMeasure t n dropP dropN s
  | .acPolaritySwap t n => Sys2Proof.Machine.execAcPolaritySwap t n s
  | .acDeadTimeEnd t n => Sys2Proof.Machine.execAcDeadTimeEnd t n s
  | .loopbackEnd t ch mean rms count => Sys2Proof.Machine.execLoopbackEnd t ch mean rms count s
  | .weaveArmedStart t ch => Sys2Proof.Machine.execWeaveArmedStart t ch s
  | .strokeBoundary t ch => Sys2Proof.Machine.execStrokeBoundary t ch s
  | .roundStart t ch => Sys2Proof.Machine.execRoundStart t ch s
  | .calSlotStart t g tempChange => Sys2Proof.Machine.execCalSlotStart t g tempChange s
  | .calSpareCheckDone t g => Sys2Proof.Machine.execCalSpareCheckDone t g s
  | .calOverlapClose t g => Sys2Proof.Machine.execCalOverlapClose t g s
  | .calHandoverSwitch t g => Sys2Proof.Machine.execCalHandoverSwitch t g s
  | .calMeasurementDone t g sets inLimits => Sys2Proof.Machine.execCalMeasurementDone t g sets inLimits s
  | .spareRecheckDone t g good => Sys2Proof.Machine.execSpareRecheckDone t g good s
  | .calOverlapLimit t g => Sys2Proof.Machine.execCalOverlapLimit t g s
  | .calHandbackDelayed t g => Sys2Proof.Machine.execCalHandbackDelayed t g s
  | .tempCompUpdate t g => Sys2Proof.Machine.execTempCompUpdate t g s
  | .timeFrameRx t f => Sys2Proof.Machine.execTimeFrameRx t f s
  | .ptpMessageRx t port domainNum udp tags m => Sys2Proof.Machine.execPtpMessageRx t port domainNum udp tags m s
  | .ptpMessageTimer t port kind => Sys2Proof.Machine.execPtpMessageTimer t port kind s
  | .ppsInEdge t => Sys2Proof.Machine.execPpsInEdge t s
  | .todMessageRx t bytes => Sys2Proof.Machine.execTodMessageRx t bytes s
  | .domainSignalLoss t d => Sys2Proof.Machine.execDomainSignalLoss t d s
  | .timeCopySwitch t d => Sys2Proof.Machine.execTimeCopySwitch t d s
  | .timebaseStep t => Sys2Proof.Machine.execTimebaseStep t s
  | .slewComplete t => Sys2Proof.Machine.execSlewComplete t s
  | .revertiveSwitch t => Sys2Proof.Machine.execRevertiveSwitch t s
  | .faultRecovery t d => Sys2Proof.Machine.execFaultRecovery t d s
  | .holdoverLearn t => Sys2Proof.Machine.execHoldoverLearn t s
  | .holdoverTableWrite t => Sys2Proof.Machine.execHoldoverTableWrite t s
  | .holdoverBoundExpiry t => Sys2Proof.Machine.execHoldoverBoundExpiry t s
  | .leapEvent t => Sys2Proof.Machine.execLeapEvent t s
  | .timeFrameTx t => Sys2Proof.Machine.execTimeFrameTx t s
  | .ppsOutPulse t => Sys2Proof.Machine.execPpsOutPulse t s
  | .ppsPulseEnd t => Sys2Proof.Machine.execPpsPulseEnd t s
  | .todTxMessage t => Sys2Proof.Machine.execTodTxMessage t s
  | .linkDelayUpdate t port lane => Sys2Proof.Machine.execLinkDelayUpdate t port lane s
  | .linkDelayEventTimer t port lane => Sys2Proof.Machine.execLinkDelayEventTimer t port lane s
  | .aonSecondsLoad t => Sys2Proof.Machine.execAonSecondsLoad t s
  | .actionFire t slot => Sys2Proof.Machine.execActionFire t slot s
  | .tevPulseEnd t pin => Sys2Proof.Machine.execTevPulseEnd t pin s
  | .tcapEdge t input falling pulse => Sys2Proof.Machine.execTcapEdge t input falling pulse s
  | .clockSourceFailure t src stopped => Sys2Proof.Machine.execClockSourceFailure t src stopped s
  | .clockForcedSwitch t src => Sys2Proof.Machine.execClockForcedSwitch t src s
  | .refQualified t refB => Sys2Proof.Machine.execRefQualified t refB s
  | .clockQualifyTimeout t => Sys2Proof.Machine.execClockQualifyTimeout t s
  | .tbRefSwitchUp t entry => Sys2Proof.Machine.execTbRefSwitchUp t entry s
  | .pllLocked t src => Sys2Proof.Machine.execPllLocked t src s
  | .pllHoldExpiry t => Sys2Proof.Machine.execPllHoldExpiry t s
  | .counterGateClose t c measCount => Sys2Proof.Machine.execCounterGateClose t c measCount s
  | .vctlVerify t readingMv => Sys2Proof.Machine.execVctlVerify t readingMv s
  | .avsTimeout t => Sys2Proof.Machine.execAvsTimeout t s
  | .pmbusPoll t currents oscTemp => Sys2Proof.Machine.execPmbusPoll t currents oscTemp s
  | .sensorRead t readings openShort => Sys2Proof.Machine.execSensorRead t readings openShort s
  | .sensorBrokenChange t sensor => Sys2Proof.Machine.execSensorBrokenChange t sensor s
  | .zoneThresholdCrossing t zone => Sys2Proof.Machine.execZoneThresholdCrossing t zone s
  | .zoneRisingFastChange t zone => Sys2Proof.Machine.execZoneRisingFastChange t zone s
  | .graceTimeExpiry t => Sys2Proof.Machine.execGraceTimeExpiry t s
  | .l2HotTimer t => Sys2Proof.Machine.execL2HotTimer t s
  | .zoneAllBrokenTimer t zone => Sys2Proof.Machine.execZoneAllBrokenTimer t zone s
  | .laneSignalDetect t port lane => Sys2Proof.Machine.execLaneSignalDetect t port lane s
  | .laneRxConverged t port lane => Sys2Proof.Machine.execLaneRxConverged t port lane s
  | .laneNegotiationDone t port lane sameRate => Sys2Proof.Machine.execLaneNegotiationDone t port lane sameRate s
  | .laneAligned t port lane laneField => Sys2Proof.Machine.execLaneAligned t port lane laneField s
  | .laneTrainingTimeout t port lane => Sys2Proof.Machine.execLaneTrainingTimeout t port lane s
  | .laneRetryTimer t port lane => Sys2Proof.Machine.execLaneRetryTimer t port lane s
  | .laneFailure t port lane => Sys2Proof.Machine.execLaneFailure t port lane s
  | .framingCodewordRx t port lane cw side => Sys2Proof.Machine.execFramingCodewordRx t port lane cw side s
  | .laneJustification t port lane bufferHigh beyondRange => Sys2Proof.Machine.execLaneJustification t port lane bufferHigh beyondRange s
  | .ctleReevaluate t port lane better => Sys2Proof.Machine.execCtleReevaluate t port lane better s
  | .firTapRequest t port lane tap up gainDb100 => Sys2Proof.Machine.execFirTapRequest t port lane tap up gainDb100 s
  | .laneDegradedChange t port lane ber => Sys2Proof.Machine.execLaneDegradedChange t port lane ber s
  | .laneShedPowerdown t port lane => Sys2Proof.Machine.execLaneShedPowerdown t port lane s
  | .expressCodeword t port lane j cw resolved => Sys2Proof.Machine.execExpressCodeword t port lane j cw resolved s
  | .circuitAdd t circuit codewords => Sys2Proof.Machine.execCircuitAdd t circuit codewords s
  | .circuitDrop t circuit working protecting skewNs diffDelayUs => Sys2Proof.Machine.execCircuitDrop t circuit working protecting skewNs diffDelayUs s
  | .circuitRegen t port slot info => Sys2Proof.Machine.execCircuitRegen t port slot info s
  | .frameForward t f residence => Sys2Proof.Machine.execFrameForward t f residence s
  | .helloRx t port uid heard sameRing => Sys2Proof.Machine.execHelloRx t port uid heard sameRing s
  | .helloTx t port => Sys2Proof.Machine.execHelloTx t port s
  | .adjacencyTimeout t port => Sys2Proof.Machine.execAdjacencyTimeout t port s
  | .tokenRx t port payload1 payload2 => Sys2Proof.Machine.execTokenRx t port payload1 payload2 s
  | .tokenTx t => Sys2Proof.Machine.execTokenTx t s
  | .secondaryAnchorTakeover t => Sys2Proof.Machine.execSecondaryAnchorTakeover t s
  | .linkStateRx t port up pos brokenPort => Sys2Proof.Machine.execLinkStateRx t port up pos brokenPort s
  | .beaconTx t => Sys2Proof.Machine.execBeaconTx t s
  | .beaconRx t b => Sys2Proof.Machine.execBeaconRx t b s
  | .configFrameRx t gen offset words last digest64 => Sys2Proof.Machine.execConfigFrameRx t gen offset words last digest64 s
  | .mgmtReqRx t src headerOnly opcode rq => Sys2Proof.Machine.execMgmtReqRx t src headerOnly opcode rq s
  | .mgmtRspRx t mailbox seq status words => Sys2Proof.Machine.execMgmtRspRx t mailbox seq status words s
  | .remoteCommandTimeout t mailbox => Sys2Proof.Machine.execRemoteCommandTimeout t mailbox s
  | .recordsFrameRx t f mark => Sys2Proof.Machine.execRecordsFrameRx t f mark s
  | .dataFrameRx t f => Sys2Proof.Machine.execDataFrameRx t f s
  | .reorderHoldExpiry t src => Sys2Proof.Machine.execReorderHoldExpiry t src s
  | .sourceForget t src => Sys2Proof.Machine.execSourceForget t src s
  | .originationHoldEnd t => Sys2Proof.Machine.execOriginationHoldEnd t s
  | .exportFrameClose t g => Sys2Proof.Machine.execExportFrameClose t g s
  | .limiterExtensionEnd t => Sys2Proof.Machine.execLimiterExtensionEnd t s
  | .catchupTrigger t node => Sys2Proof.Machine.execCatchupTrigger t node s
  | .catchupCommit t => Sys2Proof.Machine.execCatchupCommit t s
  | .ethmFrameRx t port bytes fcsOk pause ptpEvent words => Sys2Proof.Machine.execEthmFrameRx t port bytes fcsOk pause ptpEvent words s
  | .ethmLinkChange t port up => Sys2Proof.Machine.execEthmLinkChange t port up s
  | .macAgeing t group mac => Sys2Proof.Machine.execMacAgeing t group mac s
  | .basinRecordWrite t seg => Sys2Proof.Machine.execBasinRecordWrite t seg s
  | .segmentIdleFreeze t seg => Sys2Proof.Machine.execSegmentIdleFreeze t seg s
  | .mirrorOriginLost t seg => Sys2Proof.Machine.execMirrorOriginLost t seg s
  | .operatorInput t slot => Sys2Proof.Machine.execOperatorInput t slot s
  | .operatorHoldExpiry t slot => Sys2Proof.Machine.execOperatorHoldExpiry t slot s
  | .scrubWord t mem badBits tagOk => Sys2Proof.Machine.execScrubWord t mem badBits tagOk s
  | .softRepairComplete t mem row => Sys2Proof.Machine.execSoftRepairComplete t mem row s
  | .nvWriteCountStore t => Sys2Proof.Machine.execNvWriteCountStore t s
  | .nvRefreshCheck t => Sys2Proof.Machine.execNvRefreshCheck t s
  | .rollbackAdvance t => Sys2Proof.Machine.execRollbackAdvance t s
  | .islandResetDrainEnd t openShakes => Sys2Proof.Machine.execIslandResetDrainEnd t openShakes s
  | .gateCloseDrainEnd t idle => Sys2Proof.Machine.execGateCloseDrainEnd t idle s
  | .gateOpenDone t => Sys2Proof.Machine.execGateOpenDone t s
  | .pcieLinkChange t up => Sys2Proof.Machine.execPcieLinkChange t up s
  | .spareRecalibrationDone t g sets => Sys2Proof.Machine.execSpareRecalibrationDone t g sets s
  | .originationLimitRelease t => Sys2Proof.Machine.execOriginationLimitRelease t s

end Sys2Proof.Machine
end

