-- ==== Sys2Proof/Safety.lean ====
section
/-! DEFINITION. The terms in which statements speak of a run: what a request needs to be taken up, how a mailbox answer
reads, which parts of the state a command leaves alone, the parts list of the device, and fuses that only blow. -/

namespace Sys2Proof.Machine

/-! ### Requests (R334, R335, R337, R352, R468) -/

/-- The state that a command's own part works on: the request lies in its mailbox and no longer waits. -/
def taken (op : Nat) (t : Time) (rq : Request) (s : State) : State := unpark rq (loadRequest op rq (tick t s))

/-- A request comes to the firmware: a pair serves, the request is readable, and its `SEQ` is non-zero and equals the value
written to the doorbell (R335). -/
def arrives (t : Time) (rq : Request) (s : State) : Bool :=
  serves (tick t s) rq && rq.readable && decide (rq.seq ≠ 0) && decide (rq.bell = rq.seq)

/-- A request that every check before its own ones lets through (R335): it is no duplicate, its length is in range, it is for
this node, the protection map allows it, firmware runs, and no sag warning holds it back. -/
def accepts (op : Nat) (t : Time) (rq : Request) (s : State) : Bool :=
  arrives t rq s && (journalFind s rq.agent rq.srcNode rq.seq).isNone && decide (rq.len ≤ 255) && rq.remote.isNone &&
    !s.mgmt.recovery && allowed s op rq.agent && !s.pwr.sagWarn

/-- A request of `lo` to `hi` words that is let through, and whose islands run (R14). -/
def runs (op lo hi : Nat) (t : Time) (rq : Request) (s : State) : Bool :=
  accepts op t rq s && decide (lo ≤ rq.len) && decide (rq.len ≤ hi) && (targets op (qword rq 1)).all (isUp s) &&
    !(op / 256 == 0x33 && s.clk.gated.getLsbD (10 + fld (qword rq 1) 0 1))

/-- The agents that answer in a mailbox. -/
def byMailbox (rq : Request) : Bool := rq.agent == .host || rq.agent == .spi

/-- The mailbox of a request exists. -/
def hasMailbox (rq : Request) (s : State) : Bool := decide (rq.mailbox.val < s.host.mbox.length)

/-- The mailbox of a request shows a response (R334 step 4): its status, its length and its words. -/
def answered (rq : Request) (status : BitVec 16) (words : List Word) (s : State) : Prop :=
  let m := s.host.mbox.getD rq.mailbox.val default
  m.done = true ∧ m.pending = false ∧ m.seq = rq.seq ∧ m.status = status ∧ m.rspLen = words.length ∧
    m.payload.take words.length = words

/-- The journal's newest entry is that of a request, with this outcome (R353). -/
def journalled (op : Nat) (rq : Request) (status : BitVec 16) (js : JState) (s : State) : Prop :=
  ∃ e rest, s.nv.journal = e :: rest ∧ e.seq = rq.seq ∧ e.agent = rq.agent ∧ e.opcode = BitVec.ofNat 16 op ∧
    e.status = status ∧ e.state = js

/-! ### Parts of the state -/

/-- The parts of the state. Where answering a command or raising an event changes some fields of a part, those fields are a
part of their own: the discard counts of the islands; the mailboxes, the event queue and the interrupt bits of HOSTIF; the
running and waiting commands; the frames that the node originates; the journal. -/
inductive Part
  | pending | now | free | islands | discards | host | mailboxes | events | interrupts | mgmt | commands | time | tact | daq
  | pwr | clk | therm | cfg | line | fab | frames | eth | basin | oper | mems | tagMismatch | softRepairs | repairQueue | nv
  | journal | fuses | fuseShadow | aon | diag | out
deriving DecidableEq, Repr, Inhabited

/-- A part is the same in two states. -/
def Part.same (p : Part) (s t : State) : Prop :=
  match p with
  | .pending => t.pending = s.pending
  | .now => t.now = s.now
  | .free => t.free = s.free
  | .time => t.time = s.time
  | .tact => t.tact = s.tact
  | .daq => t.daq = s.daq
  | .pwr => t.pwr = s.pwr
  | .clk => t.clk = s.clk
  | .therm => t.therm = s.therm
  | .cfg => t.cfg = s.cfg
  | .line => t.line = s.line
  | .eth => t.eth = s.eth
  | .basin => t.basin = s.basin
  | .oper => t.oper = s.oper
  | .mems => t.mems = s.mems
  | .tagMismatch => t.tagMismatch = s.tagMismatch
  | .softRepairs => t.softRepairs = s.softRepairs
  | .repairQueue => t.repairQueue = s.repairQueue
  | .fuses => t.fuses = s.fuses
  | .fuseShadow => t.fuseShadow = s.fuseShadow
  | .aon => t.aon = s.aon
  | .diag => t.diag = s.diag
  | .out => t.out = s.out
  | .discards => t.islands.map (fun x => x.discards) = s.islands.map (fun x => x.discards)
  | .islands => t.islands.map (fun x => { x with discards := 0 }) = s.islands.map (fun x => { x with discards := 0 })
  | .mailboxes => t.host.mbox = s.host.mbox
  | .events => t.host.evq = s.host.evq
  | .interrupts => t.host.intStatus = s.host.intStatus ∧ t.host.msixPending = s.host.msixPending
  | .host => { t.host with mbox := s.host.mbox, evq := s.host.evq, intStatus := s.host.intStatus,
                           msixPending := s.host.msixPending } = s.host
  | .commands => t.mgmt.running = s.mgmt.running ∧ t.mgmt.waiting = s.mgmt.waiting ∧ t.mgmt.fabricQueue = s.mgmt.fabricQueue
  | .mgmt => { t.mgmt with running := s.mgmt.running, waiting := s.mgmt.waiting, fabricQueue := s.mgmt.fabricQueue } = s.mgmt
  | .frames => t.fab.seq = s.fab.seq ∧ t.fab.orig = s.fab.orig ∧ t.fab.extended = s.fab.extended ∧
      t.fab.waiting = s.fab.waiting ∧ t.fab.discards = s.fab.discards ∧ t.fab.egress = s.fab.egress
  | .fab => { t.fab with seq := s.fab.seq, orig := s.fab.orig, extended := s.fab.extended, waiting := s.fab.waiting,
                         discards := s.fab.discards, egress := s.fab.egress } = s.fab
  | .journal => t.nv.journal = s.nv.journal ∧ t.nv.writesSince = s.nv.writesSince
  | .nv => { t.nv with journal := s.nv.journal, writesSince := s.nv.writesSince } = s.nv

/-- Every part but the named ones is the same. -/
def Unchanged (but : List Part) (s t : State) : Prop := ∀ p : Part, p ∉ but → p.same s t

/-- What raising events may change: the model's clock, the event queue and the interrupt bits, what has gone out, and the
discard counts while HOSTIF is down. -/
def signalling : List Part := [.now, .discards, .events, .interrupts, .out]

/-- What answering a command may change besides: the mailboxes, the running and waiting commands, the journal, and a MGMT_RSP
frame for FABRIC. -/
def answering : List Part := signalling ++ [.mailboxes, .commands, .frames, .journal]

/-- What is lost without power (R421, R445, R459): everything but the waiting commands of the queue, the NV store, the fuses
with their shadow copy, the free values, and what has gone out; the AON records change by their own rules. -/
def volatile : List Part :=
  [.islands, .discards, .host, .mailboxes, .events, .interrupts, .mgmt, .commands, .time, .tact, .daq, .pwr, .clk, .therm, .cfg,
    .line, .fab, .frames, .eth, .basin, .oper, .mems, .tagMismatch, .softRepairs, .repairQueue, .aon, .diag, .now, .out]

/-! ### How commands end (R334, R338, R353) -/

/-- A command is executed at once: the outcome is a next state that differs from the state before in `parts` and in what
answering changes, the journal shows the command DONE with `OK`, and its mailbox shows `OK` with `words`. -/
def completes (i : Instr) (op : Nat) (rq : Request) (words : List Word) (parts : List Part) (s : State)
    (post : State → Prop) : Prop :=
  ∃ u, exec i s = .next u ∧ post u ∧ Unchanged (parts ++ answering) s u ∧ journalled op rq stOk .done u ∧
    (byMailbox rq = true → hasMailbox rq s = true → answered rq stOk words u)

/-- A long command has begun (R338): the journal shows it RUNNING with `ACCEPTED`, its mailbox shows `ACCEPTED`, and it stands
among the running commands with the resources it holds (R352). -/
def begins (i : Instr) (op : Nat) (rq : Request) (holds : List Resource) (parts : List Part) (s : State)
    (post : State → Prop) : Prop :=
  ∃ u, exec i s = .next u ∧ post u ∧ Unchanged (parts ++ answering) s u ∧ journalled op rq stAccepted .running u ∧
    (∃ x ∈ u.mgmt.running, x.seq = rq.seq ∧ x.agent = rq.agent ∧ x.holds = holds) ∧
    (byMailbox rq = true → hasMailbox rq s = true → answered rq stAccepted [] u)

/-- A command that is answered at its end has begun (R334, R352): the journal shows it RUNNING, it stands among the running
commands with the resources it holds, and a duplicate of it reads `BUSY`. -/
def starts (i : Instr) (op : Nat) (rq : Request) (holds : List Resource) (parts : List Part) (s : State)
    (post : State → Prop) : Prop :=
  ∃ u, exec i s = .next u ∧ post u ∧ Unchanged (parts ++ answering) s u ∧ journalled op rq stBusy .running u ∧
    ∃ x ∈ u.mgmt.running, x.seq = rq.seq ∧ x.agent = rq.agent ∧ x.holds = holds ∧ x.ask = some rq

/-- No long command of this agent with this `SEQ` still runs. -/
def idle (rq : Request) (s : State) : Bool :=
  s.mgmt.running.all (fun x => !(x.agent == rq.agent && x.seq == rq.seq && (rq.agent != .fabric || x.srcNode == rq.srcNode)))

/-- The journal holds a command with this outcome (R353). -/
def recorded (a : Agent) (src : BitVec 16) (seq : BitVec 32) (status : BitVec 16) (js : JState) (s : State) : Prop :=
  (journalFind s a src seq).map (fun e => (e.status, e.state)) = some (status, js)

/-- A long command is accepted and, its outside part given, executed to its end (R338): the mailbox shows `ACCEPTED`, the
journal shows it DONE with `OK`, and it no longer runs. -/
def finishes (i : Instr) (rq : Request) (parts : List Part) (s : State) (post : State → Prop) : Prop :=
  ∃ u, exec i s = .next u ∧ post u ∧ Unchanged (parts ++ answering) s u ∧ idle rq u ∧
    recorded rq.agent rq.srcNode rq.seq stOk .done u ∧
    (byMailbox rq = true → hasMailbox rq s = true → answered rq stAccepted [] u)

/-- An event changes the state in `parts` and in what raising events changes. -/
def happens (i : Instr) (parts : List Part) (s : State) (post : State → Prop) : Prop :=
  ∃ u, exec i s = .next u ∧ post u ∧ Unchanged (parts ++ signalling) s u

/-! ### Mailbox commands (chapters 15 and 16) -/

/-- The opcode, the instant and the request of a mailbox command; none for a row that is no mailbox command. -/
def asks : Instr → Option (Nat × Time × Request)
  | .chanConfig t rq => some (0x1001, t, rq)
  | .chanSetInput t rq => some (0x1002, t, rq)
  | .chanStatus t rq => some (0x1003, t, rq)
  | .chanSubstitute t rq => some (0x1004, t, rq)
  | .chanConfigBlank t rq => some (0x1005, t, rq)
  | .excConfig t rq => some (0x1101, t, rq)
  | .excStatus t rq => some (0x1102, t, rq)
  | .excLoopback t rq => some (0x1103, t, rq)
  | .filtConfig t rq => some (0x1201, t, rq)
  | .filtLoadBank t rq => some (0x1202, t, rq)
  | .filtSelectMode t rq => some (0x1203, t, rq)
  | .filtStart t rq => some (0x1204, t, rq)
  | .filtStop t rq => some (0x1205, t, rq)
  | .filtCrossfade t rq => some (0x1206, t, rq)
  | .filtSync t rq => some (0x1207, t, rq)
  | .filtStatus t rq => some (0x1208, t, rq)
  | .weaveLoad t rq => some (0x1301, t, rq)
  | .weaveStart t rq => some (0x1302, t, rq)
  | .weaveStop t rq => some (0x1303, t, rq)
  | .weaveStatus t rq => some (0x1304, t, rq)
  | .calConfig t rq => some (0x1401, t, rq)
  | .calStart t rq => some (0x1402, t, rq)
  | .calStop t rq => some (0x1403, t, rq)
  | .calRead t rq _ => some (0x1404, t, rq)
  | .calWrite t rq => some (0x1405, t, rq)
  | .calRestoreFactory t rq => some (0x1406, t, rq)
  | .recSubscribe t rq => some (0x1501, t, rq)
  | .recStatus t rq => some (0x1502, t, rq)
  | .timeGetTime t rq => some (0x2001, t, rq)
  | .timeStatus t rq => some (0x2002, t, rq)
  | .timeConfigDomain t rq => some (0x2003, t, rq)
  | .timeConfigServo t rq => some (0x2004, t, rq)
  | .timeSelectDomain t rq => some (0x2005, t, rq)
  | .timeClearFault t rq => some (0x2006, t, rq)
  | .timeSetAsym t rq => some (0x2007, t, rq)
  | .timeConfigRoot t rq => some (0x2008, t, rq)
  | .timeConfigHoldover t rq => some (0x2009, t, rq)
  | .timeConfigTod t rq => some (0x200A, t, rq)
  | .timeSetUtcOffset t rq => some (0x200B, t, rq)
  | .timeSet t rq => some (0x200C, t, rq)
  | .timeStepAccept t rq => some (0x200D, t, rq)
  | .timeStepLog t rq => some (0x200E, t, rq)
  | .tactArm t rq => some (0x2101, t, rq)
  | .tactCancel t rq => some (0x2102, t, rq)
  | .tactStatus t rq => some (0x2103, t, rq)
  | .tactConfigPin t rq => some (0x2104, t, rq)
  | .tactConfigPps t rq => some (0x2105, t, rq)
  | .tactConfigCapture t rq => some (0x2106, t, rq)
  | .tactReadCapture t rq => some (0x2107, t, rq)
  | .sysIdentify t rq => some (0x0101, t, rq)
  | .sysCmdStatus t rq => some (0x0102, t, rq)
  | .sysReset t rq => some (0x0103, t, rq)
  | .sysIslandReset t rq => some (0x0104, t, rq)
  | .sysLoadFirmware t rq _ => some (0x0105, t, rq)
  | .cfgStage t rq _ _ => some (0x0201, t, rq)
  | .cfgCommitAt t rq _ => some (0x0202, t, rq)
  | .cfgCancelCommit t rq _ => some (0x0203, t, rq)
  | .cfgReport t rq _ => some (0x0204, t, rq)
  | .cfgConfig t rq => some (0x0205, t, rq)
  | .laneConfig t rq => some (0x3001, t, rq)
  | .laneRetrain t rq => some (0x3002, t, rq)
  | .laneStatus t rq => some (0x3003, t, rq)
  | .slotStatus t rq => some (0x3101, t, rq)
  | .fabStatus t rq => some (0x3201, t, rq)
  | .fabProbe t rq _ => some (0x3202, t, rq)
  | .ethmConfig t rq => some (0x3301, t, rq)
  | .ethmPtpConfig t rq => some (0x3302, t, rq)
  | .ethmStatus t rq => some (0x3303, t, rq)
  | .basinConfigSegment t rq => some (0x4001, t, rq)
  | .basinClear t rq => some (0x4002, t, rq)
  | .basinFreeze t rq => some (0x4003, t, rq)
  | .basinRelease t rq => some (0x4004, t, rq)
  | .basinExtract t rq => some (0x4005, t, rq)
  | .basinSetWindow t rq => some (0x4006, t, rq)
  | .basinExport t rq => some (0x4007, t, rq)
  | .basinStatus t rq => some (0x4008, t, rq)
  | .operConfig t rq => some (0x4101, t, rq)
  | .operStart t rq => some (0x4102, t, rq)
  | .operStop t rq => some (0x4103, t, rq)
  | .operStatus t rq => some (0x4104, t, rq)
  | .clkStatus t rq => some (0x5001, t, rq)
  | .clkCounter t rq => some (0x5002, t, rq)
  | .clkGate t rq => some (0x5003, t, rq)
  | .clkSetPriority t rq => some (0x5004, t, rq)
  | .pwrSetOp t rq => some (0x5101, t, rq)
  | .pwrStatus t rq _ => some (0x5102, t, rq)
  | .pwrSetState t rq _ => some (0x5103, t, rq)
  | .thermConfig t rq => some (0x5201, t, rq)
  | .thermStatus t rq => some (0x5202, t, rq)
  | .memStatus t rq => some (0x5301, t, rq)
  | .memCommitRepair t rq _ => some (0x5302, t, rq)
  | .nvsStatus t rq => some (0x5401, t, rq)
  | .nvsRefresh t rq => some (0x5402, t, rq)
  | .fuseRead t rq => some (0x5501, t, rq)
  | .fuseProgram t rq _ _ => some (0x5502, t, rq)
  | .fuseLock t rq => some (0x5503, t, rq)
  | .logConfig t rq => some (0x5601, t, rq)
  | .logRead t rq => some (0x5602, t, rq)
  | .diagLoopback t rq => some (0x5F01, t, rq)
  | .diagSelftest t rq _ => some (0x5F02, t, rq)
  | .diagCapture t rq _ => some (0x5F03, t, rq)
  | _ => none

/-- Opcodes whose commands judge a sag warning themselves (R358, R406): they answer `SUPPLY_LIMIT` instead of waiting. -/
def judgesSupply : List Nat := [0x0103, 0x0105, 0x5101, 0x5103, 0x5302, 0x5402, 0x5502, 0x5503]

/-- A command is refused (R335, R358): nothing changes but what answering changes; the journal shows it ABANDONED with this
status, and so does its mailbox. -/
def refuses (i : Instr) (op : Nat) (rq : Request) (status : BitVec 16) (s : State) : Prop :=
  ∃ u, exec i s = .next u ∧ Unchanged answering s u ∧ journalled op rq status .abandoned u ∧
    (byMailbox rq = true → hasMailbox rq s = true → answered rq status [] u)

/-! ### The device has all its parts (R2, R12, R30, R61, R136, R228, R242, R245, R248, R304, R318, R331, R387, R410) -/

/-- How many there are of each part. -/
def State.sizes (s : State) : List (List Nat) :=
  [[s.islands.length, s.oper.length, s.mems.length], [s.host.mbox.length, s.host.dma.length],
   [s.time.dom.length, s.time.asym.length, s.time.ptp.length, s.time.links.length],
   [s.tact.slots.length, s.tact.tev.length, s.tact.tcap.length],
   [s.daq.chans.length, s.daq.gens.length, s.daq.groups.length, s.daq.blank.length, s.daq.calSet.length,
    s.daq.coef.length, s.daq.addrs.length], [s.pwr.currents.length], [s.clk.plls.length, s.clk.counters.length],
   [s.therm.sensors.length, s.therm.zones.length], s.line.lanes.map List.length ++ s.line.slots.map List.length,
   [s.fab.ports.length], [s.eth.ports.length, s.eth.groups.length], [s.basin.segs.length], [s.nv.refreshed.length],
   [s.diag.loopback.length]]

/-- The parts list: 21 islands, 32 operator slots, 16 mailboxes and DMA channels, 64 channels, 16 generators, 8 groups and so
on. -/
def partsList : List (List Nat) :=
  [[21, 32, 3], [16, 16], [2, 5, 2, 3], [64, 16, 8], [64, 16, 8, 8, 64, 72, 1024], [8], [14, 4], [17, 7], [8, 8, 64, 64],
   [3], [2, 16], [1024], [7], [5]]

/-- The device has every part. -/
def Whole (s : State) : Prop := s.sizes = partsList

/-! ### Fuses (R465) -/

/-- `b` holds every blown fuse of `a`, and the factory bank is the same (R465). -/
def fusesBelow (a b : FuseBank) : Prop :=
  b.uid = a.uid ∧ b.variantV = a.variantV ∧ b.factoryRepairs = a.factoryRepairs ∧ b.keyHash0 = a.keyHash0 ∧
    a.rollback &&& b.rollback = a.rollback ∧ a.protDeny &&& b.protDeny = a.protDeny ∧
    a.debugLock &&& b.debugLock = a.debugLock ∧ (a.anchorCap = true → b.anchorCap = true) ∧
    (a.laneCap = true → b.laneCap = true) ∧ a.keyRevoke &&& b.keyRevoke = a.keyRevoke ∧
    (a.sealed = true → b.sealed = true) ∧ a.keyHash1 &&& b.keyHash1 = a.keyHash1 ∧
    a.keyHash2 &&& b.keyHash2 = a.keyHash2 ∧ a.repairs <+: b.repairs

end Sys2Proof.Machine
end

