-- ==== Sys2Proof/Certificates/Slice0/Obligations.lean ====
section
/-! DEFINITION. The statements for the provers, one `def Obligations.<Name> : Prop` each. Their terms are those of
Safety.lean; each docstring names the rules of spec/ that it rests on. -/

open Sys2Proof Sys2Proof.Machine

/-- A step takes the command at the front of the queue and executes it on the state with the queue's rest. That the queue
is a list, first in, first out, and that an empty one idles, is the model's form of a block (log entry 1). -/
def Obligations.StepRunsFrontCommand : Prop :=
  (∀ (c : Instr) (rest : List Instr) (s : State), s.pending = c :: rest → step s = exec c { s with pending := rest }) ∧
  (∀ s : State, s.pending = [] → step s = .next s)

/-- What the manual gives for reset: every island but AON is in reset, TIME included; the mailboxes and the rings are
empty, nothing is enabled to interrupt; the timebase is at epoch 0; no domain is locked; no management pair runs; every
lane is down; the level is L0; nothing waits. -/
def Obligations.ResetState : Prop :=
  let s := State.reset
  s.pending = [] ∧ (∀ i : Island, isUp s i = (i == .aon)) ∧ s.host.intEnable = 0 ∧ s.host.intStatus = 0 ∧
    s.host.nmiCause = 0 ∧ irqLow s = false ∧ nmiLow s = false ∧ s.host.protoErr = 0 ∧
      s.host.mbox = List.replicate 16 Reset.mailbox ∧
    s.time.epoch = 0 ∧ s.time.stepLog = [] ∧ s.time.everLocked = false ∧ s.mgmt.run = false ∧ s.mgmt.running = [] ∧
    s.therm.level = 0 ∧ s.pwr.state = .run ∧ s.aon.startDue = true ∧ s.basin.cells = [] ∧
    (∀ p < 2, ∀ l < 8, (laneOf s p l).state = .down)

/-- At reset the device has every part. -/
def Obligations.ResetIsWhole : Prop := Whole State.reset

/-- Every step keeps every part of the device: none appears and none is lost. -/
def Obligations.EveryStepKeepsTheParts : Prop := ∀ s u : State, Whole s → step s = .next u → Whole u

/-- R465: no step takes back a blown fuse, or changes a factory value. -/
def Obligations.FusesOnlyBlow : Prop := ∀ s u : State, step s = .next u → fusesBelow s.fuses u.fuses

/-- The basin's cells have their canonical form at reset, and every step keeps it. -/
def Obligations.BasinStaysCanonical : Prop :=
  memWf State.reset.basin.cells = true ∧
    ∀ s u : State, memWf s.basin.cells = true → step s = .next u → memWf u.basin.cells = true

/-- A step takes one command off the queue and nothing else, and the model's clock does not go back (the queue and the
clock are the model's, log entries 1 and 2). -/
def Obligations.EveryStepTakesOneCommand : Prop :=
  ∀ (c : Instr) (rest : List Instr) (s u : State), s.pending = c :: rest → step s = .next u →
    u.pending = rest ∧ s.now ≤ u.now

/-- R335, R352: how a request is judged before its own checks. A request that nothing serves stays as it is; one whose
`SEQ` is 0, or is not the doorbell's value, is answered `BAD_PARAM` under the doorbell's value; one of more than 255 words
is answered `BAD_LENGTH`. Nothing is executed. -/
def Obligations.RequestsAreJudgedInOrder : Prop :=
  ∀ (i : Instr) (op : Nat) (t : Time) (rq : Request) (s : State), asks i = some (op, t, rq) →
    (serves (tick t s) rq = false → exec i s = .next (tick t s)) ∧
    (serves (tick t s) rq → rq.readable → (rq.seq = 0 ∨ rq.bell ≠ rq.seq) →
      ∃ u, exec i s = .next u ∧ Unchanged answering s u ∧ u.nv = s.nv ∧
        (byMailbox rq = true → hasMailbox rq s = true →
          let m := u.host.mbox.getD rq.mailbox.val default
          m.done = true ∧ m.pending = false ∧ m.seq = rq.bell ∧ m.status = stBadParam ∧ m.rspLen = 0)) ∧
    (arrives t rq s → journalFind s rq.agent rq.srcNode rq.seq = none → 255 < rq.len → refuses i op rq stBadLength s)

/-- R337: a request whose agent (for FABRIC with its node) has already issued a command with its `SEQ` among the journal's
entries is not executed again: it is answered with the recorded outcome, with `DUPLICATE` set and `RSP_LEN` 0, and nothing
else changes; the journal stays as it is. -/
def Obligations.DuplicatesAreNotExecuted : Prop :=
  ∀ (i : Instr) (op : Nat) (t : Time) (rq : Request) (e : JEntry) (s : State), asks i = some (op, t, rq) →
    arrives t rq s → e ∈ s.nv.journal → e.agent = rq.agent → e.seq = rq.seq → (rq.agent = .fabric → e.srcNode = rq.srcNode) →
    (∀ x ∈ s.nv.journal, x.agent = rq.agent → x.seq = rq.seq → (rq.agent = .fabric → x.srcNode = rq.srcNode) → x = e) →
    ∃ u, exec i s = .next u ∧ Unchanged answering s u ∧ u.nv = s.nv ∧ u.mgmt.running = s.mgmt.running ∧
      (byMailbox rq = true → hasMailbox rq s = true →
        answered rq e.status [] u ∧ (u.host.mbox.getD rq.mailbox.val default).duplicate = true)

/-- R468: the protection map. `SYS.IDENTIFY` and `SYS.CMD_STATUS` are allowed to HOST and SPI whatever it holds; a command
that it denies ends with `DENIED_BY_FUSE` and is journalled; a request of another node is judged under the agent FABRIC; a
request for another node is sent whatever this node's map holds. -/
def Obligations.ProtectionMapDenies : Prop :=
  (∀ s : State, ∀ op ∈ [0x0101, 0x0102], ∀ a ∈ [Agent.host, .spi], allowed s op a = true) ∧
  (∀ (i : Instr) (op : Nat) (t : Time) (rq : Request) (s : State), asks i = some (op, t, rq) → arrives t rq s →
    journalFind s rq.agent rq.srcNode rq.seq = none → rq.len ≤ 255 →
    (rq.remote = none → s.mgmt.recovery = false → allowed s op rq.agent = false → refuses i op rq stDenied s) ∧
    (∀ dest, rq.remote = some dest →
      exec i s = .next (sendRemote op rq dest (routedTo dest (taken op t rq s)) (taken op t rq s)))) ∧
  (∀ (t : Time) (src : BitVec 16) (rq : Request) (s : State),
    let rq1 : Request := { rq with agent := .fabric, srcNode := src, bell := rq.seq, arrival := max s.now t, remote := none }
    isUp s .xbar → s.mgmt.run → s.mgmt.recovery = false → arrives t rq1 s → journalFind s .fabric src rq.seq = none →
    rq.len ≤ 255 → allowed s 0x2001 .fabric = false →
    ∃ u, exec (.mgmtReqRx t src false 0x2001 rq) s = .next u ∧ Unchanged answering s u ∧
      journalled 0x2001 rq1 stDenied .abandoned u)

/-- R406: while a sag warning is asserted a request waits, in order of arrival, and nothing else changes; a command that
judges the warning itself does not wait. -/
def Obligations.SagWarningHoldsRequests : Prop :=
  ∀ (i : Instr) (op : Nat) (t : Time) (rq : Request) (s : State), asks i = some (op, t, rq) → arrives t rq s →
    journalFind s rq.agent rq.srcNode rq.seq = none → rq.len ≤ 255 → rq.remote = none → s.mgmt.recovery = false →
    allowed s op rq.agent → s.pwr.sagWarn → judgesSupply.contains op = false →
    (∃ u, exec i s = .next u ∧ Unchanged answering s u ∧ u.mgmt.running = s.mgmt.running ∧
      (refuses i op rq stBadLength s ∨
        (u.nv = s.nv ∧ u.mgmt.waiting = s.mgmt.waiting.filter (fun w =>
          !(w.rq.agent == rq.agent && w.rq.seq == rq.seq && w.rq.srcNode == rq.srcNode)) ++
            [{ opcode := BitVec.ofNat 16 op, rq := rq }])))

/-- R373: `SYS.RESET`, `PWR.SET_STATE` into HIBERNATE, `FUSE.PROGRAM` and `FUSE.LOCK` need `CONFIRM` 0x5128_C0DE in bits
127 to 96 of Q1: any other value is answered `BAD_PARAM`, and nothing changes. -/
def Obligations.ConfirmationIsRequired : Prop :=
  ∀ (t : Time) (rq : Request) (s : State), fld (qword rq 1) 96 32 ≠ 0x5128C0DE →
    (runs 0x0103 1 1 t rq s → refuses (.sysReset t rq) 0x0103 rq stBadParam s) ∧
    (∀ idle, runs 0x5103 1 1 t rq s → fld (qword rq 1) 0 2 = 2 →
      refuses (.pwrSetState t rq idle) 0x5103 rq stBadParam s) ∧
    (∀ unblown cut, runs 0x5502 2 5 t rq s → refuses (.fuseProgram t rq unblown cut) 0x5502 rq stBadParam s) ∧
    (runs 0x5503 1 1 t rq s → refuses (.fuseLock t rq) 0x5503 rq stBadParam s)

/-- R469: a `FUSE.PROGRAM` of `PROT_DENY` that would deny group FUSE to both HOST and SPI is refused with `BAD_PARAM`
while the bank is not sealed. -/
def Obligations.FuseGroupStaysReachable : Prop :=
  ∀ (t : Time) (rq : Request) (unblown : BitVec 384) (cut : Option (BitVec 384)) (s : State), runs 0x5502 2 5 t rq s →
    fuseCode rq = 1 →
    s.fuses.sealed = false →
    (∀ a ∈ [Agent.host, .spi],
      (s.fuses.protDeny ||| (fuseBits rq).setWidth 96).getLsbD (4 * groupIx 0x55 + agentIx a) = true) →
    refuses (.fuseProgram t rq unblown cut) 0x5502 rq stBadParam s

/-- R336: while a mailbox is pending, every write to its registers and its payload, and every further write to its
doorbell, is discarded and counted in `PROTO_ERR`; the request is not altered. -/
def Obligations.PendingMailboxIsClosed : Prop :=
  ∀ (t : Time) (n : Fin 16) (v : BitVec 32) (s : State), isUp s .hostif →
    (s.host.mbox.getD n.val default).pending = true →
    let counted := { s.host with protoErr := satAdd 16 s.host.protoErr 1 }
    (∀ off, 0x10000 + 0x1000 * n.val ≤ off → off < 0x11000 + 0x1000 * n.val → off % 4 = 0 →
      happens (.registerWrite t off v) [.host] s (fun u => u.host = counted)) ∧
    happens (.registerWrite t (0x380 + 4 * n.val) v) [.host] s (fun u => u.host = counted) ∧
    happens (.doorbell t n v false) [.host] s (fun u => u.host = counted) ∧
    (n.val = 15 →
      happens (.doorbell t n v true) [.host] s (fun u => u.host = counted) ∧
      ∀ off, 0x1F000 ≤ off → off < 0x20000 → off % 4 = 0 →
        happens (.spiTransaction t (BitVec.ofNat 32 off) [v]) [.host] s (fun u =>
          u.host.mbox = s.host.mbox ∧ u.host.protoErr = satAdd 16 s.host.protoErr 1))

/-- R330: IRQ_N is low while it is enabled and an enabled bit of `INT_STATUS` is set, NMI_N while any bit of `NMI_CAUSE`
is; nothing masks NMI_N; writes of ones that clear the causes release the pins. -/
def Obligations.InterruptPinsFollow : Prop :=
  ∀ (t : Time) (s : State),
    (irqLow s = true ↔ s.host.irqPinEn = true ∧ ∃ i < 20, s.host.intStatus.getLsbD i = true ∧
      s.host.intEnable.getLsbD i = true) ∧
    (nmiLow s = true ↔ ∃ i < 5, s.host.nmiCause.getLsbD i = true) ∧
    (∀ off v, off % 4 = 0 → off ≠ 0x100 → isUp s .hostif →
      ∃ u, exec (.registerWrite t off v) s = .next u ∧ nmiLow u = nmiLow s) ∧
    (isUp s .hostif → ∀ m : BitVec 32,
      ((∀ i < 20, s.host.intStatus.getLsbD i = true → s.host.intEnable.getLsbD i = true → m.getLsbD i = true) →
        ∃ u, exec (.intStatusClear t m) s = .next u ∧ irqLow u = false) ∧
      ((∀ i < 5, s.host.nmiCause.getLsbD i = true → m.getLsbD i = true) →
        ∃ u, exec (.nmiCauseClear t m) s = .next u ∧ nmiLow u = false))

/-- A full word written to the basin reads back, and no other byte of the basin changes; cells stay canonical. -/
def Obligations.BasinWordsReadBack : Prop :=
  ∀ (m : List Host.Cell) (n : Nat) (w : Word), memWf m = true →
    readWord (writeWord m n w) n = w ∧ memWf (writeWord m n w) = true ∧
    (∀ a, (a < 16 * n ∨ 16 * n + 16 ≤ a) → readByte (writeWord m n w) a = readByte m a) ∧
    (∀ k, k ≠ n → readWord (writeWord m n w) k = readWord m k)

/-- R350: actions on a DMA channel that do not fit its state are ignored; STOP ends the buffer in use with `ENDED`, and
the channel is STOPPED. -/
def Obligations.DmaActionsFit : Prop :=
  ∀ (t : Time) (c : Fin 16) (s : State), isUp s .hostif →
    let d := dmaOf s c.val
    (ringChannel c.val = false ∨ (d.state ≠ .idle ∧ d.state ≠ .stopped ∧ d.state ≠ .aborted) →
      exec (.dmaStart t c) s = .next (tick t s)) ∧
    (d.state ≠ .running → d.state ≠ .starved → d.state ≠ .haltedUe → exec (.dmaStop t c) s = .next (tick t s)) ∧
    (d.state ≠ .haltedUe → (∀ b, exec (.dmaResume t c b) s = .next (tick t s)) ∧
      exec (.dmaResumeSkip t c) s = .next (tick t s)) ∧
    (∀ b, d.buf = some b → (d.state = .running ∨ d.state = .starved ∨ d.state = .haltedUe) →
      ∃ u, exec (.dmaStop t c) s = .next u ∧ (dmaOf u c.val).state = .stopped ∧ (dmaOf u c.val).buf = none ∧
        .completion c.val d.cons (completionEntry c.val b.desc b.words b.gen b.poison .ended) ∈ u.out)

/-- R38, R40, R42, R43, R59, R82, R110, R111, R360, R361: each channel command, its checks passed, is executed, and what it
leaves. Settings wait for the channel's output boundary. -/
def Obligations.ChannelCommandsComplete : Prop :=
  ∀ (t : Time) (rq : Request) (s : State),
    let q := qword rq 1
    let c := fld q 0 6
    let up := fun i => fbit q (64 + i)
    let wants := chanAccept (chanUpdate q) (chanGiven q)
    (∀ x, effCfg (wants x) = mergeCfg (chanUpdate q) (chanGiven q) (effCfg x)) ∧
    (runs 0x1001 1 1 t rq s → onlyBits q [(0, 57), (64, 10)] → unusedZero q chanFields up → fld q 8 4 ≤ 8 →
      fld q 14 2 ≠ 3 → fld q 16 2 ≠ 3 → fld q 27 14 ≤ 10000 → (up 0 → ¬breaksAc (modChan c wants s) (c / 4)) →
      (∀ i < 10, up i → chanRefused (chanOf s c) q i = false) → heldChans s [c] = false →
      completes (.chanConfig t rq) 0x1001 rq [] [.daq] s
        (fun u => u.daq = if fld q 64 10 = 0 then s.daq else { s.daq with chans := s.daq.chans.modify c wants })) ∧
    (runs 0x1002 1 1 t rq s → onlyBits q [(0, 9)] → woven s c = false → heldChans s [c] = false →
      completes (.chanSetInput t rq) 0x1002 rq [] [.daq] s (fun u => u.daq =
        { s.daq with chans := s.daq.chans.modify c (fun x => { x with pendingPos := some (fld q 6 3) }) })) ∧
    (runs 0x1003 1 1 t rq s → onlyBits q [(0, 6)] →
      completes (.chanStatus t rq) 0x1003 rq (snap (tick t s) :: chanStatusWords c (tick t s)) [] s (fun _ => True)) ∧
    (runs 0x1004 1 1 t rq s → onlyBits q [(0, 7)] → fbit q 6 = true →
      (chanOf s c).subst = .failure ∨ (chanOf s c).subst = .softFault → heldChans s (chansOf (c / 8)) = false →
      begins (.chanSubstitute t rq) 0x1004 rq [.channel c] [.daq] s (fun u => u.daq = (modCal (c / 8) (fun k => { k with
        phase := .bist, chan := c, release := true, slotOut := true, newSets := [], due := none, secondTry := false
        secondCal := false, spareBad := false, delayedRaised := false, abandoned := false }) s).daq)) ∧
    (runs 0x1004 1 1 t rq s → onlyBits q [(0, 7)] → fbit q 6 = false → (chanOf s c).failed →
      (groupOf s (c / 8)).spare ≠ .failed → heldChans s (chansOf (c / 8)) = false →
      completes (.chanSubstitute t rq) 0x1004 rq [] [.daq, .nv] s
        (fun u => u.daq = (moveSpare (c / 8) c (taken 0x1004 t rq s)).daq)) ∧
    (runs 0x1005 1 1 t rq s → onlyBits q [(0, 23)] → fld q 3 20 ≠ 0 → fld q 3 20 ≤ 600000 →
      completes (.chanConfigBlank t rq) 0x1005 rq [] [.daq] s (fun u => u.daq =
        { s.daq with blank := s.daq.blank.modify (fld q 0 3) (fun b => { b with stuckMs := fld q 3 20 }) })) ∧
    (runs 0x1103 1 1 t rq s → onlyBits q [(0, 20)] → fld q 6 14 ≠ 0 → fld q 6 14 ≤ 10000 → woven s c = false →
      calHolds s c = false → heldChans s [c] = false → (chanOf s c).loopback = none →
      begins (.excLoopback t rq) 0x1103 rq [.channel c] [.daq] s (fun u => u.daq =
        { s.daq with chans := s.daq.chans.modify c (fun x => { x with pendingLoop := some (fld q 6 14) }) }))

/-- R123 to R137, R363, R419: each filter command, its checks passed, is executed, and what it leaves: a bank or a mode of
one instance, a start or stop that waits for the boundary, a cross-fade that is pending, a synchronisation at the first
whole microsecond at least 100 us ahead. -/
def Obligations.FilterCommandsComplete : Prop :=
  ∀ (t : Time) (rq : Request) (s : State),
    let q := qword rq 1
    let c := fld q 0 6
    let sh := fbit q 6
    let up := fun i => fbit q (17 + i)
    let x := chanOf s c
    let free := woven s c = false
    let unheld := heldChans s [c] = false
    (runs 0x1201 1 1 t rq s → onlyBits q [(0, 21)] → unusedZero q [(6, 1), (7, 8), (15, 1), (16, 1)] up →
      (up 0 → free ∧ unheld) →
      completes (.filtConfig t rq) 0x1201 rq [] [.daq] s (fun u => u.daq = { s.daq with
        chans := if up 0 then s.daq.chans.modify c (fun x => { x with markNext := some (fbit q 6) }) else s.daq.chans
        groups := if up 1 then s.daq.groups.mapIdx (fun g x => { x with syncN := fbit q (7 + g) }) else s.daq.groups
        autoLock := if up 2 then fbit q 15 else s.daq.autoLock
        autoStep := if up 3 then fbit q 16 else s.daq.autoStep })) ∧
    (runs 0x1202 3 79 t rq s → free → unheld → x.fade = .normal → running (instOf x sh) = false → onlyBits q [(0, 8)] →
      bankCheck (rq.payload.drop 1) = none →
      completes (.filtLoadBank t rq) 0x1202 rq [] [.daq] s (fun u => u.daq = (modInst c sh (fun f =>
        let b := some (bankOf (rq.payload.drop 1))
        if fbit q 7 then { f with bankB := b } else { f with bankA := b }) s).daq)) ∧
    (runs 0x1203 1 1 t rq s → free → unheld → x.fade = .normal → running (instOf x sh) = false → onlyBits q [(0, 11)] →
      modeValid (fld q 7 4) → (14 ≤ fld q 7 4 → (bankSel { instOf x sh with mode := fld q 7 4 }).isSome) →
      (sh = false → 3 ≤ s.therm.level → fastMode { instOf x sh with mode := fld q 7 4 } = false) →
      completes (.filtSelectMode t rq) 0x1203 rq [] [.daq] s
        (fun u => u.daq = (modInst c sh (fun f => { f with mode := fld q 7 4 }) s).daq)) ∧
    (runs 0x1204 1 1 t rq s → free → unheld → x.fade = .normal → onlyBits q [(0, 7)] → running (instOf x sh) = false →
      acBroken s c (instOf x sh) = false → (sh = false → 3 ≤ s.therm.level → fastMode (instOf x sh) = false) →
      completes (.filtStart t rq) 0x1204 rq [] [.daq] s
        (fun u => u.daq = (modInst c sh (fun f => { f with run := .starting }) s).daq)) ∧
    (runs 0x1205 1 1 t rq s → free → unheld → x.fade = .normal → onlyBits q [(0, 7)] →
      completes (.filtStop t rq) 0x1205 rq [] [.daq] s (fun u => u.daq =
        if running (instOf x sh) then (modInst c sh (fun f => { f with run := .stopping }) s).daq else s.daq)) ∧
    (runs 0x1206 1 1 t rq s → free → unheld → x.fade = .normal → onlyBits q [(0, 19)] → 1 ≤ fld q 6 13 → fld q 6 13 ≤ 4096 →
      running x.shadow →
      (cyclesPer x.primary.mode (bankSel x.primary) = cyclesPer x.shadow.mode (bankSel x.shadow) ∨ fld q 6 13 = 1) →
      acBroken s c x.shadow = false →
      completes (.filtCrossfade t rq) 0x1206 rq [] [.daq] s (fun u => u.daq = { s.daq with
        chans := s.daq.chans.modify c (fun x => { x with
          fade := .pending (fld q 6 13), lastFadeTs := none, fadeFrom := (tick t s).now }) })) ∧
    (runs 0x1207 1 1 t rq s → onlyBits q [(0, 11)] → fbit q 8 = false →
      completes (.filtSync t rq) 0x1207 rq [mkWord [(0, 96, t96 (soon (tick t s))), (96, 6, 63)]] [.daq] s (fun u => u.daq =
        ((bitsOf (BitVec.ofNat 8 (fld q 0 8))).foldl
          (fun acc g => addSync g (localOf (tick t s) (soon (tick t s))) acc) s).daq)) ∧
    (runs 0x1208 1 1 t rq s → onlyBits q [(0, 6)] →
      completes (.filtStatus t rq) 0x1208 rq (snap (tick t s) :: filtStatusWords c (tick t s)) [] s (fun _ => True)) ∧
    (runs 0x1501 1 1 t rq s → onlyBits q [(0, 69)] → fld q 0 10 ≤ 0x1FF → fbit q 52 = false →
      unusedZero q [(10, 8), (18, 11), (29, 20)] (fun i => fbit q (49 + i)) →
      (fbit q 50 → fbit q 18 → (s.basin.segs.getD (fld q 19 10) default).state ≠ .unconfigured) →
      (fbit q 51 → fbit q 29 → exportClass (fld q 46 3)) →
      completes (.recSubscribe t rq) 0x1501 rq [] [.daq] s (fun u => u.daq = { s.daq with
        addrs := s.daq.addrs.modify (fld q 0 10)
          (fun x => { x with pending := some (subMerge q (fun i => fbit q (49 + i)) (x.pending.getD x.sub)) }) })) ∧
    (runs 0x1502 1 1 t rq s → onlyBits q [(0, 27)] → fld q 0 10 ≤ 0x1FF →
      let node := BitVec.ofNat 16 (if fbit q 10 then fld q 11 16 else 0)
      let x := if fbit q 10 then remoteOf s node (fld q 0 10) else addrOf s (fld q 0 10)
      completes (.recStatus t rq) 0x1502 rq
        [snap (tick t s), subWord (fld q 0 10) (fbit q 10) node.toNat x.sub,
          mkWord [(0, 64, x.delivered), (64, 64, x.discarded)], mkWord [(0, 64, x.genIgnored), (64, 64, x.gaps)]]
        [] s (fun _ => True))

/-- R147, R152, R153, R154, R157, R364: the weave commands. A load stores the image; a start without a time arms the
channels for the first whole microsecond at least 100 us ahead, one on SYNC for the next group synchronisation; a stop
acts on every named channel; status gives state, stroke and round. -/
def Obligations.WeaveCommandsComplete : Prop :=
  ∀ (t : Time) (rq : Request) (s : State),
    let q := qword rq 1
    let c := fld q 0 6
    let cs := bitsOf (BitVec.ofNat 64 (fld q 0 64))
    let w := (chanOf s c).weave
    let startable := onlyBits q [(0, 68)] ∧ startBad s cs = false ∧ startBusy s cs = false ∧ heldChans s cs = false
    (runs 0x1301 2 66 t rq s → w.state ≠ .running → w.state ≠ .armed → heldChans s [c] = false → onlyBits q [(0, 6)] →
      weaveCheck (rq.payload.drop 1) (c % 4 == 0 && (effGen (genOf s (c / 4))).follow) (effCfg (chanOf s c)).burnout = none →
      completes (.weaveLoad t rq) 0x1301 rq [] [.daq] s (fun u => u.daq =
        (modWeave c (fun w => { w with state := .loaded, image := some (weaveOf (rq.payload.drop 1)) }) s).daq)) ∧
    (runs 0x1302 1 1 t rq s → startable → fld q 64 2 = 0 →
      completes (.weaveStart t rq) 0x1302 rq [mkWord [(0, 96, t96 (soon (tick t s))), (96, 6, 63)]] [.daq] s (fun u =>
        u.daq = (forChans cs (fun c => modWeave c (fun w =>
          { w with state := .armed, armedAt := some (localOf (tick t s) (soon (tick t s))) })) s).daq)) ∧
    (runs 0x1302 1 1 t rq s → startable → fld q 64 2 = 2 →
      completes (.weaveStart t rq) 0x1302 rq [mkWord [(96, 6, 63)]] [.daq] s (fun u =>
        u.daq = (forChans cs (fun c => modWeave c (fun w => { w with state := .armed, armedSync := true })) s).daq)) ∧
    (runs 0x1303 1 1 t rq s → onlyBits q [(0, 66)] → fld q 64 2 ≠ 3 →
      (∀ c ∈ cs, (chanOf s c).weave.armedSlot = false) → heldChans s cs = false →
      completes (.weaveStop t rq) 0x1303 rq [] [.daq, .free] s (fun u =>
        u.daq = (forChans cs (stopWeave (fld q 64 2) (max s.now t)) (taken 0x1303 t rq s)).daq)) ∧
    (runs 0x1304 1 1 t rq s → onlyBits q [(0, 6)] →
      completes (.weaveStatus t rq) 0x1304 rq
        [snap (tick t s),
          mkWord [(0, 2, weaveCode w.state), (2, 6, match w.cur with | some r => r.index | none => w.lastStroke),
            (8, 32, w.round), (40, 32, (w.image.getD default).tag.toNat)],
          mkWord ((List.range 8).map (fun p => (16 * p, 16, w.incomplete.getD p 0))),
          mkWord [(0, 96, if w.state = .running then t96 (tbAt s w.tStart) else 0)]] [] s (fun _ => True))

/-- R71, R72, R76, R84, R362: a generator's settings wait for the output boundary of the channel that leads it, and its
status reads its mode, its drops and its last loop-back. -/
def Obligations.GeneratorCommandsComplete : Prop :=
  ∀ (t : Time) (rq : Request) (s : State),
    let q := qword rq 1
    let n := fld q 0 4
    let up := fun i => fbit q (89 + i)
    let new := excMerge q up (effGen (genOf s n))
    let s1 := modGen n (fun g => { g with pending := some new }) s
    (runs 0x1101 1 1 t rq s → onlyBits q [(0, 97)] → unusedZero q excFields up → excRangeBad q up = false →
      (new.mode = .ac → acCond s1 n ∧ ∀ c ∈ fedBy n, woven s c = false) → weaveOwned s n = false →
      isHeld s (.generator n) = false → fld q 89 8 ≠ 0 → (leadChan s n).isSome →
      completes (.excConfig t rq) 0x1101 rq [] [.daq] s (fun u => u.daq = s1.daq)) ∧
    (runs 0x1102 1 1 t rq s → onlyBits q [(0, 4)] →
      completes (.excStatus t rq) 0x1102 rq (snap (tick t s) :: excStatusWords n (tick t s)) [] s (fun _ => True))

/-- R165, R166, R169, R178, R365: the calibration commands. The settings of a channel and the cycle; channels brought
forward; the cycle of the named groups off; a set read, written with `SOURCE` 3, or restored to the factory's, waiting for
the output boundary and stored in the NV store. -/
def Obligations.CalibrationCommandsComplete : Prop :=
  ∀ (t : Time) (rq : Request) (s : State) (readable : Bool),
    let q := qword rq 1
    let c := fld q 0 6
    let up := fun i => fbit q (36 + i)
    let conv := fld q 0 7
    let g := fld q 7 4
    let cs := bitsOf (BitVec.ofNat 64 (fld q 0 64))
    let convs := bitsOf (BitVec.ofNat 72 (fld q 0 72))
    let k : CoefSet := { coefOf (qword rq 2) (qword rq 3) with source := 3 }
    let all := convs.flatMap (fun c => (List.range 9).map (fun g => (c, g, Config.factory c g)))
    let settings : DaqSt := { s.daq with calSet := s.daq.calSet.modify c (fun x => { x with
      periodS := if up 1 then fld q 7 12 else x.periodS
      included := if up 2 then fbit q 19 else x.included
      overlapUs := if up 3 then fld q 20 16 else x.overlapUs }) }
    (runs 0x1401 1 1 t rq s → onlyBits q [(0, 40)] → (up 0 = false → fbit q 6 = false) →
      (if up 1 then 80 ≤ fld q 7 12 ∧ fld q 7 12 ≤ 3600 else fld q 7 12 = 0) → (up 2 = false → fbit q 19 = false) →
      (if up 3 then 100 ≤ fld q 20 16 else fld q 20 16 = 0) → heldChans s [c] = false →
      completes (.calConfig t rq) 0x1401 rq [] [.daq] s (fun u => u.daq =
        if up 0 then (calRefresh (c / 8) (modCal (c / 8) (fun k => { k with cycleEnable := fbit q 6 })
          { taken 0x1401 t rq s with daq := settings })).daq
        else settings)) ∧
    (runs 0x1402 1 1 t rq s → onlyBits q [(0, 64)] → (∀ c ∈ cs, spareServes s (c / 8)) → heldChans s cs = false →
      completes (.calStart t rq) 0x1402 rq [] [.daq] s (fun u => u.daq = (forChans cs bringForward s).daq)) ∧
    (runs 0x1403 1 1 t rq s → onlyBits q [(0, 9)] →
      completes (.calStop t rq) 0x1403 rq [] [.daq] s (fun u => u.daq =
        ((bitsOf (BitVec.ofNat 8 (fld q 0 8))).foldl (fun acc g =>
          let off := modCal g (fun k => { k with cycleEnable := false }) acc
          calRefresh g (if fbit q 8 then abandonSlot g off else off)) (taken 0x1403 t rq s)).daq)) ∧
    (runs 0x1404 1 1 t rq s → onlyBits q [(0, 17)] → conv ≤ 71 → g ≤ 8 → fld q 11 2 ≠ 3 →
      (fld q 11 2 = 2 → fld q 13 4 < (historyOf s conv g).length) → readable →
      completes (.calRead t rq readable) 0x1404 rq (snap (tick t s) :: coefWords (match fld q 11 2 with
        | 0 => coefFor s conv g
        | 1 => Config.factory conv g
        | _ => (historyOf s conv g).getD (fld q 13 4) default)) [] s (fun _ => True)) ∧
    (runs 0x1405 3 3 t rq s → onlyBits q [(0, 11)] → conv ≤ 71 → g ≤ 8 → 153600 ≤ k.dfe → k.dfe ≤ 256000 →
      fld (qword rq 3) 24 8 = 0 → fld (qword rq 3) 120 8 = 0 → inSlot s conv = false → heldChans s [conv] = false →
      completes (.calWrite t rq) 0x1405 rq [] [.daq, .nv] s (fun u =>
        u.daq = { s.daq with
          coefPending := s.daq.coefPending.filter (fun p => !(p.1 == conv && p.2.1 == g)) ++ [(conv, g, k)] } ∧
        u.nv.cal = { calAppend conv [(g, k)] s.nv.cal with valid := true } ∧
        storedSet u.nv.cal conv g = some k)) ∧
    (runs 0x1406 1 1 t rq s → onlyBits q [(0, 72)] → (∀ c ∈ convs, inSlot s c = false) → heldChans s convs = false →
      completes (.calRestoreFactory t rq) 0x1406 rq [] [.daq, .nv] s (fun u =>
        u.daq = { s.daq with coefPending := s.daq.coefPending.filter (fun p => !convs.contains p.1) ++ all } ∧
        u.nv.cal = convs.foldl (fun r c => calAppend c ((List.range 9).map (fun g => (g, Config.factory c g))) r) s.nv.cal))

/-- R197, R200, R201, R203, R207, R210, R214, R220, R222, R367: the settings of the time service, and what its status
commands answer. -/
def Obligations.TimeSettingsComplete : Prop :=
  ∀ (t : Time) (rq : Request) (s : State),
    let q := qword rq 1
    let now := tick t s
    let d := fld q 0 1
    (runs 0x2001 0 0 t rq s →
      completes (.timeGetTime t rq) 0x2001 rq [snap now, mkWord (utcFields s)] [] s (fun _ => True)) ∧
    (runs 0x2002 0 0 t rq s →
      completes (.timeStatus t rq) 0x2002 rq (snap now :: timeStatusWords now) [] s (fun _ => True)) ∧
    (runs 0x200E 0 0 t rq s →
      completes (.timeStepLog t rq) 0x200E rq
        ([snap now, mkWord [(0, 5, s.time.stepLog.length)]] ++ s.time.stepLog.flatMap stepWords) [] s (fun _ => True)) ∧
    (runs 0x2003 1 1 t rq s → onlyBits q [(0, 5), (32, 32), (64, 64)] →
      sourceClash (sourceOf q) (domOf s (otherDom d)).source = false →
      (fld q 1 2 = 1 → fbit q 4 → fld q 64 64 = 0) →
      completes (.timeConfigDomain t rq) 0x2003 rq [] [.daq, .time] s
        (fun u => u.time = (configDomain d (sourceOf q) (sfld q 32 32) (taken 0x2003 t rq s)).time)) ∧
    (runs 0x2004 2 2 t rq s → onlyBits q [(0, 1), (32, 64)] → onlyBits (qword rq 2) [(0, 118)] →
      servoOk (servoOf q (qword rq 2)) →
      completes (.timeConfigServo t rq) 0x2004 rq [] [.time] s (fun u => u.time =
        { s.time with dom := s.time.dom.modify d (fun x => { x with servoNext := some (servoOf q (qword rq 2)) }) })) ∧
    (runs 0x2005 1 1 t rq s → onlyBits q [(0, 14)] → fld q 4 10 ≠ 0 → fld q 4 10 ≤ 1000 → fbit q 2 = false →
      completes (.timeSelectDomain t rq) 0x2005 rq [] [.time] s (fun u =>
        u.time.preferred = fld q 0 1 ∧ u.time.revertive = fbit q 1 ∧ u.time.declareMode = fbit q 3 ∧
          u.time.slewRate = fld q 4 10)) ∧
    (runs 0x2006 1 1 t rq s → onlyBits q [(0, 1)] → (domOf s d).state ≠ .faulty →
      completes (.timeClearFault t rq) 0x2006 rq [] [] s (fun _ => True)) ∧
    (runs 0x2006 1 1 t rq s → onlyBits q [(0, 1)] → (domOf s d).state = .faulty →
      completes (.timeClearFault t rq) 0x2006 rq [] [.daq, .time] s
        (fun u => u.time = (chooseDom (toState d .acquiring (taken 0x2006 t rq s))).time)) ∧
    (runs 0x2007 1 1 t rq s → onlyBits q [(0, 3), (32, 64)] → fld q 0 3 ≤ 4 →
      completes (.timeSetAsym t rq) 0x2007 rq [] [.time] s (fun u =>
        u.time = { s.time with asym := s.time.asym.set (fld q 0 3) (sfld q 32 32, sfld q 64 32) })) ∧
    (runs 0x2008 1 1 t rq s → onlyBits q [(0, 6)] → fld q 2 4 ≤ 8 →
      completes (.timeConfigRoot t rq) 0x2008 rq [] [.time] s (fun u => u.time =
        { s.time with rootAdvertise := fbit q 0, rootFollowAnchor := fbit q 1, rootRateN := fld q 2 4 })) ∧
    (runs 0x2009 1 1 t rq s → onlyBits q [(0, 25)] → fld q 0 5 ≤ 16 → fld q 5 20 ≤ 604800 →
      completes (.timeConfigHoldover t rq) 0x2009 rq [] [.time] s (fun u =>
        u.time = (followTable (modTime (fun x => { x with
          tempSrc := fld q 0 5, boundS := fld q 5 20
          holdoverExpired := x.mode == .holdover && decide (x.holdoverSince + fld q 5 20 * secU ≤ now.now) }) now)).time ∧
        u.time.tempSrc = fld q 0 5 ∧ u.time.boundS = fld q 5 20)) ∧
    (runs 0x200A 1 1 t rq s → onlyBits q [(0, 21)] → 9600 ≤ fld q 1 20 → fld q 1 20 ≤ 921600 →
      completes (.timeConfigTod t rq) 0x200A rq [] [.time] s (fun u =>
        u.time = { s.time with tod := { s.time.tod with txEnable := fbit q 0, baud := fld q 1 20 } })) ∧
    (runs 0x200B 1 1 t rq s → onlyBits q [(0, 18), (32, 48)] → (fbit q 16 = false ∨ fbit q 17 = false) →
      (fld q 32 48 = 0 ∨ t96Near now (BitVec.ofNat 128 (fld q 32 48 * 2 ^ 48))) → s.time.utc.supplied = false →
      completes (.timeSetUtcOffset t rq) 0x200B rq [] [.time] s (fun u =>
        u.time = { s.time with
          utc := { offset := sfld q 0 16, leap61 := fbit q 16, leap59 := fbit q 17, leapTime := fld q 32 48
                   valid := true, supplied := false } }))

/-- R195, R220, R221: the host sets the timebase, and accepts a step, while no step is decided and no action slot is
armed. The timebase then reads the value set; the epoch has counted and the step stands first in the log. -/
def Obligations.TimeStepsComplete : Prop :=
  ∀ (t : Time) (rq : Request) (s : State),
    let q := qword rq 1
    let d := fld q 0 1
    let now := tick t s
    s.time.stepDue = none → (∀ i < 64, slotAt s i = none) → followsLocked s = false →
    0 ≤ ((max s.now t : Nat) : Int) + s.time.stepSum →
    (runs 0x200C 1 1 t rq s → t96Form q →
      completes (.timeSet t rq) 0x200C rq [] [.daq, .basin, .time] s (fun u =>
        tbNow u = ofT96 q ∧ u.time.epoch = (s.time.epoch + 1) % 65536 ∧
          u.time.stepLog.head? = some { epoch := (s.time.epoch + 1) % 65536, before := tbNow now, after := ofT96 q
                                        cause := .hostSet })) ∧
    (∀ delta, runs 0x200D 1 1 t rq s → onlyBits q [(0, 1)] → (domOf s d).state = .faulty →
      (domOf s d).pendingDelta = some delta →
      (((domOf s d).thetaTb + delta * 2 ^ 32).natAbs : Int) ≤ nsOff (domOf s d).servo.agreeNs →
      0 ≤ ((max s.now t : Nat) : Int) + s.time.stepSum + delta →
      completes (.timeStepAccept t rq) 0x200D rq [] [.daq, .basin, .time] s (fun u =>
        (tbNow u : Int) = (tbNow now : Int) + delta ∧ u.time.epoch = (s.time.epoch + 1) % 65536 ∧
          (u.time.stepLog.map (fun e => e.cause)).head? = some .hostAccept))

/-- R229, R234 to R237, R242, R244, R245, R247, R368: the timed-action commands. Arming takes the first free slot;
cancelling frees the slot and tells what had fired; what was due in an earlier tick fires before a slot is cancelled or
read; status and captures are read; pins, the second pulse and the capture inputs are set. -/
def Obligations.ActionCommandsComplete : Prop :=
  ∀ (t : Time) (rq : Request) (s : State),
    let q := qword rq 1
    let now := tick t s
    let slots := fun (i : Nat) (a : Option SlotArm) => { s.tact with slots := s.tact.slots.set i a }
    let quiet := ∀ j, nextDue now = some j → ∀ a, slotAt now j = some a → tickOf now.now ≤ dueTick now a
    (∀ a i p, runs 0x2101 3 3 t rq s → slotOf q (qword rq 2) (qword rq 3) rq.agent = some a → t96Near now q →
      freeSlot s = some i → armPlan a (tbNow now) = some p →
      completes (.tactArm t rq) 0x2101 rq
        [mkWord [(0, 6, i), (6, 32, p.skipped)], t96Word (tbNow now) s.time.epoch, mkWord [(0, 64, p.lateness)]] [.tact] s
        (fun u => u.tact = slots i (some p.arm))) ∧
    (runs 0x2102 1 1 t rq s → onlyBits q [(0, 6)] → fld q 0 6 ≠ 63 → quiet → slotAt s (fld q 0 6) = none →
      completes (.tactCancel t rq) 0x2102 rq [mkWord [(0, 1, 1), (33, 32, 0xFFFFFFFF)]] [] s (fun _ => True)) ∧
    (∀ a, runs 0x2102 1 1 t rq s → onlyBits q [(0, 6)] → fld q 0 6 ≠ 63 → quiet → slotAt s (fld q 0 6) = some a →
      completes (.tactCancel t rq) 0x2102 rq [mkWord [(1, 32, a.fired), (33, 32, lastIndexWord a)]] [.tact, .daq] s
        (fun u => u.tact = slots (fld q 0 6) none)) ∧
    (runs 0x2103 1 1 t rq s → onlyBits q [(0, 13)] → fld q 6 7 ≠ 0 → fld q 0 6 + fld q 6 7 ≤ 64 → quiet →
      completes (.tactStatus t rq) 0x2103 rq
        (snap now :: (List.range (fld q 6 7)).flatMap (fun k => slotWords (slotAt s (fld q 0 6 + k)))) [] s
        (fun _ => True)) ∧
    (runs 0x2102 1 1 t rq s → onlyBits q [(0, 6)] → fld q 0 6 ≠ 63 →
      let x := fireBefore 256 (taken 0x2102 t rq s)
      ∃ u, exec (.tactCancel t rq) s = .next u ∧ journalled 0x2102 rq stOk .done u ∧
        u.tact = { x.tact with slots := x.tact.slots.set (fld q 0 6) none }) ∧
    (runs 0x2103 1 1 t rq s → onlyBits q [(0, 13)] → fld q 6 7 ≠ 0 → fld q 0 6 + fld q 6 7 ≤ 64 →
      ∃ u, exec (.tactStatus t rq) s = .next u ∧ journalled 0x2103 rq stOk .done u ∧
        u.tact = (fireBefore 256 (taken 0x2103 t rq s)).tact) ∧
    (runs 0x2104 1 1 t rq s → onlyBits q [(0, 8), (32, 32)] → (fld q 5 2 = 3 → fld q 0 4 = 15) →
      (sfld q 32 32).natAbs ≤ 256000 →
      completes (.tactConfigPin t rq) 0x2104 rq [] [.tact] s (fun u => u.tact =
        { s.tact with tev := s.tact.tev.modify (fld q 0 4) (fun _ =>
          { tevAt s (fld q 0 4) with
            drive := fbit q 4, mode := fld q 5 2, activeLow := fbit q 7, dTev := sfld q 32 32 }) })) ∧
    (runs 0x2105 1 1 t rq s → onlyBits q [(0, 38), (64, 33)] → 2048 ≤ fld q 0 38 → fld q 0 38 ≤ 230400000000 →
      (sfld q 64 32).natAbs ≤ 256000000 →
      completes (.tactConfigPps t rq) 0x2105 rq [] [.tact] s (fun u => u.tact =
        { s.tact with pps := { s.tact.pps with
            width := roundWidth (fld q 0 38), offset := sfld q 64 32, squelch := fbit q 96 } })) ∧
    (runs 0x2106 1 1 t rq s → onlyBits q [(0, 6), (32, 32)] → (sfld q 32 32).natAbs ≤ 256000 →
      completes (.tactConfigCapture t rq) 0x2106 rq [] [.tact] s (fun u => u.tact =
        { s.tact with tcap := s.tact.tcap.modify (fld q 0 3) (fun x =>
          { x with edge := fld q 3 2, event := fbit q 5, dCap := sfld q 32 32 }) })) ∧
    (runs 0x2107 1 1 t rq s → onlyBits q [(0, 10)] → fld q 3 7 ≠ 0 → fld q 3 7 ≤ 64 →
      let x := tcapAt s (fld q 0 3)
      let recs := x.queue.take (fld q 3 7)
      completes (.tactReadCapture t rq) 0x2107 rq
        ([snap now, mkWord [(0, 7, recs.length), (7, 32, x.discarded)]] ++ recs) [.tact] s (fun u => u.tact =
        { s.tact with tcap := s.tact.tcap.modify (fld q 0 3) (fun x =>
          { x with queue := x.queue.drop (fld q 3 7), discarded := 0 }) }))

/-- R2, R298, R300, R302, R353, R357, R375, R376, R466: the SYS and CFG commands on this node (`SCOPE` 0). `identify`
reads the part, its release and its blown fuses; `CMD_STATUS` reads the journal; an opcode that does not exist answers
`UNKNOWN_OPCODE`; an image that passes its checks after `ACCEPTED` is staged; a commit is armed in slot 63, and cancelled.
-/
def Obligations.SystemAndConfigurationCommandsComplete : Prop :=
  ∀ (t : Time) (rq : Request) (s : State),
    let q := qword rq 1
    let now := tick t s
    let f := s.fuses
    let seq := BitVec.ofNat 32 (fld q 0 32)
    let agent := agentOf (fld q 32 2)
    let src := BitVec.ofNat 16 (fld q 34 16)
    let gen := fld q 1 16
    let n := fld (qword rq 2) 0 17
    let begun := settle 0x0201 rq (accepted 3 [.config] [] (taken 0x0201 t rq s))
    let slot63 := fun (a : Option SlotArm) => { s.tact with slots := s.tact.slots.set 63 a }
    (runs 0x0101 0 0 t rq s →
      completes (.sysIdentify t rq) 0x0101 rq
        [snap now,
          mkWord [(0, 16, 0x5128), (16, 4, b2n f.variantV), (20, 4, 1), (24, 4, 1), (32, 32, s.mgmt.release.toNat),
            (64, 64, f.uid.toNat)],
          mkWord [(0, 64, f.rollback.toNat), (64, 1, b2n f.anchorCap), (65, 1, b2n f.laneCap),
            (66, 1, b2n (f.debugLock != 0)), (67, 1, b2n f.sealed), (68, 1, s.mgmt.image)]] [] s (fun _ => True)) ∧
    (∀ e, runs 0x0102 1 1 t rq s → onlyBits q [(0, 50)] → seq ≠ 0 → (agent = .fabric ∨ src = 0) →
      (agent = rq.agent → seq ≠ rq.seq) → journalFind s agent src seq = some e →
      completes (.sysCmdStatus t rq) 0x0102 rq (snap now :: journalWords e) [] s (fun _ => True)) ∧
    (runs 0x0102 1 1 t rq s → onlyBits q [(0, 50)] → seq ≠ 0 → (agent = .fabric ∨ src = 0) →
      (agent = rq.agent → seq ≠ rq.seq) → journalFind s agent src seq = none →
      completes (.sysCmdStatus t rq) 0x0102 rq [snap now, 0, 0] [] s (fun _ => True)) ∧
    (∀ op : BitVec 16, knownOp op.toNat = false → arrives t rq s → journalFind s rq.agent rq.srcNode rq.seq = none →
      rq.len ≤ 255 →
      rq.remote = none →
      ∃ u, exec (.unknownCommand t rq op) s = .next u ∧ Unchanged answering s u ∧
        journalled op.toNat rq stUnknownOpcode .abandoned u ∧
        (byMailbox rq → hasMailbox rq s → answered rq stUnknownOpcode [] u)) ∧
    (∀ (img : ImageFetch) (othersOk : Bool) (rs : List ImgRec), runs 0x0201 4 4 t rq s → onlyBits q [(0, 17), (64,
      64)] → onlyBits (qword rq 2) [(0, 17)] →
      1 ≤ n → n ≤ 65536 → cfgBusy s = false → fbit q 0 = false → idle rq s →
      let ws := (img.words ++ List.replicate n 0).take n
      img.ok → sha256 (imageBytes ws) = rqDigest rq → headerGen ws = some gen → recordsOf ws = some rs →
      imageRules begun rs → nodeCheck ws begun = none →
      finishes (.cfgStage t rq img othersOk) rq [.cfg, .daq] s (fun u =>
        u.cfg.staged = some { gen := gen, digest := rqDigest rq, words := ws })) ∧
    (∀ (othersOk : Bool) (i : Image), runs 0x0202 4 4 t rq s → onlyBits q [(0, 17)] → t96Form (qword rq 2) →
      t96Near now (qword rq 2) →
      tbNow now ≤ ofT96 (qword rq 2) → cfgBusy s = false → s.cfg.staged = some i → i.gen = gen → i.digest = rqDigest rq →
      fbit q 0 = false → idle rq s →
      finishes (.cfgCommitAt t rq othersOk) rq [.cfg, .tact] s (fun u =>
        u.cfg = { s.cfg with
          armed := some { time := ofT96 (qword rq 2), gen := gen, digest := rqDigest rq, catchup := false }
          lostCommit := none } ∧
        u.tact = slot63 (some (commitArm (qword rq 2) rq.agent)))) ∧
    (∀ (othersOk : Bool) (a : Commit), runs 0x0203 1 1 t rq s → onlyBits q [(0, 17)] → s.cfg.armed = some a → a.gen = gen →
      a.catchup = false → fbit q 0 = false → idle rq s →
      finishes (.cfgCancelCommit t rq othersOk) rq [.cfg, .tact] s (fun u =>
        u.cfg = { s.cfg with armed := none } ∧ u.tact = slot63 none)) ∧
    (∀ collected, runs 0x0204 1 1 t rq s → onlyBits q [(0, 12)] → fld q 0 2 = 0 → idle rq s →
      completes (.cfgReport t rq collected) 0x0204 rq
        (snap now :: reportWords (ringNodes (taken 0x0204 t rq s)) (fun _ =>
          ringHere s) (ringHere s) (fld q 2 10)) [] s (fun _ => True)) ∧
    (∀ l, runs 0x0204 1 1 t rq s → onlyBits q [(0, 12)] → fld q 0 2 = 1 → idle rq s →
      finishes (.cfgReport t rq (some l)) rq [.cfg] s (fun u => u.cfg = { s.cfg with report := some l })) ∧
    (runs 0x0205 1 1 t rq s → onlyBits q [(0, 4)] →
      completes (.cfgConfig t rq) 0x0205 rq [] [.nv] s (fun u =>
        u.nv.autoload = (if fbit q 2 then fbit q 0 else s.nv.autoload) ∧
          u.nv.catchup = if fbit q 3 then fbit q 1 else s.nv.catchup))

/-- R3, R208, R249 to R253, R258, R259, R265, R267, R271, R289, R290, R294, R370: the commands of the line, the fabric and
the ETHM ports. Lane settings are accepted for the fields whose UPDATE bit is 1, in force from the next cycle boundary; a
lane switched off goes DOWN; a retrain starts the training of the named lanes anew; the status commands read the lanes,
slots, ring and ports. -/
def Obligations.LineAndFabricCommandsComplete : Prop :=
  ∀ (t : Time) (rq : Request) (s : State),
    let q := qword rq 1
    let now := tick t s
    let p := fld q 0 1
    let l := fld q 1 3
    let up := fun i => fbit q (64 + i)
    let new := laneMerge q up (laneOf s p l).set
    let lanes := bitsOf (BitVec.ofNat 8 (fld q 1 8))
    let circ := fun (f : Circuit → Bool) (x : Slot) => carrier x && (circuitOf s x.circuit).any f
    let dest := BitVec.ofNat 16 (fld q 0 16)
    let e := ethOf s p
    let x := s.time.ptp.getD p default
    let set : Lane → Lane := fun y => { y with
      set := new, cur := laneCur y now.now, curAt := some (nextCycle y.half now.now)
      ffeAt := if new.ffeFreeze && !y.set.ffeFreeze then s.free else y.ffeAt
      dfeAt := if new.dfeMode != 0 && y.set.dfeMode == 0 then s.free else y.dfeAt
      retryAt := if new.enable then y.retryAt else none
      laneRx := if new.enable then y.laneRx else none }
    (runs 0x3001 1 1 t rq s → onlyBits q [(0, 62), (64, 11)] → lanePresent s l → (up 2 → 64 ≤ fld q 6 8) →
      (up 4 → new.firHost) → (up 6 → new.ctleHost = false → fld q 50 4 = 0) → (up 8 → fld q 55 2 ≠ 3) →
      (up 1 → fbit q 5 = false → s.fuseShadow.laneCap = false) →
      completes (.laneConfig t rq) 0x3001 rq [] [.clk, .fab, .free, .host, .line, .time] s (fun u =>
        u.line = if new.enable then (modLane p l set s).line
          else (toLane p l .down (modLane p l set (taken 0x3001 t rq s))).line)) ∧
    (runs 0x3002 1 1 t rq s → onlyBits q [(0, 9)] → (∀ l ∈ lanes, lanePresent s l) →
      completes (.laneRetrain t rq) 0x3002 rq [] [.clk, .fab, .free, .host, .line, .time] s (fun u =>
        u.line = (lanes.foldl (fun acc l =>
          match (laneOf acc p l).state with
          | .down => acc
          | .shed => acc
          | .signal => startTraining p l (modLane p l (fun y => { y with failRun := 0 }) acc)
          | _ => startTraining p l acc) (taken 0x3002 t rq s)).line)) ∧
    (runs 0x3003 1 1 t rq s → onlyBits q [(0, 2)] →
      completes (.laneStatus t rq) 0x3003 rq (snap now :: (List.range (laneCount s)).flatMap (laneWords (adaptTaps p now) p))
        [.free, .line] s (fun u => u.line = if fbit q 1 then
          { s.line with lanes := (adaptTaps p now).line.lanes.modify p (fun ls => ls.map (fun y => { y with
              framingLosses := 0, slips := 0, justifications := 0, attempts := 0, trainFailures := 0, corrected := 0
              correctedBits := 0, uncorrectable := 0 })) }
          else (adaptTaps p now).line)) ∧
    (runs 0x3101 1 1 t rq s → onlyBits q [(0, 1)] →
      completes (.slotStatus t rq) 0x3101 rq
        ([snap now] ++
          (List.range 2).map (fun w => mkWord ((List.range 32).map (fun i =>
            (4 * i, 4, useCode (lineSlot now p (32 * w + i)).use)))) ++
          [mkWord [(0, 64, slotMask now p (·.mismatch)), (64, 64, slotMask now p (circ (·.shed)))]] ++
          (List.range 4).map (fun w => mkWord ((List.range 16).map (fun i =>
            (8 * i, 8, (lineSlot now p (16 * w + i)).hopsIn)))) ++
          [mkWord [(0, 64, slotMask now p (circ (fun c => !c.aligned))), (64, 64, slotMask now p (circ (·.onProtecting)))]])
        [] s (fun _ => True)) ∧
    (runs 0x3201 0 0 t rq s →
      completes (.fabStatus t rq) 0x3201 rq (ownFabStatus rq now).words [] s (fun _ => True)) ∧
    (∀ rtt hops, runs 0x3202 1 1 t rq s → onlyBits q [(0, 16)] → addrPos dest < 1000 → routedTo dest now →
      completes (.fabProbe t rq (some (rtt, hops))) 0x3202 rq [snap now, mkWord [(0, 64, rtt), (64, 10, hops)]] [] s
        (fun _ => True)) ∧
    (runs 0x3301 1 1 t rq s → onlyBits q [(0, 5)] →
      let on := if fbit q 3 then fbit q 1 else e.enable
      completes (.ethmConfig t rq) 0x3301 rq [] [.eth] s (fun u => u.eth = { s.eth with
        ports := s.eth.ports.modify p (fun e => { e with
          enable := on, slow := if fbit q 4 then fbit q 2 else (ethOf s p).slow, link := on && e.link }) })) ∧
    (runs 0x3302 1 1 t rq s → ptpWordOk q →
      completes (.ethmPtpConfig t rq) 0x3302 rq [] [.eth, .time] s (fun u =>
        u.eth = (setPtp q s).eth ∧ u.time = (setPtp q s).time)) ∧
    (runs 0x3303 1 1 t rq s → onlyBits q [(0, 1)] →
      completes (.ethmStatus t rq) 0x3303 rq
        [snap now,
          mkWord [(0, 1, b2n e.link), (1, 1, b2n e.slow), (2, 1, b2n e.bridge), (3, 4, e.group), (7, 4, ptpState s p),
            (64, 64, (x.gm.getD s.fuseShadow.uid).toNat)],
          mkWord [(0, 64, e.framesIn), (64, 64, e.framesOut)],
          mkWord [(0, 64, e.fcsDiscards), (64, 64, e.queueDiscards)],
          mkWord [(0, 32, x.otherDomain), (32, 32, x.negotiation), (64, 32, x.altTimescale), (96, 32, x.management)],
          mkWord [(0, 64, asField ((x.roundTrip.getD 0) / 2) 64),
            (64, 16, (s.eth.macs.filter (fun m => m.group == e.group)).length)]] [.free] s (fun _ => True))

/-- R304 to R307, R309, R311, R312, R318, R323, R324, R377: the commands of the basin and of the operators. A segment is
set, cleared, frozen, released, and extracted or exported as a long command that holds it; slots are set, started, stopped
and read. -/
def Obligations.BasinAndOperatorCommandsComplete : Prop :=
  ∀ (t : Time) (rq : Request) (s : State),
    let q := qword rq 1
    let now := tick t s
    let g := fld q 0 10
    let x := segOf s g
    let up := fun i => fbit q (108 + i)
    let there := segOff s g = false ∧ isHeld s (.segment g) = false
    let seg := fun (f : Segment → Segment) => (modSeg g f s).basin
    let job := fun (ch : Option Nat) (dest : BitVec 16) (tc : Nat) (r : Nat × Nat) (free : Bool) =>
      { s.basin with extracts := s.basin.extracts ++ [{
          seg := g, channel := ch, dest := dest, tc := tc, next := r.1, stop := r.2, release := free, delivered := 0
          skipped := 0, gapAllBut := none, gapAddrs := [], agent := rq.agent, srcNode := rq.srcNode, seq := rq.seq }] }
    (runs 0x4001 1 1 t rq s → onlyBits q [(0, 116)] → unusedZero q segFields up → fld q 25 22 ≤ 3600000 →
      fld q 47 22 ≤ 3600000 → fld q 103 2 ≠ 3 → fld q 105 2 ≠ 3 → (up 0 → totalMib s g (fld q 10 14) ≤ 16128) →
      (∀ i < 8, up i → segActive x = false ∨ segBusyField q x i = false) → isHeld s (.segment g) = false →
      completes (.basinConfigSegment t rq) 0x4001 rq [] [.basin] s (fun u => u.basin = seg (segMerge q up))) ∧
    (runs 0x4002 1 1 t rq s → onlyBits q [(0, 10)] → there →
      completes (.basinClear t rq) 0x4002 rq [] [.basin] s (fun u => u.basin = seg (fun x => { x with
        state := .empty, truncated := false, serial := 0, held := 0, metas := [], metaDue := false }))) ∧
    (runs 0x4003 1 1 t rq s → onlyBits q [(0, 11)] → fbit q 10 = false → there →
      completes (.basinFreeze t rq) 0x4003 rq [] [.basin] s (fun u =>
        u.basin = (trigger g 0 (tbNow now) (taken 0x4003 t rq s)).basin)) ∧
    (runs 0x4003 2 2 t rq s → onlyBits q [(0, 11)] → fbit q 10 → t96Form (qword rq 2) → t96Near now (qword rq 2) →
      ofT96 (qword rq 2) ≤ tbNow now + 3600 * secU → there →
      completes (.basinFreeze t rq) 0x4003 rq [] [.basin] s (fun u =>
        u.basin = (trigger g 0 (ofT96 (qword rq 2)) (taken 0x4003 t rq s)).basin)) ∧
    (runs 0x4004 1 1 t rq s → onlyBits q [(0, 10), (32, 32)] → fld q 32 32 = 0 → there →
      completes (.basinRelease t rq) 0x4004 rq [] [.basin] s (fun u =>
        u.basin = (releaseSeg g (taken 0x4004 t rq s)).basin)) ∧
    (runs 0x4004 1 1 t rq s → onlyBits q [(0, 10), (32, 32)] → fld q 32 32 ≠ 0 → there →
      completes (.basinRelease t rq) 0x4004 rq [] [.basin] s (fun u =>
        u.basin = seg (fun x => { x with held := x.held - fld q 32 32 }))) ∧
    (∀ r, runs 0x4005 1 1 t rq s → onlyBits q [(0, 15), (32, 64)] → there → isHeld s (.basinDma (fld q 10 2)) = false →
      extractRange x (fld q 12 2) (fld q 32 32) (fld q 64 32) = some r →
      begins (.basinExtract t rq) 0x4005 rq [.basinDma (fld q 10 2), .segment g] [.basin] s (fun u =>
        u.basin = job (some (fld q 10 2)) 0 0 r (fbit q 14))) ∧
    (runs 0x4006 1 1 t rq s → onlyBits q [(0, 4)] →
      completes (.basinSetWindow t rq) 0x4006 rq [] [.basin] s (fun u => u.basin = { s.basin with window := fld q 0 4 })) ∧
    (∀ r, runs 0x4007 1 1 t rq s → onlyBits q [(0, 10), (12, 2), (32, 64), (96, 18)] → there → fld q 112 2 ≠ 3 →
      extractRange x (fld q 12 2) (fld q 32 32) (fld q 64 32) = some r →
      begins (.basinExport t rq) 0x4007 rq [.segment g] [.basin] s (fun u =>
        u.basin = job none (BitVec.ofNat 16 (fld q 96 16)) (5 + fld q 112 2) r false)) ∧
    (runs 0x4008 1 1 t rq s → onlyBits q [(0, 17)] → 1 ≤ fld q 10 7 → fld q 10 7 ≤ 126 → g + fld q 10 7 ≤ 1024 →
      completes (.basinStatus t rq) 0x4008 rq (snap now :: (List.range (fld q 10 7)).flatMap (fun i => segStatus s (g + i)))
        [] s (fun _ => True)) ∧
    (∀ kind, runs 0x4101 4 81 t rq s →
      let n := fld q 0 5
      let kc := fld q 5 3
      let k := opCfgOf rq kind
      let nIn := fld q 8 4
      let opers := s.oper.modify n (fun o => { o with cfg := some k })
      opKindOf rq kc = some kind → opWanted (operOf s n) = false → opWords rq kc ≤ rq.len → onlyBits q [(0, 83)] →
      1 ≤ nIn → nIn ≤ 8 → opRangeOk kind nIn → k.holdUs ≤ 100000 → 512 ≤ k.outBase → k.outBase + opOutputs kind ≤ 1024 →
      (∀ w ∈ rq.payload.drop (opWords rq kc), w = 0) →
      (∀ i < 8, nIn ≤ i → fld (qword rq (2 + i / 4)) (27 * (i % 4)) 27 = 0) → onlyBits (qword rq 2) [(0, 108)] →
      onlyBits (qword rq 3) [(0, 108)] → onlyBits (qword rq 4) (opParamBits kc) → opRestOk rq kc →
      (fbit q 63 → exportClass (fld q 80 3)) →
      opOverlap opers n k = false → inCycle opers n 32 (feeders opers n) = false → combineRateOk s k →
      completes (.operConfig t rq) 0x4101 rq [] [.oper] s (fun u => u.oper = opers)) ∧
    (runs 0x4102 1 1 t rq s → onlyBits q [(0, 32)] →
      (∀ n ∈ bitsOf (BitVec.ofNat 32 (fld q 0 32)), (operOf s n).cfg.isSome) →
      completes (.operStart t rq) 0x4102 rq [] [.daq, .oper] s (fun u =>
        u.oper = (opRefresh ((bitsOf (BitVec.ofNat 32 (fld q 0 32))).foldl (fun acc n =>
          if opWanted (operOf acc n) then acc else opEmpty n .running acc) (taken 0x4102 t rq s))).oper)) ∧
    (runs 0x4103 1 1 t rq s → onlyBits q [(0, 32)] →
      completes (.operStop t rq) 0x4103 rq [] [.daq, .oper] s (fun u =>
        u.oper = (opRefresh ((bitsOf (BitVec.ofNat 32 (fld q 0 32))).foldl (fun acc n =>
          if opWanted (operOf acc n) then opEmpty n .stopped acc else acc) (taken 0x4103 t rq s))).oper)) ∧
    (runs 0x4104 1 1 t rq s → onlyBits q [(0, 5)] →
      let o := operOf s (fld q 0 5)
      completes (.operStatus t rq) 0x4104 rq
        [snap now,
          mkWord [(0, 2, opCode o), (2, 10, min (match o.cfg with | some k => opCost s k | none => 0) 1023),
            (12, 10, opBudget s), (22, 10, min (opUsed s) 1023)],
          mkWord [(0, 32, o.recsIn), (32, 32, o.recsOut), (64, 32, o.ignored), (96, 32, o.lost)]] [] s (fun _ => True))

/-- R15, R378, R386, R392, R395 to R397, R399, R404, R409, R411, R416, R417, R454 to R458: the commands of clocks, power,
temperature and islands. -/
def Obligations.ClockAndPowerCommandsComplete : Prop :=
  ∀ (t : Time) (rq : Request) (s : State),
    let q := qword rq 1
    let now := tick t s
    let n := fld q 0 4
    let i := gateIsland n
    let port := n == 10 || n == 11
    let code := fld q 0 2
    let gate := onlyBits q [(0, 5)] ∧ n ≤ 11 ∧ isHeld s (.island n) = false ∧ isHeld s (.island (16 + n)) = false ∧
      (islandHolds i).any (isHeld s) = false
    (runs 0x5001 0 0 t rq s →
      completes (.clkStatus t rq) 0x5001 rq
        ([snap now, mkWord [(0, 32, s.clk.failed.toNat), (32, 32, (presentMask s).1), (64, 2, s.clk.tbRef),
            (66, 1, b2n s.clk.ctlInternal), (80, 16, s.clk.forced)]] ++
          s.clk.counters.map (fun k => mkWord [(0, 64, k.measCount), (64, 64, k.refCount)]) ++
          [mkWord (s.clk.counters.mapIdx (fun i k => (32 * i, 32, asField k.ppm 32)))]) [.free] s (fun _ => True)) ∧
    (runs 0x5002 1 1 t rq s → onlyBits q [(0, 29)] → fld q 2 5 ≠ fld q 7 5 → fld q 15 14 ≠ 0 → fld q 15 14 ≤ 10000 →
      lanePresent s (fld q 12 3) → (s.clk.counters.getD code default).running = false →
      begins (.clkCounter t rq) 0x5002 rq [.counter code] [.clk] s (fun u => u.clk = { s.clk with
        counters := s.clk.counters.modify code (fun k => { k with
          running := true, meas := fld q 2 5, ref := fld q 7 5, lane := fld q 12 3, gateMs := fld q 15 14 }) })) ∧
    (runs 0x5003 1 1 t rq s → gate → s.clk.gated.getLsbD n = !fbit q 4 → (fbit q 4 ∨ mayClose s n) →
      completes (.clkGate t rq) 0x5003 rq [0, 0] [] s (fun _ => True)) ∧
    (runs 0x5003 1 1 t rq s → gate → fbit q 4 → s.clk.gated.getLsbD n →
      starts (.clkGate t rq) 0x5003 rq (.island (16 + n) :: islandHolds i) [.islands] s (fun u =>
        u.islands.map (·.phase) =
          if port && isUp s i then s.islands.map (·.phase) else (setPhase s i .opening).islands.map (·.phase))) ∧
    (runs 0x5003 1 1 t rq s → gate → fbit q 4 = false → mayClose s n → s.clk.gated.getLsbD n = false →
      starts (.clkGate t rq) 0x5003 rq (.island n :: islandHolds i) [.islands] s (fun u =>
        u.islands.map (·.phase) =
          if port then s.islands.map (·.phase) else (setPhase s i .closing).islands.map (·.phase))) ∧
    (runs 0x5004 1 1 t rq s → onlyBits q [(0, 6)] → fld q 1 2 ≠ 3 → lanePresent s (fld q 3 3) →
      completes (.clkSetPriority t rq) 0x5004 rq [] [.clk, .free, .host, .time] s (fun u =>
        u.clk.preferB = fbit q 0 ∧ u.clk.laneSource = fld q 1 2 ∧ u.clk.lane = fld q 3 3)) ∧
    (runs 0x5101 1 1 t rq s → onlyBits q [(0, 2)] → isHeld s .op = false → s.pwr.change = none →
      (code < 2 → s.therm.level = 0) →
      let p := if 1 ≤ s.therm.level then { s.pwr with opBeforeL1 := some code } else s.pwr
      (opInForce code { s with pwr := p } → completes (.pwrSetOp t rq) 0x5101 rq [] [.pwr] s (fun u => u.pwr = p)) ∧
      (opInForce code { s with pwr := p } = false →
        starts (.pwrSetOp t rq) 0x5101 rq [.op] [.pwr, .oper, .daq] s (fun u =>
          u.pwr = (startChange code { taken 0x5101 t rq s with pwr := p }).pwr))) ∧
    (∀ mv, runs 0x5102 0 0 t rq s →
      completes (.pwrStatus t rq mv) 0x5102 rq (snap now :: pwrStatusWords mv s) [] s (fun _ => True)) ∧
    (∀ idle, runs 0x5103 1 1 t rq s → onlyBits q [(0, 2), (96, 32)] → isHeld s .power = false → s.islands.length = 21 →
      let wide := [.basin, .clk, .daq, .eth, .fab, .free, .host, .islands, .line, .mgmt, .pwr, .time]
      (code = 0 → s.pwr.state ≠ .quiet → completes (.pwrSetState t rq idle) 0x5103 rq [] [] s (fun _ => True)) ∧
      (code = 0 → s.pwr.state = .quiet → completes (.pwrSetState t rq idle) 0x5103 rq [] wide s (fun u =>
        u.pwr.state = .run)) ∧
      (code = 1 → s.pwr.state ≠ .quiet → idle → completes (.pwrSetState t rq idle) 0x5103 rq [] wide s (fun u =>
        u.pwr.state = .quiet ∧ ∀ i ∈ quietIslands, isUp u i = false)) ∧
      (code = 2 → fld q 96 32 = 0x5128C0DE → completes (.pwrSetState t rq idle) 0x5103 rq [] [.mgmt] s (fun u =>
        u.mgmt.hibernateDue = some (max s.now t + msU)))) ∧
    (runs 0x5201 1 1 t rq s → onlyBits q [(0, 16)] → fld q 0 16 ≤ 60000 →
      completes (.thermConfig t rq) 0x5201 rq [] [.therm] s (fun u => u.therm = { s.therm with graceMs := fld q 0 16 })) ∧
    (runs 0x5202 0 0 t rq s →
      completes (.thermStatus t rq) 0x5202 rq
        [snap now, mkWord ((0, 2, s.therm.level) :: (List.range 7).map (fun z => (2 + 2 * z, 2, zoneCode s z)) ++
            (List.range 16).map (fun i => (16 + i, 1, b2n (sensorOf s i).broken)) ++
            [(32, 1, b2n (sensorOf s 16).broken)]),
          tempWord s (List.range 8), tempWord s ((List.range 8).map (· + 8)), tempWord s [16]] [] s (fun _ => True)) ∧
    (runs 0x0104 1 1 t rq s → onlyBits q [(0, 4)] → n ≤ 10 → isUp s (resetIsland n) →
      (islandHolds (resetIsland n)).any (isHeld s) = false → isHeld s (.island (32 + n)) = false →
      begins (.sysIslandReset t rq) 0x0104 rq (.island (32 + n) :: islandHolds (resetIsland n)) [.islands] s (fun u =>
        u.islands.map (·.phase) = (setPhase s (resetIsland n) .draining).islands.map (·.phase)))

/-- R371, R380, R436, R443, R444, R465 to R474: the commands of memories, NV store, fuses, log and diagnosis. Fuses blow and
read back; a verified blow of `PROT_DENY` or `KEY_REVOKE` applies at once; sealing is for good. -/
def Obligations.StoreAndDiagnosisCommandsComplete : Prop :=
  ∀ (t : Time) (rq : Request) (s : State),
    let q := qword rq 1
    let now := tick t s
    let p := fld q 0 3
    let e := s.repairQueue.getD (fld q 0 8) default
    let rest := s.repairQueue.filter (· != e)
    (runs 0x5301 0 0 t rq s →
      completes (.memStatus t rq) 0x5301 rq
        ([snap now] ++ (List.range 3).map (fun m =>
            mkWord [(0, 64, (memOf s m).corrected), (64, 64, (memOf s m).uncorrectable)]) ++
          [mkWord [(0, 64, s.tagMismatch), (64, 32, s.softRepairs), (96, 8, s.repairQueue.length),
            (104, 8, s.fuses.repairs.length)]] ++
          (s.repairQueue.map (fun e => mkWord [(0, 2, e.mem), (2, 32, e.row), (64, 64, e.firstSeen)])).take 250) []
        s (fun _ => True)) ∧
    (runs 0x5302 1 1 t rq s → onlyBits q [(0, 8)] → fld q 0 8 < s.repairQueue.length → isHeld s .fuses = false →
      s.fuses.repairs.length < 64 →
      completes (.memCommitRepair t rq true) 0x5302 rq [] [.fuses, .repairQueue, .nv] s (fun u =>
        u.fuses = { s.fuses with repairs := s.fuses.repairs ++ [(e.mem, e.row, e.spare)] } ∧ u.repairQueue = rest ∧
          u.nv.repairTable = rest)) ∧
    (runs 0x5401 0 0 t rq s →
      completes (.nvsStatus t rq) 0x5401 rq
        [snap now, mkWord [(0, 48, s.nv.refreshed.foldl min (s.nv.refreshed.headD 0)), (48, 7, s.nv.invalid.toNat)],
          mkWord [(0, 64, s.nv.maxWrites), (64, 16, s.nv.journal.length)],
          mkWord [(0, 32, s.nv.fwA.release.toNat), (32, 32, s.nv.fwB.release.toNat), (64, 1, b2n s.nv.fwA.valid),
            (65, 1, b2n s.nv.fwB.valid)]] [] s (fun _ => True)) ∧
    (runs 0x5402 1 1 t rq s → onlyBits q [(0, 7)] → refreshMask rq ≠ [] → idle rq s →
      (∀ i ∈ refreshMask rq, isHeld s (.nvRegion i) = false) →
      finishes (.nvsRefresh t rq) rq [.nv] s (fun u => u.nv.refreshed =
        (refreshMask rq).foldl (fun l i => l.set i (tbNow now / secU % 2 ^ 48)) s.nv.refreshed)) ∧
    (runs 0x5501 1 1 t rq s → onlyBits q [(0, 2)] → fld q 0 2 ≠ 3 →
      completes (.fuseRead t rq) 0x5501 rq (snap now :: bankWords s.fuses (fld q 0 2)) [] s (fun _ => True)) ∧
    (∀ (unblown : BitVec 384) (cut : Option (BitVec 384)), runs 0x5502 2 5 t rq s → onlyBits q [(0, 8), (96, 32)] →
      fld q 96 32 = 0x5128C0DE →
      fieldWidth (fuseCode rq) ≠ 0 → (fuseValue rq).toNat < 2 ^ fieldWidth (fuseCode rq) →
      (fuseCode rq = 1 → locksOut (blow 1 (fuseBits rq) s.fuses) = false) →
      (fuseCode rq = 7 → noKeyLeft (blow 7 (fuseBits rq) s.fuses) = false) → isHeld s .fuses = false →
      s.fuses.sealed = false →
      (cut = none → (fuseBits rq &&& unblown).toNat = 0 →
        completes (.fuseProgram t rq unblown cut) 0x5502 rq [] [.fuses, .fuseShadow] s (fun u =>
          u.fuses = blow (fuseCode rq) (fuseBits rq &&& ~~~unblown) s.fuses ∧
          u.fuseShadow = if fuseCode rq = 1 ∨ fuseCode rq = 7 then
              blow (fuseCode rq) (fuseBits rq &&& ~~~unblown) s.fuseShadow
            else s.fuseShadow)) ∧
      (∀ held : BitVec 384, cut = some held → ∃ u, exec (.fuseProgram t rq unblown cut) s = .next u ∧
        journalled 0x5502 rq stSupplyLimit .partially u ∧
        u.fuses = blow (fuseCode rq) (fuseBits rq &&& ~~~unblown &&& held) s.fuses ∧ u.fuseShadow = s.fuseShadow)) ∧
    (runs 0x5503 1 1 t rq s → onlyBits q [(96, 32)] → fld q 96 32 = 0x5128C0DE → isHeld s .fuses = false →
      s.fuses.sealed = false →
      completes (.fuseLock t rq) 0x5503 rq [] [.fuses, .fuseShadow] s (fun u =>
        u.fuses = { s.fuses with sealed := true } ∧ u.fuseShadow = { s.fuseShadow with sealed := true })) ∧
    (runs 0x5601 1 1 t rq s → onlyBits q [(0, 3)] →
      completes (.logConfig t rq) 0x5601 rq [] [.diag] s (fun u =>
        u.diag = { s.diag with level := fld q 0 2, stream := fbit q 2 })) ∧
    (runs 0x5602 1 1 t rq s → onlyBits q [(0, 64)] → isHeld s .log = false →
      begins (.logRead t rq) 0x5602 rq [.log] [.free, .host] s (fun u =>
        ∃ ws : List Word, ws.length = 2 * min (fld q 32 32) (Config.freeNat s.free - fld q 0 32) ∧
          u.host.dma = s.host.dma.modify 13 (fun d => { d with feed := d.feed ++ ws }))) ∧
    (runs 0x5F01 1 1 t rq s → onlyBits q [(0, 6)] → p ≤ 4 → fld q 3 2 ≠ 3 →
      (fld q 3 2 = 0 ∨ portCarries s p = false ∨ fbit q 5) →
      completes (.diagLoopback t rq) 0x5F01 rq [] [.diag, .fab, .free] s (fun u =>
        u.diag = { s.diag with loopback := s.diag.loopback.set p (fld q 3 2) })) ∧
    (runs 0x5F02 1 1 t rq s → onlyBits q [(0, 4)] → fld q 0 4 ≤ 3 → isHeld s .selftest = false → idle rq s →
      finishes (.diagSelftest t rq true) rq [] s (fun _ => True)) ∧
    (∀ samples, runs 0x5F03 1 1 t rq s → onlyBits q [(0, 22)] → lanePresent s (fld q 1 3) → 1024 ≤ fld q 5 17 →
      fld q 5 17 ≤ 65536 → isHeld s .capture = false →
      begins (.diagCapture t rq samples) 0x5F03 rq [.capture] [.host] s (fun u =>
        u.host.dma = s.host.dma.modify 14 (fun d => { d with feed := d.feed ++ samples })))

/-- R19, R38, R43, R105, R115, R179, R190, R192: outputs and records. The primary's output whose window is full, outside
every blank interval and every fade, is what the filters and the merger make of the modulator samples, and becomes the
channel's newest record; the oldest record leaves for its destination once the failure detectors have judged it and none
of its group goes before it; settings that wait take effect at an output boundary; the filters start empty when the
settling delay is over. -/
def Obligations.OutputsBecomeRecords : Prop :=
  ∀ (t : Time) (ch : Fin 64) (s : State), Whole s →
    let c := ch.val
    let now := tick t s
    let x := chanOf s c
    (∀ o : Sample,
      let ot := instOut now c x.primary o.k
      let raw := (rawStart x.blanks ot).1
      let code := x.cfg.gain
      let v := filterOf x.primary.mode (bankSel x.primary) ot.phi x.blanks x.primary.start ot.out o.xs
      let m := mergeOut now c code (coefFor now (convOfChan now c) code) x.cfg.ref x.cfg.path (refBad x raw ot.out)
        x.primary.merger v
      let fl := commonFlags now c x.pos ot raw false |||
        flagsOf [(fPath, m.path), (fOverrange, m.ovr), (fSettling, false)] ||| timeFlags now
      o.shadow = false → groupEmits now (c / 8) → x.weave.state ≠ .running → x.weave.tail = none → x.cfg.enable →
      x.unsubstituted = false → x.loopback = none → x.settleEnd = none → running x.primary →
      (∀ l, x.primary.lastOut = some l → l < ot.out) → ot.out ≤ (now.now : Int) →
      fillOf x.primary x.markMode o.k ot = .full → (rawStart x.blanks ot).2 = false → inBlank x.blanks ot.out = false →
      x.fade = .normal → x.changeover = none → x.cfg.openDet = false → combining now c = false → o.other = none →
      happens (.filterOutput t ch o) [.daq] s (fun u =>
        (chanOf u c).primary.merger = m.merger ∧
        (chanOf u c).formed = x.formed ++ [{
          word := recordWord m.value (ot.ts + s.time.stepSum).toNat (8 * c + x.pos) s.time.epoch fl
          gen := s.cfg.activeGen, out := ot.out
          gap := (addrOf s (8 * c + x.pos)).gapNext.any (fun a => decide ((a : Int) < ot.out)) }])) ∧
    (∀ r rest d,
      let a := recAddr r.word
      let q := queueOf s (c / 8) d
      x.formed = r :: rest → (∀ k ∈ chansOf (c / 8), (chanOf s k).formed.head?.all (fun y => !leavesBefore y r)) →
      r.out + (judgeFu : Int) ≤ (now.now : Int) → subDests (subFor (addrOf s a) r.out) = [d] → destUp now d →
      q.recs.length < 256 → (∀ n < 32, inputsOf (s.oper.getD n default) none a = []) →
      happens (.recordDispatch t ch) [.daq] s (fun u =>
        (chanOf u c).formed = rest ∧
        (queueOf u (c / 8) d).recs = q.recs ++ [{
          word := withGap (r.gap || (addrOf s a).gapDue.contains d) r.word, gen := r.gen, readable := true, node := none
          at_ := now.now }])) ∧
    (isBoundary now c now.now →
      happens (.pendingSettingApply t ch) [.free, .daq] s (fun u => u = applyBoundary c now.now now)) ∧
    (∀ e, x.settleEnd = some e → e ≤ now.now →
      happens (.settlingDelayEnd t ch) [.daq] s (fun u =>
        u = restartChan c e false (modChan c (fun x => { x with settleEnd := none }) now)))

/-- R48 to R51, R59, R60, R136 to R138: blank sources and syncs. A pulse of 100 ns or more asserts a source 150 ns later
on every channel that selects it; its release ends the intervals, each with its channel's guard; a source that stays
asserted for its limit is reported once; an edge on SYNC_N sets a sync 200 ns later for the groups that take it; a group
acts on its earliest sync. -/
def Obligations.BlanksAndSyncs : Prop :=
  ∀ (t : Time) (s : State),
    let now := tick t s
    let src := fun (i : Nat) => s.daq.blank.getD i default
    (∀ (pin : Fin 4) (w : Nat), 100 ≤ w →
      happens (.blankAssert t pin w) [.daq] s (fun u =>
        u = blankOn pin.val now.now (now.now + 150 * nsU) now)) ∧
    (∀ pin : Fin 4, happens (.blankRelease t pin) [.daq] s (fun u =>
        u = blankOff pin.val now.now (now.now + 150 * nsU) now)) ∧
    (∀ i : Fin 8, (src i.val).asserted → (src i.val).stuckRaised = false →
      (src i.val).riseAt + (src i.val).stuckMs * msU ≤ now.now →
      happens (.blankStuck t i) [.daq] s (fun u =>
        u = emit 0x1002 i.val (src i.val).stuckMs [] (tbAt now ((src i.val).riseAt + (src i.val).stuckMs * msU))
          (modBlank i.val (fun b => { b with stuckRaised := true }) now))) ∧
    (∀ (n : Fin 4) (e : Time), (src (4 + n.val)).windowEnd = some e → e ≤ now.now →
      happens (.tblkWindowEnd t n) [.daq] s (fun u => u = blankOff (4 + n.val) e e now)) ∧
    (∀ w : Nat, 100 ≤ w → (∀ a, s.daq.lastSyncN = some a → a + 10 * usU ≤ now.now) →
      happens (.syncNEdge t w) [.daq] s (fun u =>
        u.daq.lastSyncN = some now.now ∧
        ∀ g < 8, g < s.daq.groups.length → (groupOf u g).syncs = (groupOf s g).syncs ++
          (if (groupOf s g).syncN && isUp s (daqIsland g) then [(now.now + 200 * nsU) / 256 * 256] else []))) ∧
    (∀ (g : Fin 8) (a : Time) (rest : List Time), (groupOf s g.val).syncs = a :: rest → rest.foldl min a ≤ now.now →
      isUp s (daqIsland g.val) → actedAlready (groupOf s g.val) (rest.foldl min a) = false →
      happens (.groupSync t g) [.free, .daq] s (fun u => u = syncGroup g.val (rest.foldl min a) now))

/-- R38, R64 to R68, R70, R76, R77, R82, R89: what the generators and references do. A trip stops the generator, discards
the settings that wait, restarts the settle counters and raises event 0x1102; compliance, overload and lead drops are
kept, the first two with events 0x1101 and 0x1103; AC excitation swaps its polarity on the output boundary after its
output periods, and begins again on the first boundary of a new grid; a loop-back ends with its result. -/
def Obligations.GeneratorsAndReferences : Prop :=
  ∀ (t : Time) (s : State),
    let now := tick t s
    (∀ v, s.daq.refinValid ≠ v →
      happens (.refValidityChange t none v) [.daq] s (fun u => u =
        let s1 := forChans (List.range 64) (fun c => refJudge c now.now) (modDaq (fun d => { d with refinValid := v }) now)
        emitNow 0x1004 (b2n v) 0 [BitVec.ofNat 128 (refinMask now)] s1)) ∧
    (∀ (n : Fin 16) (v : Bool), happens (.refValidityChange t (some n) v) [.daq] s (fun u =>
        u = ratioEdge n.val (ratioValid (genOf s n.val)) now.now (modGen n.val (fun g => { g with vsOk := v }) now))) ∧
    (∀ (n : Fin 16) (entry : Bool), (genOf s n.val).compliance ≠ entry →
      happens (.excComplianceChange t n entry) [.daq] s (fun u =>
        u = emitNow 0x1101 n.val (b2n entry) [] (modGen n.val (fun g => { g with compliance := entry }) now))) ∧
    (∀ (n : Fin 16) (pins : Fin 3), (genOf s n.val).tripped = false → n.val < s.daq.gens.length →
      happens (.excTrip t n pins) [.daq] s (fun u =>
        (genOf u n.val).tripped = true ∧ (genOf u n.val).pending = none ∧
        u = ratioEdge n.val (ratioValid (genOf s n.val)) now.now (emitNow 0x1102 n.val pins.val []
          (excChange n.val now.now (modGen n.val (fun g => { g with tripped := true, pending := none })
            (notePol n.val now.now (dropCycles n.val now.now now))))))) ∧
    (∀ (n : Fin 16) (ma below : Nat), 60 < ma → ((genOf s n.val).overload = false ∨ secU ≤ below) →
      happens (.excOverload t n ma below) [.daq] s (fun u =>
        u = emitNow 0x1103 n.val ma [] (modGen n.val (fun g => { g with overload := true }) now))) ∧
    (∀ (n : Fin 16) (p m : Int), s.mgmt.run → (genOf s n.val).tripped = false → (genOf s n.val).cfg.mode ≠ .off →
      (genOf s n.val).cfg.window = none →
      happens (.leadDropMeasure t n p m) [.daq] s (fun u =>
        u.daq = (modGen n.val (fun g => { g with dropP := p, dropN := m, senseCount := 0 }) now).daq)) ∧
    (∀ (n : Fin 16), inAc (genOf s n.val) → (genOf s n.val).acRestart = false → swapAt now n.val ≤ (now.now : Int) →
      happens (.acPolaritySwap t n) [.daq] s (fun u =>
        u = acBegin n.val (swapAt now n.val).toNat (genOf s n.val).cfg.deadCyc (!(genOf s n.val).acNeg) now)) ∧
    (∀ (n : Fin 16), inAc (genOf s n.val) → (genOf s n.val).acRestart →
      let lead := (leadChan s n.val).getD (4 * n.val)
      isBoundary now lead now.now → (groupOf s (lead / 8)).tSync < now.now →
      happens (.acPolaritySwap t n) [.daq] s (fun u =>
        u = acBegin n.val now.now (genOf s n.val).cfg.deadCyc false now)) ∧
    (∀ (n : Fin 16) (e : Time), (genOf s n.val).acDeadEnd = some e → e ≤ now.now →
      happens (.acDeadTimeEnd t n) [.daq] s (fun u => u = modGen n.val (fun g => { g with acDeadEnd := none }) now)) ∧
    (∀ (c : Fin 64) (mean rms : Int) (k : Nat) (e : Time), (chanOf s c.val).loopback = some e → e ≤ now.now →
      s.mgmt.run → (holderOf s (.channel c.val)).isSome → c.val / 4 < s.daq.gens.length →
      happens (.loopbackEnd t c mean rms k) ([.free, .daq] ++ answering) s (fun u =>
        ∃ dev, (genOf u (c.val / 4)).loopRes =
            some { chan := c.val, mean := mean, rms := rms, count := k, devUv := dev, at_ := tbAt s e } ∧
          ∀ v, settingOf (genOf s (c.val / 4)) = some v → dev = roundDiv (mean * 2500000 - v) 67108864))

/-- R147, R148, R150, R152, R154, R155: a weave runs. An armed channel starts at the instant of its start register with the
first stroke of its first round; when a stroke ends, the next stroke takes effect at that instant, with its position, gain,
settling delay and filter mode, while the ended one still forms its last conversion; after the last stroke the round is
counted, and the weave ends, begins the next round at once, or lies idle until its period is over; a weave that stops at the
end of its stroke ends there; an idle channel begins its next round one period after the last began. -/
def Obligations.WeavesRun : Prop :=
  ∀ (t : Time) (ch : Fin 64) (s : State), Whole s →
    let c := ch.val
    let now := tick t s
    let w := (chanOf s c).weave
    let runsFrom := fun (u : State) (img : WeaveImg) (i : Nat) (b : Time) =>
      (chanOf u c).weave.state = .running ∧ ∃ r, (chanOf u c).weave.cur = some r ∧ r.index = i ∧ r.begin_ = b ∧
        r.formed = 0 ∧ r.stroke = img.strokes.getD i default
    (∀ a img, w.state = .armed → w.armedAt = some a → w.image = some img → a ≤ now.now →
      happens (.weaveArmedStart t ch) [.free, .daq] s (fun u => u = beginWeave c a now ∧ runsFrom u img 0 a ∧
        (chanOf u c).weave.tStart = a ∧ (chanOf u c).weave.roundStart = a ∧ (chanOf u c).weave.round = 0 ∧
        (chanOf u c).weave.armedAt = none ∧ (chanOf u c).shadow.run = .stopped)) ∧
    (∀ r img, w.state = .running → w.cur = some r → w.image = some img → strokeEnd r ≤ now.now →
      let s1 := modWeave c (fun w => { w with tail := tailOf r, lastStroke := r.index }) now
      happens (.strokeBoundary t ch) [.free, .daq] s (fun u => (chanOf u c).weave.tail = tailOf r ∧
        (r.index + 1 < img.strokes.length → w.stop ≠ some .strokeEnd →
          u = beginStroke c (r.index + 1) (strokeEnd r) s1 ∧ runsFrom u img (r.index + 1) (strokeEnd r)) ∧
        (r.index + 1 < img.strokes.length → w.stop = some .strokeEnd →
          u = endWeave c (strokeEnd r) (modWeave c (fun w => { w with cur := none }) s1) ∧
          (chanOf u c).weave.state = .idle ∧ (chanOf u c).weave.cur = none) ∧
        (img.strokes.length ≤ r.index + 1 →
          u = afterRound c img (strokeEnd r) s1 ∧ (chanOf u c).weave.round = w.round + 1 ∧
          (w.stop.isSome ∨ (img.rounds ≠ 0 ∧ img.rounds ≤ w.round + 1) →
            (chanOf u c).weave.state = .idle ∧ (chanOf u c).weave.cur = none) ∧
          (w.stop = none → img.rounds = 0 ∨ w.round + 1 < img.rounds →
            img.periodUs = 0 ∨ w.roundStart + img.periodUs * usU ≤ strokeEnd r → runsFrom u img 0 (strokeEnd r))))) ∧
    (∀ img, w.state = .running → w.cur = none → w.image = some img → w.roundStart + img.periodUs * usU ≤ now.now →
      let b := w.roundStart + img.periodUs * usU
      happens (.roundStart t ch) [.free, .daq] s (fun u => u = beginRound c b now ∧ runsFrom u img 0 b ∧
        (chanOf u c).weave.roundStart = b ∧ (chanOf u c).weave.round = w.round))

/-- R99, R104 to R111, R175, R176: failures and spares. A detector that trips on a channel (two converters that disagree
four times, for detector 4) records it as failed, in the NV list as well; the group's free spare takes it over, held
outputs with bad samples are replaced, and event 0x1005 tells; without a spare the channel is unsubstituted. A serving
spare that fails leaves its channel without one and ends a release. The spare connects, settles for 2,048 cycles and
substitutes; the built-in test decides about a release; paths that differ three times raise event 0x1406; a group without
a working sensor freezes its corrections with event 0x1408. -/
def Obligations.FailuresAndSpares : Prop :=
  ∀ (t : Time) (g : Fin 8) (s : State),
    let now := tick t s
    let q := groupOf s g.val
    let k := q.cal
    (∀ (i : Fin 8) (d : Fin 5) (b : Time),
      let c := 8 * g.val + i.val
      let x := chanOf s c
      let s1 := recordFailures (modChan c (fun y => { y with failed := true, failedBy := d.val }) now)
      x.failed = false → isUp s (daqIsland g.val) → k.phase = .idle → x.subst = .none → (d.val = 4 → 4 ≤ x.disagree) →
      (q.spare = .free →
        happens (.channelFailureDetect t g (some i) d b) [.daq, .nv, .journal] s (fun u =>
          u = emit 0x1005 d.val (c + b2n (x.fade != .normal) * 128) [] (tbAt now b)
            (calRefresh g.val (substitute g.val c now.now (if d.val < 3 then withholdBad c true b s1 else s1))))) ∧
      (q.spare = .failed →
        happens (.channelFailureDetect t g (some i) d b) [.daq, .nv, .journal] s (fun u =>
          u = emit 0x1005 d.val (c + 64 + b2n (x.fade != .normal) * 128) [] (tbAt now b)
            (calRefresh g.val (unsubstitute c (if d.val < 3 then withholdBad c false b s1 else s1)))))) ∧
    (∀ (c : Nat) (d : Fin 5) (b : Time), q.spare = .substituting c → (d.val = 4 → 4 ≤ (chanOf s c).disagree) →
      happens (.channelFailureDetect t g none d b) ([.daq, .nv] ++ answering) s (fun u =>
        u = spareFails g.val b (releaseFails g.val (unsubstitute c
          (if d.val < 3 then withholdBad c false b now else now))))) ∧
    (∀ (c : Nat) (a : Time), q.spare = .connecting c a → a ≤ now.now →
      happens (.spareConnect t g) [.daq] s (fun u =>
        u = modGroup g.val (fun q => { q with spare := .settling c (a + 2048 * cycU) }) now)) ∧
    (∀ (c : Nat) (a : Time), q.spare = .settling c a → a ≤ now.now →
      happens (.spareSettleEnd t g) [.daq] s (fun u =>
        u = modGroup g.val (fun q => { q with spare := .substituting c }) now)) ∧
    (k.phase = .bist → s.mgmt.run →
      happens (.substituteBistDone t g true) ([.daq] ++ answering) s (fun u =>
        u = modCal g.val (fun k => { k with phase := .calibrating }) now) ∧
      happens (.substituteBistDone t g false) ([.daq] ++ answering) s (fun u =>
        u = endHolder (.channel k.chan) stResourceFailed 0 (endSlot g.val now))) ∧
    (∀ (ch : Fin 64) (hg lg : Int), 67108864 * 256 < (hg - lg).natAbs * 100000 → s.mgmt.run →
      happens (.pathMismatchCheck t ch hg lg) [.daq] s (fun u =>
        u = if (chanOf s ch.val).mismatchCount < 2 then
            modChan ch.val (fun x => { x with mismatchCount := (chanOf s ch.val).mismatchCount + 1 }) now
          else bringForward ch.val (emitNow 0x1406 0 ch.val [] (modChan ch.val (fun x =>
            { x with mismatchCount := 0 }) now)))) ∧
    (∀ (ch : Fin 64) (hg lg : Int), (hg - lg).natAbs * 100000 ≤ 67108864 * 256 →
      happens (.pathMismatchCheck t ch hg lg) [.daq] s (fun u =>
        u = modChan ch.val (fun x => { x with mismatchCount := 0 }) now)) ∧
    (∀ v a : Int, s.mgmt.run → groupTemp s g.val = some v → q.tApplied = some a →
      happens (.tempCompUpdate t g) [.daq] s (fun u =>
        u = modGroup g.val (fun x => { x with
          compFrozen := false, tRead := some v, tApplied := if 1280 ≤ 100 * (v - a).natAbs then some v else some a }) now)) ∧
    (s.mgmt.run → groupTemp s g.val = none → q.compFrozen = false →
      happens (.tempCompUpdate t g) [.daq] s (fun u =>
        u = emitNow 0x1408 1 g.val [] (modGroup g.val (fun x => { x with compFrozen := true }) now)))

/-- R163, R167 to R170: a calibration slot. It starts with the spare's check if the temperature has been steady, and waits
10 s otherwise, out of turn too; the spare connects beside the channel at the next output boundary; after 1 s and 32 pairs
the comparison decides; the outputs switch at an output boundary; the channel measures, a result outside its limits
bringing it forward, and reconnects at the next output boundary; the new sets are tried in the second overlap. -/
def Obligations.CalibrationSlots : Prop :=
  ∀ (t : Time) (g : Fin 8) (s : State),
    let now := tick t s
    let k := (groupOf s g.val).cal
    let ready := isUp s (daqIsland g.val) = true ∧ k.running = true ∧ k.phase = .idle ∧ calBlock s g.val = none
    let full := (∃ a, k.firstPair = some a ∧ a + secU ≤ now.now) ∧ 32 ≤ k.pairs ∧ k.due = none ∧ s.mgmt.run = true
    let boundary := isBoundary now k.chan now.now = true ∧ s.mgmt.run = true
    (∀ c rest dT, ready → k.outOfTurn = c :: rest → (∀ a, k.retryAt = some a → a ≤ now.now) → dT ≤ 128 →
      happens (.calSlotStart t g dT) [.daq] s (fun u => u = startSlot g.val c true now)) ∧
    (∀ a c dT, ready → k.outOfTurn = [] → slotDue now g.val = some a → a ≤ now.now → nextIncluded now g.val = some c →
      dT ≤ 128 → happens (.calSlotStart t g dT) [.daq] s (fun u => u = startSlot g.val c false now)) ∧
    (∀ c rest dT, ready → k.outOfTurn = c :: rest → (∀ a, k.retryAt = some a → a ≤ now.now) → 128 < dT →
      happens (.calSlotStart t g dT) [.daq] s (fun u =>
        u = modCal g.val (fun k => { k with retryAt := some (now.now + 10 * secU) }) now)) ∧
    (k.phase = .spareCheck → s.mgmt.run →
      happens (.calSpareCheckDone t g) [.daq] s (fun u =>
        u = modCal g.val (fun k => { k with due := some .connect }) now)) ∧
    (boundary → k.chan / 8 = g.val → k.due = some .connect →
      happens (.calHandoverSwitch t g) ([.daq, .nv] ++ answering) s (fun u =>
        u = startOverlap g.val .connect now.now now)) ∧
    (full → k.phase = .connect →
      happens (.calOverlapClose t g) [.daq] s (fun u =>
        u = modCal g.val (fun x => if meanOk k.sumNew k.pairs then { x with closeAt := now.now, due := some .toSpare }
          else { x with closeAt := now.now, phase := .recheckIn }) now)) ∧
    (full → k.phase = .overlapOut → k.newSets ≠ [] → meanOk k.sumNew k.pairs →
      happens (.calOverlapClose t g) [.daq] s (fun u =>
        u = modCal g.val (fun k => { k with closeAt := now.now, due := some .backNew }) now)) ∧
    (full → k.phase = .overlapOut → k.newSets ≠ [] → meanOk k.sumNew k.pairs = false → meanOk k.sumOld k.pairs →
      happens (.calOverlapClose t g) [.daq] s (fun u =>
        u = emitNow 0x1403 0 k.chan [pairWord k.sumNew k.pairs]
          (modCal g.val (fun k => { k with closeAt := now.now, due := some .backOld }) now))) ∧
    (boundary → k.due = some .toSpare →
      happens (.calHandoverSwitch t g) ([.daq, .nv] ++ answering) s (fun u =>
        u = modCal g.val (fun k => { k with phase := .calibrating, due := none, outSince := now.now })
          (switchTo k.chan .calibration k.otherMerger now))) ∧
    (boundary → k.due = some .backNew →
      happens (.calHandoverSwitch t g) ([.daq, .nv] ++ answering) s (fun u => u = handBack g.val k.chan true now)) ∧
    (∀ (r : CalResult) (fits : Bool), k.phase = .calibrating → k.due = none → s.mgmt.run → (chanOf s k.chan).subst ≠ .none →
      happens (.calMeasurementDone t g r fits) [.daq, .nv, .journal] s (fun u =>
        u = modCal g.val (fun x => { x with
            newSets := finishSets now k.chan (if k.slotOut || k.release then 2 else 1)
              (ratioValid (genOf s (k.chan / 4))) r
            due := some .reconnect })
          (if fits then now else bringForward k.chan now))) ∧
    (boundary → k.chan / 8 = g.val → k.due = some .reconnect →
      happens (.calHandoverSwitch t g) ([.daq, .nv] ++ answering) s (fun u =>
        u = modCal g.val (fun x => { x with outSince := now.now }) (startOverlap g.val .overlapOut now.now now)))

/-- R172, R173: what ends a calibration slot otherwise. Too few pairs at the limit end the slot with event 0x1404, or
repeat the overlap; 60 s without a handback raise event 0x1405 once; a recheck tells which converter to distrust, with
event 0x1402 at the time the overlap closed, and a distrusted spare recalibrates and the slot restarts. -/
def Obligations.CalibrationTroubles : Prop :=
  ∀ (t : Time) (g : Fin 8) (s : State),
    let now := tick t s
    let k := (groupOf s g.val).cal
    let ev := fun (bad : Nat) => emit 0x1402 bad k.chan [pairWord k.sumNew k.pairs] (tbAt now k.closeAt)
    (k.overlapStart + max (10 * secU) (intervals64 now k.chan) ≤ now.now → k.pairs < 32 → s.mgmt.run → k.phase = .connect →
      happens (.calOverlapLimit t g) [.daq] s (fun u => u = endSlot g.val (emitNow 0x1404 0 k.chan [] now))) ∧
    (k.overlapStart + max (10 * secU) (intervals64 now k.chan) ≤ now.now → k.pairs < 32 → s.mgmt.run →
      k.phase = .overlapOut →
      happens (.calOverlapLimit t g) [.daq] s (fun u => u = startOverlap g.val .overlapOut now.now now)) ∧
    (k.phase = .overlapOut → k.outSince + 60 * secU ≤ now.now → k.delayedRaised = false →
      happens (.calHandbackDelayed t g) [.daq] s (fun u =>
        u = emitNow 0x1405 0 k.chan [] (modCal g.val (fun k => { k with delayedRaised := true }) now))) ∧
    (k.phase = .recheckIn → happens (.spareRecheckDone t g true) ([.daq, .nv] ++ answering) s (fun u =>
      u = endSlot g.val (ev 0 now))) ∧
    (k.phase = .recheckIn → k.secondTry = false →
      happens (.spareRecheckDone t g false) ([.daq, .nv] ++ answering) s (fun u =>
        u = ev 1 (modCal g.val (fun k => { k with phase := .spareRecal }) now))) ∧
    (k.phase = .recheckIn → k.secondTry = true →
      happens (.spareRecheckDone t g false) ([.daq, .nv] ++ answering) s (fun u =>
        u = spareFails g.val now.now (endSlot g.val (ev 1 now)))) ∧
    (k.phase = .recheckOut →
      happens (.spareRecheckDone t g false) ([.daq, .nv] ++ answering) s (fun u =>
        u = ev 1 (modCal g.val (fun k => { k with phase := .overlapOut, due := some .backOld, spareBad := true }) now))) ∧
    (∀ r : CalResult, k.phase = .spareRecal → s.mgmt.run →
      happens (.spareRecalibrationDone t g r) [.daq, .nv, .journal] s (fun u =>
        u = modCal g.val (fun k => { k with phase := .spareCheck, secondTry := true })
          (putSets (64 + g.val) (finishSets now (64 + g.val) 1 false r) now)))

/-- R205, R208, R209, R210, R211, R216: what comes in for the time service. A valid copy of a TIME frame is offered to
both domains; a copy that misses four intervals is left for another; a PTP port in its own transport counts what it
receives, measures a Sync of the master it follows, of two steps with its Follow_Up, and sends by its role; an edge of
PPS_IN is captured; a time-of-day message in its window is kept, one out of it or out of form is counted invalid; four
missing measurements lose the signal. -/
def Obligations.TimeInputsArrive : Prop :=
  ∀ (t : Time) (s : State),
    let now := tick t s
    let tod := s.time.tod
    let listens := fun (p : Fin 2) (udp : Bool) (tags : Nat) =>
      let x := s.time.ptp.getD p.val default
      s.mgmt.run = true ∧ isUp s .ethm = true ∧ x.role ≠ 0 ∧ loopFree s (3 + p.val) = true ∧
        (udp = true ↔ x.transport = 1) ∧ tags ≤ 1
    (∀ f : TimeFrame, isUp s .time → isUp s .xbar → f.good → f.rootState ≠ 3 → f.hops ≤ 1023 →
      happens (.timeFrameRx t f) [.free, .time, .daq] s (fun u => u = frameAt 1 f (frameAt 0 f now))) ∧
    (∀ (d : Fin 2) (c : TimeCopy),
      let x := domOf s d.val
      let cs := x.copies.set x.copyPort (some { c with alive := false })
      x.copies.getD x.copyPort none = some c → c.alive → c.last + 4 * interval x ≤ now.now →
      happens (.timeCopySwitch t d) [.time] s (fun u =>
        u = modDom d.val (fun x => { x with copies := cs, copyPort := (copyInUse cs).getD x.copyPort }) now)) ∧
    (∀ (d : Fin 2) (l : Time), lastValid (domOf s d.val) = some l → l + 4 * interval (domOf s d.val) ≤ now.now →
      ((domOf s d.val).state = .acquiring ∨ (domOf s d.val).state = .locked) →
      happens (.domainSignalLoss t d) [.time, .daq] s (fun u => u = chooseDom (toState d.val .noSignal now))) ∧
    (∀ (p : Fin 2) (g : BitVec 64) (udp : Bool) (tags : Nat) (y : PtpSync),
      let x := s.time.ptp.getD p.val default
      let s1 := modPtp p.val (fun x => { x with received := x.received + 1 }) now
      let rx := tbNow now / 256 * 256
      listens p udp tags → x.role = 1 → x.gm = some g → x.master = y.src →
      happens (.ptpMessageRx t p x.domainNumber udp tags (.sync y)) [.free, .time, .daq] s (fun u =>
        u = if y.twoStep then modPtp p.val (fun x => { x with syncWaits := some (y, rx) }) s1
          else ptpMeasure p.val rx y.origin y.corr y.logInterval s1)) ∧
    (∀ (p : Fin 2) (udp : Bool) (tags origin rx : Nat) (corr : Int) (y : PtpSync),
      let x := s.time.ptp.getD p.val default
      listens p udp tags → x.syncWaits = some (y, rx) →
      happens (.ptpMessageRx t p x.domainNumber udp tags (.followUp y.src y.seq origin corr)) [.free, .time, .daq] s (fun u =>
        u = ptpMeasure p.val rx origin (y.corr + corr) y.logInterval (modPtp p.val (fun x => { x with syncWaits := none })
          (modPtp p.val (fun x => { x with received := x.received + 1 }) now)))) ∧
    (∀ (p : Fin 2) (d : Nat) (udp : Bool) (tags : Nat) (m : PtpMsg),
      let x := s.time.ptp.getD p.val default
      listens p udp tags → d ≠ x.domainNumber →
      happens (.ptpMessageRx t p d udp tags m) [.free, .time, .daq] s (fun u =>
        u = modPtp p.val (fun x => { x with otherDomain := x.otherDomain + 1 })
          (modPtp p.val (fun x => { x with received := x.received + 1 }) now))) ∧
    (∀ p : Fin 2,
      let x := s.time.ptp.getD p.val default
      let time : Int := (tbNow now / 256 : Nat)
      s.mgmt.run → isUp s .ethm → x.role = 2 → x.slaveOnly = false → loopFree s (3 + p.val) →
      happens (.ptpMessageTimer t p 0) [.free, .time] s (fun u =>
        u = if x.twoStep then sendPtp p.val 3 time (sendPtp p.val 0 (drawInt now).1 (drawInt now).2)
          else sendPtp p.val 0 time now) ∧
      happens (.ptpMessageTimer t p 1) [.free, .time] s (fun u => u = sendPtp p.val 1 (clockClass now x : Nat) now)) ∧
    (isUp s .time → tod.message = none → tod.lastEdge = none →
      happens (.ppsInEdge t) [.time, .daq] s (fun u =>
        u.time.tod = { tod with lastEdge := some (tbNow now / 256 * 256, now.now) })) ∧
    (∀ (m : Nat × Int × Nat) (d : Nat) (l : Nat × Time),
      let e := tbNow now / 256 * 256
      isUp s .time → tod.message = some m → ppsDom s = some d → tod.lastEdge = some l → l.1 + secU ≤ e + 100 * usU →
      e ≤ l.1 + secU + 100 * usU → l.1 = tod.messageEdge →
      happens (.ppsInEdge t) [.time, .daq] s (fun u =>
        u = measure d ((tbDiff e (m.1 * secU) - ((domOf s d).dPps - m.2.1) * 256) * 2 ^ 32) false
          (modDom d (fun x => { x with tauExp := 0 })
            (modTod (fun x => { x with lastEdge := some (e, now.now), message := none }) now)))) ∧
    (∀ (bytes : List Byte) (l : Nat × Time), isUp s .time → tod.lastEdge = some l → l.2 + 100 * msU ≤ now.now →
      now.now ≤ l.2 + 900 * msU → todOk bytes → ppsDom s = none →
      happens (.todMessageRx t bytes) [.time] s (fun u =>
        u.time.tod = { tod with
          message := some (todField bytes 4 6, signedOf (todField bytes 16 4) 32, todField bytes 13 1)
          messageEdge := l.1, prevSeconds := some (todField bytes 4 6) })) ∧
    (∀ bytes : List Byte, isUp s .time → (tod.lastEdge = none ∨ todOk bytes = false) →
      happens (.todMessageRx t bytes) [.time] s (fun u =>
        u.time.tod = { tod with invalid := tod.invalid + 1, message := none }))

/-- R197, R216, R217, R218, R220, R222, R224, R449: what the timebase does in time. A decided step adds its delta, counts
the epoch and is logged; a slew ends; the preferred domain is taken back after 60 s; a faulty domain recovers; a bin of
the holdover table in which the temperature has spent 60 s while LOCKED learns the mean y with weight 1/16, and the table
is stored; holdover past its bound is expired; a leap second changes the UTC offset; AON loads its seconds while LOCKED.
-/
def Obligations.TimebaseRuns : Prop :=
  ∀ (t : Time) (s : State),
    let now := tick t s
    (∀ d : StepDue, s.time.stepDue = some d → (∀ i < 64, slotAt s i = none) →
      0 ≤ ((max s.now t : Nat) : Int) + s.time.stepSum → 0 ≤ ((max s.now t : Nat) : Int) + s.time.stepSum + d.delta →
      happens (.timebaseStep t) [.free, .host, .time, .tact, .daq, .pwr, .clk, .therm, .cfg, .line, .fab, .frames,
        .eth, .basin, .oper, .nv, .journal] s (fun u =>
        (tbNow u : Int) = (tbNow now : Int) + d.delta ∧ u.time.epoch = (s.time.epoch + 1) % 65536 ∧
          (u.time.stepLog.map (fun e => e.cause)).head? = some d.cause ∧ u.time.stepDue = none)) ∧
    happens (.slewComplete t) [.time] s (fun u => u = noteY (advance now)) ∧
    (∀ p, p = s.time.preferred → s.time.revertive → s.time.mode = .follow → s.time.active ≠ p →
      (domOf s p).state = .locked → max (domOf s p).lockedSince s.time.activeSince + 60 * secU ≤ now.now →
      happens (.revertiveSwitch t) [.time] s (fun u => u = switchDom p now)) ∧
    (∀ (d : Fin 2) (w : Time), (domOf s d.val).state = .faulty → (domOf s d.val).withinSince = some w →
      w + (domOf s d.val).servo.recoveryS * secU ≤ now.now →
      happens (.faultRecovery t d) [.time, .daq] s (fun u => u = chooseDom (toState d.val .acquiring now))) ∧
    (let n := noteBin now
      let c := n.time.binNow
      let y := yMean (60 * secU) n
      s.time.mode = .follow → (domOf s s.time.active).state = .locked → -40 ≤ c → c ≤ 125 →
      max (max n.time.binSince n.time.binLearned) (max (domOf s s.time.active).lockedSince s.time.activeSince) + 60 * secU ≤
        now.now →
      happens (.holdoverLearn t) [.time] s (fun u =>
        u.time.tableDirty = true ∧ u.time.binLearned = now.now ∧
        (holdBin s.time.table c = none → u.time.table = upsert s.time.table (fun e => e.1 == c) (c, y)) ∧
        ∀ v, holdBin s.time.table c = some v →
          u.time.table = upsert s.time.table (fun e => e.1 == c) (c, v + roundDiv (y - v) 16))) ∧
    (s.mgmt.run → s.pwr.sagWarn = false → s.time.tableDirty →
      happens (.holdoverTableWrite t) [.time, .nv, .journal] s (fun u => u.nv.cal.holdover = s.time.table ∧
        u.time.tableDirty = false)) ∧
    (s.time.mode = .holdover → s.time.holdoverSince + s.time.boundS * secU ≤ now.now →
      happens (.holdoverBoundExpiry t) [.time] s (fun u => u.time = { s.time with holdoverExpired := true })) ∧
    ((s.time.utc.leap61 ∨ s.time.utc.leap59) → s.time.utc.leapTime ≠ 0 → s.time.utc.leapTime * secU ≤ tbNow now →
      happens (.leapEvent t) [.time] s (fun u => u.time.utc = { s.time.utc with
        offset := if s.time.utc.leap61 then s.time.utc.offset + 1 else s.time.utc.offset - 1
        leap61 := false, leap59 := false, leapTime := 0 })) ∧
    (tbState now = 0 → isUp s .time →
      happens (.aonSecondsLoad t) [.aon] s (fun u =>
        u.aon = { s.aon with coarse := tbNow now / secU, coarseAt := now.now, loading := true }))

/-- R203, R212, R231 to R233, R244, R246, R247: what the time service and the timed actions put out, and captures. A root
sends a TIME frame to 0xFFFF; a whole second starts a pulse on PPS_OUT, OFFSET from it, and its end ends it; a time-of-day
message follows 200 ms after; a slot that is due fires, after those that precede it; a pulse on TEV ends, and settings
made during it show; an edge on TCAP of a pulse of 2 ns at least is captured with its time, and one that comes within 20
ns of the last capture is counted missed. -/
def Obligations.TimedOutputsAndCaptures : Prop :=
  ∀ (t : Time) (s : State),
    let now := tick t s
    let pps := s.tact.pps
    (advertises s → isUp s .time →
      happens (.timeFrameTx t) [.frames] s (fun u =>
        u = originate (frameFor 0 4 0xFFFF#16 s.cfg.activeGen (timePayload now)) now)) ∧
    (∀ sec : Nat, isUp s .time → (tbNow now : Int) = (sec * secU : Nat) + pps.offset * 256 →
      pps.last ≠ some (sec, s.time.epoch) → (pps.squelch = false ∨ uncertain now = false) → pps.pulseEnd = none →
      (tevAt s 15).mode ≠ 3 →
      happens (.ppsOutPulse t) [.time, .tact] s (fun u =>
        u.out = s.out ++ [.pps (now.now : Int) true] ∧
        u.tact.pps = { pps with pulseEnd := some (now.now + pps.width * 256), last := some (sec, s.time.epoch) } ∧
        u.time.tod = { s.time.tod with txDue := some (now.now + 200 * msU) })) ∧
    (∀ e, pps.pulseEnd = some e → e ≤ now.now →
      happens (.ppsPulseEnd t) [.tact] s (fun u =>
        u.out = s.out ++ [.pps (e : Int) false] ∧ u.tact.pps = { pps with pulseEnd := none })) ∧
    (∀ due ring root, s.time.tod.txDue = some due → due ≤ now.now → s.time.tod.txEnable → s.time.mode = .follow →
      (domOf s s.time.active).source = .fabric ring root →
      happens (.todTxMessage t) [.free, .time] s (fun u =>
        u.time.tod = { s.time.tod with txDue := none } ∧
        u.out = s.out ++ [.tod (todMessage (tbAt now due / secU + 1) s.time.utc
          (if tbState now = 0 then 0 else 2) (min (((domOf s s.time.active).hops + 3) / 4) 65535))])) ∧
    (∀ (i : Fin 64) (a : SlotArm), isUp s .time → slotAt s i.val = some a → slotIsDue now a →
      happens (.actionFire t i) [.free, .host, .time, .tact, .daq, .pwr, .clk, .therm, .cfg, .line, .fab, .frames,
        .eth, .basin, .oper, .nv, .journal] s (fun u => u = fireThrough 256 (some i.val) now)) ∧
    (∀ (n : Fin 16) (q : TevPulse), (tevAt s n.val).pulse = some q → q.until_ ≤ now.now →
      happens (.tevPulseEnd t n) [.tact] s (fun u =>
        u = (if (tevAt s n.val).drive = q.drive ∧ restLevel (tevAt s n.val) = q.activeLow then id else showRest n.val)
          (tevEdge n.val q.until_ q.drive q.dTev q.activeLow (modTev n.val (fun p => { p with pulse := none }) now)))) ∧
    (∀ (i : Fin 8) (fall : Bool) (wide : Nat), 2 * nsU ≤ wide →
      let x := tcapAt s i.val
      let wanted := x.edge = 3 ∨ x.edge = (if fall then 2 else 1)
      let tb := trunc256ns ((tbNow now : Int) - x.dCap * 256).toNat
      (isUp s .time → wanted → (∀ l, x.lastCapture = some l → l + 20 * nsU ≤ now.now) → x.queue.length < 64 →
        x.event = false →
        happens (.tcapEdge t i fall wide) [.tact] s (fun u =>
          u = modTcap i.val (fun x => { x with
            queue := (tcapAt s i.val).queue ++ [mkWord [(0, 96, t96 tb), (96, 3, i.val), (99, 1, b2n fall),
              (100, 1, b2n (follows s 1)), (101, 1, b2n (uncertain now)), (102, 1, b2n (tcapAt s i.val).overflowDue),
              (112, 16, s.time.epoch)]]
            lastCapture := some now.now, overflowDue := false }) now)) ∧
      (∀ l, isUp s .time → wanted → x.lastCapture = some l → now.now < l + 20 * nsU →
        happens (.tcapEdge t i fall wide) [.tact] s (fun u =>
          u = modTcap i.val (fun x => { x with missed := x.missed + 1, overflowDue := true }) now)))

/-- R4, R207: a lane's round trip, of the four timestamps without the neighbour's turnaround, each millisecond. The result
is kept, with the last 64; a change of more than 10 ns raises event 0x2003 at once, and the largest change of the
following second one more at its end. Lanes 4 to 7 do not exist on variant SL-5128-V. -/
def Obligations.LinkDelaysAreWatched : Prop :=
  ∀ (t : Time) (p : Fin 3) (lane : Fin 8) (s : State),
    let now := tick t s
    let l := (s.time.links.getD p.val []).getD lane.val default
    let keep := fun (rt : Int) => modLink p.val lane.val (fun l => { l with
      raw := some rt, window := (rt :: l.window).take 64 }) now
    (isV s → 4 ≤ lane.val →
      exec (.linkDelayUpdate t p lane) s = .fault .absentPart ∧ exec (.linkDelayEventTimer t p lane) s = .fault .absentPart) ∧
    (isV s = false ∨ lane.val < 4 →
      (∀ (t0 t1 t2 t3 : Nat) (rt : Int), l.stamps = some (t0, t1, t2, t3) → t1 ≤ t2 → t0 ≤ t3 → t2 < 2 ^ 40 → t3 < 2 ^ 40 →
        rt = (t3 : Int) - t0 - (t2 - t1) → -(2 ^ 39) ≤ rt → rt < 2 ^ 39 →
        ((∀ r, l.raw = some r → (rt - r).natAbs ≤ 2560) →
          happens (.linkDelayUpdate t p lane) [.time] s (fun u => u = keep rt)) ∧
        (∀ r : Int, l.raw = some r → 2560 < (rt - r).natAbs → l.holdUntil = none →
          happens (.linkDelayUpdate t p lane) [.time] s (fun u =>
            u = emitNow 0x2003 p.val lane.val [BitVec.ofNat 128 (asField (rt - r) 64)]
              (modLink p.val lane.val (fun l => { l with holdUntil := some (now.now + secU) }) (keep rt)))) ∧
        (∀ r : Int, l.raw = some r → 2560 < (rt - r).natAbs → l.holdUntil.isSome →
          (∀ b, l.largest = some b → b.natAbs < (rt - r).natAbs) →
          happens (.linkDelayUpdate t p lane) [.time] s (fun u =>
            u = modLink p.val lane.val (fun l => { l with largest := some (rt - r) }) (keep rt)))) ∧
      (∀ e ch, l.holdUntil = some e → e ≤ now.now → l.largest = some ch →
        happens (.linkDelayEventTimer t p lane) [.time] s (fun u =>
          u = emitNow 0x2003 p.val lane.val [BitVec.ofNat 128 (asField ch 64)]
            (modLink p.val lane.val (fun l => { l with holdUntil := none, largest := none }) now))))

/-- R386, R388 to R394, R397, R463: what happens to the clocks. A monitored source that fails sets `CLK_FAIL` and vector 0
and raises event 0x5001; a forced switch counts and sets vector 1; a REF qualifies; without a REF the timebase PLL starts
in hold; an entry above the one in use takes over after 10 s; a PLL locks; after 10 s of hold the lanes stop; a counter's
gate closes and its command ends with the count. -/
def Obligations.ClocksFailAndReturn : Prop :=
  ∀ (t : Time) (s : State),
    let now := tick t s
    (∀ (n : Fin 32) (stopped : Bool), monitored now n.val → s.clk.failed.getLsbD n.val = false →
      happens (.clockSourceFailure t n stopped) ([.free, .islands, .host, .time, .daq, .clk, .line, .fab, .eth, .basin,
        .oper, .diag] ++ answering) s (fun u =>
        u = emitNow 0x5001 n.val 0 [] (sourceFails n.val
          (raiseNmi 0 (modClk (fun c => { c with failed := setBit c.failed n.val true }) now))))) ∧
    (∀ n : Fin 32, happens (.clockForcedSwitch t n) [.host, .clk] s (fun u =>
        u = emitNow 0x5002 n.val 0 [] (raiseNmi 1 (modClk (fun c => { c with forced := satAdd 16 c.forced 1 }) now)))) ∧
    (∀ b : Bool, (refInOf s b).qualified = false → isUp s .time →
      ((refInOf s b).failed → (refInOf s b).qualSince + 10 * secU ≤ now.now) →
      happens (.refQualified t b) [.free, .host, .time, .clk] s (fun u =>
        u = restored (if b then 1 else 0) (keepTbRef (tbRefIn now)
          (modRef b (fun _ => { qualified := true, failed := false, qualSince := now.now }) now)))) ∧
    (isUp s .time → activeRef s = none → pllOf s 4 = .unlocked → s.clk.tbHoldSince = none →
      s.aon.coarseAt + 101 * msU ≤ now.now →
      happens (.clockQualifyTimeout t) [.host, .daq, .clk, .oper] s (fun u =>
        u.clk.tbRef = 3 ∧ u.clk.ctlInternal = false ∧
        u.clk.plls = (s.clk.plls.map (fun _ => PllState.locked)).set 0 .hold)) ∧
    (∀ b : Bool, activeRef s = some b → (refInOf s b).qualSince + 10 * secU ≤ now.now → 0 < s.clk.tbRef →
      happens (.tbRefSwitchUp t 0) [.free, .host, .time, .clk] s (fun u => u = switchTb 0 now ∧ u.clk.tbRef = 0)) ∧
    (∀ n : Fin 32, n.val = 6 ∨ n.val = 7 ∨ n.val = 8 → pllOf s n.val ≠ .locked →
      happens (.pllLocked t n) [.islands, .daq, .clk, .fab, .basin, .oper] s (fun u =>
        u = restored n.val (setPll n.val .locked now))) ∧
    (∀ a, s.clk.tbHoldSince = some a → a + 10 * secU ≤ now.now → s.clk.tbHoldExpired = false →
      happens (.pllHoldExpiry t) [.free, .host, .time, .clk, .line, .fab, .frames] s (fun u =>
        u = checkLinks (failPort 1 (failPort 0 (modClk (fun c => { c with tbHoldExpired := true }) now))))) ∧
    (∀ (c : Fin 4) (count : Nat),
      let k := s.clk.counters.getD c.val default
      let n := refEdges (nominal now k.ref k.lane) k.gateMs % 2 ^ 64
      let expect := n * nominal now k.meas k.lane / nominal now k.ref k.lane
      k.running → nominal now k.ref k.lane ≠ 0 → nominal now k.meas k.lane ≠ 0 → expect ≠ 0 →
      happens (.counterGateClose t c count) ([.clk] ++ answering) s (fun u =>
        u.clk = { s.clk with counters := s.clk.counters.set c.val { k with
          running := false, measCount := count, refCount := n, ppm := ppmOf expect count } }))

/-- R398 to R401, R404: the voltage of VCTL. A reading that passes ends a voltage step, puts the operating point into
force with event 0x5102 and ends the command with `OK`; a step without one within 1 ms is written back, and when that
fails too the command ends with `SUPPLY_LIMIT`; the regulators' currents are kept, 0xFFFF where none answers. -/
def Obligations.VoltageStepsEnd : Prop :=
  ∀ (t : Time) (s : State),
    let now := tick t s
    (∀ (c : AvsChange) (mv : Nat),
      let s1 := modPwr (fun p => { p with change := none, vctlMv := c.toMv, vctlConfirmed := true }) now
      s.pwr.change = some c → vctlPasses c.toMv mv →
      happens (.vctlVerify t mv) ([.daq, .pwr, .oper] ++ answering) s (fun u =>
        (c.tries = 0 → u = opNext (endHolder .op stOk 2 (emitNow 0x5102 c.target c.fromOp [] (setOp c.target s1)))) ∧
        (c.tries ≠ 0 → u = opNext (endHolder .op stSupplyLimit (doneBefore c) s1)))) ∧
    (∀ c : AvsChange, s.pwr.change = some c → c.since + msU ≤ now.now → c.tries = 0 →
      happens (.avsTimeout t) ([.daq, .pwr, .oper] ++ answering) s (fun u =>
        u.pwr = { s.pwr with change := some { c with toMv := c.fromMv, tries := 1, since := now.now } })) ∧
    (∀ c : AvsChange, s.pwr.change = some c → c.since + msU ≤ now.now → c.tries ≠ 0 →
      happens (.avsTimeout t) ([.daq, .pwr, .oper] ++ answering) s (fun u =>
        u = opNext (endHolder .op stSupplyLimit (doneBefore c)
          (modPwr (fun p => { p with change := none, vctlMv := c.fromMv }) now)))) ∧
    (∀ (cs : List (Option Nat)) (osc : Int), s.mgmt.run →
      happens (.pmbusPoll t cs osc) [.time, .pwr] s (fun u =>
        u.pwr = { s.pwr with
          currents := (List.range 8).map (fun r => match cs.getD r none with | some a => min a 65535 | none => 0xFFFF)
          oscTemp := osc }))

/-- R410 to R417, R421, R422: the thermal rules. Every sensor and zone takes its reading and counts its runs; 8 bad
readings break a sensor, 1,000 good ones restore it; a zone's threshold is crossed after 8 readings, and CRIT shuts the
device down; the level whose condition holds is in force; AON's trip shuts down as well, and AON starts the device again
unless that was the third shutdown within an hour. -/
def Obligations.TemperaturesAreJudged : Prop :=
  ∀ (t : Time) (s : State), Whole s →
    let now := tick t s
    (∀ (rd : List Int) (os : BitVec 17),
      let rs := (List.range 17).map (fun i => rd.getD i (sensorOf s i).reading)
      happens (.sensorRead t rd os) [.time, .therm] s (fun u =>
        (∀ i < 17, sensorOf u i = takeReading now rs os i (sensorOf s i)) ∧
        ∀ z < 7, ∀ v, zoneTemp u z = some v → zoneOf u z = takeTemp v (zoneOf s z))) ∧
    (∀ i : Fin 17, (sensorOf s i.val).broken = false → 8 ≤ (sensorOf s i.val).badRun →
      happens (.sensorBrokenChange t i) [.free, .host, .time, .daq, .pwr, .clk, .therm, .line, .fab, .oper, .frames] s (fun u =>
        u = thermCheck (crossing (sensorZone i.val) 1 true (modSensor i.val (fun x => { x with broken := true }) now)))) ∧
    (∀ i : Fin 17, (sensorOf s i.val).broken → 1000 ≤ (sensorOf s i.val).goodRun →
      happens (.sensorBrokenChange t i) [.free, .host, .time, .daq, .pwr, .clk, .therm, .line, .fab, .oper, .frames] s (fun u =>
        u = thermCheck (crossing (sensorZone i.val) 1 false (modSensor i.val (fun x => { x with broken := false }) now)))) ∧
    (∀ z : Fin 7,
      let x := zoneOf s z.val
      (x.warm = false → 8 ≤ x.warmUp → x.hot = false → x.hotUp < 8 → x.l3 = false → x.l3Up < 8 → x.critUp < 8 →
        happens (.zoneThresholdCrossing t z) [.free, .host, .time, .daq, .pwr, .clk, .therm, .line, .fab, .oper,
          .frames] s (fun u =>
          u = thermCheck (crossing z.val 0 true (modZone z.val (fun y => { y with warm := true }) now)))) ∧
      (x.crit = false → 8 ≤ x.critUp →
        happens (.zoneThresholdCrossing t z) volatile s (fun u =>
          u.aon.thermalOff = true ∧ u.aon.resetCause = 4 ∧ u.aon.shutdowns = now.now :: s.aon.shutdowns)) ∧
      (x.rising = false → 8 ≤ x.riseUp →
        happens (.zoneRisingFastChange t z) [.free, .host, .time, .daq, .pwr, .clk, .therm, .line, .fab, .oper,
          .frames] s (fun u =>
          u = thermCheck (crossing z.val 3 true (modZone z.val (fun y => { y with rising := true }) now)))) ∧
      (∀ a, x.crit = false → allBroken s z.val → x.allBrokenSince = some a → a + s.therm.graceMs * msU ≤ now.now →
        happens (.zoneAllBrokenTimer t z) volatile s (fun u =>
          u.aon.thermalOff = true ∧ u.aon.resetCause = 4))) ∧
    (s.mgmt.run →
      happens (.graceTimeExpiry t) [.free, .host, .time, .daq, .pwr, .clk, .therm, .line, .fab, .oper,
        .frames] s (fun u => u = setLevel (levelNow now) now ∧ u.therm.level = levelNow now) ∧
      happens (.l2HotTimer t) [.free, .host, .time, .daq, .pwr, .clk, .therm, .line, .fab, .oper, .frames] s (fun u =>
        u = setLevel (levelNow now) now ∧ u.therm.level = levelNow now)) ∧
    (s.aon.thermalOff = false →
      happens (.aonThermalTrip t) volatile s (fun u =>
        u.aon = { s.aon with
          resetCause := 4, shutdowns := now.now :: s.aon.shutdowns, thermalOff := true, startDue := false })) ∧
    (s.aon.thermalOff → shutdownLimit s.aon.shutdowns = false →
      happens (.thermalRestart t) [.aon] s (fun u => u.aon = { s.aon with thermalOff := false, startDue := true }))

/-- R248 to R253: a lane trains. Signal begins training, in a port that runs; the receiver converges, the ends negotiate,
the lane aligns and is UP; a lane-order fault fails it; 200 ms after SIGNAL it goes DOWN and tries again after 100 ms, and
the third failure in a row raises event 0x3002. -/
def Obligations.LanesTrain : Prop :=
  ∀ (t : Time) (p : Fin 2) (lane : Fin 8) (s : State), lanePresent s lane.val →
    let now := tick t s
    let l := lane.val
    let x := laneOf s p.val l
    (portRuns s p.val → x.set.enable → (∀ r, x.retryAt = some r → r ≤ now.now) →
      (x.state = .down ∨ x.state = .shed ∧ s.therm.level < 2) →
      happens (.laneSignalDetect t p lane) [.free, .host, .time, .clk, .line, .fab, .frames] s (fun u =>
        u = startTraining p.val l now)) ∧
    (x.state = .signal →
      happens (.laneRxConverged t p lane) [.free, .host, .time, .clk, .line, .fab, .frames] s (fun u =>
        u = toLane p.val l .negotiate (modLane p.val l (fun y => { y with
          ctle := (drawNat now).1 % 16, lastCtle := some now.now }) (drawNat now).2))) ∧
    (x.state = .negotiate →
      happens (.laneNegotiationDone t p lane false) [.free, .host, .time, .clk, .line, .fab, .frames] s (fun u =>
        u = emitNow 0x3004 (laneCode p.val l) 0 [] now) ∧
      happens (.laneNegotiationDone t p lane true) [.free, .host, .time, .clk, .line, .fab, .frames] s (fun u =>
        u = toLane p.val l .align (modLane p.val l (fun y => { y with fir := (List.range 4).map (freeTap now) })
          { now with free := s.free + 4 }))) ∧
    (∀ f : Fin 8, x.state = .align →
      (laneOrderBad s p.val l f.val = false →
        happens (.laneAligned t p lane f) [.free, .host, .time, .clk, .line, .fab, .frames] s (fun u =>
          u = toLane p.val l .up (modLane p.val l (fun y => { y with
            laneRx := some f.val, failRun := 0, lastCw := now.now
            shedAt := if 2 ≤ s.therm.level ∧ laneSheddable now p.val l then some now.now else y.shedAt }) now))) ∧
      (laneOrderBad s p.val l f.val →
        happens (.laneAligned t p lane f) [.free, .host, .time, .clk, .line, .fab, .frames] s (fun u =>
          u = laneOrderFault p.val l f.val now))) ∧
    ((x.state = .signal ∨ x.state = .negotiate ∨ x.state = .align) → x.signalAt + 200 * msU ≤ now.now →
      let s1 := toLane p.val l .down (modLane p.val l (fun y => { y with
        failRun := x.failRun + 1, trainFailures := satAdd 64 x.trainFailures 1, retryAt := some (now.now + 100 * msU)
        laneRx := none }) now)
      happens (.laneTrainingTimeout t p lane) [.free, .host, .time, .clk, .line, .fab, .frames] s (fun u =>
        u = if x.failRun = 2 then emitNow 0x3002 (laneCode p.val l) 3 [] s1 else s1)) ∧
    (∀ r, x.retryAt = some r → r ≤ now.now → x.set.enable → portRuns s p.val → (x.state = .down ∨ x.state = .failed) →
      happens (.laneRetryTimer t p lane) [.free, .host, .time, .clk, .line, .fab, .frames] s (fun u =>
        u = startTraining p.val l now))

/-- R207, R248, R253, R255 to R257, R259, R266, R268: a lane that is UP. A failure takes it out of use; a framing codeword
brings its times, its sequence and what its side channel carries, and one is sent; the elastic buffer justifies or slips;
CTLE and FIR follow the channel; three seconds above 2e-6 degrade it and ten at or below restore it; a lane without a
needed slot powers down 16 superframes after its shed notice. -/
def Obligations.LanesRun : Prop :=
  ∀ (t : Time) (p : Fin 2) (lane : Fin 8) (s : State), lanePresent s lane.val →
    let now := tick t s
    let l := lane.val
    let x := laneOf s p.val l
    x.state = .up →
    happens (.laneFailure t p lane) [.free, .host, .time, .clk, .line, .fab, .frames] s (fun u =>
      ∃ b : Bool, u = toLane p.val l .failed (modLane p.val l (fun y => { y with
        framingLosses := satAdd 64 y.framingLosses (b2n (b && framingGone x now.now)),
          retryAt := some (now.now + 100 * msU), laneRx := none })
          { now with free := s.free + 1 })) ∧
    (∀ (cw : Word) (m : Option SideMsg),
      let f := fld cw 16 3
      let s1 := takeStamps p.val l x.half cw (modLane p.val l (fun y => { y with
        laneRx := some f, seqRx := some (fld cw 0 8), rxTs := tbNow now / 256 % 2 ^ 40, lastCw := now.now
        rxDelete := fbit cw 115 }) now)
      let i := 8 * f + fld cw 0 8 % 8
      let s2 := if slotPresent s1 p.val i then
          transitBudget p.val i (fld cw 99 7) (modLineSlot p.val i (fun y => { y with hopsIn := fld cw 99 7 }) s1)
        else s1
      (laneOrderBad s p.val l f = false →
        happens (.framingCodewordRx t p.castSucc lane cw m) [.free, .host, .time, .clk, .line, .fab, .frames] s (fun u =>
          u = sendFraming p.val l false false (takeSide p.val l m s2))) ∧
      (laneOrderBad s p.val l f →
        happens (.framingCodewordRx t p.castSucc lane cw m) [.free, .host, .time, .clk, .line, .fab, .frames] s (fun u =>
          u = laneOrderFault p.val l f now))) ∧
    happens (.laneJustification t p lane true true) [.line] s (fun u =>
      u = emitNow 0x3006 (laneCode p.val l) (min (x.slips + 1) (2 ^ 32 - 1)) []
        (modLane p.val l (fun y => { y with
          slips := satAdd 64 y.slips 1, slipUntil := cycleAt x.half (cycleIx x.half now.now + 1) }) now)) ∧
    (∀ high : Bool, (∀ j, x.lastJust = some j → 10 * j + 32 * cycle10 x.half ≤ 10 * now.now) →
      happens (.laneJustification t p lane high false) [.free, .line] s (fun u =>
        u = sendFraming p.val l high (!high) (modLane p.val l (fun y => { y with
          justifications := satAdd 64 y.justifications 1, lastJust := some now.now
          omitCycle := if high then y.omitCycle else some (cycleIx x.half now.now + 1) }) now))) ∧
    (∀ better : Nat, (laneCur x now.now).ctleHost = false → (∀ c, x.lastCtle = some c → c + 10 * msU ≤ now.now) → x.ctle ≤ 15 →
      happens (.ctleReevaluate t p lane better) [.line] s (fun u =>
        u = modLane p.val l (fun y => { y with
          lastCtle := some now.now
          ctle := if x.ctle < min better 15 then x.ctle + 1 else if better < x.ctle then x.ctle - 1 else x.ctle }) now)) ∧
    (∀ (tap : Fin 4) (up : Bool) (gain : Nat), (∀ c, x.lastFir = some c → c + secU ≤ now.now) → 10 ≤ gain →
      happens (.firTapRequest t p lane tap up gain) [.line] s (fun u =>
        u = emitOut (.firRequest p.val l tap.val up)
          (modLane p.val l (fun y => { y with lastFir := some now.now }) now))) ∧
    (∀ ber : Nat,
      let s1 := fun (hi lo : Nat) (deg : Bool) =>
        modLane p.val l (fun y => { y with berEst := ber, berHigh := hi, berLow := lo, degraded := deg }) now
      (2000000000000 < ber → x.degraded = false → x.berHigh = 2 →
        happens (.laneDegradedChange t p lane ber) [.line] s (fun u =>
          u = emitNow 0x3005 (laneCode p.val l) 1 [] (s1 3 0 true))) ∧
      (ber ≤ 2000000000000 → x.degraded → x.berLow = 9 →
        happens (.laneDegradedChange t p lane ber) [.line] s (fun u =>
          u = emitNow 0x3005 (laneCode p.val l) 0 [] (s1 0 10 false)))) ∧
    (∀ a, laneSheddable now p.val l → x.shedAt = some a → 10 * a + 4096 * cycle10 x.half ≤ 10 * now.now →
      happens (.laneShedPowerdown t p lane) [.free, .host, .time, .clk, .line, .fab, .frames] s (fun u =>
        u = toLane p.val l .shed (modLane p.val l (fun y => { y with shedAt := none, laneRx := none }) now)))

/-- R4: on variant SL-5128-V lanes 4 to 7 do not exist, and no row acts on one. -/
def Obligations.AbsentLanesStop : Prop :=
  ∀ (t : Time) (p : Fin 2) (lane : Fin 8) (s : State), lanePresent s lane.val = false →
    (∀ i ∈ [Instr.laneSignalDetect t p lane, .laneRxConverged t p lane, .laneTrainingTimeout t p lane, .laneRetryTimer t p lane,
        .laneFailure t p lane, .laneShedPowerdown t p lane], exec i s = .fault .absentPart) ∧
    (∀ b, exec (.laneNegotiationDone t p lane b) s = .fault .absentPart) ∧
    (∀ f, exec (.laneAligned t p lane f) s = .fault .absentPart) ∧
    (∀ q cw m, exec (.framingCodewordRx t q lane cw m) s = .fault .absentPart) ∧
    (∀ a b, exec (.laneJustification t p lane a b) s = .fault .absentPart) ∧
    (∀ n, exec (.ctleReevaluate t p lane n) s = .fault .absentPart) ∧
    (∀ tap up g, exec (.firTapRequest t p lane tap up g) s = .fault .absentPart) ∧
    (∀ n, exec (.laneDegradedChange t p lane n) s = .fault .absentPart) ∧
    (∀ j cw v, exec (.expressCodeword t p lane j cw v) s = .fault .absentPart) ∧
    (∀ (slot : Fin 64) info, slot.val / 8 = lane.val → exec (.circuitRegen t p slot info) s = .fault .absentPart)

/-- R254, R258, R260, R261, R263 to R266: the circuits. A payload codeword of a slot in EXPRESS leaves on the other port,
as the inner decoder resolves it, with `HOPS` one higher, 126 at most; a regenerated one leaves with `HOPS` 0; a slot that
is not lost in a slip and does not settle leaves with its codeword of the inner code; a shed circuit's slot carries idle
codewords; the drop port's circuit is sent on its working side, with 1+1 on both; at the drop port the working copy is
used unless it is missing, else the protecting one, else local fault. -/
def Obligations.CircuitsRun : Prop :=
  ∀ (t : Time) (s : State),
    let now := tick t s
    (∀ (p : Fin 2) (lane : Fin 8) (j : Fin 1088) (cw : Word) (v : Option (BitVec 120)) (f : Nat),
      let y := laneOf s p.val lane.val
      let i := 8 * f + (if y.half then j.val % 4 else j.val % 8)
      let x := lineSlot now p.val i
      let got := innerDecode p.val lane.val cw v now
      lanePresent s lane.val → y.state = .up → y.laneRx = some f → slotIn now p.val i → x.use = .express →
      happens (.expressCodeword t p lane j cw v) [.free, .line] s (fun u =>
        u = if isShed now x.circuit then sendIdle (1 - p.val) x.other got.2
          else sendSlot (1 - p.val) x.other (hopsOut now (1 - p.val) x.other) got.1 got.2)) ∧
    (∀ (p : Fin 2) (i : Fin 64) (info : BitVec 120),
      let x := lineSlot now p.val i.val
      lanePresent s (i.val / 8) → slotIn now p.val i.val → x.use = .regen →
      happens (.circuitRegen t p i info) [.free] s (fun u =>
        u = if isShed now x.circuit then sendIdle (1 - p.val) x.other now
          else sendSlot (1 - p.val) x.other 0 info now)) ∧
    (∀ (p i h : Nat) (info : BitVec 120), slotOut now p i → (laneOf now p (i / 8)).slipUntil ≤ now.now →
      (slotSet now p i).was = none →
      sendSlot p i h info now = emitOut (.codeword p i h (innerCode info)) now ∧
      ((lineSlot now p i).use = .express → isShed now (lineSlot now p i).circuit = false →
        (slotSet now (1 - p) (lineSlot now p i).other).hopsIn = h → h < 127 → hopsOut now p i = min (h + 1) 126)) ∧
    (∀ (id : BitVec 16) (c : Circuit), circuitOf s id = some c → dropServes s → c.shed = false →
      let w := b2n c.workWest
      (∀ ws, happens (.circuitAdd t id ws) [.free] s (fun u =>
        u = if c.prot then sendCircuit (1 - w) id ws (sendCircuit w id ws now) else sendCircuit w id ws now)) ∧
      (∀ (ws : List (BitVec 120)) (skew : Nat), c.prot = false → c.degraded = false → copyUp now w id → skew ≤ 4096 →
        happens (.circuitDrop t id (some ws) none skew 0) [.line] s (fun u =>
          u = emitOut (.drop id ws false) (modCircuit id (fun c => { c with
            aligned := true, degraded := false, measuredUs := if c.prot then 0 else c.measuredUs,
              onProtecting := false }) now))) ∧
      (∀ (ws : List (BitVec 120)) (skew dd : Nat), c.prot → c.degraded = false → dd ≤ c.declaredUs → copyUp now (1 - w) id →
        skew ≤ 4096 →
        happens (.circuitDrop t id none (some ws) skew dd) [.line] s (fun u =>
          u = emitOut (.drop id ws false) (modCircuit id (fun c => { c with
            aligned := true, degraded := false, measuredUs := if c.prot then dd else c.measuredUs,
              onProtecting := true }) now))) ∧
      (c.prot = false → c.aligned → c.degraded = false →
        happens (.circuitDrop t id none none 4097 0) [.line] s (fun u =>
          u.out = (emitNow 0x3103 0 id.toNat [] now).out ++ [.drop id [] true] ∧
            ∀ c', circuitOf u id = some c' → c'.aligned = false)))

/-- R285, R287, R288, R292, R293, R299, R302: nodes find each other. A HELLO that names this node makes the port adjacent;
one of its own marks the port looped, and one of this ring on the coupling port refuses it, with event 0x3203; three
intervals without one end the adjacency; a token brings the anchor, the ring and the position, and goes on with the
position one higher; the active anchor sends tokens, and the secondary takes over after 10 ms; link reports and beacons
are kept and passed on. -/
def Obligations.NeighboursAreFound : Prop :=
  ∀ (t : Time) (s : State),
    let now := tick t s
    let me := s.fuseShadow.uid
    (∀ (p : Fin 3) (uid heard : BitVec 64),
      let x := portOf s p.val
      let fresh := fun (y : FabPort) => { y with
        looped := false, refused := false, neigh := some uid, lastHello := some now.now }
      (fabricLink now p.val → uid ≠ me → (∀ u, x.neigh = some u → u = uid) → heard = me → x.adjacent = false →
        happens (.helloRx t p uid heard false) [.free, .fab, .frames] s (fun u =>
          u = portChange p.val true (modPort p.val (fun y => { y with adjacent := true }) (modPort p.val fresh now)))) ∧
      (fabricLink now p.val → uid = me → x.adjacent = false → x.looped = false →
        happens (.helloRx t p uid heard false) [.free, .fab, .frames] s (fun u =>
          u = modPort p.val (fun y => { y with looped := true, lastHello := some now.now })
            (emitNow 0x3203 0 p.val [] now))) ∧
      (p.val = 2 → fabricLink now 2 → uid ≠ me → x.adjacent = false → x.refused = false →
        happens (.helloRx t p uid heard true) [.free, .fab, .frames] s (fun u =>
          u = modPort 2 (fun y => { y with refused := true, neigh := some uid, lastHello := some now.now })
            (emitNow 0x3203 1 2 [] now)))) ∧
    (∀ p : Fin 3,
      (fabricLink now p.val → (∀ l, (portOf s p.val).lastSent = some l → l + msU ≤ now.now) →
        happens (.helloTx t p) [.free, .fab, .frames] s (fun u =>
          u = modPort p.val (fun x => { x with lastSent := some now.now })
            (sendEnum p.val (enumWords 0 0 0 0 0 0 p.val me ((portOf s p.val).neigh.getD 0)) now))) ∧
      (∀ l, fabricLink now p.val → (portOf s p.val).adjacent → (portOf s p.val).lastHello = some l → l + 3 * msU ≤ now.now →
        happens (.adjacencyTimeout t p) [.free, .fab, .frames] s (fun u =>
          u = portChange p.val false (modPort p.val (fun x => { x with adjacent := false }) now)))) ∧
    (∀ w1 w2 : Word,
      let pos := fld w1 5 10
      let uid := BitVec.ofNat 64 (fld w1 64 64)
      let run := runStep s.fab.eastRun (pos + 1)
      portUp s 1 → fld w1 0 4 = 1 → fld w1 49 15 = 0 → fld w1 25 6 ≤ 62 → uid ≠ me → s.fab.anchorActive = false →
      happens (.tokenRx t 1 w1 w2) [.free, .cfg, .fab, .frames] s (fun u =>
        u.fab.anchorUid = uid ∧ u.fab.ring = fld w1 25 6 ∧ u.fab.lastToken = some now.now ∧ u.fab.eastRun = run ∧
          u.fab.n = (if fld w1 15 10 = 0 then none else some (fld w1 15 10)) ∧
          (3 ≤ run.run → pos + 1 ≤ 999 → u.fab.pos = some (pos + 1)) ∧ (run.run < 3 → u.fab.pos = s.fab.pos))) ∧
    (s.fab.anchorActive → isUp s .xbar → (∀ l, s.fab.lastTokenTx = some l → l + msU ≤ now.now) →
      let g := ringGenOf now
      let ws := enumWords 1 (b2n (s.fab.role == .secondary)) (s.fab.pos.getD 0) (s.fab.n.getD 0) s.fab.ring g.1 0 me g.2
      happens (.tokenTx t) [.free, .cfg, .fab, .frames] s (fun u =>
        u = noteDivergence ([0, 1].foldl (fun acc p => if portUp acc p then sendEnum p ws acc else acc)
          (modFab (fun x => { x with lastTokenTx := some now.now, ringGen := some g }) now)))) ∧
    (∀ l q, s.fab.role = .secondary → s.fab.anchorActive = false → isUp s .xbar → s.fab.lastPrimary = some l →
      l + 10 * msU ≤ now.now → s.fab.pos = some q →
      happens (.secondaryAnchorTakeover t) [.free, .fab] s (fun u =>
        u.fab = { s.fab with anchorActive := true, anchorUid := me, anchorPos := q, closure := { pos := 0, run := 0 } })) ∧
    (∀ (p : Fin 2) (up : Bool) (pos : Fin 1024) (q : Fin 3) (b : Break), portUp s p.val →
      breakAt s.fab.n pos.val q.val = some b → s.fab.pos ≠ some pos.val →
      let s1 := noteBreak up b now
      happens (.linkStateRx t p up pos q) [.free, .fab, .frames] s (fun u =>
        u = if fabricLink s1 (1 - p.val) then
            sendEnum (1 - p.val) (enumWords (if up then 3 else 2) 0 pos.val 0 0 0 q.val 0 0) s1
          else s1)) ∧
    (isUp s .xbar → (∀ l, s.cfg.lastBeacon = some l → l + 100 * msU ≤ now.now) →
      let s1 := modCfg (fun x => { x with lastBeacon := some now.now }) now
      happens (.beaconTx t) [.free, .cfg, .frames] s (fun u =>
        u = [0, 1].foldl (fun acc p =>
          if portUp acc p then
            sendNext p 4 5 true (BitVec.ofNat 16 (s.fab.ring * 1024 + 1023)) false s.cfg.activeGen (beaconWords now) acc
          else acc) s1)) ∧
    (∀ b : Beacon, b.node ≠ myAddr s →
      happens (.beaconRx t b) [.cfg] s (fun u =>
        u.cfg = { s.cfg with
          beacons := upsert s.cfg.beacons (fun h => h.beacon.node == b.node) { beacon := b, at_ := now.now } }))

/-- R191, R271 to R284, R289, R291, R298, R316: frames. A frame that this node originates is sent by its class; one that
arrives with a bad header is counted invalid, one for a node without an address or for a reserved position is discarded
and counted, any other is routed. Records for this node are delivered, one copy of a dual-path frame only, and those for a
mirror target enter it; a stomped frame is counted, and so is a second copy. What waits goes out when the node may
originate, until it may not or nothing waits; records that have waited leave in an export frame; a source that has been
silent for 100 ms is forgotten. -/
def Obligations.FramesAreCarried : Prop :=
  ∀ (t : Time) (s : State),
    let now := tick t s
    let drains := fun (u : State) => u = releaseWaiting s.fab.waiting.length now ∧
      (mayOriginate u = false ∨ ∀ w ∈ u.fab.waiting, w.cls = 0 ∨ 3 < w.cls)
    (∀ (f : Frame) (res : Nat), isUp s .xbar →
      let h := hdrOf (f.flits.getD 0 0)
      let ws := (f.flits.drop 1).dropLast
      let comes := f.port ≤ 2 ∧ fabricLink now f.port = true ∧ (portOf s f.port).looped = false ∧
        (portOf s f.port).refused = false
      let goes := headerBad f h = false ∧ h.link = false ∧ (h.tc ≠ 4 ∨ h.kind = 5)
      let whole := headerBad f h = false ∧ trailerBad f = false ∧ payloadBad f = false
      (f.port = 3 → h.tc ≤ 3 →
        happens (.frameForward t f res) [.frames] s (fun u =>
          u = originate { frameFor h.tc h.kind h.dest h.gen ws with last := h.last } now)) ∧
      (f.port = 3 → 3 < h.tc →
        happens (.frameForward t f res) [.free, .frames] s (fun u =>
          u = sendSingle h.tc h.kind h.dest h.gen h.last ws now)) ∧
      (comes → headerBad f h →
        happens (.frameForward t f res) [.fab] s (fun u => u.fab = { s.fab with invalid := s.fab.invalid + 1 })) ∧
      (comes → goes → s.fab.noAddress → h.tc < 4 →
        happens (.frameForward t f res) [.frames] s (fun u =>
          u.fab = { s.fab with discards := s.fab.discards.modify h.tc (· + 1) })) ∧
      (comes → goes → whole → s.fab.noAddress = false → h.tc ≤ 7 → 1000 ≤ addrPos h.dest → addrPos h.dest < 1023 →
        happens (.frameForward t f res) [.frames] s (fun u =>
          u.fab = { s.fab with discards := s.fab.discards.modify h.tc (· + 1) })) ∧
      (comes → goes → (s.fab.noAddress = false ∨ h.tc = 4) →
        happens (.frameForward t f res) [.free, .host, .daq, .fab, .frames, .eth, .oper] s (fun u =>
          u = routeFrame f h res now)) ∧
      (∀ mark, whole → h.kind = 1 → h.link = false → h.tc = 2 →
        happens (.recordsFrameRx t f mark) [.free, .host, .daq, .fab, .eth, .basin, .oper, .mems, .frames] s (fun u =>
          u = acceptDual h f now)) ∧
      (∀ mark, whole → h.kind = 1 → h.link = false → h.tc ≠ 2 →
        happens (.recordsFrameRx t f mark) [.free, .host, .daq, .fab, .eth, .basin, .oper, .mems, .frames] s (fun u =>
          u = deliverRecords f now)) ∧
      (∀ g mark, whole → h.kind = 1 → h.link = true → mirrorTarget s h.tc = some g →
        happens (.recordsFrameRx t f mark) [.free, .host, .daq, .fab, .eth, .basin, .oper, .mems, .frames] s (fun u =>
          u = takeMark g mark (takeMirror g h.gen h.src ws now))) ∧
      (∀ mark w, whole → h.kind = 1 → h.link = false → h.tc = 2 → winOf now false h.src = some w → w.h = h.seq →
        happens (.recordsFrameRx t f mark) [.fab] s (fun u => u.fab.duplicates = s.fab.duplicates + 1)) ∧
      (∀ mark, headerBad f h = false → h.kind = 1 → (trailerBad f ∨ payloadBad f) →
        happens (.recordsFrameRx t f mark) [.fab] s (fun u =>
          u = noteStomp (min f.port 2) h.tc (!alreadyStomped f) now)) ∧
      (whole → h.kind = 0 → h.tc = 1 →
        happens (.dataFrameRx t f) [.host, .daq, .fab, .eth, .oper, .frames] s (fun u => u = acceptDual h f now)) ∧
      (∀ w, whole → h.kind = 0 → h.tc = 1 → winOf now false h.src = some w → w.h = h.seq →
        happens (.dataFrameRx t f) [.fab] s (fun u => u.fab.duplicates = s.fab.duplicates + 1))) ∧
    (∀ (src : BitVec 16) (o : SrcOrder), orderOf s src = some o →
      happens (.reorderHoldExpiry t src) [.host, .daq, .fab, .eth, .oper, .frames] s (fun u =>
        u = expireHeld src o.held.length now ∧
          ((∀ x ∈ o.held, now.now < x.arrived + holdTime o now.now) → u.fab = s.fab))) ∧
    (∀ src : BitVec 16,
      happens (.sourceForget t src) [.fab] s (fun u =>
        ∀ w, w ∈ u.fab.wins ↔ w ∈ s.fab.wins ∧ ¬ (w.src = src ∧ w.last + 100 * msU ≤ now.now))) ∧
    (s.fab.holdUntil ≤ now.now → happens (.originationHoldEnd t) [.frames, .eth] s drains) ∧
    happens (.originationLimitRelease t) [.frames, .eth] s drains ∧
    (∀ g : Fin 10, happens (.exportFrameClose t g) [.free, .daq, .frames] s (fun u =>
        u = (exportNodes s g.val).foldl (fun acc n => closeExport false g.val n acc) now)) ∧
    ((∀ a, now.now ≤ a + msU → origCount s a < 300) →
      happens (.limiterExtensionEnd t) [.frames] s (fun u => u.fab = { s.fab with extended := false }))

/-- R298, R300, R301, R303, R339: what other nodes ask and answer. A part of an image is kept, and the last one ends its
transfer; a request is executed as the agent FABRIC; a response ends the command that waits for it, and none within 1 s
ends it with `TIMEOUT`; the neighbour of a node that differs sends it the ring's image, which that node commits. -/
def Obligations.NodesServeEachOther : Prop :=
  ∀ (t : Time) (s : State),
    let now := tick t s
    (∀ (gen : BitVec 16) (off : Nat) (ws : List Word) (last : Bool) (dig : BitVec 64), s.mgmt.run → isUp s .xbar →
      allowed s 0x0201 .fabric → (off ≠ 0 ∨ isRingImage s gen.toNat dig = false) →
      happens (.configFrameRx t gen off ws last dig) [.free, .host, .time, .daq, .pwr, .clk, .therm, .cfg, .line, .fab,
        .eth, .basin, .oper, .frames] s (fun u =>
        u = if last then finishTransfer gen.toNat dig (takePart gen.toNat dig off ws now)
          else takePart gen.toNat dig off ws now)) ∧
    (∀ (src : BitVec 16) (rq : Request) (op : BitVec 16), isUp s .xbar → s.mgmt.run →
      happens (.mgmtReqRx t src true op rq) [.frames] s (fun u =>
        u = sendDual {
          dest := src, src := myAddr s, tc := 3, kind := 3, seq := rq.seq.toNat % 65536, gen := s.cfg.activeGen
          lenM1 := 0, hop := 1022, westward := false, link := false, xring := false, last := true } [] now)) ∧
    (∀ (src : BitVec 16) (rq : Request),
      let rq1 : Request := { rq with agent := .fabric, srcNode := src, bell := rq.seq, arrival := now.now, remote := none }
      isUp s .xbar → s.mgmt.run →
      (∀ c ∈ [((0x1003 : BitVec 16), Instr.chanStatus t rq1), (0x2001, .timeGetTime t rq1), (0x2002, .timeStatus t rq1),
          (0x2005, .timeSelectDomain t rq1), (0x5201, .thermConfig t rq1), (0x4008, .basinStatus t rq1)],
        exec (.mgmtReqRx t src false c.1 rq) s = exec c.2 now) ∧
      (runs 0x2001 0 0 t rq1 s →
        completes (.mgmtReqRx t src false 0x2001 rq) 0x2001 rq1 [snap now, mkWord (utcFields s)] [] s (fun _ => True))) ∧
    (∀ (m : Fin 16) (seq : BitVec 32) (p : RemotePending), s.mgmt.run → isUp s .xbar → remoteOn s m.val (some seq) = some p →
      ∀ status words, happens (.mgmtRspRx t m seq status words) [.mailboxes, .mgmt, .frames, .journal] s (fun u =>
        u = remoteEnds p status words now)) ∧
    (∀ (m : Fin 16) (p : RemotePending), s.mgmt.run → remoteOn s m.val none = some p → p.sentAt + secU ≤ now.now →
      happens (.remoteCommandTimeout t m) [.mailboxes, .mgmt, .frames, .journal] s (fun u =>
        u = remoteEnds p stTimeout [] now)) ∧
    (∀ (node : BitVec 16) (img : Image) (h : HeardBeacon), s.cfg.active = some img → h ∈ s.cfg.beacons →
      h.beacon.node = node → now.now ≤ h.at_ + 300 * msU → activeDiff (ringHere now) h.beacon → s.mgmt.run →
      unanchored now = false → ownRing s node → isCatchupNeighbour now (addrPos node) → ownGen s = ringHere now →
      happens (.catchupTrigger t node) [.frames] s (fun u => u = sendImage img node now)) ∧
    (∀ (a : Commit) (img : Image), s.cfg.armed = some a → a.catchup → a.time ≤ tbNow now → s.mgmt.run →
      s.pwr.sagWarn = false → s.cfg.staged = some img →
      happens (.catchupCommit t) [.free, .host, .time, .daq, .pwr, .clk, .therm, .cfg, .line, .fab, .frames, .eth,
        .basin, .oper, .nv, .journal] s (fun u =>
        u = emitNow 0x0202 1 a.gen [] (commitSwitch img 6 (modCfg (fun x => { x with armed := none }) now)))) ∧
    (∀ a : Commit, s.cfg.armed = some a → a.catchup → a.time ≤ tbNow now → s.mgmt.run → s.pwr.sagWarn →
      happens (.catchupCommit t) [.free, .host, .time, .daq, .pwr, .clk, .therm, .cfg, .line, .fab, .frames, .eth,
        .basin, .oper, .nv, .journal] s (fun u =>
        u = commitResult 5 a.gen [] (modCfg (fun x => { x with armed := none }) now)))

/-- R208, R295, R296: the Ethernet ports. A good frame of 64 to 8,144 bytes on a bridging port is bridged, any other is
discarded and counted; a change of the link raises event 0x3301; an address that has not been seen for 300 s is forgotten.
-/
def Obligations.EthernetPortsBridge : Prop :=
  ∀ (t : Time) (p : Fin 2) (s : State),
    let now := tick t s
    let e := ethOf s p.val
    let s1 := modEth p.val (fun e => { e with framesIn := satAdd 64 e.framesIn 1 }) now
    let serves := isUp s .ethm = true ∧ e.enable = true ∧ e.link = true ∧ loopFree s (3 + p.val) = true ∧ e.bridge = true
    let role := (s.time.ptp.getD p.val default).role
    (∀ (n : Nat) (ptp : Bool) (ws : List Word) (fabric : Bool), serves → 64 ≤ n → n ≤ 8144 →
      (ptp = false ∨ (role ≠ 1 ∧ role ≠ 2)) → s.eth.groups.getD e.group none = some fabric →
      happens (.ethmFrameRx t p n true false ptp ws) [.frames, .eth] s (fun u =>
        u = bridgeFrame p.val n (ptp && role == 3) ws fabric s1)) ∧
    (∀ (n : Nat) (ws : List Word), serves → 64 ≤ n → n ≤ 8144 → (role = 1 ∨ role = 2) →
      happens (.ethmFrameRx t p n true false true ws) [.frames, .eth] s (fun u => u = s1)) ∧
    (∀ (n : Nat) (ok pause ptp : Bool) (ws : List Word), serves → (ok = false ∨ n < 64 ∨ 8144 < n) →
      happens (.ethmFrameRx t p n ok pause ptp ws) [.frames, .eth] s (fun u =>
        u = modEth p.val (fun e => { e with fcsDiscards := satAdd 64 e.fcsDiscards 1 }) s1)) ∧
    (∀ (n : Nat) (ptp : Bool) (ws : List Word), serves → 64 ≤ n → n ≤ 8144 →
      happens (.ethmFrameRx t p n true true ptp ws) [.frames, .eth] s (fun u => u = s1)) ∧
    (∀ up : Bool, isUp s .ethm → (up → e.enable) → e.link ≠ up →
      happens (.ethmLinkChange t p up) [.eth] s (fun u =>
        u = emitNow 0x3301 p.val (b2n up) [] (modEth p.val (fun e => { e with link := up }) now))) ∧
    (∀ (g : Fin 16) (mac : BitVec 48),
      happens (.macAgeing t g mac) [.eth] s (fun u =>
        ∀ x, x ∈ u.eth.macs ↔ x ∈ s.eth.macs ∧ ¬ (x.group = g.val ∧ x.mac = mac ∧ x.seen + 300 * secU ≤ now.now)))

/-- R307, R310, R316, R319, R322: the basin and the operators at work. The oldest record that waits for a segment enters
it; a post-trigger segment without records for 1 s of timebase freezes; a mirror target whose origin is silent for 100 ms
freezes with event 0x4002; a record enters an operator; what is missing after the hold time is counted lost. -/
def Obligations.BasinAndOperatorsWork : Prop :=
  ∀ (t : Time) (s : State),
    let now := tick t s
    (∀ (g : Fin 1024) (q : DestQueue) (r : QRec), isUp s .basin → s.basin.ready → nextFor s (.basin g.val) = some (q, r) →
      happens (.basinRecordWrite t g) [.free, .daq, .basin, .mems, .frames] s (fun u =>
        u = arrive g.val r (putQueue { q with recs := q.recs.drop 1 } now))) ∧
    (∀ g : Fin 1024, (segOf s g.val).state = .postTrigger → postEnd (segOf s g.val) < tbNow now →
      (segOf s g.val).lastWrite + secU ≤ tbNow now →
      happens (.segmentIdleFreeze t g) [.basin] s (fun u => u = freezeNow g.val false now)) ∧
    (∀ (g : Fin 1024) (l : Time), (segOf s g.val).target →
      ((segOf s g.val).state = .recording ∨ (segOf s g.val).state = .postTrigger) →
      (segOf s g.val).lastMirror = some l → l + 100 * msU ≤ now.now →
      happens (.mirrorOriginLost t g) [.basin] s (fun u =>
        u = emitNow 0x4002 0 g.val
          [BitVec.ofNat 128 (match spanOfTimes (heldTimes now g.val) with | some x => t96 x.2 | none => 0)]
          (modSeg g.val (fun x => { x with state := .frozen }) now))) ∧
    (∀ (n : Fin 32) (i : Nat) (r : QRec) (rest : List (Nat × QRec)), isUp s .oper → (operOf s n.val).run = .running →
      (operOf s n.val).inq = (i, r) :: rest →
      happens (.operatorInput t n) [.free, .host, .daq, .basin, .oper, .frames] s (fun u =>
        u = opTake n.val i r (modOper n.val (fun o => { o with inq := rest }) now))) ∧
    (∀ (n : Fin 32) (k : OpCfg) (a : List Int) (b : Int) (r : OpRec),
      let o := operOf s n.val
      let there := o.buf.filter (fun x => x.time == r.time)
      o.cfg = some k → k.kind = .combine a b →
      earliest (o.buf.filter (fun r => decide (r.arrived + k.holdUs * usU ≤ now.now))) = some r →
      happens (.operatorHoldExpiry t n) [.daq, .oper] s (fun u =>
        u = gapAt k.outBase (subDests k.sub ++ (List.range 32).map Dest.oper) (modOper n.val (fun o => { o with
          buf := o.buf.filter (fun x => x.time != r.time), lost := o.lost + (k.inputs.length - there.length) }) now)))

/-- R427, R430 to R434, R443, R444, R471: the memories and the NV store in time. The scrubber goes to the next word; a
good word is no longer watched, one bad bit of a byte is corrected, two are not; a tag that does not match is counted; a
soft repair that has been copied is in use, and waits in the queue for a fuse; the write counts are stored hourly, old
regions are refreshed, and the rollback fuses follow the image that has run 600 s. -/
def Obligations.MemoriesAndStoreAge : Prop :=
  ∀ (t : Time) (m : Fin 3) (s : State),
    let now := tick t s
    let n := (memOf s m.val).scrub
    let s1 := modMem m.val (fun x => { x with scrub := (n + 1) % memWords m.val }) now
    happens (.scrubWord t m [] true) [.free, .basin, .mems, .tagMismatch] s (fun u =>
      u = modMem m.val (fun x => { x with watch := x.watch.filter (· != n) }) s1) ∧
    (m.val ≠ 2 → happens (.scrubWord t m [1] true) [.free, .basin, .mems, .tagMismatch] s (fun u =>
      u = correctedWord m.val n s1)) ∧
    happens (.scrubWord t m [2] true) [.free, .basin, .mems, .tagMismatch] s (fun u =>
      u = modMem m.val (fun x => { x with watch := x.watch.filter (· != n) }) (badWord m.val n s1)) ∧
    (∀ bits, m.val = 1 →
      happens (.scrubWord t m bits false) [.free, .basin, .mems, .tagMismatch] s (fun u =>
        u = badWord 1 n (memEvent 5 1 n { s1 with tagMismatch := satAdd 64 s.tagMismatch 1 }))) ∧
    (∀ (row : Nat) (r : Repair), (memOf s m.val).copying.find? (fun r => r.row == row) = some r →
      happens (.softRepairComplete t m row) [.mems, .softRepairs, .repairQueue, .nv] s (fun u =>
        u.softRepairs = satAdd 32 s.softRepairs 1 ∧
        u.repairQueue = upsert s.repairQueue (fun y => y.mem == m.val && y.row == row)
          { mem := m.val, row := row, spare := r.spare, firstSeen := r.seen } ∧
        u.mems = (modMem m.val (fun x => { x with
          copying := x.copying.filter (fun y => y.row != row), repairs := upsert x.repairs (fun y =>
            y.row == row) r }) s).mems ∧
        (s.mgmt.run → s.pwr.sagWarn = false → u.nv.repairTable = u.repairQueue))) ∧
    (s.mgmt.run → s.pwr.sagWarn = false → s.nv.lastCountStore + 3600 * secU ≤ now.now →
      happens (.nvWriteCountStore t) [.free, .nv, .journal] s (fun u =>
        u.nv.storedWrites = s.nv.storedWrites + s.nv.writesSince ∧ u.nv.writesSince = 0 ∧ u.nv.lastCountStore = now.now)) ∧
    (s.mgmt.run → s.pwr.sagWarn = false → s.time.everLocked → (∀ a, s.nv.lastRefreshCheck = some a →
      a + 86400 * secU ≤ now.now) →
      happens (.nvRefreshCheck t) [.nv, .journal] s (fun u =>
        u.nv.lastRefreshCheck = some now.now ∧ u.nv.refreshed.length = s.nv.refreshed.length ∧
        ∀ i < 7, i < s.nv.refreshed.length → u.nv.refreshed.getD i 0 =
          if s.nv.refreshed.getD i 0 + fiveYears ≤ tbNow now / secU then tbNow now / secU % 2 ^ 48
          else s.nv.refreshed.getD i 0)) ∧
    (s.mgmt.run → standbyUp s → s.pwr.sagWarn = false → s.mgmt.since + 600 * secU ≤ now.now → rollbackCount now < s.mgmt.sv →
      happens (.rollbackAdvance t) [.fuses] s (fun u =>
        u.fuses = { s.fuses with rollback := s.fuses.rollback ||| BitVec.ofNat 64 (2 ^ (min s.mgmt.sv 64) - 1) }))

/-- R15, R395, R396, R454: what ends an island's reset and a change of its gate. The island resets and runs again, and
each partner of an open handshake counts its abort; with its ports idle the island is gated, otherwise its ports run again
and the command answers `BUSY` with `GATE_DENIED`; an opened gate's island runs, and the command answers `OK`. -/
def Obligations.IslandsReturn : Prop :=
  ∀ (t : Time) (s : State), s.islands.length = 21 →
    let now := tick t s
    let names := fun (p : Nat → Bool) (r : Running) => r.opcode.toNat == 0x5003 && r.holds.any (fun h =>
      match h with | .island n => p n | _ => false)
    let code := fun (r : Running) => (r.holds.filterMap (fun h => match h with | .island n => some n | _ => none)).headD 0
    (∀ (n : Nat) (k : List (Fin 21)) (r : Running), runningIsland s 0x0104 = some (r, n) →
      happens (.islandResetDrainEnd t k) ([.free, .islands, .host, .time, .daq, .clk, .line, .fab, .eth, .basin,
        .diag] ++ answering) s (fun u =>
        u = endLong r.agent r.srcNode r.seq stOk 1 (islandUp (resetIsland (n - 32))
          (islandDown false (resetIsland (n - 32)) .inReset (k.foldl abortShake now))) ∧
        (islandOf u (resetIsland (n - 32))).phase = .run)) ∧
    (∀ r : Running, s.mgmt.running.find? (names (fun n => decide (n < 16))) = some r →
      happens (.gateCloseDrainEnd t true) ([.free, .islands, .host, .time, .daq, .clk, .line, .fab, .eth, .basin,
        .diag] ++ answering) s (fun u =>
        u = endWith r.agent r.srcNode r.seq stOk 1 [0, 0] (gateClosed (code r) now) ∧
        (code r ≠ 10 → code r ≠ 11 → (islandOf u (gateIsland (code r))).phase = .gated)) ∧
      happens (.gateCloseDrainEnd t false) ([.free, .islands, .host, .time, .daq, .clk, .line, .fab, .eth, .basin,
        .diag] ++ answering) s (fun u =>
        u = endWith r.agent r.srcNode r.seq stBusy 0 [0, 1]
          (if code r = 10 ∨ code r = 11 then now else setPhase now (gateIsland (code r)) .run) ∧
        (code r ≠ 10 → code r ≠ 11 → (islandOf u (gateIsland (code r))).phase = .run))) ∧
    (∀ r : Running, s.mgmt.running.find? (names (fun n => decide (16 ≤ n))) = some r →
      happens (.gateOpenDone t) ([.islands, .daq, .clk, .fab, .basin] ++ answering) s (fun u =>
        u = endWith r.agent r.srcNode r.seq stOk 1 [0, 0] (gateOpened (code r - 16) now) ∧
        isUp u (gateIsland (code r - 16)) = true))

/-- R8, R29, R315, R328 to R330, R334, R336, R342 to R344: what the host and SPI do to HOSTIF while it runs. A doorbell
rings a mailbox, or is a protocol error while the mailbox is pending; writes of ones clear; counts that clear on a read
are read; the window of BAR2 reads the basin, all ones where a word is bad, and discards writes; the event queue goes on
as the host consumes it, and signals after its time; a link that is lost aborts the channels. -/
def Obligations.HostAccessesActAtOnce : Prop :=
  ∀ (t : Time) (s : State), isUp s .hostif →
    let now := tick t s
    let h := s.host
    (∀ (n : Fin 16) (v : BitVec 32) (spi : Bool), (spi → n.val = 15) →
      ((h.mbox.getD n.val default).pending = false →
        happens (.doorbell t n v spi) [.mailboxes] s (fun u =>
          u.host.mbox = h.mbox.modify n.val (fun m => { m with
            done := false, pending := true, bell := v, arrival := now.now, viaSpi := spi }))) ∧
      ((h.mbox.getD n.val default).pending → happens (.doorbell t n v spi) [.host] s (fun u =>
          u.host = { h with protoErr := satAdd 16 h.protoErr 1 }))) ∧
    (∀ (off : Nat) (v : BitVec 32),
      (off % 4 = 0 → happens (.registerWrite t off v) [.host, .mailboxes] s (fun u => u = writeReg false off v now)) ∧
      (off % 4 ≠ 0 → happens (.registerWrite t off v) [.host] s (fun u =>
        u.host = { h with protoErr := satAdd 16 h.protoErr 1 }))) ∧
    (∀ v : BitVec 32,
      happens (.registerWrite t 0x204 v) [.host] s (fun u => u.host = { h with intEnable := v.setWidth 20 }) ∧
      happens (.registerWrite t 0x208 v) [.host] s (fun u => u.host = { h with irqPinEn := v.getLsbD 0 }) ∧
      happens (.intStatusClear t v) [] s (fun u => u.host = { h with intStatus := h.intStatus &&& ~~~(v.setWidth 20) }) ∧
      happens (.nmiCauseClear t v) [.host] s (fun u => u.host = { h with nmiCause := h.nmiCause &&& ~~~(v.setWidth 5) }) ∧
      happens (.sagSeenClear t v) [.host] s (fun u =>
        u.host = { h with sagSeen := h.sagSeen &&& ~~~((v >>> 8).setWidth 8) }) ∧
      ∀ bad : List Nat, happens (.evqHeadWrite t v bad) [] s (fun u =>
        u = evqDrain (modHost (fun h => { h with evq := { h.evq with head := v.toNat % 65536 } }) (dropHeld bad now)))) ∧
    happens (.bar0InvalidAccess t) [.host] s (fun u => u.host = { h with protoErr := satAdd 16 h.protoErr 1 }) ∧
    happens (.protoErrRead t) [.host] s (fun u => u.host = { h with rcData := h.protoErr, protoErr := 0 }) ∧
    happens (.evqLostRead t) [.host] s (fun u => u.host = { h with rcData := h.evq.lost, evq := { h.evq with lost := 0 } }) ∧
    (∀ c : Fin 8, happens (.dmaDroppedRead t c) [.host] s (fun u =>
      u.host = { h with rcData := (dmaOf s c.val).dropped, dma := h.dma.modify c.val (fun d => { d with dropped := 0 }) })) ∧
    (∀ n : Fin 67108864,
      happens (.bar2Read t n) [.host, .free] s (fun u => ∀ k, segAt s (s.basin.window * 67108864 + n.val) = some k →
        u.host = if s.basin.badWords.contains k then { h with bar2Data := poison, bar2Poison := satAdd 64 h.bar2Poison 1 }
          else { h with bar2Data := readWord s.basin.cells k })) ∧
    happens (.bar2Write t) [.host] s (fun u => u.host = { h with bar2Discards := satAdd 64 h.bar2Discards 1 }) ∧
    (∀ (cmd : BitVec 32) (data : List (BitVec 32)),
      let r := spiFrames (cmd.getLsbD 31) (cmd.toNat % 2 ^ 24 / 4 * 4) (data.take (cmd.toNat / 2 ^ 24 % 128 + 1)) now
      happens (.spiTransaction t cmd data) [.host, .mailboxes] s (fun u =>
        u = modHost (fun h => { h with spiMiso := spiStatus now :: r.2.1, spiAddrErr := r.2.2 }) r.1)) ∧
    (∀ a, h.evq.firstUnsignalled = some a → h.evq.modTime ≠ 0 → a + h.evq.modTime * usU ≤ now.now →
      happens (.evqModTimer t) [] s (fun u =>
        u = msixIf 16 33 (modHost (fun h => { h with evq := { h.evq with
          unsignalled := 0, firstUnsignalled := none } }) now))) ∧
    (h.linkUp = false → happens (.pcieLinkChange t true) [.host] s (fun u =>
      u = evqDrain (msixFlush (modHost (fun h => { h with linkUp := true }) now)))) ∧
    (h.linkUp → happens (.pcieLinkChange t false) [.host] s (fun u =>
      u = linkLost (modHost (fun h => { h with linkUp := false }) now)))

/-- R193, R338, R347 to R350: the DMA channels. `PROD` wakes a starved channel; START and STOP fit their states; a channel
moves one word, or one buffer of the basin; it resumes at its bad word, or skips it with the poison record in its place; a
buffer of records closes when its time is over; a long command whose words are all delivered ends. -/
def Obligations.DmaChannelsMove : Prop :=
  ∀ (t : Time) (s : State), isUp s .hostif →
    let now := tick t s
    (∀ c : Fin 16,
      let d := dmaOf s c.val
      let put := fun (k : DmaCh) => { s.host with dma := s.host.dma.set c.val k }
      (∀ v : BitVec 32, happens (.dmaProdWrite t c v) [.host] s (fun u =>
        u.host = put (starve { d with prod := v.toNat % 65536 }))) ∧
      (ringChannel c.val → (d.state = .idle ∨ d.state = .stopped ∨ d.state = .aborted) →
        happens (.dmaStart t c) [.host] s (fun u => u.host = put (starve { d with state := .running }))) ∧
      (d.state ≠ .idle → d.state ≠ .stopped → d.state ≠ .aborted → happens (.dmaStart t c) [] s (fun _ => True)) ∧
      ((d.state = .running ∨ d.state = .starved ∨ d.state = .haltedUe) → d.buf = none →
        happens (.dmaStop t c) [.host] s (fun u => u.host = put { d with state := .stopped, badWord := none })) ∧
      (∀ w, d.state = .haltedUe → d.badWord = some w →
        happens (.dmaResume t c true) [.host] s (fun u => u = haltDma c.val w now) ∧
        happens (.dmaResume t c false) [.host] s (fun u => u = resumeWith c.val w false now) ∧
        (8 ≤ c.val → happens (.dmaResumeSkip t c) [.host] s (fun u => u = resumeWith c.val poison true now)) ∧
        (c.val < 8 → happens (.dmaResumeSkip t c) [.free, .host, .daq] s (fun u =>
          let s1 := { now with free := s.free + 1 }
          u = resumeWith c.val poison true (if Config.freeBool s.free then gapAtRing c.val s1 (d.badNode, recAddr w)
            else (ringAddrs s1 c.val).foldl (gapAtRing c.val) s1)))) ∧
      (ringChannel c.val → d.state = .running → s.host.linkUp → ∀ (desc : Word) (bad : Bool),
        happens (.dmaWrite t c desc bad) [.free, .host, .daq, .basin] s (fun u =>
          u = if 9 ≤ c.val ∧ c.val ≤ 12 then moveBasin c.val desc now else moveWord c.val desc bad now))) ∧
    (∀ (c : Fin 8) (b : DmaBuf), (dmaOf s c.val).buf = some b → (dmaOf s c.val).state = .running → s.host.linkUp →
      b.first + max 1 (dmaOf s c.val).flushUs * usU ≤ now.now →
      happens (.recBufferFlush t c) [.host] s (fun u => u = completeDesc c.val b .byTimer now)) ∧
    (∀ (a : Agent) (seq : BitVec 32) (r : Running) (st : BitVec 16) (n : Nat), s.mgmt.run →
      s.mgmt.running.find? (fun r => r.agent == a && r.seq == seq) = some r →
      (∀ e, (r.opcode = 0x4005 ∨ r.opcode = 0x4007) →
        s.basin.extracts.find? (fun e => e.seq == seq && e.agent == a && e.srcNode == r.srcNode) = some e →
        happens (.longCommandComplete t a seq st n) ([.free, .basin] ++ answering) s (fun u => u = finishExtract e now)) ∧
      (∀ c, (r.opcode = 0x5602 ∧ c = 13) ∨ (r.opcode = 0x5F03 ∧ c = 14) → (dmaOf s c).feed = [] → (dmaOf s c).badWord = none →
        happens (.longCommandComplete t a seq st n) ([.free, .basin] ++ answering) s (fun u =>
          u = endLong r.agent r.srcNode r.seq stOk 1 now)))

/-- R421, R445 to R448, R450, R458, R459: resets and starts. A power-on reset sets everything volatile to its reset value
and keeps what is stored; RESET_N low for 1 us or longer resets, shorter than 100 ns does not, and between them the manual
leaves it open; the start after its release runs the islands under the fuses as they stand; a warm reset keeps the time
and its settings; 1 ms after its command HIBERNATE gates every island but AON. -/
def Obligations.ResetsAndStarts : Prop :=
  ∀ (t : Time) (s : State), Whole s →
    let now := tick t s
    happens (.powerOnReset t) volatile s (fun u =>
      (∀ p ∈ volatile, p ≠ .now → p ≠ .out → p ≠ .aon → p.same State.reset u) ∧
        u.aon = { Reset.aon with coarseAt := now.now }) ∧
    (∀ ns : Nat, 1000 ≤ ns →
      happens (.resetNAssert t ns) volatile s (fun u =>
        (∀ i : Island, i ≠ .aon → isUp u i = false) ∧ u.mgmt = Reset.mgmt ∧ u.daq = Reset.daq ∧ u.pwr.resetNLow = true ∧
          u.aon.startDue = true ∧ u.aon.resetCause = if s.pwr.state = .hibernate then 5 else 2)) ∧
    (∀ ns : Nat, ns < 100 → happens (.resetNAssert t ns) [] s (fun _ => True)) ∧
    (∀ ns : Nat, 100 ≤ ns → ns < 1000 →
      happens (.resetNAssert t ns) (volatile ++ [.free]) s (fun u =>
        (Config.freeBool s.free = true → u.mgmt = Reset.mgmt ∧ u.aon.startDue = true) ∧
          (Config.freeBool s.free = false → Unchanged [.now, .free] s u))) ∧
    (∀ ok : Bool, s.pwr.resetNLow →
      happens (.resetNRelease t ok) [.pwr] s (fun u => u.pwr = { s.pwr with resetNLow := false, supplyHold := !ok })) ∧
    happens (.supplyRelease t) [.pwr] s (fun u => u.pwr = { s.pwr with supplyHold := false }) ∧
    (∀ env : StartEnv, s.aon.startDue → s.aon.thermalOff = false → s.pwr.resetNLow = false → s.pwr.supplyHold = false →
      happens (.coldStartRelease t env) [.free, .islands, .time, .pwr, .clk, .line, .fab, .mems, .repairQueue,
        .fuseShadow, .aon] s (fun u =>
        u.fuseShadow = s.fuses ∧ (∀ i ∈ startIslands, isUp u i) ∧ u.time.epoch = 0 ∧ u.time.stepLog = [] ∧
          u.aon.startDue = false ∧ u.aon.fromPor = false ∧ u.pwr.vctlConfirmed = env.vctlOk ∧
          u.pwr.op = if env.vctlOk then 0 else 3)) ∧
    (∀ (env : StartEnv) (d : Time), s.mgmt.warmDue = some d → d ≤ now.now →
      happens (.warmReset t env) (volatile ++ [.journal]) s (fun u =>
        u.time = { s.time with ptp := Reset.time.ptp, links := Reset.time.links } ∧ u.aon = { s.aon with resetCause := 3 } ∧
          u.softRepairs = s.softRepairs ∧ u.repairQueue = s.repairQueue ∧ u.daq = Reset.daq ∧
            u.line = Reset.line s.fuseShadow.laneCap ∧
          ∀ i ∈ startIslands, isUp u i = (i != .time || isUp s .time))) ∧
    (∀ d : Time, s.mgmt.hibernateDue = some d → d ≤ now.now →
      happens (.hibernateEntry t) volatile s (fun u =>
        u.pwr.state = .hibernate ∧ u.aon = { s.aon with loading := false, startDue := false } ∧
          ∀ i : Island, i ≠ .aon → isUp u i = false)) ∧
    (isUp s .basin → s.basin.ready = false →
      happens (.basinInitDone t) [.basin] s (fun u => u.basin = { s.basin with
        ready := true, segs := s.basin.segs.map (fun x => { x with gapAllBut := some [] }) })) ∧
    (isUp s .hostif →
      let mine : Running → Bool := fun r => r.ask.any (fun rq => rq.agent == .host && rq.mailbox.val != 15)
      let clean : State := { now with
        basin := { s.basin with window := 0 }
        host := { Reset.host with
          dma := s.host.dma.map dmaAborted, mbox := s.host.mbox.mapIdx (fun i m => if i = 15 then m else Reset.mailbox)
          spiAddrErr := s.host.spiAddrErr, spiMiso := s.host.spiMiso, linkUp := s.host.linkUp }
        mgmt := { s.mgmt with running := s.mgmt.running.map (fun r => if mine r then { r with mute := true } else r) } }
      happens (.hostReset t) [.free, .host, .mailboxes, .commands, .fab, .frames, .basin, .diag] s (fun u =>
        u = checkLinks (loopsOff [0, 1, 2, 3, 4] clean)))

/-- R401, R406, R407: sags. A warning on a rail sets `SAG_NOW` and `SAG_SEEN`, asserts SAGWARN_N with vector 34 at the
first rail, and raises event 0x5101; commands that have waited 100 ms are answered `SUPPLY_LIMIT`; when it clears what
waited goes on; rails below their reset thresholds reset the device. -/
def Obligations.SagsAreAnswered : Prop :=
  ∀ (t : Time) (s : State),
    let now := tick t s
    (∀ rail : Fin 8, isUp s .hostif → s.mgmt.run → s.pwr.sagNow.getLsbD rail.val = false →
      let seen := modHost (fun h => { h with sagSeen := setBit h.sagSeen rail.val true })
        (modPwr (fun p => { p with sagNow := setBit p.sagNow rail.val true }) now)
      (s.pwr.sagWarn → happens (.sagWarning t rail) [.host, .pwr] s (fun u => u = emitNow 0x5101 rail.val 1 [] seen)) ∧
      (s.pwr.sagWarn = false → s.pwr.change = none →
        happens (.sagWarning t rail) [.host, .pwr] s (fun u =>
          u = emitNow 0x5101 rail.val 1 [] (msixIf 18 34 (setInt 18
            (modPwr (fun p => { p with sagWarn := true, sagSince := now.now }) seen)))))) ∧
    (s.pwr.sagWarn → s.mgmt.run = false → s.pwr.opWanted = none →
      happens (.sagWarningClear t) [.pwr] s (fun u => u.pwr = { s.pwr with sagWarn := false, sagNow := 0 })) ∧
    (s.pwr.sagWarn → s.mgmt.run →
      happens (.sagWarningClear t) [.daq, .pwr, .oper, .nv, .journal] s (fun u =>
        u = opNext (storeQueue (flushStores ((bitsOf s.pwr.sagNow).foldl (fun acc r => emitNow 0x5101 r 0 [] acc)
          (modPwr (fun p => { p with sagWarn := false, sagNow := 0 }) now)))))) ∧
    (s.pwr.sagWarn → s.mgmt.run → s.pwr.sagSince + 100 * msU ≤ now.now →
      happens (.sagCommandTimeout t) answering s (fun u =>
        u = s.mgmt.waiting.foldl (fun acc w => refuse w.opcode.toNat w.rq stSupplyLimit (unpark w.rq acc)) now)) ∧
    (∀ rails : BitVec 8,
      let seen := if s.pwr.state = .hibernate then rails &&& 0x10#8 else rails
      seen ≠ 0 → s.pwr.supplyHold = false → s.aon.thermalOff = false →
      happens (.sagReset t rails) volatile s (fun u =>
        u.aon = { s.aon with loading := false, resetCause := 1, sagResetRails := seen, startDue := true } ∧
          u.mgmt = Reset.mgmt ∧ u.daq = Reset.daq))

/-- R331, R373, R374, R420, R448, R450, R452 to R454, R470: the management complex. A fault of a pair loses the staged
image; one of the active pair makes the standby take over, or both are lost; the new active pair resolves the interrupted
commands; a pair that has reloaded is the standby, or stays out if its self-test fails; a lost pair restarts at intervals
of 1 s, three times; an accepted image runs at a start, the preferred one first; SYS.RESET and SYS.LOAD_FIRMWARE act on
it. -/
def Obligations.ManagementRestarts : Prop :=
  ∀ (t : Time) (s : State),
    let now := tick t s
    let m := s.mgmt
    (∀ i ∈ [(Instr.mgmtFault t true false, 0), (.mgmtFault t true true, 1), (.watchdogExpiry t true, 2)],
      (pairOf s (1 - m.active)).state = .standby →
      happens i.1 [.mgmt, .daq, .tact, .cfg] s (fun u => u = modMgmt (fun m => { m with since := now.now })
        (modPair (1 - m.active) (fun p => { p with state := .reloading, attempts := 0 }) (dropStaged now)))) ∧
    (∀ i ∈ [(Instr.mgmtFault t false false, 0), (.mgmtFault t false true, 1), (.watchdogExpiry t false, 2)],
      (pairOf s m.active).state = .active → (pairOf s (1 - m.active)).state = .standby →
      happens i.1 [.host, .mgmt, .time, .daq, .tact, .cfg] s (fun u =>
        u = emitNow 0x0101 (1 - m.active) i.2 [] (raiseNmi 2 (modMgmt (fun x => { x with
          active := 1 - m.active, run := false, takeoverDue := true, since := now.now })
          (modPair m.active (fun p => { p with state := .reloading, attempts := 0 })
            (modPair (1 - m.active) (fun p => { p with state := .active, attempts := 0 }) (dropStaged now))))))) ∧
    ((pairOf s m.active).state = .active → (pairOf s (1 - m.active)).state ≠ .standby →
      happens (.watchdogExpiry t false) [.host, .mgmt, .time, .daq, .tact, .cfg] s (fun u =>
        u.cfg.staged = none ∧ u.cfg.armed = none ∧ u.mgmt.run = false ∧ u.mgmt.lost = true ∧ u.mgmt.takeoverDue = false)) ∧
    (∀ os : List OpenStep, m.takeoverDue →
      happens (.mgmtTakeover t os) ([.free, .islands, .host, .mgmt, .time, .tact, .daq, .pwr, .clk, .therm, .cfg,
        .line, .fab, .basin, .oper, .nv, .diag] ++ answering) s (fun u =>
        u = checkLevel (flushStores (storeQueue (restartEnds os (modMgmt (fun m => { m with
          run := true, takeoverDue := false, lost := false, since := now.now }) now)))))) ∧
    (∀ b : Bool, (pairOf s (b2n b)).state = .reloading → m.run →
      happens (.standbyReady t b true) [.mgmt] s (fun u =>
        u = if m.lost then modMgmt (fun m => { m with active := b2n b, lost := false, takeoverDue := true })
            (modPair (b2n b) (fun p => { p with state := .active, attempts := 0 }) now)
          else modPair (b2n b) (fun p => { p with state := .standby, attempts := 0 }) now) ∧
      happens (.standbyReady t b false) [.mgmt] s (fun u =>
        u = emitNow 0x0101 (b2n b + 2) 0 [] (modPair (b2n b) (fun p => { p with state := .out }) now))) ∧
    (∀ b : Bool, m.lost → (pairOf s (b2n b)).attempts < 3 → (pairOf s (b2n b)).lastAttempt + secU ≤ now.now →
      happens (.mgmtRestartAttempt t b) [.mgmt] s (fun u =>
        u = modPair (b2n b) (fun p => { p with
          state := .reloading, attempts := p.attempts + 1, lastAttempt := now.now }) now)) ∧
    (∀ a b : Bool, m.run = false → m.recovery = false → m.lost = false → m.takeoverDue = false → isUp s .hostif →
      bootable s s.nv.fwA a = false → bootable s s.nv.fwB b = false →
      happens (.bootImageVerify t a b) [.mgmt] s (fun u => u.mgmt = { m with recovery := true })) ∧
    (∀ a b : Bool, m.run = false → m.recovery = false → m.lost = false → m.takeoverDue = false → isUp s .hostif →
      s.nv.preferred ≠ 1 → bootable s s.nv.fwA a → s.pwr.vctlConfirmed →
      happens (.bootImageVerify t a b) [.free, .islands, .host, .mgmt, .time, .daq, .pwr, .clk, .therm, .cfg, .line,
        .fab, .eth, .basin, .oper, .nv, .journal, .frames] s (fun u =>
        u = if m.starting then startPlane (resolveJournal (runImage 0 s.nv.fwA now))
          else checkLevel (resolveJournal (runImage 0 s.nv.fwA now)))) ∧
    (∀ rq : Request, runs 0x0103 1 1 t rq s → onlyBits (qword rq 1) [(96, 32)] → fld (qword rq 1) 96 32 = 0x5128C0DE →
      completes (.sysReset t rq) 0x0103 rq [] [.mgmt] s (fun u =>
        u.mgmt.warmDue = some (max s.now t + msU))) ∧
    (∀ (rq : Request) (img : FwImage), runs 0x0105 1 1 t rq s → idle rq s → onlyBits (qword rq 1) [(0, 82)] →
      fld (qword rq 1) 64 17 ≠ 0 → fld (qword rq 1) 64 17 ≤ 98304 → fbit (qword rq 1) 81 = false → img.fetchOk →
      imageTrusted s img.keyHash img.signatureOk img.sv →
      finishes (.sysLoadFirmware t rq img) rq [.nv] s (fun u =>
        let x : FwSlot :=
          { valid := true, release := img.release, sv := img.sv, keyHash := img.keyHash, signatureOk := img.signatureOk }
        u.nv.preferred = inactiveImage s ∧ (if inactiveImage s = 0 then u.nv.fwA else u.nv.fwB) = x ∧
          (if inactiveImage s = 0 then u.nv.fwB = s.nv.fwB else u.nv.fwA = s.nv.fwA)))
end

