-- ==== Sys2Proof/Laws/Keep.lean ====
section
/-! SUPPORT. The two projections that the files Laws/Keep*.lean follow through every operation of the model: the queue, the
fuses and the clock (`State.kept`), and the parts list (`State.sizes`). -/

set_option maxRecDepth 4000

namespace Sys2Proof.Machine

/-- The queue, the fuses and the clock of a state: what no operation but a few named ones changes. -/
def State.kept (s : State) : List Instr × FuseBank × Time := (s.pending, s.fuses, s.now)
/-- What is kept after an outcome, or `d` after a stop. -/
def okept (d : List Instr × FuseBank × Time) (o : Outcome) : List Instr × FuseBank × Time := match o with | .next s => s.kept | _ => d
@[simp] theorem okept_next (d) (s : State) : okept d (.next s) = s.kept := rfl
@[simp] theorem okept_fault (d) (r : Fault) : okept d (.fault r) = d := rfl
@[simp] theorem okept_refused (d) (r : Refusal) : okept d (.refused r) = d := rfl
@[simp] theorem okept_ite (d) (c : Prop) [Decidable c] (a b : Outcome) : okept d (if c then a else b) = if c then okept d a else okept d b := by split <;> rfl
@[simp] theorem kept_ite (c : Prop) [Decidable c] (a b : State) : (if c then a else b).kept = if c then a.kept else b.kept := by split <;> rfl
@[simp] theorem st_ite (c : Prop) [Decidable c] (a b : Reply) : (if c then a else b).st = if c then a.st else b.st := by split <;> rfl
@[simp] theorem kept_eta (s : State) : (s.pending, s.fuses, s.now) = s.kept := rfl
@[simp] theorem kept_mk (p n f is ho mg ti ta da pw cl th cf li fa et ba op me tg so re nv fu fs ao di ou) : (State.mk p n f is ho mg ti ta da pw cl th cf li fa et ba op me tg so re nv fu fs ao di ou).kept = (p, fu, n) := rfl
@[simp] theorem foldl_kept {α : Type} (l : List α) (g : State → α → State) (s : State) (h : ∀ a x, (g a x).kept = a.kept) : (l.foldl g s).kept = s.kept := by
  induction l generalizing s with
  | nil => rfl
  | cons x l ih => simp [ih, h]
theorem foldl_fst_kept {α β : Type} (l : List α) (g : State × β → α → State × β) (p : State × β) (h : ∀ a x, (g a x).1.kept = a.1.kept) : (l.foldl g p).1.kept = p.1.kept := by
  induction l generalizing p with
  | nil => rfl
  | cons x l ih => simp [ih, h]
theorem foldl_snd_kept {α β : Type} (l : List α) (g : β × State → α → β × State) (p : β × State) (h : ∀ a x, (g a x).2.kept = a.2.kept) : (l.foldl g p).2.kept = p.2.kept := by
  induction l generalizing p with
  | nil => rfl
  | cons x l ih => simp [ih, h]

/-- The parts list after an outcome, or `d` after a stop. -/
def osizes (d : List (List Nat)) (o : Outcome) : List (List Nat) := match o with | .next s => s.sizes | _ => d
@[simp] theorem osizes_next (d) (s : State) : osizes d (.next s) = s.sizes := rfl
@[simp] theorem osizes_fault (d) (r : Fault) : osizes d (.fault r) = d := rfl
@[simp] theorem osizes_refused (d) (r : Refusal) : osizes d (.refused r) = d := rfl
@[simp] theorem osizes_ite (d) (c : Prop) [Decidable c] (a b : Outcome) : osizes d (if c then a else b) = if c then osizes d a else osizes d b := by split <;> rfl
@[simp] theorem sizes_ite (c : Prop) [Decidable c] (a b : State) : (if c then a else b).sizes = if c then a.sizes else b.sizes := by split <;> rfl
@[simp] theorem sizes_mk (p n f is ho mg ti ta da pw cl th cf li fa et ba op me tg so re nv fu fs ao di ou) : (State.mk p n f is ho mg ti ta da pw cl th cf li fa et ba op me tg so re nv fu fs ao di ou).sizes =
  [[is.length, op.length, me.length], [ho.mbox.length, ho.dma.length], [ti.dom.length, ti.asym.length, ti.ptp.length, ti.links.length],
   [ta.slots.length, ta.tev.length, ta.tcap.length], [da.chans.length, da.gens.length, da.groups.length, da.blank.length, da.calSet.length, da.coef.length, da.addrs.length],
   [pw.currents.length], [cl.plls.length, cl.counters.length], [th.sensors.length, th.zones.length], li.lanes.map List.length ++ li.slots.map List.length,
   [fa.ports.length], [et.ports.length, et.groups.length], [ba.segs.length], [nv.refreshed.length], [di.loopback.length]] := rfl
@[simp] theorem sizes_eta (s : State) : [[s.islands.length, s.oper.length, s.mems.length], [s.host.mbox.length, s.host.dma.length],
   [s.time.dom.length, s.time.asym.length, s.time.ptp.length, s.time.links.length], [s.tact.slots.length, s.tact.tev.length, s.tact.tcap.length],
   [s.daq.chans.length, s.daq.gens.length, s.daq.groups.length, s.daq.blank.length, s.daq.calSet.length, s.daq.coef.length, s.daq.addrs.length], [s.pwr.currents.length],
   [s.clk.plls.length, s.clk.counters.length], [s.therm.sensors.length, s.therm.zones.length], s.line.lanes.map List.length ++ s.line.slots.map List.length, [s.fab.ports.length], [s.eth.ports.length, s.eth.groups.length], [s.basin.segs.length], [s.nv.refreshed.length], [s.diag.loopback.length]] = s.sizes := rfl
@[simp] theorem modHost_sizes (f : HostSt → HostSt) (s : State) (h0 : ∀ x, (f x).mbox.length = x.mbox.length) (h1 : ∀ x, (f x).dma.length = x.dma.length) : (modHost f s).sizes = s.sizes := by
  simp only [modHost, State.sizes, h0, h1]
@[simp] theorem modTime_sizes (f : TimeSt → TimeSt) (s : State) (h0 : ∀ x, (f x).dom.length = x.dom.length) (h1 : ∀ x, (f x).asym.length = x.asym.length) (h2 : ∀ x, (f x).ptp.length = x.ptp.length) (h3 : ∀ x, (f x).links.length = x.links.length) : (modTime f s).sizes = s.sizes := by
  simp only [modTime, State.sizes, h0, h1, h2, h3]
@[simp] theorem modTact_sizes (f : TactSt → TactSt) (s : State) (h0 : ∀ x, (f x).slots.length = x.slots.length) (h1 : ∀ x, (f x).tev.length = x.tev.length) (h2 : ∀ x, (f x).tcap.length = x.tcap.length) : (modTact f s).sizes = s.sizes := by
  simp only [modTact, State.sizes, h0, h1, h2]
@[simp] theorem modDaq_sizes (f : DaqSt → DaqSt) (s : State) (h0 : ∀ x, (f x).chans.length = x.chans.length) (h1 : ∀ x, (f x).gens.length = x.gens.length) (h2 : ∀ x, (f x).groups.length = x.groups.length) (h3 : ∀ x, (f x).blank.length = x.blank.length) (h4 : ∀ x, (f x).calSet.length = x.calSet.length) (h5 : ∀ x, (f x).coef.length = x.coef.length) (h6 : ∀ x, (f x).addrs.length = x.addrs.length) : (modDaq f s).sizes = s.sizes := by
  simp only [modDaq, State.sizes, h0, h1, h2, h3, h4, h5, h6]
@[simp] theorem modClk_sizes (f : ClkSt → ClkSt) (s : State) (h0 : ∀ x, (f x).plls.length = x.plls.length) (h1 : ∀ x, (f x).counters.length = x.counters.length) : (modClk f s).sizes = s.sizes := by
  simp only [modClk, State.sizes, h0, h1]
@[simp] theorem modTherm_sizes (f : ThermSt → ThermSt) (s : State) (h0 : ∀ x, (f x).sensors.length = x.sensors.length) (h1 : ∀ x, (f x).zones.length = x.zones.length) : (modTherm f s).sizes = s.sizes := by
  simp only [modTherm, State.sizes, h0, h1]
@[simp] theorem modLine_sizes (f : LineSt → LineSt) (s : State) (h0 : ∀ x, (f x).lanes.map List.length = x.lanes.map List.length) (h1 : ∀ x, (f x).slots.map List.length = x.slots.map List.length) : (modLine f s).sizes = s.sizes := by
  simp only [modLine, State.sizes, h0, h1]
@[simp] theorem modFab_sizes (f : FabSt → FabSt) (s : State) (h : ∀ x, (f x).ports.length = x.ports.length) : (modFab f s).sizes = s.sizes := by
  simp only [modFab, State.sizes, h]
@[simp] theorem modBasin_sizes (f : BasinSt → BasinSt) (s : State) (h : ∀ x, (f x).segs.length = x.segs.length) : (modBasin f s).sizes = s.sizes := by
  simp only [modBasin, State.sizes, h]
@[simp] theorem modPwr_sizes (f : PwrSt → PwrSt) (s : State) (h : ∀ x, (f x).currents.length = x.currents.length) : (modPwr f s).sizes = s.sizes := by
  simp only [modPwr, State.sizes, h]
@[simp] theorem foldl_sizes {α : Type} (l : List α) (g : State → α → State) (s : State) (h : ∀ a x, (g a x).sizes = a.sizes) : (l.foldl g s).sizes = s.sizes := by
  induction l generalizing s with
  | nil => rfl
  | cons x l ih => simp [ih, h]
theorem foldl_fst_sizes {α β : Type} (l : List α) (g : State × β → α → State × β) (p : State × β) (h : ∀ a x, (g a x).1.sizes = a.1.sizes) : (l.foldl g p).1.sizes = p.1.sizes := by
  induction l generalizing p with
  | nil => rfl
  | cons x l ih => simp [ih, h]
theorem foldl_snd_sizes {α β : Type} (l : List α) (g : β × State → α → β × State) (p : β × State) (h : ∀ a x, (g a x).2.sizes = a.2.sizes) : (l.foldl g p).2.sizes = p.2.sizes := by
  induction l generalizing p with
  | nil => rfl
  | cons x l ih => simp [ih, h]
@[simp] theorem map_length_modify {α : Type} (l : List (List α)) (i : Nat) (g : List α → List α) (h : ∀ x, (g x).length = x.length) : (l.modify i g).map List.length = l.map List.length := by
  induction l generalizing i with
  | nil => cases i <;> rfl
  | cons x l ih => cases i <;> simp [List.modify_succ_cons, ih, h]
@[simp] theorem map_length_mapIdx {α : Type} (l : List (List α)) (g : Nat → List α → List α) (h : ∀ i x, (g i x).length = x.length) : (l.mapIdx g).map List.length = l.map List.length := by
  apply List.ext_getElem
  · simp
  · intro i h1 h2
    simp [h]
@[simp] theorem map_length_map {α : Type} (l : List (List α)) (g : List α → List α) (h : ∀ x, (g x).length = x.length) : (l.map g).map List.length = l.map List.length := by
  simp [h]
@[simp] theorem foldl_length {α β : Type} (l : List α) (g : List β → α → List β) (s : List β) (h : ∀ a x, (g a x).length = a.length) : (l.foldl g s).length = s.length := by
  induction l generalizing s with
  | nil => rfl
  | cons x l ih => simp [ih, h]
theorem reset_sizes : State.reset.sizes = partsList := by decide +kernel
theorem sizes_diag (s : State) (d : DiagSt) (h : d.loopback.length = s.diag.loopback.length) : ({ s with diag := d } : State).sizes = s.sizes := by
  simp only [State.sizes, h]
theorem sizes_mems {s : State} (h : s.sizes = partsList) : s.mems.length = 3 :=
  congrArg (fun l => (l.getD 0 []).getD 2 0) h
theorem sizes_refreshed {s : State} (h : s.sizes = partsList) : s.nv.refreshed.length = 7 :=
  congrArg (fun l => (l.getD 12 []).getD 0 0) h
theorem sizes_pwr (s : State) (p : PwrSt) (hs : s.sizes = partsList) (h : p.currents.length = 8) : ({ s with pwr := p } : State).sizes = partsList := by
  have h8 : s.pwr.currents.length = 8 := congrArg (fun l => (l.getD 5 []).getD 0 0) hs
  rw [← hs]
  simp only [State.sizes, h, h8]
theorem sizes_islands (s : State) (l : List IslandSt) (hs : s.sizes = partsList) (h : l.length = s.islands.length) : ({ s with islands := l } : State).sizes = partsList := by
  rw [← hs]
  simp only [State.sizes, h]
theorem sizes_line (s : State) (b : Bool) (hs : s.sizes = partsList) : ({ s with line := Reset.line b } : State).sizes = partsList := by
  have h8 : s.line.lanes.map List.length ++ s.line.slots.map List.length = (Reset.line b).lanes.map List.length ++ (Reset.line b).slots.map List.length := by
    have h9 : s.line.lanes.map List.length ++ s.line.slots.map List.length = [8, 8, 64, 64] := congrArg (fun l => l.getD 8 []) hs
    rw [h9]
    cases b <;> decide +kernel
  rw [← hs]
  simp only [State.sizes, h8]

end Sys2Proof.Machine
end

