-- ==== Sys2Proof/Laws/KeepOps.lean ====
section
/-! SUPPORT. What the operations of Base, Frame, Ops keep: one lemma each for `State.kept` and for `State.sizes`. -/

set_option maxRecDepth 4000

namespace Sys2Proof.Machine

/-! ### Base -/

@[simp] theorem modIsland_kept (s : State) (i : Island) (f : IslandSt → IslandSt) : (modIsland s i f).kept = s.kept := by
  unfold modIsland
  simp

@[simp] theorem setPhase_kept (s : State) (i : Island) (p : IslandPhase) : (setPhase s i p).kept = s.kept := by
  unfold setPhase
  simp

@[simp] theorem countDiscard_kept (s : State) (i : Island) : (countDiscard s i).kept = s.kept := by
  unfold countDiscard
  simp

@[simp] theorem arriveAt_kept (i : Island) (s : State) (f : State → Outcome) (h : okept s.kept (f s) = s.kept) : okept s.kept (arriveAt i s f) = s.kept := by
  unfold arriveAt
  split <;> simp [h]

@[simp] theorem emitOut_kept (o : Out) (s : State) : (emitOut o s).kept = s.kept := by
  unfold emitOut
  simp

@[simp] theorem modIsland_sizes (s : State) (i : Island) (f : IslandSt → IslandSt) : (modIsland s i f).sizes = s.sizes := by
  unfold modIsland
  simp

@[simp] theorem setPhase_sizes (s : State) (i : Island) (p : IslandPhase) : (setPhase s i p).sizes = s.sizes := by
  unfold setPhase
  simp

@[simp] theorem countDiscard_sizes (s : State) (i : Island) : (countDiscard s i).sizes = s.sizes := by
  unfold countDiscard
  simp

@[simp] theorem arriveAt_sizes (i : Island) (s : State) (f : State → Outcome) (h : osizes s.sizes (f s) = s.sizes) : osizes s.sizes (arriveAt i s f) = s.sizes := by
  unfold arriveAt
  split <;> simp [h]

@[simp] theorem emitOut_sizes (o : Out) (s : State) : (emitOut o s).sizes = s.sizes := by
  unfold emitOut
  simp

/-! ### Frame -/

@[simp] theorem modLine_kept (f : LineSt → LineSt) (s : State) : (modLine f s).kept = s.kept := by
  unfold modLine
  simp

@[simp] theorem modLane_kept (p : ℕ) (l : ℕ) (f : Lane → Lane) (s : State) : (modLane p l f s).kept = s.kept := by
  unfold modLane
  simp

@[simp] theorem modLineSlot_kept (p : ℕ) (i : ℕ) (f : Slot → Slot) (s : State) : (modLineSlot p i f s).kept = s.kept := by
  unfold modLineSlot
  simp

@[simp] theorem modFab_kept (f : FabSt → FabSt) (s : State) : (modFab f s).kept = s.kept := by
  unfold modFab
  simp

@[simp] theorem modPort_kept (p : ℕ) (f : FabPort → FabPort) (s : State) : (modPort p f s).kept = s.kept := by
  unfold modPort
  simp

@[simp] theorem countDiscardClass_kept (c : ℕ) (s : State) : (countDiscardClass c s).kept = s.kept := by
  unfold countDiscardClass
  simp

@[simp] theorem modEgress_kept (p : ℕ) (f : Egress → Egress) (s : State) : (modEgress p f s).kept = s.kept := by
  unfold modEgress
  simp

@[simp] theorem toPort_kept (p : ℕ) (c : ℕ) (len : ℕ) (up : Bool) (leave : ℕ → Out) (s : State) : (toPort p c len up leave s).kept = s.kept := by
  unfold toPort
  simp

@[simp] theorem clearEgress_kept (p : ℕ) (s : State) : (clearEgress p s).kept = s.kept := by
  unfold clearEgress
  simp

@[simp] theorem sendDual_kept (h : Hdr) (words : List Word) (s : State) : (sendDual h words s).kept = s.kept := by
  unfold sendDual
  simp

@[simp] theorem sendSingle_kept (tc : ℕ) (kind : ℕ) (dest : BitVec 16) (gen : ℕ) (last : Bool) (words : List Word) (s : State) : (sendSingle tc kind dest gen last words s).kept = s.kept := by
  unfold sendSingle
  split <;> simp

@[simp] theorem sendNext_kept (p : ℕ) (tc : ℕ) (kind : ℕ) (up : Bool) (dest : BitVec 16) (link : Bool) (gen : ℕ) (words : List Word) (s : State) : (sendNext p tc kind up dest link gen words s).kept = s.kept := by
  unfold sendNext
  simp

@[simp] theorem admitFrame_kept (w : WaitFrame) (s : State) : (admitFrame w s).kept = s.kept := by
  unfold admitFrame
  simp

@[simp] theorem originate_kept (w : WaitFrame) (s : State) : (originate w s).kept = s.kept := by
  unfold originate
  simp

@[simp] theorem releaseWaiting_kept (a : ℕ) (x1 : State) : (releaseWaiting a x1).kept = x1.kept := by
  induction a generalizing x1 with
  | zero => rfl
  | succ n ih =>
    unfold releaseWaiting
    split
    · rfl
    · split
      · rfl
      · rw [ih]; simp

@[simp] theorem modLane_sizes (p : ℕ) (l : ℕ) (f : Lane → Lane) (s : State) : (modLane p l f s).sizes = s.sizes := by
  unfold modLane
  simp

@[simp] theorem modLineSlot_sizes (p : ℕ) (i : ℕ) (f : Slot → Slot) (s : State) : (modLineSlot p i f s).sizes = s.sizes := by
  unfold modLineSlot
  simp

@[simp] theorem modPort_sizes (p : ℕ) (f : FabPort → FabPort) (s : State) : (modPort p f s).sizes = s.sizes := by
  unfold modPort
  simp

@[simp] theorem countDiscardClass_sizes (c : ℕ) (s : State) : (countDiscardClass c s).sizes = s.sizes := by
  unfold countDiscardClass
  simp

@[simp] theorem modEgress_sizes (p : ℕ) (f : Egress → Egress) (s : State) : (modEgress p f s).sizes = s.sizes := by
  unfold modEgress
  simp

@[simp] theorem toPort_sizes (p : ℕ) (c : ℕ) (len : ℕ) (up : Bool) (leave : ℕ → Out) (s : State) : (toPort p c len up leave s).sizes = s.sizes := by
  unfold toPort
  simp

@[simp] theorem clearEgress_sizes (p : ℕ) (s : State) : (clearEgress p s).sizes = s.sizes := by
  unfold clearEgress
  simp

@[simp] theorem sendDual_sizes (h : Hdr) (words : List Word) (s : State) : (sendDual h words s).sizes = s.sizes := by
  unfold sendDual
  simp

@[simp] theorem sendSingle_sizes (tc : ℕ) (kind : ℕ) (dest : BitVec 16) (gen : ℕ) (last : Bool) (words : List Word) (s : State) : (sendSingle tc kind dest gen last words s).sizes = s.sizes := by
  unfold sendSingle
  split <;> simp

@[simp] theorem sendNext_sizes (p : ℕ) (tc : ℕ) (kind : ℕ) (up : Bool) (dest : BitVec 16) (link : Bool) (gen : ℕ) (words : List Word) (s : State) : (sendNext p tc kind up dest link gen words s).sizes = s.sizes := by
  unfold sendNext
  simp

@[simp] theorem admitFrame_sizes (w : WaitFrame) (s : State) : (admitFrame w s).sizes = s.sizes := by
  unfold admitFrame
  simp

@[simp] theorem originate_sizes (w : WaitFrame) (s : State) : (originate w s).sizes = s.sizes := by
  unfold originate
  simp

@[simp] theorem releaseWaiting_sizes (a : ℕ) (x1 : State) : (releaseWaiting a x1).sizes = x1.sizes := by
  induction a generalizing x1 with
  | zero => rfl
  | succ n ih =>
    unfold releaseWaiting
    split
    · rfl
    · split
      · rfl
      · rw [ih]; simp

/-! ### Ops -/

@[simp] theorem modHost_kept (f : HostSt → HostSt) (s : State) : (modHost f s).kept = s.kept := by
  unfold modHost
  simp

@[simp] theorem msix_kept (v : ℕ) (s : State) : (msix v s).kept = s.kept := by
  unfold msix
  simp

@[simp] theorem setInt_kept (k : ℕ) (s : State) : (setInt k s).kept = s.kept := by
  unfold setInt
  simp

@[simp] theorem msixIf_kept (k : ℕ) (v : ℕ) (s : State) : (msixIf k v s).kept = s.kept := by
  unfold msixIf
  simp

@[simp] theorem raiseNmi_kept (k : ℕ) (s : State) : (raiseNmi k s).kept = s.kept := by
  unfold raiseNmi
  simp

@[simp] theorem evqSignal_kept (s : State) : (evqSignal s).kept = s.kept := by
  unfold evqSignal
  simp

@[simp] theorem evqDrain_kept (s : State) : (evqDrain s).kept = s.kept := by
  unfold evqDrain
  simp

@[simp] theorem emit_kept (code : ℕ) (argB : ℕ) (arg : ℕ) (extra : List Word) (tb : ℕ) (s : State) : (emit code argB arg extra tb s).kept = s.kept := by
  unfold emit
  simp

@[simp] theorem emitNow_kept (code : ℕ) (argB : ℕ) (arg : ℕ) (extra : List Word) (s : State) : (emitNow code argB arg extra s).kept = s.kept := by
  unfold emitNow
  simp

@[simp] theorem journalAdd_kept (e : JEntry) (s : State) : (journalAdd e s).kept = s.kept := by
  unfold journalAdd
  simp

@[simp] theorem journalMod_kept (a : Agent) (src : BitVec 16) (seq : BitVec 32) (f : JEntry → JEntry) (s : State) : (journalMod a src seq f s).kept = s.kept := by
  unfold journalMod
  simp

@[simp] theorem modMbox_kept (n : ℕ) (f : Mailbox → Mailbox) (s : State) : (modMbox n f s).kept = s.kept := by
  unfold modMbox
  simp

@[simp] theorem mboxDone_kept (n : ℕ) (seq : BitVec 32) (noMsix : Bool) (status : BitVec 16) (words : List Word) (dup : Bool) (s : State) : (mboxDone n seq noMsix status words dup s).kept = s.kept := by
  unfold mboxDone
  simp

@[simp] theorem answer_kept (rq : Request) (seq : BitVec 32) (status : BitVec 16) (words : List Word) (dup : Bool) (s : State) : (answer rq seq status words dup s).kept = s.kept := by
  unfold answer
  split <;> simp

@[simp] theorem completionEvent_kept (a : Agent) (op : ℕ) (seq : BitVec 32) (status : BitVec 16) (s : State) : (completionEvent a op seq status s).kept = s.kept := by
  unfold completionEvent
  simp

@[simp] theorem deny_kept (status : BitVec 16) (s : State) : (deny status s).st.kept = s.kept := by
  unfold deny
  simp

@[simp] theorem okay_kept (words : List Word) (s : State) : (okay words s).st.kept = s.kept := by
  unfold okay
  simp

@[simp] theorem okaySteps_kept (n : ℕ) (words : List Word) (s : State) : (okaySteps n words s).st.kept = s.kept := by
  unfold okaySteps
  simp

@[simp] theorem accepted_kept (steps : ℕ) (holds : List Resource) (words : List Word) (s : State) : (accepted steps holds words s).st.kept = s.kept := by
  unfold accepted
  simp

@[simp] theorem begun_kept (steps : ℕ) (holds : List Resource) (s : State) : (begun steps holds s).st.kept = s.kept := by
  unfold begun
  simp

@[simp] theorem settle_kept (op : ℕ) (rq : Request) (r : Reply) : (settle op rq r).kept = r.st.kept := by
  unfold settle
  simp

@[simp] theorem refuse_kept (op : ℕ) (rq : Request) (status : BitVec 16) (s : State) : (refuse op rq status s).kept = s.kept := by
  unfold refuse
  simp

@[simp] theorem answerDuplicate_kept (rq : Request) (e : JEntry) (s : State) : (answerDuplicate rq e s).kept = s.kept := by
  unfold answerDuplicate
  simp

@[simp] theorem loadRequest_kept (op : ℕ) (rq : Request) (s : State) : (loadRequest op rq s).kept = s.kept := by
  unfold loadRequest
  split <;> simp

@[simp] theorem park_kept (op : ℕ) (rq : Request) (s : State) : (park op rq s).kept = s.kept := by
  unfold park
  simp

@[simp] theorem unpark_kept (rq : Request) (s : State) : (unpark rq s).kept = s.kept := by
  unfold unpark
  simp

@[simp] theorem sendRemote_kept (op : ℕ) (rq : Request) (dest : BitVec 16) (routed : Bool) (s : State) : (sendRemote op rq dest routed s).kept = s.kept := by
  unfold sendRemote
  simp

@[simp] theorem serve_kept (op : ℕ) (known : Bool) (lenOk : ℕ → Bool) (ownSupply : Bool) (routed : BitVec 16 → State → Bool) (own : State → Reply) (t : Time) (rq : Request) (s0 : State) (h_own : ∀ s, (own s).st.kept = s.kept) : (serve op known lenOk ownSupply routed own t rq s0).kept = (tick t s0).kept := by
  unfold serve
  simp only []
  repeat' split
  all_goals simp [h_own]

@[simp] theorem endWith_kept (a : Agent) (src : BitVec 16) (seq : BitVec 32) (status : BitVec 16) (stepsDone : ℕ) (words : List Word) (s : State) : (endWith a src seq status stepsDone words s).kept = s.kept := by
  unfold endWith
  repeat' split
  all_goals simp

@[simp] theorem endLong_kept (a : Agent) (src : BitVec 16) (seq : BitVec 32) (status : BitVec 16) (stepsDone : ℕ) (s : State) : (endLong a src seq status stepsDone s).kept = s.kept := by
  unfold endLong
  simp

@[simp] theorem endHolderWith_kept (res : Resource) (status : BitVec 16) (stepsDone : ℕ) (words : List Word) (s : State) : (endHolderWith res status stepsDone words s).kept = s.kept := by
  unfold endHolderWith
  split <;> simp

@[simp] theorem endHolder_kept (res : Resource) (status : BitVec 16) (stepsDone : ℕ) (s : State) : (endHolder res status stepsDone s).kept = s.kept := by
  unfold endHolder
  simp

@[simp] theorem drawWord_kept (s : State) : (drawWord s).2.kept = s.kept := by
  unfold drawWord
  simp

@[simp] theorem drawBool_kept (s : State) : (drawBool s).2.kept = s.kept := by
  unfold drawBool
  simp

@[simp] theorem drawInt_kept (s : State) : (drawInt s).2.kept = s.kept := by
  unfold drawInt
  simp

@[simp] theorem drawNat_kept (s : State) : (drawNat s).2.kept = s.kept := by
  unfold drawNat
  simp

@[simp] theorem msix_sizes (v : ℕ) (s : State) : (msix v s).sizes = s.sizes := by
  unfold msix
  simp

@[simp] theorem setInt_sizes (k : ℕ) (s : State) : (setInt k s).sizes = s.sizes := by
  unfold setInt
  simp

@[simp] theorem msixIf_sizes (k : ℕ) (v : ℕ) (s : State) : (msixIf k v s).sizes = s.sizes := by
  unfold msixIf
  simp

@[simp] theorem raiseNmi_sizes (k : ℕ) (s : State) : (raiseNmi k s).sizes = s.sizes := by
  unfold raiseNmi
  simp

@[simp] theorem evqSignal_sizes (s : State) : (evqSignal s).sizes = s.sizes := by
  unfold evqSignal
  simp

@[simp] theorem evqDrain_sizes (s : State) : (evqDrain s).sizes = s.sizes := by
  unfold evqDrain
  simp

@[simp] theorem emit_sizes (code : ℕ) (argB : ℕ) (arg : ℕ) (extra : List Word) (tb : ℕ) (s : State) : (emit code argB arg extra tb s).sizes = s.sizes := by
  unfold emit
  simp

@[simp] theorem emitNow_sizes (code : ℕ) (argB : ℕ) (arg : ℕ) (extra : List Word) (s : State) : (emitNow code argB arg extra s).sizes = s.sizes := by
  unfold emitNow
  simp

@[simp] theorem journalAdd_sizes (e : JEntry) (s : State) : (journalAdd e s).sizes = s.sizes := by
  unfold journalAdd
  simp

@[simp] theorem journalMod_sizes (a : Agent) (src : BitVec 16) (seq : BitVec 32) (f : JEntry → JEntry) (s : State) : (journalMod a src seq f s).sizes = s.sizes := by
  unfold journalMod
  simp

@[simp] theorem modMbox_sizes (n : ℕ) (f : Mailbox → Mailbox) (s : State) : (modMbox n f s).sizes = s.sizes := by
  unfold modMbox
  simp

@[simp] theorem mboxDone_sizes (n : ℕ) (seq : BitVec 32) (noMsix : Bool) (status : BitVec 16) (words : List Word) (dup : Bool) (s : State) : (mboxDone n seq noMsix status words dup s).sizes = s.sizes := by
  unfold mboxDone
  simp

@[simp] theorem answer_sizes (rq : Request) (seq : BitVec 32) (status : BitVec 16) (words : List Word) (dup : Bool) (s : State) : (answer rq seq status words dup s).sizes = s.sizes := by
  unfold answer
  split <;> simp

@[simp] theorem completionEvent_sizes (a : Agent) (op : ℕ) (seq : BitVec 32) (status : BitVec 16) (s : State) : (completionEvent a op seq status s).sizes = s.sizes := by
  unfold completionEvent
  simp

@[simp] theorem deny_sizes (status : BitVec 16) (s : State) : (deny status s).st.sizes = s.sizes := by
  unfold deny
  simp

@[simp] theorem okay_sizes (words : List Word) (s : State) : (okay words s).st.sizes = s.sizes := by
  unfold okay
  simp

@[simp] theorem okaySteps_sizes (n : ℕ) (words : List Word) (s : State) : (okaySteps n words s).st.sizes = s.sizes := by
  unfold okaySteps
  simp

@[simp] theorem accepted_sizes (steps : ℕ) (holds : List Resource) (words : List Word) (s : State) : (accepted steps holds words s).st.sizes = s.sizes := by
  unfold accepted
  simp

@[simp] theorem begun_sizes (steps : ℕ) (holds : List Resource) (s : State) : (begun steps holds s).st.sizes = s.sizes := by
  unfold begun
  simp

@[simp] theorem settle_sizes (op : ℕ) (rq : Request) (r : Reply) : (settle op rq r).sizes = r.st.sizes := by
  unfold settle
  simp

@[simp] theorem refuse_sizes (op : ℕ) (rq : Request) (status : BitVec 16) (s : State) : (refuse op rq status s).sizes = s.sizes := by
  unfold refuse
  simp

@[simp] theorem answerDuplicate_sizes (rq : Request) (e : JEntry) (s : State) : (answerDuplicate rq e s).sizes = s.sizes := by
  unfold answerDuplicate
  simp

@[simp] theorem loadRequest_sizes (op : ℕ) (rq : Request) (s : State) : (loadRequest op rq s).sizes = s.sizes := by
  unfold loadRequest
  split <;> simp

@[simp] theorem park_sizes (op : ℕ) (rq : Request) (s : State) : (park op rq s).sizes = s.sizes := by
  unfold park
  simp

@[simp] theorem unpark_sizes (rq : Request) (s : State) : (unpark rq s).sizes = s.sizes := by
  unfold unpark
  simp

@[simp] theorem sendRemote_sizes (op : ℕ) (rq : Request) (dest : BitVec 16) (routed : Bool) (s : State) : (sendRemote op rq dest routed s).sizes = s.sizes := by
  unfold sendRemote
  simp

@[simp] theorem serve_sizes (op : ℕ) (known : Bool) (lenOk : ℕ → Bool) (ownSupply : Bool) (routed : BitVec 16 → State → Bool) (own : State → Reply) (t : Time) (rq : Request) (s0 : State) (h_own : ∀ s, (own s).st.sizes = s.sizes) : (serve op known lenOk ownSupply routed own t rq s0).sizes = (tick t s0).sizes := by
  unfold serve
  simp only []
  repeat' split
  all_goals simp [h_own]

@[simp] theorem endWith_sizes (a : Agent) (src : BitVec 16) (seq : BitVec 32) (status : BitVec 16) (stepsDone : ℕ) (words : List Word) (s : State) : (endWith a src seq status stepsDone words s).sizes = s.sizes := by
  unfold endWith
  repeat' split
  all_goals simp

@[simp] theorem endLong_sizes (a : Agent) (src : BitVec 16) (seq : BitVec 32) (status : BitVec 16) (stepsDone : ℕ) (s : State) : (endLong a src seq status stepsDone s).sizes = s.sizes := by
  unfold endLong
  simp

@[simp] theorem endHolderWith_sizes (res : Resource) (status : BitVec 16) (stepsDone : ℕ) (words : List Word) (s : State) : (endHolderWith res status stepsDone words s).sizes = s.sizes := by
  unfold endHolderWith
  split <;> simp

@[simp] theorem endHolder_sizes (res : Resource) (status : BitVec 16) (stepsDone : ℕ) (s : State) : (endHolder res status stepsDone s).sizes = s.sizes := by
  unfold endHolder
  simp

@[simp] theorem drawWord_sizes (s : State) : (drawWord s).2.sizes = s.sizes := by
  unfold drawWord
  simp

@[simp] theorem drawBool_sizes (s : State) : (drawBool s).2.sizes = s.sizes := by
  unfold drawBool
  simp

@[simp] theorem drawInt_sizes (s : State) : (drawInt s).2.sizes = s.sizes := by
  unfold drawInt
  simp

@[simp] theorem drawNat_sizes (s : State) : (drawNat s).2.sizes = s.sizes := by
  unfold drawNat
  simp

end Sys2Proof.Machine
end

