-- ==== Sys2Proof/Laws/KeepDaq.lean ====
section
/-! SUPPORT. What the operations of Daq, Filter, Change, Route, Slots keep: one lemma each for `State.kept` and for `State.sizes`. -/

set_option maxRecDepth 4000

namespace Sys2Proof.Machine

/-! ### Daq -/

@[simp] theorem modDaq_kept (f : DaqSt → DaqSt) (s : State) : (modDaq f s).kept = s.kept := by
  unfold modDaq
  simp

@[simp] theorem modChan_kept (c : ℕ) (f : Chan → Chan) (s : State) : (modChan c f s).kept = s.kept := by
  unfold modChan
  simp

@[simp] theorem modGen_kept (n : ℕ) (f : Gen → Gen) (s : State) : (modGen n f s).kept = s.kept := by
  unfold modGen
  simp

@[simp] theorem modGroup_kept (g : ℕ) (f : Group → Group) (s : State) : (modGroup g f s).kept = s.kept := by
  unfold modGroup
  simp

@[simp] theorem modCal_kept (g : ℕ) (f : CalSt → CalSt) (s : State) : (modCal g f s).kept = s.kept := by
  unfold modCal
  simp

@[simp] theorem modWeave_kept (c : ℕ) (f : WeaveSt → WeaveSt) (s : State) : (modWeave c f s).kept = s.kept := by
  unfold modWeave
  simp

@[simp] theorem modAddr_kept (a : ℕ) (f : AddrSt → AddrSt) (s : State) : (modAddr a f s).kept = s.kept := by
  unfold modAddr
  simp

@[simp] theorem forChans_kept (cs : List ℕ) (f : ℕ → State → State) (s : State) (h_f : ∀ y0 y1, (f y0 y1).kept = y1.kept) : (forChans cs f s).kept = s.kept := by
  unfold forChans
  exact foldl_kept _ _ _ (fun a x => h_f x a)

@[simp] theorem modRemote_kept (node : BitVec 16) (a : ℕ) (f : AddrSt → AddrSt) (s : State) : (modRemote node a f s).kept = s.kept := by
  unfold modRemote
  simp

@[simp] theorem modPath_kept (node : Option (BitVec 16)) (a : ℕ) (f : AddrSt → AddrSt) (s : State) : (modPath node a f s).kept = s.kept := by
  unfold modPath
  split <;> simp

@[simp] theorem gapAt_kept (a : ℕ) (ds : List Dest) (s : State) : (gapAt a ds s).kept = s.kept := by
  unfold gapAt
  simp

@[simp] theorem gapAllAt_kept (a : ℕ) (at_ : Time) (s : State) : (gapAllAt a at_ s).kept = s.kept := by
  unfold gapAllAt
  simp

@[simp] theorem gapAll_kept (a : ℕ) (s : State) : (gapAll a s).kept = s.kept := by
  unfold gapAll
  simp

@[simp] theorem gapChan_kept (c : ℕ) (s : State) : (gapChan c s).kept = s.kept := by
  unfold gapChan
  simp

@[simp] theorem gapChanAllAt_kept (c : ℕ) (at_ : Time) (s : State) : (gapChanAllAt c at_ s).kept = s.kept := by
  unfold gapChanAllAt
  simp

@[simp] theorem gapChanAll_kept (c : ℕ) (s : State) : (gapChanAll c s).kept = s.kept := by
  unfold gapChanAll
  simp

@[simp] theorem putQueue_kept (q : DestQueue) (s : State) : (putQueue q s).kept = s.kept := by
  unfold putQueue
  simp

@[simp] theorem countDropped_kept (d : Dest) (s : State) : (countDropped d s).kept = s.kept := by
  unfold countDropped
  split <;> simp

@[simp] theorem deliver_kept (g : ℕ) (a : ℕ) (r : FormedRec) (d : Dest) (reachable : Bool) (s : State) : (deliver g a r d reachable s).kept = s.kept := by
  unfold deliver
  simp

@[simp] theorem modChan_sizes (c : ℕ) (f : Chan → Chan) (s : State) : (modChan c f s).sizes = s.sizes := by
  unfold modChan
  simp

@[simp] theorem modGen_sizes (n : ℕ) (f : Gen → Gen) (s : State) : (modGen n f s).sizes = s.sizes := by
  unfold modGen
  simp

@[simp] theorem modGroup_sizes (g : ℕ) (f : Group → Group) (s : State) : (modGroup g f s).sizes = s.sizes := by
  unfold modGroup
  simp

@[simp] theorem modCal_sizes (g : ℕ) (f : CalSt → CalSt) (s : State) : (modCal g f s).sizes = s.sizes := by
  unfold modCal
  simp

@[simp] theorem modWeave_sizes (c : ℕ) (f : WeaveSt → WeaveSt) (s : State) : (modWeave c f s).sizes = s.sizes := by
  unfold modWeave
  simp

@[simp] theorem modAddr_sizes (a : ℕ) (f : AddrSt → AddrSt) (s : State) : (modAddr a f s).sizes = s.sizes := by
  unfold modAddr
  simp

@[simp] theorem forChans_sizes (cs : List ℕ) (f : ℕ → State → State) (s : State) (h_f : ∀ y0 y1, (f y0 y1).sizes = y1.sizes) : (forChans cs f s).sizes = s.sizes := by
  unfold forChans
  exact foldl_sizes _ _ _ (fun a x => h_f x a)

@[simp] theorem modRemote_sizes (node : BitVec 16) (a : ℕ) (f : AddrSt → AddrSt) (s : State) : (modRemote node a f s).sizes = s.sizes := by
  unfold modRemote
  simp

@[simp] theorem modPath_sizes (node : Option (BitVec 16)) (a : ℕ) (f : AddrSt → AddrSt) (s : State) : (modPath node a f s).sizes = s.sizes := by
  unfold modPath
  split <;> simp

@[simp] theorem gapAt_sizes (a : ℕ) (ds : List Dest) (s : State) : (gapAt a ds s).sizes = s.sizes := by
  unfold gapAt
  simp

@[simp] theorem gapAllAt_sizes (a : ℕ) (at_ : Time) (s : State) : (gapAllAt a at_ s).sizes = s.sizes := by
  unfold gapAllAt
  simp

@[simp] theorem gapAll_sizes (a : ℕ) (s : State) : (gapAll a s).sizes = s.sizes := by
  unfold gapAll
  simp

@[simp] theorem gapChan_sizes (c : ℕ) (s : State) : (gapChan c s).sizes = s.sizes := by
  unfold gapChan
  simp

@[simp] theorem gapChanAllAt_sizes (c : ℕ) (at_ : Time) (s : State) : (gapChanAllAt c at_ s).sizes = s.sizes := by
  unfold gapChanAllAt
  simp

@[simp] theorem gapChanAll_sizes (c : ℕ) (s : State) : (gapChanAll c s).sizes = s.sizes := by
  unfold gapChanAll
  simp

@[simp] theorem putQueue_sizes (q : DestQueue) (s : State) : (putQueue q s).sizes = s.sizes := by
  unfold putQueue
  simp

@[simp] theorem countDropped_sizes (d : Dest) (s : State) : (countDropped d s).sizes = s.sizes := by
  unfold countDropped
  split <;> simp

@[simp] theorem deliver_sizes (g : ℕ) (a : ℕ) (r : FormedRec) (d : Dest) (reachable : Bool) (s : State) : (deliver g a r d reachable s).sizes = s.sizes := by
  unfold deliver
  simp

/-! ### Filter -/

@[simp] theorem refJudge_kept (c : ℕ) (t : Time) (s : State) : (refJudge c t s).kept = s.kept := by
  unfold refJudge
  simp

@[simp] theorem notePol_kept (n : ℕ) (t : Time) (s : State) : (notePol n t s).kept = s.kept := by
  unfold notePol
  simp

@[simp] theorem openEvent_kept (c : ℕ) (pos : ℕ) (flag : Bool) (out : ℤ) (s : State) : (openEvent c pos flag out s).kept = s.kept := by
  unfold openEvent
  simp

@[simp] theorem evalOpen_kept (c : ℕ) (pos : ℕ) (inBand : Bool) (out : ℤ) (s : State) : (evalOpen c pos inBand out s).kept = s.kept := by
  unfold evalOpen
  simp

@[simp] theorem formRecord_kept (c : ℕ) (pos : ℕ) (value : ℤ) (ts : ℤ) (out : ℤ) (lim : ℤ) (flags : BitVec 12) (s : State) : (formRecord c pos value ts out lim flags s).kept = s.kept := by
  unfold formRecord
  simp

@[simp] theorem accAdd_kept (n : ℕ) (a : ℕ) (neg : Bool) (value : ℤ) (ts : ℤ) (flags : BitVec 12) (s : State) : (accAdd n a neg value ts flags s).kept = s.kept := by
  unfold accAdd
  simp

@[simp] theorem closeCycle_kept (n : ℕ) (a : ℕ) (out : ℤ) (s : State) : (closeCycle n a out s).kept = s.kept := by
  unfold closeCycle
  simp

@[simp] theorem dropCycles_kept (n : ℕ) (t : Time) (s : State) : (dropCycles n t s).kept = s.kept := by
  unfold dropCycles
  simp

@[simp] theorem forgetCycle_kept (c : ℕ) (s : State) : (forgetCycle c s).kept = s.kept := by
  unfold forgetCycle
  simp

@[simp] theorem outRecord_kept (c : ℕ) (pos : ℕ) (value : ℤ) (ts : ℤ) (out : ℤ) (flags : BitVec 12) (s : State) : (outRecord c pos value ts out flags s).kept = s.kept := by
  unfold outRecord
  simp

@[simp] theorem blankedOutput_kept (c : ℕ) (pos : ℕ) (ts : ℤ) (out : ℤ) (s : State) : (blankedOutput c pos ts out s).kept = s.kept := by
  unfold blankedOutput
  simp
  repeat' (first | (simp; done) | (split <;> simp_all <;> done) | split)

@[simp] theorem addPair_kept (g : ℕ) (spareV : ℤ) (chanNew : ℤ) (chanOld : ℤ) (s : State) : (addPair g spareV chanNew chanOld s).kept = s.kept := by
  unfold addPair
  simp

@[simp] theorem pairOutput_kept (c : ℕ) (code : ℕ) (main : Merged) (flags : BitVec 12) (raw : ℤ) (bad : Bool) (other : Option Filtered) (s : State) : (pairOutput c code main flags raw bad other s).kept = s.kept := by
  unfold pairOutput
  split <;> simp

@[simp] theorem primaryHalf_kept (c : ℕ) (o : Sample) (ot : OutTime) (raw : ℤ) (blanked : Bool) (part : Bool) (s : State) : (primaryHalf c o ot raw blanked part s).1.kept = s.kept := by
  unfold primaryHalf
  simp
  repeat' (first | (simp; done) | (split <;> simp_all <;> done) | split)

@[simp] theorem emitHalf_kept (c : ℕ) (h : HalfOut) (s : State) : (emitHalf c h s).kept = s.kept := by
  unfold emitHalf
  simp

@[simp] theorem exchangeRoles_kept (c : ℕ) (s : State) : (exchangeRoles c s).kept = s.kept := by
  unfold exchangeRoles
  simp

@[simp] theorem capSwitch_kept (c : ℕ) (m : ℕ) (s : State) : (capSwitch c m s).kept = s.kept := by
  unfold capSwitch
  simp

@[simp] theorem capRefresh_kept (c : ℕ) (s : State) : (capRefresh c s).kept = s.kept := by
  unfold capRefresh
  simp
  repeat' (first | (simp; done) | (split <;> simp_all <;> done) | split)

@[simp] theorem capRefreshAll_kept (s : State) : (capRefreshAll s).kept = s.kept := by
  unfold capRefreshAll
  simp

@[simp] theorem fadeDone_kept (c : ℕ) (j : ℕ) (cut : Bool) (ts : ℤ) (s : State) : (fadeDone c j cut ts s).kept = s.kept := by
  unfold fadeDone
  simp

@[simp] theorem fadeRecord_kept (c : ℕ) (j : ℕ) (n : ℕ) (p : HalfOut) (q : HalfOut) (s : State) : (fadeRecord c j n p q s).kept = s.kept := by
  unfold fadeRecord
  simp

@[simp] theorem fadeEnds_kept (c : ℕ) (n : ℕ) (p : HalfOut) (s : State) : (fadeEnds c n p s).kept = s.kept := by
  unfold fadeEnds
  simp

@[simp] theorem fadeStep_kept (c : ℕ) (j : ℕ) (n : ℕ) (p : HalfOut) (q : HalfOut) (s : State) : (fadeStep c j n p q s).kept = s.kept := by
  unfold fadeStep
  simp

@[simp] theorem fadePump_kept (c : ℕ) (a : ℕ) (x2 : State) : (fadePump c a x2).kept = x2.kept := by
  induction a generalizing x2 with
  | zero => rfl
  | succ k ih =>
    unfold fadePump
    repeat' (first | rfl | (simp [ih]; done) | split | (simp only []; split))

@[simp] theorem fadeRun_kept (c : ℕ) (s : State) : (fadeRun c s).kept = s.kept := by
  unfold fadeRun
  simp

@[simp] theorem cycleEnd_kept (c : ℕ) (ot : OutTime) (s : State) : (cycleEnd c ot s).kept = s.kept := by
  unfold cycleEnd
  simp

@[simp] theorem gridOutput_kept (c : ℕ) (o : Sample) (s : State) : (gridOutput c o s).kept = s.kept := by
  unfold gridOutput
  simp

@[simp] theorem shadowStep_kept (c : ℕ) (o : Sample) (s : State) : (shadowStep c o s).kept = s.kept := by
  unfold shadowStep
  simp

@[simp] theorem strokeOpen_kept (c : ℕ) (r : StrokeRun) (inBand : Bool) (inBl : Bool) (out : ℤ) (s : State) : (strokeOpen c r inBand inBl out s).1.kept = s.kept := by
  unfold strokeOpen
  simp
  repeat' (first | (simp; done) | (split <;> simp_all <;> done) | split)

@[simp] theorem convert_kept (c : ℕ) (o : Sample) (r : StrokeRun) (s : State) : (convert c o r s).1.kept = s.kept := by
  unfold convert
  simp
  repeat' (first | (simp; done) | (split <;> simp_all <;> done) | split)

@[simp] theorem weaveOutput_kept (c : ℕ) (o : Sample) (s : State) : (weaveOutput c o s).kept = s.kept := by
  unfold weaveOutput
  simp
  repeat' (first | (simp; done) | (split <;> simp_all <;> done) | split)

@[simp] theorem execFilterOutput_kept (t : Time) (ch : Fin 64) (o : Sample) (s0 : State) : okept (tick t s0).kept (execFilterOutput t ch o s0) = (tick t s0).kept := by
  unfold execFilterOutput
  simp

@[simp] theorem refJudge_sizes (c : ℕ) (t : Time) (s : State) : (refJudge c t s).sizes = s.sizes := by
  unfold refJudge
  simp

@[simp] theorem notePol_sizes (n : ℕ) (t : Time) (s : State) : (notePol n t s).sizes = s.sizes := by
  unfold notePol
  simp

@[simp] theorem openEvent_sizes (c : ℕ) (pos : ℕ) (flag : Bool) (out : ℤ) (s : State) : (openEvent c pos flag out s).sizes = s.sizes := by
  unfold openEvent
  simp

@[simp] theorem evalOpen_sizes (c : ℕ) (pos : ℕ) (inBand : Bool) (out : ℤ) (s : State) : (evalOpen c pos inBand out s).sizes = s.sizes := by
  unfold evalOpen
  simp

@[simp] theorem formRecord_sizes (c : ℕ) (pos : ℕ) (value : ℤ) (ts : ℤ) (out : ℤ) (lim : ℤ) (flags : BitVec 12) (s : State) : (formRecord c pos value ts out lim flags s).sizes = s.sizes := by
  unfold formRecord
  simp

@[simp] theorem accAdd_sizes (n : ℕ) (a : ℕ) (neg : Bool) (value : ℤ) (ts : ℤ) (flags : BitVec 12) (s : State) : (accAdd n a neg value ts flags s).sizes = s.sizes := by
  unfold accAdd
  simp

@[simp] theorem closeCycle_sizes (n : ℕ) (a : ℕ) (out : ℤ) (s : State) : (closeCycle n a out s).sizes = s.sizes := by
  unfold closeCycle
  simp

@[simp] theorem dropCycles_sizes (n : ℕ) (t : Time) (s : State) : (dropCycles n t s).sizes = s.sizes := by
  unfold dropCycles
  simp

@[simp] theorem forgetCycle_sizes (c : ℕ) (s : State) : (forgetCycle c s).sizes = s.sizes := by
  unfold forgetCycle
  simp

@[simp] theorem outRecord_sizes (c : ℕ) (pos : ℕ) (value : ℤ) (ts : ℤ) (out : ℤ) (flags : BitVec 12) (s : State) : (outRecord c pos value ts out flags s).sizes = s.sizes := by
  unfold outRecord
  simp

@[simp] theorem blankedOutput_sizes (c : ℕ) (pos : ℕ) (ts : ℤ) (out : ℤ) (s : State) : (blankedOutput c pos ts out s).sizes = s.sizes := by
  unfold blankedOutput
  simp
  repeat' (first | (simp; done) | (split <;> simp_all <;> done) | split)

@[simp] theorem addPair_sizes (g : ℕ) (spareV : ℤ) (chanNew : ℤ) (chanOld : ℤ) (s : State) : (addPair g spareV chanNew chanOld s).sizes = s.sizes := by
  unfold addPair
  simp

@[simp] theorem pairOutput_sizes (c : ℕ) (code : ℕ) (main : Merged) (flags : BitVec 12) (raw : ℤ) (bad : Bool) (other : Option Filtered) (s : State) : (pairOutput c code main flags raw bad other s).sizes = s.sizes := by
  unfold pairOutput
  split <;> simp

@[simp] theorem primaryHalf_sizes (c : ℕ) (o : Sample) (ot : OutTime) (raw : ℤ) (blanked : Bool) (part : Bool) (s : State) : (primaryHalf c o ot raw blanked part s).1.sizes = s.sizes := by
  unfold primaryHalf
  simp
  repeat' (first | (simp; done) | (split <;> simp_all <;> done) | split)

@[simp] theorem emitHalf_sizes (c : ℕ) (h : HalfOut) (s : State) : (emitHalf c h s).sizes = s.sizes := by
  unfold emitHalf
  simp

@[simp] theorem exchangeRoles_sizes (c : ℕ) (s : State) : (exchangeRoles c s).sizes = s.sizes := by
  unfold exchangeRoles
  simp

@[simp] theorem capSwitch_sizes (c : ℕ) (m : ℕ) (s : State) : (capSwitch c m s).sizes = s.sizes := by
  unfold capSwitch
  simp

@[simp] theorem capRefresh_sizes (c : ℕ) (s : State) : (capRefresh c s).sizes = s.sizes := by
  unfold capRefresh
  simp
  repeat' (first | (simp; done) | (split <;> simp_all <;> done) | split)

@[simp] theorem capRefreshAll_sizes (s : State) : (capRefreshAll s).sizes = s.sizes := by
  unfold capRefreshAll
  simp

@[simp] theorem fadeDone_sizes (c : ℕ) (j : ℕ) (cut : Bool) (ts : ℤ) (s : State) : (fadeDone c j cut ts s).sizes = s.sizes := by
  unfold fadeDone
  simp

@[simp] theorem fadeRecord_sizes (c : ℕ) (j : ℕ) (n : ℕ) (p : HalfOut) (q : HalfOut) (s : State) : (fadeRecord c j n p q s).sizes = s.sizes := by
  unfold fadeRecord
  simp

@[simp] theorem fadeEnds_sizes (c : ℕ) (n : ℕ) (p : HalfOut) (s : State) : (fadeEnds c n p s).sizes = s.sizes := by
  unfold fadeEnds
  simp

@[simp] theorem fadeStep_sizes (c : ℕ) (j : ℕ) (n : ℕ) (p : HalfOut) (q : HalfOut) (s : State) : (fadeStep c j n p q s).sizes = s.sizes := by
  unfold fadeStep
  simp

@[simp] theorem fadePump_sizes (c : ℕ) (a : ℕ) (x2 : State) : (fadePump c a x2).sizes = x2.sizes := by
  induction a generalizing x2 with
  | zero => rfl
  | succ k ih =>
    unfold fadePump
    repeat' (first | rfl | (simp [ih]; done) | split | (simp only []; split))

@[simp] theorem fadeRun_sizes (c : ℕ) (s : State) : (fadeRun c s).sizes = s.sizes := by
  unfold fadeRun
  simp

@[simp] theorem cycleEnd_sizes (c : ℕ) (ot : OutTime) (s : State) : (cycleEnd c ot s).sizes = s.sizes := by
  unfold cycleEnd
  simp

@[simp] theorem gridOutput_sizes (c : ℕ) (o : Sample) (s : State) : (gridOutput c o s).sizes = s.sizes := by
  unfold gridOutput
  simp

@[simp] theorem shadowStep_sizes (c : ℕ) (o : Sample) (s : State) : (shadowStep c o s).sizes = s.sizes := by
  unfold shadowStep
  simp

@[simp] theorem strokeOpen_sizes (c : ℕ) (r : StrokeRun) (inBand : Bool) (inBl : Bool) (out : ℤ) (s : State) : (strokeOpen c r inBand inBl out s).1.sizes = s.sizes := by
  unfold strokeOpen
  simp
  repeat' (first | (simp; done) | (split <;> simp_all <;> done) | split)

@[simp] theorem convert_sizes (c : ℕ) (o : Sample) (r : StrokeRun) (s : State) : (convert c o r s).1.sizes = s.sizes := by
  unfold convert
  simp
  repeat' (first | (simp; done) | (split <;> simp_all <;> done) | split)

@[simp] theorem weaveOutput_sizes (c : ℕ) (o : Sample) (s : State) : (weaveOutput c o s).sizes = s.sizes := by
  unfold weaveOutput
  simp
  repeat' (first | (simp; done) | (split <;> simp_all <;> done) | split)

@[simp] theorem execFilterOutput_sizes (t : Time) (ch : Fin 64) (o : Sample) (s0 : State) : osizes (tick t s0).sizes (execFilterOutput t ch o s0) = (tick t s0).sizes := by
  unfold execFilterOutput
  simp

/-! ### Change -/

@[simp] theorem restartOther_kept (c : ℕ) (s : State) : (restartOther c s).kept = s.kept := by
  unfold restartOther
  simp

@[simp] theorem restartChan_kept (c : ℕ) (start : Time) (bySync : Bool) (s : State) : (restartChan c start bySync s).kept = s.kept := by
  unfold restartChan
  simp

@[simp] theorem cutFade_kept (c : ℕ) (at_ : Time) (s : State) : (cutFade c at_ s).kept = s.kept := by
  unfold cutFade
  simp
  repeat' (first | (simp; done) | (split <;> simp_all <;> done) | split)

@[simp] theorem muxChange_kept (c : ℕ) (pos : ℕ) (t0 : Time) (s : State) : (muxChange c pos t0 s).kept = s.kept := by
  unfold muxChange
  simp

@[simp] theorem settleTo_kept (c : ℕ) (at_ : Time) (until_ : Time) (s : State) : (settleTo c at_ until_ s).kept = s.kept := by
  unfold settleTo
  simp

@[simp] theorem calRefresh_kept (g : ℕ) (s : State) : (calRefresh g s).kept = s.kept := by
  unfold calRefresh
  simp
  repeat' (first | (simp; done) | (split <;> simp_all <;> done) | split)

@[simp] theorem startOverlap_kept (g : ℕ) (phase : CalPhase) (b : Time) (s : State) : (startOverlap g phase b s).kept = s.kept := by
  unfold startOverlap
  simp

@[simp] theorem ratioEdge_kept (n : ℕ) (before : Bool) (t : Time) (s : State) : (ratioEdge n before t s).kept = s.kept := by
  unfold ratioEdge
  simp

@[simp] theorem excChange_kept (n : ℕ) (tc : Time) (s : State) : (excChange n tc s).kept = s.kept := by
  unfold excChange
  simp

@[simp] theorem acBegin_kept (n : ℕ) (tc : Time) (dead : ℕ) (neg : Bool) (s : State) : (acBegin n tc dead neg s).kept = s.kept := by
  unfold acBegin
  simp

@[simp] theorem applyGen_kept (n : ℕ) (new : ExcCfg) (tc : Time) (s : State) : (applyGen n new tc s).kept = s.kept := by
  unfold applyGen
  simp

@[simp] theorem applyGenPending_kept (n : ℕ) (tc : Time) (s : State) : (applyGenPending n tc s).kept = s.kept := by
  unfold applyGenPending
  split <;> simp

@[simp] theorem endSlotOff_kept (c : ℕ) (s : State) : (endSlotOff c s).kept = s.kept := by
  unfold endSlotOff
  simp

@[simp] theorem applyCfg_kept (c : ℕ) (new : ChanCfg) (b : Time) (s : State) : (applyCfg c new b s).kept = s.kept := by
  unfold applyCfg
  simp

@[simp] theorem applySub_kept (a : ℕ) (b : Time) (s : State) : (applySub a b s).kept = s.kept := by
  unfold applySub
  split <;> simp

@[simp] theorem applyCoefs_kept (conv : ℕ) (s : State) : (applyCoefs conv s).kept = s.kept := by
  unfold applyCoefs
  simp

@[simp] theorem applyOverlap_kept (c : ℕ) (b : Time) (s : State) : (applyOverlap c b s).kept = s.kept := by
  unfold applyOverlap
  simp
  repeat' (first | (simp; done) | (split <;> simp_all <;> done) | split)

@[simp] theorem applyBoundary_kept (c : ℕ) (b : Time) (s : State) : (applyBoundary c b s).kept = s.kept := by
  unfold applyBoundary
  extract_lets n s1 s2 s3 s4 starts floor s5 s6 s7 s8
  have h_s1 : s1.kept = s.kept := by
    simp only [s1]
    split <;> simp []
  have h_s2 : s2.kept = s.kept := by
    simp only [s2]
    simp [h_s1]
  have h_s3 : s3.kept = s.kept := by
    simp only [s3]
    simp [h_s1, h_s2]
  have h_s4 : s4.kept = s.kept := by
    simp only [s4]
    split <;> simp [h_s1, h_s2, h_s3]
  have h_s5 : s5.kept = s.kept := by
    simp only [s5]
    simp [h_s1, h_s2, h_s3, h_s4]
  have h_s6 : s6.kept = s.kept := by
    simp only [s6]
    split <;> simp [h_s1, h_s2, h_s3, h_s4, h_s5]
  have h_s7 : s7.kept = s.kept := by
    simp only [s7]
    simp [h_s1, h_s2, h_s3, h_s4, h_s5, h_s6]
  have h_s8 : s8.kept = s.kept := by
    simp only [s8]
    split <;> simp [h_s1, h_s2, h_s3, h_s4, h_s5, h_s6, h_s7]
  split <;> simp [h_s8]

@[simp] theorem execPendingSettingApply_kept (t : Time) (ch : Fin 64) (s0 : State) : okept (tick t s0).kept (execPendingSettingApply t ch s0) = (tick t s0).kept := by
  unfold execPendingSettingApply
  simp

@[simp] theorem execSettlingDelayEnd_kept (t : Time) (ch : Fin 64) (s0 : State) : okept (tick t s0).kept (execSettlingDelayEnd t ch s0) = (tick t s0).kept := by
  unfold execSettlingDelayEnd
  simp
  repeat' (first | (simp; done) | (split <;> simp_all <;> done) | split)

@[simp] theorem restartOther_sizes (c : ℕ) (s : State) : (restartOther c s).sizes = s.sizes := by
  unfold restartOther
  simp

@[simp] theorem restartChan_sizes (c : ℕ) (start : Time) (bySync : Bool) (s : State) : (restartChan c start bySync s).sizes = s.sizes := by
  unfold restartChan
  simp

@[simp] theorem cutFade_sizes (c : ℕ) (at_ : Time) (s : State) : (cutFade c at_ s).sizes = s.sizes := by
  unfold cutFade
  simp
  repeat' (first | (simp; done) | (split <;> simp_all <;> done) | split)

@[simp] theorem muxChange_sizes (c : ℕ) (pos : ℕ) (t0 : Time) (s : State) : (muxChange c pos t0 s).sizes = s.sizes := by
  unfold muxChange
  simp

@[simp] theorem settleTo_sizes (c : ℕ) (at_ : Time) (until_ : Time) (s : State) : (settleTo c at_ until_ s).sizes = s.sizes := by
  unfold settleTo
  simp

@[simp] theorem calRefresh_sizes (g : ℕ) (s : State) : (calRefresh g s).sizes = s.sizes := by
  unfold calRefresh
  simp
  repeat' (first | (simp; done) | (split <;> simp_all <;> done) | split)

@[simp] theorem startOverlap_sizes (g : ℕ) (phase : CalPhase) (b : Time) (s : State) : (startOverlap g phase b s).sizes = s.sizes := by
  unfold startOverlap
  simp

@[simp] theorem ratioEdge_sizes (n : ℕ) (before : Bool) (t : Time) (s : State) : (ratioEdge n before t s).sizes = s.sizes := by
  unfold ratioEdge
  simp

@[simp] theorem excChange_sizes (n : ℕ) (tc : Time) (s : State) : (excChange n tc s).sizes = s.sizes := by
  unfold excChange
  simp

@[simp] theorem acBegin_sizes (n : ℕ) (tc : Time) (dead : ℕ) (neg : Bool) (s : State) : (acBegin n tc dead neg s).sizes = s.sizes := by
  unfold acBegin
  simp

@[simp] theorem applyGen_sizes (n : ℕ) (new : ExcCfg) (tc : Time) (s : State) : (applyGen n new tc s).sizes = s.sizes := by
  unfold applyGen
  simp

@[simp] theorem applyGenPending_sizes (n : ℕ) (tc : Time) (s : State) : (applyGenPending n tc s).sizes = s.sizes := by
  unfold applyGenPending
  split <;> simp

@[simp] theorem endSlotOff_sizes (c : ℕ) (s : State) : (endSlotOff c s).sizes = s.sizes := by
  unfold endSlotOff
  simp

@[simp] theorem applyCfg_sizes (c : ℕ) (new : ChanCfg) (b : Time) (s : State) : (applyCfg c new b s).sizes = s.sizes := by
  unfold applyCfg
  simp

@[simp] theorem applySub_sizes (a : ℕ) (b : Time) (s : State) : (applySub a b s).sizes = s.sizes := by
  unfold applySub
  split <;> simp

@[simp] theorem applyCoefs_sizes (conv : ℕ) (s : State) : (applyCoefs conv s).sizes = s.sizes := by
  unfold applyCoefs
  simp

@[simp] theorem applyOverlap_sizes (c : ℕ) (b : Time) (s : State) : (applyOverlap c b s).sizes = s.sizes := by
  unfold applyOverlap
  simp
  repeat' (first | (simp; done) | (split <;> simp_all <;> done) | split)

@[simp] theorem applyBoundary_sizes (c : ℕ) (b : Time) (s : State) : (applyBoundary c b s).sizes = s.sizes := by
  unfold applyBoundary
  extract_lets n s1 s2 s3 s4 starts floor s5 s6 s7 s8
  have h_s1 : s1.sizes = s.sizes := by
    simp only [s1]
    split <;> simp []
  have h_s2 : s2.sizes = s.sizes := by
    simp only [s2]
    simp [h_s1]
  have h_s3 : s3.sizes = s.sizes := by
    simp only [s3]
    simp [h_s1, h_s2]
  have h_s4 : s4.sizes = s.sizes := by
    simp only [s4]
    split <;> simp [h_s1, h_s2, h_s3]
  have h_s5 : s5.sizes = s.sizes := by
    simp only [s5]
    simp [h_s1, h_s2, h_s3, h_s4]
  have h_s6 : s6.sizes = s.sizes := by
    simp only [s6]
    split <;> simp [h_s1, h_s2, h_s3, h_s4, h_s5]
  have h_s7 : s7.sizes = s.sizes := by
    simp only [s7]
    simp [h_s1, h_s2, h_s3, h_s4, h_s5, h_s6]
  have h_s8 : s8.sizes = s.sizes := by
    simp only [s8]
    split <;> simp [h_s1, h_s2, h_s3, h_s4, h_s5, h_s6, h_s7]
  split <;> simp [h_s8]

@[simp] theorem execPendingSettingApply_sizes (t : Time) (ch : Fin 64) (s0 : State) : osizes (tick t s0).sizes (execPendingSettingApply t ch s0) = (tick t s0).sizes := by
  unfold execPendingSettingApply
  simp

@[simp] theorem execSettlingDelayEnd_sizes (t : Time) (ch : Fin 64) (s0 : State) : osizes (tick t s0).sizes (execSettlingDelayEnd t ch s0) = (tick t s0).sizes := by
  unfold execSettlingDelayEnd
  simp
  repeat' (first | (simp; done) | (split <;> simp_all <;> done) | split)

/-! ### Route -/

@[simp] theorem reaching_kept (op : ℕ) (own : Request → State → Reply) (rq : Request) (s : State) (h_own : (own rq s).st.kept = s.kept) : (reaching op own rq s).st.kept = s.kept := by
  unfold reaching
  simp only []
  split <;> simp [h_own]

@[simp] theorem command_kept (op : ℕ) (lenOk : ℕ → Bool) (own : Request → State → Reply) (t : Time) (rq : Request) (s : State) (h_own : ∀ s, (own rq s).st.kept = s.kept) : okept (tick t s).kept (command op lenOk own t rq s) = (tick t s).kept := by
  unfold command
  simp [h_own]

@[simp] theorem commandSupply_kept (op : ℕ) (lenOk : ℕ → Bool) (own : Request → State → Reply) (t : Time) (rq : Request) (s : State) (h_own : ∀ s, (own rq s).st.kept = s.kept) : okept (tick t s).kept (commandSupply op lenOk own t rq s) = (tick t s).kept := by
  unfold commandSupply
  simp [h_own]

@[simp] theorem guardedIn_kept (img : Bool) (cs : List (Bool × BitVec 16)) (s : State) (go : Unit → Reply) (h_go : (go ()).st.kept = s.kept) : (guardedIn img cs s go).st.kept = s.kept := by
  unfold guardedIn
  split <;> simp [h_go]

@[simp] theorem guarded_kept (cs : List (Bool × BitVec 16)) (s : State) (go : Unit → Reply) (h_go : (go ()).st.kept = s.kept) : (guarded cs s go).st.kept = s.kept := by
  unfold guarded
  split <;> simp [h_go]

@[simp] theorem reaching_sizes (op : ℕ) (own : Request → State → Reply) (rq : Request) (s : State) (h_own : (own rq s).st.sizes = s.sizes) : (reaching op own rq s).st.sizes = s.sizes := by
  unfold reaching
  simp only []
  split <;> simp [h_own]

@[simp] theorem command_sizes (op : ℕ) (lenOk : ℕ → Bool) (own : Request → State → Reply) (t : Time) (rq : Request) (s : State) (h_own : ∀ s, (own rq s).st.sizes = s.sizes) : osizes (tick t s).sizes (command op lenOk own t rq s) = (tick t s).sizes := by
  unfold command
  simp [h_own]

@[simp] theorem commandSupply_sizes (op : ℕ) (lenOk : ℕ → Bool) (own : Request → State → Reply) (t : Time) (rq : Request) (s : State) (h_own : ∀ s, (own rq s).st.sizes = s.sizes) : osizes (tick t s).sizes (commandSupply op lenOk own t rq s) = (tick t s).sizes := by
  unfold commandSupply
  simp [h_own]

@[simp] theorem guardedIn_sizes (img : Bool) (cs : List (Bool × BitVec 16)) (s : State) (go : Unit → Reply) (h_go : (go ()).st.sizes = s.sizes) : (guardedIn img cs s go).st.sizes = s.sizes := by
  unfold guardedIn
  split <;> simp [h_go]

@[simp] theorem guarded_sizes (cs : List (Bool × BitVec 16)) (s : State) (go : Unit → Reply) (h_go : (go ()).st.sizes = s.sizes) : (guarded cs s go).st.sizes = s.sizes := by
  unfold guarded
  split <;> simp [h_go]

/-! ### Slots -/

@[simp] theorem putSlot_kept (i : ℕ) (a : Option SlotArm) (s : State) : (putSlot i a s).kept = s.kept := by
  unfold putSlot
  simp

@[simp] theorem slotEvent_kept (i : ℕ) (a : SlotArm) (index : ℕ) (skipped : ℕ) (late : ℕ) (f : ℕ) (status : BitVec 16) (user : ℕ) (s : State) : (slotEvent i a index skipped late f status user s).kept = s.kept := by
  unfold slotEvent
  simp

@[simp] theorem armSlot_kept (i : ℕ) (p : ArmPlan) (s : State) : (armSlot i p s).kept = s.kept := by
  unfold armSlot
  simp

@[simp] theorem putSlot_sizes (i : ℕ) (a : Option SlotArm) (s : State) : (putSlot i a s).sizes = s.sizes := by
  unfold putSlot
  simp

@[simp] theorem slotEvent_sizes (i : ℕ) (a : SlotArm) (index : ℕ) (skipped : ℕ) (late : ℕ) (f : ℕ) (status : BitVec 16) (user : ℕ) (s : State) : (slotEvent i a index skipped late f status user s).sizes = s.sizes := by
  unfold slotEvent
  simp

@[simp] theorem armSlot_sizes (i : ℕ) (p : ArmPlan) (s : State) : (armSlot i p s).sizes = s.sizes := by
  unfold armSlot
  simp

end Sys2Proof.Machine
end

