-- ==== Sys2Proof/Laws/KeepWeave.lean ====
section
/-! SUPPORT. What the operations of Weave, Cal, Acquire keep: one lemma each for `State.kept` and for `State.sizes`. -/

set_option maxRecDepth 4000

namespace Sys2Proof.Machine

/-! ### Weave -/

@[simp] theorem strokeExc_kept (c : ℕ) (k : Stroke) (b : Time) (s : State) : (strokeExc c k b s).kept = s.kept := by
  unfold strokeExc
  simp

@[simp] theorem beginStroke_kept (c : ℕ) (i : ℕ) (b : Time) (s : State) : (beginStroke c i b s).kept = s.kept := by
  unfold beginStroke
  simp
  repeat' (first | (simp; done) | (split <;> simp_all <;> done) | split)

@[simp] theorem beginRound_kept (c : ℕ) (b : Time) (s : State) : (beginRound c b s).kept = s.kept := by
  unfold beginRound
  simp

@[simp] theorem beginWeave_kept (c : ℕ) (t0 : Time) (s : State) : (beginWeave c t0 s).kept = s.kept := by
  unfold beginWeave
  simp

@[simp] theorem endWeave_kept (c : ℕ) (e : Time) (s : State) : (endWeave c e s).kept = s.kept := by
  unfold endWeave
  simp
  repeat' (first | (simp; done) | (split <;> simp_all <;> done) | split)

@[simp] theorem afterRound_kept (c : ℕ) (img : WeaveImg) (e : Time) (s : State) : (afterRound c img e s).kept = s.kept := by
  unfold afterRound
  simp

@[simp] theorem execStrokeBoundary_kept (t : Time) (ch : Fin 64) (s0 : State) : okept (tick t s0).kept (execStrokeBoundary t ch s0) = (tick t s0).kept := by
  unfold execStrokeBoundary
  simp
  repeat' (first | (simp; done) | (split <;> simp_all <;> done) | split)

@[simp] theorem execRoundStart_kept (t : Time) (ch : Fin 64) (s0 : State) : okept (tick t s0).kept (execRoundStart t ch s0) = (tick t s0).kept := by
  unfold execRoundStart
  simp
  repeat' (first | (simp; done) | (split <;> simp_all <;> done) | split)

@[simp] theorem execWeaveArmedStart_kept (t : Time) (ch : Fin 64) (s0 : State) : okept (tick t s0).kept (execWeaveArmedStart t ch s0) = (tick t s0).kept := by
  unfold execWeaveArmedStart
  simp
  repeat' (first | (simp; done) | (split <;> simp_all <;> done) | split)

@[simp] theorem stopWeave_kept (mode : ℕ) (f : Time) (c : ℕ) (s : State) : (stopWeave mode f c s).kept = s.kept := by
  unfold stopWeave
  simp
  repeat' (first | (simp; done) | (split <;> simp_all <;> done) | split)

@[simp] theorem ownWeaveLoad_kept (img : Bool) (rq : Request) (s : State) : (ownWeaveLoad img rq s).st.kept = s.kept := by
  unfold ownWeaveLoad
  simp
  repeat' (first | (simp; done) | (split <;> simp_all <;> done) | split)

@[simp] theorem execWeaveLoad_kept (t : Time) (rq : Request) (s : State) : okept (tick t s).kept (execWeaveLoad t rq s) = (tick t s).kept := by
  unfold execWeaveLoad
  simp

@[simp] theorem ownWeaveStart_kept (rq : Request) (s : State) : (ownWeaveStart rq s).st.kept = s.kept := by
  unfold ownWeaveStart
  extract_lets q1 cs trig late tgt arm armAll bad
  have hA : ∀ f s, (armAll f s).kept = s.kept := by
    intro f s
    simp only [armAll]
    simp
  generalize armAll = armAll at hA
  clear_value trig late arm bad
  repeat' split
  all_goals simp [hA]

@[simp] theorem execWeaveStart_kept (t : Time) (rq : Request) (s : State) : okept (tick t s).kept (execWeaveStart t rq s) = (tick t s).kept := by
  unfold execWeaveStart
  simp

@[simp] theorem ownWeaveStop_kept (rq : Request) (s : State) : (ownWeaveStop rq s).st.kept = s.kept := by
  unfold ownWeaveStop
  simp

@[simp] theorem execWeaveStop_kept (t : Time) (rq : Request) (s : State) : okept (tick t s).kept (execWeaveStop t rq s) = (tick t s).kept := by
  unfold execWeaveStop
  simp

@[simp] theorem ownWeaveStatus_kept (rq : Request) (s : State) : (ownWeaveStatus rq s).st.kept = s.kept := by
  unfold ownWeaveStatus
  simp

@[simp] theorem execWeaveStatus_kept (t : Time) (rq : Request) (s : State) : okept (tick t s).kept (execWeaveStatus t rq s) = (tick t s).kept := by
  unfold execWeaveStatus
  simp

@[simp] theorem strokeExc_sizes (c : ℕ) (k : Stroke) (b : Time) (s : State) : (strokeExc c k b s).sizes = s.sizes := by
  unfold strokeExc
  simp

@[simp] theorem beginStroke_sizes (c : ℕ) (i : ℕ) (b : Time) (s : State) : (beginStroke c i b s).sizes = s.sizes := by
  unfold beginStroke
  simp
  repeat' (first | (simp; done) | (split <;> simp_all <;> done) | split)

@[simp] theorem beginRound_sizes (c : ℕ) (b : Time) (s : State) : (beginRound c b s).sizes = s.sizes := by
  unfold beginRound
  simp

@[simp] theorem beginWeave_sizes (c : ℕ) (t0 : Time) (s : State) : (beginWeave c t0 s).sizes = s.sizes := by
  unfold beginWeave
  simp

@[simp] theorem endWeave_sizes (c : ℕ) (e : Time) (s : State) : (endWeave c e s).sizes = s.sizes := by
  unfold endWeave
  simp
  repeat' (first | (simp; done) | (split <;> simp_all <;> done) | split)

@[simp] theorem afterRound_sizes (c : ℕ) (img : WeaveImg) (e : Time) (s : State) : (afterRound c img e s).sizes = s.sizes := by
  unfold afterRound
  simp

@[simp] theorem execStrokeBoundary_sizes (t : Time) (ch : Fin 64) (s0 : State) : osizes (tick t s0).sizes (execStrokeBoundary t ch s0) = (tick t s0).sizes := by
  unfold execStrokeBoundary
  simp
  repeat' (first | (simp; done) | (split <;> simp_all <;> done) | split)

@[simp] theorem execRoundStart_sizes (t : Time) (ch : Fin 64) (s0 : State) : osizes (tick t s0).sizes (execRoundStart t ch s0) = (tick t s0).sizes := by
  unfold execRoundStart
  simp
  repeat' (first | (simp; done) | (split <;> simp_all <;> done) | split)

@[simp] theorem execWeaveArmedStart_sizes (t : Time) (ch : Fin 64) (s0 : State) : osizes (tick t s0).sizes (execWeaveArmedStart t ch s0) = (tick t s0).sizes := by
  unfold execWeaveArmedStart
  simp
  repeat' (first | (simp; done) | (split <;> simp_all <;> done) | split)

@[simp] theorem stopWeave_sizes (mode : ℕ) (f : Time) (c : ℕ) (s : State) : (stopWeave mode f c s).sizes = s.sizes := by
  unfold stopWeave
  simp
  repeat' (first | (simp; done) | (split <;> simp_all <;> done) | split)

@[simp] theorem ownWeaveLoad_sizes (img : Bool) (rq : Request) (s : State) : (ownWeaveLoad img rq s).st.sizes = s.sizes := by
  unfold ownWeaveLoad
  simp
  repeat' (first | (simp; done) | (split <;> simp_all <;> done) | split)

@[simp] theorem execWeaveLoad_sizes (t : Time) (rq : Request) (s : State) : osizes (tick t s).sizes (execWeaveLoad t rq s) = (tick t s).sizes := by
  unfold execWeaveLoad
  simp

@[simp] theorem ownWeaveStart_sizes (rq : Request) (s : State) : (ownWeaveStart rq s).st.sizes = s.sizes := by
  unfold ownWeaveStart
  extract_lets q1 cs trig late tgt arm armAll bad
  have hA : ∀ f s, (armAll f s).sizes = s.sizes := by
    intro f s
    simp only [armAll]
    simp
  generalize armAll = armAll at hA
  clear_value trig late arm bad
  repeat' split
  all_goals simp [hA]

@[simp] theorem execWeaveStart_sizes (t : Time) (rq : Request) (s : State) : osizes (tick t s).sizes (execWeaveStart t rq s) = (tick t s).sizes := by
  unfold execWeaveStart
  simp

@[simp] theorem ownWeaveStop_sizes (rq : Request) (s : State) : (ownWeaveStop rq s).st.sizes = s.sizes := by
  unfold ownWeaveStop
  simp

@[simp] theorem execWeaveStop_sizes (t : Time) (rq : Request) (s : State) : osizes (tick t s).sizes (execWeaveStop t rq s) = (tick t s).sizes := by
  unfold execWeaveStop
  simp

@[simp] theorem ownWeaveStatus_sizes (rq : Request) (s : State) : (ownWeaveStatus rq s).st.sizes = s.sizes := by
  unfold ownWeaveStatus
  simp

@[simp] theorem execWeaveStatus_sizes (t : Time) (rq : Request) (s : State) : osizes (tick t s).sizes (execWeaveStatus t rq s) = (tick t s).sizes := by
  unfold execWeaveStatus
  simp

/-! ### Cal -/

@[simp] theorem modCalNv_kept (f : CalRegion → CalRegion) (s : State) : (modCalNv f s).kept = s.kept := by
  unfold modCalNv
  simp

@[simp] theorem storeSets_kept (conv : ℕ) (completed : Bool) (s : State) : (storeSets conv completed s).kept = s.kept := by
  unfold storeSets
  simp

@[simp] theorem recordFailures_kept (s : State) : (recordFailures s).kept = s.kept := by
  unfold recordFailures
  simp

@[simp] theorem flushStores_kept (s : State) : (flushStores s).kept = s.kept := by
  unfold flushStores
  simp

@[simp] theorem loadConv_kept (conv : ℕ) (s : State) : (loadConv conv s).kept = s.kept := by
  unfold loadConv
  simp

@[simp] theorem putSets_kept (conv : ℕ) (sets : List CoefSet) (s : State) : (putSets conv sets s).kept = s.kept := by
  unfold putSets
  simp

@[simp] theorem calRefreshAll_kept (s : State) : (calRefreshAll s).kept = s.kept := by
  unfold calRefreshAll
  simp

@[simp] theorem endSlotAs_kept (completed : Bool) (g : ℕ) (s : State) : (endSlotAs completed g s).kept = s.kept := by
  unfold endSlotAs
  simp

@[simp] theorem endSlot_kept (g : ℕ) (s : State) : (endSlot g s).kept = s.kept := by
  unfold endSlot
  simp

@[simp] theorem bringForward_kept (c : ℕ) (s : State) : (bringForward c s).kept = s.kept := by
  unfold bringForward
  simp

@[simp] theorem startSlot_kept (g : ℕ) (c : ℕ) (outOf : Bool) (s : State) : (startSlot g c outOf s).kept = s.kept := by
  unfold startSlot
  simp

@[simp] theorem execCalSlotStart_kept (t : Time) (g : Fin 8) (tempChange : ℕ) (s0 : State) : okept (tick t s0).kept (execCalSlotStart t g tempChange s0) = (tick t s0).kept := by
  unfold execCalSlotStart
  simp
  repeat' (first | (simp; done) | (split <;> simp_all <;> done) | split)

@[simp] theorem execCalSpareCheckDone_kept (t : Time) (g : Fin 8) (s0 : State) : okept (tick t s0).kept (execCalSpareCheckDone t g s0) = (tick t s0).kept := by
  unfold execCalSpareCheckDone
  simp

@[simp] theorem spareFails_kept (g : ℕ) (firstBad : Time) (s : State) : (spareFails g firstBad s).kept = s.kept := by
  unfold spareFails
  simp

@[simp] theorem execCalOverlapClose_kept (t : Time) (g : Fin 8) (s0 : State) : okept (tick t s0).kept (execCalOverlapClose t g s0) = (tick t s0).kept := by
  unfold execCalOverlapClose
  simp
  repeat' (first | (simp; done) | (split <;> simp_all <;> done) | split)

@[simp] theorem switchTo_kept (c : ℕ) (sub : Subst) (m : Merger) (s : State) : (switchTo c sub m s).kept = s.kept := by
  unfold switchTo
  simp

@[simp] theorem handBack_kept (g : ℕ) (c : ℕ) (new : Bool) (s : State) : (handBack g c new s).kept = s.kept := by
  unfold handBack
  simp

@[simp] theorem execCalHandoverSwitch_kept (t : Time) (g : Fin 8) (s0 : State) : okept (tick t s0).kept (execCalHandoverSwitch t g s0) = (tick t s0).kept := by
  unfold execCalHandoverSwitch
  simp
  repeat' (first | (simp; done) | (split <;> simp_all <;> done) | split)

@[simp] theorem execCalMeasurementDone_kept (t : Time) (g : Fin 8) (sets : CalResult) (inLimits : Bool) (s0 : State) : okept (tick t s0).kept (execCalMeasurementDone t g sets inLimits s0) = (tick t s0).kept := by
  unfold execCalMeasurementDone
  simp

@[simp] theorem execSpareRecheckDone_kept (t : Time) (g : Fin 8) (good : Bool) (s0 : State) : okept (tick t s0).kept (execSpareRecheckDone t g good s0) = (tick t s0).kept := by
  unfold execSpareRecheckDone
  simp
  repeat' (first | (simp; done) | (split <;> simp_all <;> done) | split)

@[simp] theorem execSpareRecalibrationDone_kept (t : Time) (g : Fin 8) (sets : CalResult) (s0 : State) : okept (tick t s0).kept (execSpareRecalibrationDone t g sets s0) = (tick t s0).kept := by
  unfold execSpareRecalibrationDone
  simp

@[simp] theorem execCalOverlapLimit_kept (t : Time) (g : Fin 8) (s0 : State) : okept (tick t s0).kept (execCalOverlapLimit t g s0) = (tick t s0).kept := by
  unfold execCalOverlapLimit
  simp
  repeat' (first | (simp; done) | (split <;> simp_all <;> done) | split)

@[simp] theorem execCalHandbackDelayed_kept (t : Time) (g : Fin 8) (s0 : State) : okept (tick t s0).kept (execCalHandbackDelayed t g s0) = (tick t s0).kept := by
  unfold execCalHandbackDelayed
  simp

@[simp] theorem newConverter_kept (c : ℕ) (from_ : Time) (s : State) : (newConverter c from_ s).kept = s.kept := by
  unfold newConverter
  simp

@[simp] theorem takeBack_kept (c : ℕ) (s : State) : (takeBack c s).kept = s.kept := by
  unfold takeBack
  simp

@[simp] theorem abandonForFailure_kept (g : ℕ) (s : State) : (abandonForFailure g s).kept = s.kept := by
  unfold abandonForFailure
  simp

@[simp] theorem releaseFails_kept (g : ℕ) (s : State) : (releaseFails g s).kept = s.kept := by
  unfold releaseFails
  simp

@[simp] theorem abandonSlot_kept (g : ℕ) (s : State) : (abandonSlot g s).kept = s.kept := by
  unfold abandonSlot
  simp

@[simp] theorem abandonAll_kept (s : State) : (abandonAll s).kept = s.kept := by
  unfold abandonAll
  simp

@[simp] theorem substitute_kept (g : ℕ) (c : ℕ) (t0 : Time) (s : State) : (substitute g c t0 s).kept = s.kept := by
  unfold substitute
  simp

@[simp] theorem unsubstitute_kept (c : ℕ) (s : State) : (unsubstitute c s).kept = s.kept := by
  unfold unsubstitute
  simp

@[simp] theorem withholdBad_kept (c : ℕ) (substituted : Bool) (firstBad : Time) (s : State) : (withholdBad c substituted firstBad s).kept = s.kept := by
  unfold withholdBad
  simp

@[simp] theorem execChannelFailureDetect_kept (t : Time) (g : Fin 8) (ch : Option (Fin 8)) (detector : Fin 5) (firstBad : Time) (s0 : State) : okept (tick t s0).kept (execChannelFailureDetect t g ch detector firstBad s0) = (tick t s0).kept := by
  unfold execChannelFailureDetect
  simp
  repeat' (first | (simp; done) | (split <;> simp_all <;> done) | split)

@[simp] theorem execSpareConnect_kept (t : Time) (g : Fin 8) (s0 : State) : okept (tick t s0).kept (execSpareConnect t g s0) = (tick t s0).kept := by
  unfold execSpareConnect
  simp
  repeat' (first | (simp; done) | (split <;> simp_all <;> done) | split)

@[simp] theorem execSpareSettleEnd_kept (t : Time) (g : Fin 8) (s0 : State) : okept (tick t s0).kept (execSpareSettleEnd t g s0) = (tick t s0).kept := by
  unfold execSpareSettleEnd
  simp
  repeat' (first | (simp; done) | (split <;> simp_all <;> done) | split)

@[simp] theorem execSubstituteBistDone_kept (t : Time) (g : Fin 8) (passed : Bool) (s0 : State) : okept (tick t s0).kept (execSubstituteBistDone t g passed s0) = (tick t s0).kept := by
  unfold execSubstituteBistDone
  simp

@[simp] theorem execPathMismatchCheck_kept (t : Time) (ch : Fin 64) (meanHg : ℤ) (meanLg : ℤ) (s0 : State) : okept (tick t s0).kept (execPathMismatchCheck t ch meanHg meanLg s0) = (tick t s0).kept := by
  unfold execPathMismatchCheck
  simp

@[simp] theorem execTempCompUpdate_kept (t : Time) (g : Fin 8) (s0 : State) : okept (tick t s0).kept (execTempCompUpdate t g s0) = (tick t s0).kept := by
  unfold execTempCompUpdate
  simp
  repeat' (first | (simp; done) | (split <;> simp_all <;> done) | split)

@[simp] theorem ownCalConfig_kept (img : Bool) (rq : Request) (s : State) : (ownCalConfig img rq s).st.kept = s.kept := by
  unfold ownCalConfig
  simp

@[simp] theorem execCalConfig_kept (t : Time) (rq : Request) (s : State) : okept (tick t s).kept (execCalConfig t rq s) = (tick t s).kept := by
  unfold execCalConfig
  simp

@[simp] theorem ownCalStart_kept (rq : Request) (s : State) : (ownCalStart rq s).st.kept = s.kept := by
  unfold ownCalStart
  simp

@[simp] theorem execCalStart_kept (t : Time) (rq : Request) (s : State) : okept (tick t s).kept (execCalStart t rq s) = (tick t s).kept := by
  unfold execCalStart
  simp

@[simp] theorem ownCalStop_kept (rq : Request) (s : State) : (ownCalStop rq s).st.kept = s.kept := by
  unfold ownCalStop
  simp

@[simp] theorem execCalStop_kept (t : Time) (rq : Request) (s : State) : okept (tick t s).kept (execCalStop t rq s) = (tick t s).kept := by
  unfold execCalStop
  simp

@[simp] theorem ownCalRead_kept (readable : Bool) (rq : Request) (s : State) : (ownCalRead readable rq s).st.kept = s.kept := by
  unfold ownCalRead
  simp

@[simp] theorem execCalRead_kept (t : Time) (rq : Request) (readable : Bool) (s : State) : okept (tick t s).kept (execCalRead t rq readable s) = (tick t s).kept := by
  unfold execCalRead
  simp

@[simp] theorem ownCalWrite_kept (rq : Request) (s : State) : (ownCalWrite rq s).st.kept = s.kept := by
  unfold ownCalWrite
  simp

@[simp] theorem execCalWrite_kept (t : Time) (rq : Request) (s : State) : okept (tick t s).kept (execCalWrite t rq s) = (tick t s).kept := by
  unfold execCalWrite
  simp

@[simp] theorem ownCalRestoreFactory_kept (rq : Request) (s : State) : (ownCalRestoreFactory rq s).st.kept = s.kept := by
  unfold ownCalRestoreFactory
  simp

@[simp] theorem execCalRestoreFactory_kept (t : Time) (rq : Request) (s : State) : okept (tick t s).kept (execCalRestoreFactory t rq s) = (tick t s).kept := by
  unfold execCalRestoreFactory
  simp

@[simp] theorem modCalNv_sizes (f : CalRegion → CalRegion) (s : State) : (modCalNv f s).sizes = s.sizes := by
  unfold modCalNv
  simp

@[simp] theorem storeSets_sizes (conv : ℕ) (completed : Bool) (s : State) : (storeSets conv completed s).sizes = s.sizes := by
  unfold storeSets
  simp

@[simp] theorem recordFailures_sizes (s : State) : (recordFailures s).sizes = s.sizes := by
  unfold recordFailures
  simp

@[simp] theorem flushStores_sizes (s : State) : (flushStores s).sizes = s.sizes := by
  unfold flushStores
  simp

@[simp] theorem loadConv_sizes (conv : ℕ) (s : State) : (loadConv conv s).sizes = s.sizes := by
  unfold loadConv
  simp

@[simp] theorem putSets_sizes (conv : ℕ) (sets : List CoefSet) (s : State) : (putSets conv sets s).sizes = s.sizes := by
  unfold putSets
  simp

@[simp] theorem calRefreshAll_sizes (s : State) : (calRefreshAll s).sizes = s.sizes := by
  unfold calRefreshAll
  simp

@[simp] theorem endSlotAs_sizes (completed : Bool) (g : ℕ) (s : State) : (endSlotAs completed g s).sizes = s.sizes := by
  unfold endSlotAs
  simp

@[simp] theorem endSlot_sizes (g : ℕ) (s : State) : (endSlot g s).sizes = s.sizes := by
  unfold endSlot
  simp

@[simp] theorem bringForward_sizes (c : ℕ) (s : State) : (bringForward c s).sizes = s.sizes := by
  unfold bringForward
  simp

@[simp] theorem startSlot_sizes (g : ℕ) (c : ℕ) (outOf : Bool) (s : State) : (startSlot g c outOf s).sizes = s.sizes := by
  unfold startSlot
  simp

@[simp] theorem execCalSlotStart_sizes (t : Time) (g : Fin 8) (tempChange : ℕ) (s0 : State) : osizes (tick t s0).sizes (execCalSlotStart t g tempChange s0) = (tick t s0).sizes := by
  unfold execCalSlotStart
  simp
  repeat' (first | (simp; done) | (split <;> simp_all <;> done) | split)

@[simp] theorem execCalSpareCheckDone_sizes (t : Time) (g : Fin 8) (s0 : State) : osizes (tick t s0).sizes (execCalSpareCheckDone t g s0) = (tick t s0).sizes := by
  unfold execCalSpareCheckDone
  simp

@[simp] theorem spareFails_sizes (g : ℕ) (firstBad : Time) (s : State) : (spareFails g firstBad s).sizes = s.sizes := by
  unfold spareFails
  simp

@[simp] theorem execCalOverlapClose_sizes (t : Time) (g : Fin 8) (s0 : State) : osizes (tick t s0).sizes (execCalOverlapClose t g s0) = (tick t s0).sizes := by
  unfold execCalOverlapClose
  simp
  repeat' (first | (simp; done) | (split <;> simp_all <;> done) | split)

@[simp] theorem switchTo_sizes (c : ℕ) (sub : Subst) (m : Merger) (s : State) : (switchTo c sub m s).sizes = s.sizes := by
  unfold switchTo
  simp

@[simp] theorem handBack_sizes (g : ℕ) (c : ℕ) (new : Bool) (s : State) : (handBack g c new s).sizes = s.sizes := by
  unfold handBack
  simp

@[simp] theorem execCalHandoverSwitch_sizes (t : Time) (g : Fin 8) (s0 : State) : osizes (tick t s0).sizes (execCalHandoverSwitch t g s0) = (tick t s0).sizes := by
  unfold execCalHandoverSwitch
  simp
  repeat' (first | (simp; done) | (split <;> simp_all <;> done) | split)

@[simp] theorem execCalMeasurementDone_sizes (t : Time) (g : Fin 8) (sets : CalResult) (inLimits : Bool) (s0 : State) : osizes (tick t s0).sizes (execCalMeasurementDone t g sets inLimits s0) = (tick t s0).sizes := by
  unfold execCalMeasurementDone
  simp

@[simp] theorem execSpareRecheckDone_sizes (t : Time) (g : Fin 8) (good : Bool) (s0 : State) : osizes (tick t s0).sizes (execSpareRecheckDone t g good s0) = (tick t s0).sizes := by
  unfold execSpareRecheckDone
  simp
  repeat' (first | (simp; done) | (split <;> simp_all <;> done) | split)

@[simp] theorem execSpareRecalibrationDone_sizes (t : Time) (g : Fin 8) (sets : CalResult) (s0 : State) : osizes (tick t s0).sizes (execSpareRecalibrationDone t g sets s0) = (tick t s0).sizes := by
  unfold execSpareRecalibrationDone
  simp

@[simp] theorem execCalOverlapLimit_sizes (t : Time) (g : Fin 8) (s0 : State) : osizes (tick t s0).sizes (execCalOverlapLimit t g s0) = (tick t s0).sizes := by
  unfold execCalOverlapLimit
  simp
  repeat' (first | (simp; done) | (split <;> simp_all <;> done) | split)

@[simp] theorem execCalHandbackDelayed_sizes (t : Time) (g : Fin 8) (s0 : State) : osizes (tick t s0).sizes (execCalHandbackDelayed t g s0) = (tick t s0).sizes := by
  unfold execCalHandbackDelayed
  simp

@[simp] theorem newConverter_sizes (c : ℕ) (from_ : Time) (s : State) : (newConverter c from_ s).sizes = s.sizes := by
  unfold newConverter
  simp

@[simp] theorem takeBack_sizes (c : ℕ) (s : State) : (takeBack c s).sizes = s.sizes := by
  unfold takeBack
  simp

@[simp] theorem abandonForFailure_sizes (g : ℕ) (s : State) : (abandonForFailure g s).sizes = s.sizes := by
  unfold abandonForFailure
  simp

@[simp] theorem releaseFails_sizes (g : ℕ) (s : State) : (releaseFails g s).sizes = s.sizes := by
  unfold releaseFails
  simp

@[simp] theorem abandonSlot_sizes (g : ℕ) (s : State) : (abandonSlot g s).sizes = s.sizes := by
  unfold abandonSlot
  simp

@[simp] theorem abandonAll_sizes (s : State) : (abandonAll s).sizes = s.sizes := by
  unfold abandonAll
  simp

@[simp] theorem substitute_sizes (g : ℕ) (c : ℕ) (t0 : Time) (s : State) : (substitute g c t0 s).sizes = s.sizes := by
  unfold substitute
  simp

@[simp] theorem unsubstitute_sizes (c : ℕ) (s : State) : (unsubstitute c s).sizes = s.sizes := by
  unfold unsubstitute
  simp

@[simp] theorem withholdBad_sizes (c : ℕ) (substituted : Bool) (firstBad : Time) (s : State) : (withholdBad c substituted firstBad s).sizes = s.sizes := by
  unfold withholdBad
  simp

@[simp] theorem execChannelFailureDetect_sizes (t : Time) (g : Fin 8) (ch : Option (Fin 8)) (detector : Fin 5) (firstBad : Time) (s0 : State) : osizes (tick t s0).sizes (execChannelFailureDetect t g ch detector firstBad s0) = (tick t s0).sizes := by
  unfold execChannelFailureDetect
  simp
  repeat' (first | (simp; done) | (split <;> simp_all <;> done) | split)

@[simp] theorem execSpareConnect_sizes (t : Time) (g : Fin 8) (s0 : State) : osizes (tick t s0).sizes (execSpareConnect t g s0) = (tick t s0).sizes := by
  unfold execSpareConnect
  simp
  repeat' (first | (simp; done) | (split <;> simp_all <;> done) | split)

@[simp] theorem execSpareSettleEnd_sizes (t : Time) (g : Fin 8) (s0 : State) : osizes (tick t s0).sizes (execSpareSettleEnd t g s0) = (tick t s0).sizes := by
  unfold execSpareSettleEnd
  simp
  repeat' (first | (simp; done) | (split <;> simp_all <;> done) | split)

@[simp] theorem execSubstituteBistDone_sizes (t : Time) (g : Fin 8) (passed : Bool) (s0 : State) : osizes (tick t s0).sizes (execSubstituteBistDone t g passed s0) = (tick t s0).sizes := by
  unfold execSubstituteBistDone
  simp

@[simp] theorem execPathMismatchCheck_sizes (t : Time) (ch : Fin 64) (meanHg : ℤ) (meanLg : ℤ) (s0 : State) : osizes (tick t s0).sizes (execPathMismatchCheck t ch meanHg meanLg s0) = (tick t s0).sizes := by
  unfold execPathMismatchCheck
  simp

@[simp] theorem execTempCompUpdate_sizes (t : Time) (g : Fin 8) (s0 : State) : osizes (tick t s0).sizes (execTempCompUpdate t g s0) = (tick t s0).sizes := by
  unfold execTempCompUpdate
  simp
  repeat' (first | (simp; done) | (split <;> simp_all <;> done) | split)

@[simp] theorem ownCalConfig_sizes (img : Bool) (rq : Request) (s : State) : (ownCalConfig img rq s).st.sizes = s.sizes := by
  unfold ownCalConfig
  simp

@[simp] theorem execCalConfig_sizes (t : Time) (rq : Request) (s : State) : osizes (tick t s).sizes (execCalConfig t rq s) = (tick t s).sizes := by
  unfold execCalConfig
  simp

@[simp] theorem ownCalStart_sizes (rq : Request) (s : State) : (ownCalStart rq s).st.sizes = s.sizes := by
  unfold ownCalStart
  simp

@[simp] theorem execCalStart_sizes (t : Time) (rq : Request) (s : State) : osizes (tick t s).sizes (execCalStart t rq s) = (tick t s).sizes := by
  unfold execCalStart
  simp

@[simp] theorem ownCalStop_sizes (rq : Request) (s : State) : (ownCalStop rq s).st.sizes = s.sizes := by
  unfold ownCalStop
  simp

@[simp] theorem execCalStop_sizes (t : Time) (rq : Request) (s : State) : osizes (tick t s).sizes (execCalStop t rq s) = (tick t s).sizes := by
  unfold execCalStop
  simp

@[simp] theorem ownCalRead_sizes (readable : Bool) (rq : Request) (s : State) : (ownCalRead readable rq s).st.sizes = s.sizes := by
  unfold ownCalRead
  simp

@[simp] theorem execCalRead_sizes (t : Time) (rq : Request) (readable : Bool) (s : State) : osizes (tick t s).sizes (execCalRead t rq readable s) = (tick t s).sizes := by
  unfold execCalRead
  simp

@[simp] theorem ownCalWrite_sizes (rq : Request) (s : State) : (ownCalWrite rq s).st.sizes = s.sizes := by
  unfold ownCalWrite
  simp

@[simp] theorem execCalWrite_sizes (t : Time) (rq : Request) (s : State) : osizes (tick t s).sizes (execCalWrite t rq s) = (tick t s).sizes := by
  unfold execCalWrite
  simp

@[simp] theorem ownCalRestoreFactory_sizes (rq : Request) (s : State) : (ownCalRestoreFactory rq s).st.sizes = s.sizes := by
  unfold ownCalRestoreFactory
  simp

@[simp] theorem execCalRestoreFactory_sizes (t : Time) (rq : Request) (s : State) : osizes (tick t s).sizes (execCalRestoreFactory t rq s) = (tick t s).sizes := by
  unfold execCalRestoreFactory
  simp

/-! ### Acquire -/

@[simp] theorem modOper_kept (n : ℕ) (f : OpSlot → OpSlot) (s : State) : (modOper n f s).kept = s.kept := by
  unfold modOper
  simp

@[simp] theorem opDeliver_kept (n : ℕ) (ins : List ℕ) (node : Option (BitVec 16)) (a : ℕ) (r : QRec) (gapBefore : Bool) (s : State) : (opDeliver n ins node a r gapBefore s).kept = s.kept := by
  unfold opDeliver
  simp

@[simp] theorem opDeliverAll_kept (node : Option (BitVec 16)) (a : ℕ) (r : QRec) (gap : Bool) (s : State) : (opDeliverAll node a r gap s).kept = s.kept := by
  unfold opDeliverAll
  simp

@[simp] theorem execRecordDispatch_kept (t : Time) (ch : Fin 64) (s0 : State) : okept (tick t s0).kept (execRecordDispatch t ch s0) = (tick t s0).kept := by
  unfold execRecordDispatch
  simp
  repeat' (first | (simp; done) | (split <;> simp_all <;> done) | split)

@[simp] theorem modBlank_kept (i : ℕ) (f : BlankSrc → BlankSrc) (s : State) : (modBlank i f s).kept = s.kept := by
  unfold modBlank
  simp

@[simp] theorem blankOn_kept (i : ℕ) (rise : Time) (from_ : Time) (s : State) : (blankOn i rise from_ s).kept = s.kept := by
  unfold blankOn
  simp

@[simp] theorem blankOff_kept (i : ℕ) (fall : Time) (to_ : Time) (s : State) : (blankOff i fall to_ s).kept = s.kept := by
  unfold blankOff
  simp

@[simp] theorem execBlankAssert_kept (t : Time) (pin : Fin 4) (widthNs : ℕ) (s0 : State) : okept (tick t s0).kept (execBlankAssert t pin widthNs s0) = (tick t s0).kept := by
  unfold execBlankAssert
  simp

@[simp] theorem execBlankRelease_kept (t : Time) (pin : Fin 4) (s0 : State) : okept (tick t s0).kept (execBlankRelease t pin s0) = (tick t s0).kept := by
  unfold execBlankRelease
  simp

@[simp] theorem execBlankStuck_kept (t : Time) (src : Fin 8) (s0 : State) : okept (tick t s0).kept (execBlankStuck t src s0) = (tick t s0).kept := by
  unfold execBlankStuck
  simp

@[simp] theorem execTblkWindowEnd_kept (t : Time) (line : Fin 4) (s0 : State) : okept (tick t s0).kept (execTblkWindowEnd t line s0) = (tick t s0).kept := by
  unfold execTblkWindowEnd
  simp
  repeat' (first | (simp; done) | (split <;> simp_all <;> done) | split)

@[simp] theorem blankWindow_kept (line : ℕ) (f : Time) (end_ : Time) (s : State) : (blankWindow line f end_ s).kept = s.kept := by
  unfold blankWindow
  simp

@[simp] theorem addSync_kept (g : ℕ) (at_ : Time) (s : State) : (addSync g at_ s).kept = s.kept := by
  unfold addSync
  simp

@[simp] theorem execSyncNEdge_kept (t : Time) (lowNs : ℕ) (s0 : State) : okept (tick t s0).kept (execSyncNEdge t lowNs s0) = (tick t s0).kept := by
  unfold execSyncNEdge
  simp

@[simp] theorem syncGrid_kept (c : ℕ) (ts : Time) (s : State) : (syncGrid c ts s).kept = s.kept := by
  unfold syncGrid
  simp

@[simp] theorem syncChan_kept (c : ℕ) (ts : Time) (s : State) : (syncChan c ts s).kept = s.kept := by
  unfold syncChan
  simp
  repeat' (first | (simp; done) | (split <;> simp_all <;> done) | split)

@[simp] theorem syncGroup_kept (g : ℕ) (ts : Time) (s : State) : (syncGroup g ts s).kept = s.kept := by
  unfold syncGroup
  simp

@[simp] theorem execGroupSync_kept (t : Time) (g : Fin 8) (s0 : State) : okept (tick t s0).kept (execGroupSync t g s0) = (tick t s0).kept := by
  unfold execGroupSync
  simp
  repeat' (first | (simp; done) | (split <;> simp_all <;> done) | split)

@[simp] theorem execRefValidityChange_kept (t : Time) (gen : Option (Fin 16)) (valid : Bool) (s0 : State) : okept (tick t s0).kept (execRefValidityChange t gen valid s0) = (tick t s0).kept := by
  unfold execRefValidityChange
  split <;> simp

@[simp] theorem execExcComplianceChange_kept (t : Time) (n : Fin 16) (entry : Bool) (s0 : State) : okept (tick t s0).kept (execExcComplianceChange t n entry s0) = (tick t s0).kept := by
  unfold execExcComplianceChange
  simp

@[simp] theorem execExcTrip_kept (t : Time) (n : Fin 16) (pins : Fin 3) (s0 : State) : okept (tick t s0).kept (execExcTrip t n pins s0) = (tick t s0).kept := by
  unfold execExcTrip
  simp

@[simp] theorem execExcOverload_kept (t : Time) (n : Fin 16) (averageMa : ℕ) (belowFor : ℕ) (s0 : State) : okept (tick t s0).kept (execExcOverload t n averageMa belowFor s0) = (tick t s0).kept := by
  unfold execExcOverload
  simp

@[simp] theorem execLeadDropMeasure_kept (t : Time) (n : Fin 16) (dropP : ℤ) (dropN : ℤ) (s0 : State) : okept (tick t s0).kept (execLeadDropMeasure t n dropP dropN s0) = (tick t s0).kept := by
  unfold execLeadDropMeasure
  simp

@[simp] theorem execAcPolaritySwap_kept (t : Time) (n : Fin 16) (s0 : State) : okept (tick t s0).kept (execAcPolaritySwap t n s0) = (tick t s0).kept := by
  unfold execAcPolaritySwap
  simp

@[simp] theorem execAcDeadTimeEnd_kept (t : Time) (n : Fin 16) (s0 : State) : okept (tick t s0).kept (execAcDeadTimeEnd t n s0) = (tick t s0).kept := by
  unfold execAcDeadTimeEnd
  simp
  repeat' (first | (simp; done) | (split <;> simp_all <;> done) | split)

@[simp] theorem loopDev_kept (g : Gen) (mean : ℤ) (s : State) : (loopDev g mean s).2.kept = s.kept := by
  unfold loopDev
  split <;> simp

@[simp] theorem execLoopbackEnd_kept (t : Time) (ch : Fin 64) (mean : ℤ) (rms : ℤ) (count : ℕ) (s0 : State) : okept (tick t s0).kept (execLoopbackEnd t ch mean rms count s0) = (tick t s0).kept := by
  unfold execLoopbackEnd
  simp
  repeat' (first | (simp; done) | (split <;> simp_all <;> done) | split)

@[simp] theorem modOper_sizes (n : ℕ) (f : OpSlot → OpSlot) (s : State) : (modOper n f s).sizes = s.sizes := by
  unfold modOper
  simp

@[simp] theorem opDeliver_sizes (n : ℕ) (ins : List ℕ) (node : Option (BitVec 16)) (a : ℕ) (r : QRec) (gapBefore : Bool) (s : State) : (opDeliver n ins node a r gapBefore s).sizes = s.sizes := by
  unfold opDeliver
  simp

@[simp] theorem opDeliverAll_sizes (node : Option (BitVec 16)) (a : ℕ) (r : QRec) (gap : Bool) (s : State) : (opDeliverAll node a r gap s).sizes = s.sizes := by
  unfold opDeliverAll
  simp

@[simp] theorem execRecordDispatch_sizes (t : Time) (ch : Fin 64) (s0 : State) : osizes (tick t s0).sizes (execRecordDispatch t ch s0) = (tick t s0).sizes := by
  unfold execRecordDispatch
  simp
  repeat' (first | (simp; done) | (split <;> simp_all <;> done) | split)

@[simp] theorem modBlank_sizes (i : ℕ) (f : BlankSrc → BlankSrc) (s : State) : (modBlank i f s).sizes = s.sizes := by
  unfold modBlank
  simp

@[simp] theorem blankOn_sizes (i : ℕ) (rise : Time) (from_ : Time) (s : State) : (blankOn i rise from_ s).sizes = s.sizes := by
  unfold blankOn
  simp

@[simp] theorem blankOff_sizes (i : ℕ) (fall : Time) (to_ : Time) (s : State) : (blankOff i fall to_ s).sizes = s.sizes := by
  unfold blankOff
  simp

@[simp] theorem execBlankAssert_sizes (t : Time) (pin : Fin 4) (widthNs : ℕ) (s0 : State) : osizes (tick t s0).sizes (execBlankAssert t pin widthNs s0) = (tick t s0).sizes := by
  unfold execBlankAssert
  simp

@[simp] theorem execBlankRelease_sizes (t : Time) (pin : Fin 4) (s0 : State) : osizes (tick t s0).sizes (execBlankRelease t pin s0) = (tick t s0).sizes := by
  unfold execBlankRelease
  simp

@[simp] theorem execBlankStuck_sizes (t : Time) (src : Fin 8) (s0 : State) : osizes (tick t s0).sizes (execBlankStuck t src s0) = (tick t s0).sizes := by
  unfold execBlankStuck
  simp

@[simp] theorem execTblkWindowEnd_sizes (t : Time) (line : Fin 4) (s0 : State) : osizes (tick t s0).sizes (execTblkWindowEnd t line s0) = (tick t s0).sizes := by
  unfold execTblkWindowEnd
  simp
  repeat' (first | (simp; done) | (split <;> simp_all <;> done) | split)

@[simp] theorem blankWindow_sizes (line : ℕ) (f : Time) (end_ : Time) (s : State) : (blankWindow line f end_ s).sizes = s.sizes := by
  unfold blankWindow
  simp

@[simp] theorem addSync_sizes (g : ℕ) (at_ : Time) (s : State) : (addSync g at_ s).sizes = s.sizes := by
  unfold addSync
  simp

@[simp] theorem execSyncNEdge_sizes (t : Time) (lowNs : ℕ) (s0 : State) : osizes (tick t s0).sizes (execSyncNEdge t lowNs s0) = (tick t s0).sizes := by
  unfold execSyncNEdge
  simp

@[simp] theorem syncGrid_sizes (c : ℕ) (ts : Time) (s : State) : (syncGrid c ts s).sizes = s.sizes := by
  unfold syncGrid
  simp

@[simp] theorem syncChan_sizes (c : ℕ) (ts : Time) (s : State) : (syncChan c ts s).sizes = s.sizes := by
  unfold syncChan
  simp
  repeat' (first | (simp; done) | (split <;> simp_all <;> done) | split)

@[simp] theorem syncGroup_sizes (g : ℕ) (ts : Time) (s : State) : (syncGroup g ts s).sizes = s.sizes := by
  unfold syncGroup
  simp

@[simp] theorem execGroupSync_sizes (t : Time) (g : Fin 8) (s0 : State) : osizes (tick t s0).sizes (execGroupSync t g s0) = (tick t s0).sizes := by
  unfold execGroupSync
  simp
  repeat' (first | (simp; done) | (split <;> simp_all <;> done) | split)

@[simp] theorem execRefValidityChange_sizes (t : Time) (gen : Option (Fin 16)) (valid : Bool) (s0 : State) : osizes (tick t s0).sizes (execRefValidityChange t gen valid s0) = (tick t s0).sizes := by
  unfold execRefValidityChange
  split <;> simp

@[simp] theorem execExcComplianceChange_sizes (t : Time) (n : Fin 16) (entry : Bool) (s0 : State) : osizes (tick t s0).sizes (execExcComplianceChange t n entry s0) = (tick t s0).sizes := by
  unfold execExcComplianceChange
  simp

@[simp] theorem execExcTrip_sizes (t : Time) (n : Fin 16) (pins : Fin 3) (s0 : State) : osizes (tick t s0).sizes (execExcTrip t n pins s0) = (tick t s0).sizes := by
  unfold execExcTrip
  simp

@[simp] theorem execExcOverload_sizes (t : Time) (n : Fin 16) (averageMa : ℕ) (belowFor : ℕ) (s0 : State) : osizes (tick t s0).sizes (execExcOverload t n averageMa belowFor s0) = (tick t s0).sizes := by
  unfold execExcOverload
  simp

@[simp] theorem execLeadDropMeasure_sizes (t : Time) (n : Fin 16) (dropP : ℤ) (dropN : ℤ) (s0 : State) : osizes (tick t s0).sizes (execLeadDropMeasure t n dropP dropN s0) = (tick t s0).sizes := by
  unfold execLeadDropMeasure
  simp

@[simp] theorem execAcPolaritySwap_sizes (t : Time) (n : Fin 16) (s0 : State) : osizes (tick t s0).sizes (execAcPolaritySwap t n s0) = (tick t s0).sizes := by
  unfold execAcPolaritySwap
  simp

@[simp] theorem execAcDeadTimeEnd_sizes (t : Time) (n : Fin 16) (s0 : State) : osizes (tick t s0).sizes (execAcDeadTimeEnd t n s0) = (tick t s0).sizes := by
  unfold execAcDeadTimeEnd
  simp
  repeat' (first | (simp; done) | (split <;> simp_all <;> done) | split)

@[simp] theorem loopDev_sizes (g : Gen) (mean : ℤ) (s : State) : (loopDev g mean s).2.sizes = s.sizes := by
  unfold loopDev
  split <;> simp

@[simp] theorem execLoopbackEnd_sizes (t : Time) (ch : Fin 64) (mean : ℤ) (rms : ℤ) (count : ℕ) (s0 : State) : osizes (tick t s0).sizes (execLoopbackEnd t ch mean rms count s0) = (tick t s0).sizes := by
  unfold execLoopbackEnd
  simp
  repeat' (first | (simp; done) | (split <;> simp_all <;> done) | split)

end Sys2Proof.Machine
end

