-- ==== Sys2Proof/Laws/KeepChan.lean ====
section
/-! SUPPORT. What the operations of Chan, Filt, Rec keep: one lemma each for `State.kept` and for `State.sizes`. -/

set_option maxRecDepth 4000

namespace Sys2Proof.Machine

/-! ### Chan -/

@[simp] theorem ownChanConfig_kept (img : Bool) (rq : Request) (s : State) : (ownChanConfig img rq s).st.kept = s.kept := by
  unfold ownChanConfig
  simp

@[simp] theorem execChanConfig_kept (t : Time) (rq : Request) (s : State) : okept (tick t s).kept (execChanConfig t rq s) = (tick t s).kept := by
  unfold execChanConfig
  simp

@[simp] theorem ownChanSetInput_kept (rq : Request) (s : State) : (ownChanSetInput rq s).st.kept = s.kept := by
  unfold ownChanSetInput
  simp

@[simp] theorem execChanSetInput_kept (t : Time) (rq : Request) (s : State) : okept (tick t s).kept (execChanSetInput t rq s) = (tick t s).kept := by
  unfold execChanSetInput
  simp

@[simp] theorem ownChanStatus_kept (rq : Request) (s : State) : (ownChanStatus rq s).st.kept = s.kept := by
  unfold ownChanStatus
  simp

@[simp] theorem execChanStatus_kept (t : Time) (rq : Request) (s : State) : okept (tick t s).kept (execChanStatus t rq s) = (tick t s).kept := by
  unfold execChanStatus
  simp

@[simp] theorem recordFirst_kept (c : ℕ) (s : State) : (recordFirst c s).kept = s.kept := by
  unfold recordFirst
  simp

@[simp] theorem moveSpare_kept (g : ℕ) (c : ℕ) (s : State) : (moveSpare g c s).kept = s.kept := by
  unfold moveSpare
  split <;> simp

@[simp] theorem ownChanSubstitute_kept (rq : Request) (s : State) : (ownChanSubstitute rq s).st.kept = s.kept := by
  unfold ownChanSubstitute
  simp

@[simp] theorem execChanSubstitute_kept (t : Time) (rq : Request) (s : State) : okept (tick t s).kept (execChanSubstitute t rq s) = (tick t s).kept := by
  unfold execChanSubstitute
  simp

@[simp] theorem ownChanConfigBlank_kept (rq : Request) (s : State) : (ownChanConfigBlank rq s).st.kept = s.kept := by
  unfold ownChanConfigBlank
  simp

@[simp] theorem execChanConfigBlank_kept (t : Time) (rq : Request) (s : State) : okept (tick t s).kept (execChanConfigBlank t rq s) = (tick t s).kept := by
  unfold execChanConfigBlank
  simp

@[simp] theorem ownExcConfig_kept (img : Bool) (rq : Request) (s : State) : (ownExcConfig img rq s).st.kept = s.kept := by
  unfold ownExcConfig
  simp

@[simp] theorem execExcConfig_kept (t : Time) (rq : Request) (s : State) : okept (tick t s).kept (execExcConfig t rq s) = (tick t s).kept := by
  unfold execExcConfig
  simp

@[simp] theorem ownExcStatus_kept (rq : Request) (s : State) : (ownExcStatus rq s).st.kept = s.kept := by
  unfold ownExcStatus
  simp

@[simp] theorem execExcStatus_kept (t : Time) (rq : Request) (s : State) : okept (tick t s).kept (execExcStatus t rq s) = (tick t s).kept := by
  unfold execExcStatus
  simp

@[simp] theorem ownExcLoopback_kept (rq : Request) (s : State) : (ownExcLoopback rq s).st.kept = s.kept := by
  unfold ownExcLoopback
  simp

@[simp] theorem execExcLoopback_kept (t : Time) (rq : Request) (s : State) : okept (tick t s).kept (execExcLoopback t rq s) = (tick t s).kept := by
  unfold execExcLoopback
  simp

@[simp] theorem ownChanConfig_sizes (img : Bool) (rq : Request) (s : State) : (ownChanConfig img rq s).st.sizes = s.sizes := by
  unfold ownChanConfig
  simp

@[simp] theorem execChanConfig_sizes (t : Time) (rq : Request) (s : State) : osizes (tick t s).sizes (execChanConfig t rq s) = (tick t s).sizes := by
  unfold execChanConfig
  simp

@[simp] theorem ownChanSetInput_sizes (rq : Request) (s : State) : (ownChanSetInput rq s).st.sizes = s.sizes := by
  unfold ownChanSetInput
  simp

@[simp] theorem execChanSetInput_sizes (t : Time) (rq : Request) (s : State) : osizes (tick t s).sizes (execChanSetInput t rq s) = (tick t s).sizes := by
  unfold execChanSetInput
  simp

@[simp] theorem ownChanStatus_sizes (rq : Request) (s : State) : (ownChanStatus rq s).st.sizes = s.sizes := by
  unfold ownChanStatus
  simp

@[simp] theorem execChanStatus_sizes (t : Time) (rq : Request) (s : State) : osizes (tick t s).sizes (execChanStatus t rq s) = (tick t s).sizes := by
  unfold execChanStatus
  simp

@[simp] theorem recordFirst_sizes (c : ℕ) (s : State) : (recordFirst c s).sizes = s.sizes := by
  unfold recordFirst
  simp

@[simp] theorem moveSpare_sizes (g : ℕ) (c : ℕ) (s : State) : (moveSpare g c s).sizes = s.sizes := by
  unfold moveSpare
  split <;> simp

@[simp] theorem ownChanSubstitute_sizes (rq : Request) (s : State) : (ownChanSubstitute rq s).st.sizes = s.sizes := by
  unfold ownChanSubstitute
  simp

@[simp] theorem execChanSubstitute_sizes (t : Time) (rq : Request) (s : State) : osizes (tick t s).sizes (execChanSubstitute t rq s) = (tick t s).sizes := by
  unfold execChanSubstitute
  simp

@[simp] theorem ownChanConfigBlank_sizes (rq : Request) (s : State) : (ownChanConfigBlank rq s).st.sizes = s.sizes := by
  unfold ownChanConfigBlank
  simp

@[simp] theorem execChanConfigBlank_sizes (t : Time) (rq : Request) (s : State) : osizes (tick t s).sizes (execChanConfigBlank t rq s) = (tick t s).sizes := by
  unfold execChanConfigBlank
  simp

@[simp] theorem ownExcConfig_sizes (img : Bool) (rq : Request) (s : State) : (ownExcConfig img rq s).st.sizes = s.sizes := by
  unfold ownExcConfig
  simp

@[simp] theorem execExcConfig_sizes (t : Time) (rq : Request) (s : State) : osizes (tick t s).sizes (execExcConfig t rq s) = (tick t s).sizes := by
  unfold execExcConfig
  simp

@[simp] theorem ownExcStatus_sizes (rq : Request) (s : State) : (ownExcStatus rq s).st.sizes = s.sizes := by
  unfold ownExcStatus
  simp

@[simp] theorem execExcStatus_sizes (t : Time) (rq : Request) (s : State) : osizes (tick t s).sizes (execExcStatus t rq s) = (tick t s).sizes := by
  unfold execExcStatus
  simp

@[simp] theorem ownExcLoopback_sizes (rq : Request) (s : State) : (ownExcLoopback rq s).st.sizes = s.sizes := by
  unfold ownExcLoopback
  simp

@[simp] theorem execExcLoopback_sizes (t : Time) (rq : Request) (s : State) : osizes (tick t s).sizes (execExcLoopback t rq s) = (tick t s).sizes := by
  unfold execExcLoopback
  simp

/-! ### Filt -/

@[simp] theorem modInst_kept (c : ℕ) (shadow : Bool) (f : FiltInst → FiltInst) (s : State) : (modInst c shadow f s).kept = s.kept := by
  unfold modInst
  simp

@[simp] theorem ownFiltConfig_kept (img : Bool) (rq : Request) (s : State) : (ownFiltConfig img rq s).st.kept = s.kept := by
  unfold ownFiltConfig
  simp

@[simp] theorem execFiltConfig_kept (t : Time) (rq : Request) (s : State) : okept (tick t s).kept (execFiltConfig t rq s) = (tick t s).kept := by
  unfold execFiltConfig
  simp

@[simp] theorem ownFiltLoadBank_kept (img : Bool) (rq : Request) (s : State) : (ownFiltLoadBank img rq s).st.kept = s.kept := by
  unfold ownFiltLoadBank
  simp
  repeat' (first | (simp; done) | (split <;> simp_all <;> done) | split)

@[simp] theorem execFiltLoadBank_kept (t : Time) (rq : Request) (s : State) : okept (tick t s).kept (execFiltLoadBank t rq s) = (tick t s).kept := by
  unfold execFiltLoadBank
  simp

@[simp] theorem ownFiltSelectMode_kept (img : Bool) (rq : Request) (s : State) : (ownFiltSelectMode img rq s).st.kept = s.kept := by
  unfold ownFiltSelectMode
  simp

@[simp] theorem execFiltSelectMode_kept (t : Time) (rq : Request) (s : State) : okept (tick t s).kept (execFiltSelectMode t rq s) = (tick t s).kept := by
  unfold execFiltSelectMode
  simp

@[simp] theorem ownFiltStart_kept (rq : Request) (s : State) : (ownFiltStart rq s).st.kept = s.kept := by
  unfold ownFiltStart
  simp

@[simp] theorem execFiltStart_kept (t : Time) (rq : Request) (s : State) : okept (tick t s).kept (execFiltStart t rq s) = (tick t s).kept := by
  unfold execFiltStart
  simp

@[simp] theorem ownFiltStop_kept (rq : Request) (s : State) : (ownFiltStop rq s).st.kept = s.kept := by
  unfold ownFiltStop
  simp

@[simp] theorem execFiltStop_kept (t : Time) (rq : Request) (s : State) : okept (tick t s).kept (execFiltStop t rq s) = (tick t s).kept := by
  unfold execFiltStop
  simp

@[simp] theorem ownFiltCrossfade_kept (rq : Request) (s : State) : (ownFiltCrossfade rq s).st.kept = s.kept := by
  unfold ownFiltCrossfade
  simp

@[simp] theorem execFiltCrossfade_kept (t : Time) (rq : Request) (s : State) : okept (tick t s).kept (execFiltCrossfade t rq s) = (tick t s).kept := by
  unfold execFiltCrossfade
  simp

@[simp] theorem ownFiltSync_kept (rq : Request) (s : State) : (ownFiltSync rq s).st.kept = s.kept := by
  unfold ownFiltSync
  simp
  repeat' (first | (simp; done) | (split <;> simp_all <;> done) | split)

@[simp] theorem execFiltSync_kept (t : Time) (rq : Request) (s : State) : okept (tick t s).kept (execFiltSync t rq s) = (tick t s).kept := by
  unfold execFiltSync
  simp

@[simp] theorem ownFiltStatus_kept (rq : Request) (s : State) : (ownFiltStatus rq s).st.kept = s.kept := by
  unfold ownFiltStatus
  simp

@[simp] theorem execFiltStatus_kept (t : Time) (rq : Request) (s : State) : okept (tick t s).kept (execFiltStatus t rq s) = (tick t s).kept := by
  unfold execFiltStatus
  simp

@[simp] theorem modInst_sizes (c : ℕ) (shadow : Bool) (f : FiltInst → FiltInst) (s : State) : (modInst c shadow f s).sizes = s.sizes := by
  unfold modInst
  simp

@[simp] theorem ownFiltConfig_sizes (img : Bool) (rq : Request) (s : State) : (ownFiltConfig img rq s).st.sizes = s.sizes := by
  unfold ownFiltConfig
  simp
  repeat' (first | (simp; done) | (split <;> simp_all <;> done) | split)

@[simp] theorem execFiltConfig_sizes (t : Time) (rq : Request) (s : State) : osizes (tick t s).sizes (execFiltConfig t rq s) = (tick t s).sizes := by
  unfold execFiltConfig
  simp

@[simp] theorem ownFiltLoadBank_sizes (img : Bool) (rq : Request) (s : State) : (ownFiltLoadBank img rq s).st.sizes = s.sizes := by
  unfold ownFiltLoadBank
  simp
  repeat' (first | (simp; done) | (split <;> simp_all <;> done) | split)

@[simp] theorem execFiltLoadBank_sizes (t : Time) (rq : Request) (s : State) : osizes (tick t s).sizes (execFiltLoadBank t rq s) = (tick t s).sizes := by
  unfold execFiltLoadBank
  simp

@[simp] theorem ownFiltSelectMode_sizes (img : Bool) (rq : Request) (s : State) : (ownFiltSelectMode img rq s).st.sizes = s.sizes := by
  unfold ownFiltSelectMode
  simp

@[simp] theorem execFiltSelectMode_sizes (t : Time) (rq : Request) (s : State) : osizes (tick t s).sizes (execFiltSelectMode t rq s) = (tick t s).sizes := by
  unfold execFiltSelectMode
  simp

@[simp] theorem ownFiltStart_sizes (rq : Request) (s : State) : (ownFiltStart rq s).st.sizes = s.sizes := by
  unfold ownFiltStart
  simp

@[simp] theorem execFiltStart_sizes (t : Time) (rq : Request) (s : State) : osizes (tick t s).sizes (execFiltStart t rq s) = (tick t s).sizes := by
  unfold execFiltStart
  simp

@[simp] theorem ownFiltStop_sizes (rq : Request) (s : State) : (ownFiltStop rq s).st.sizes = s.sizes := by
  unfold ownFiltStop
  simp

@[simp] theorem execFiltStop_sizes (t : Time) (rq : Request) (s : State) : osizes (tick t s).sizes (execFiltStop t rq s) = (tick t s).sizes := by
  unfold execFiltStop
  simp

@[simp] theorem ownFiltCrossfade_sizes (rq : Request) (s : State) : (ownFiltCrossfade rq s).st.sizes = s.sizes := by
  unfold ownFiltCrossfade
  simp

@[simp] theorem execFiltCrossfade_sizes (t : Time) (rq : Request) (s : State) : osizes (tick t s).sizes (execFiltCrossfade t rq s) = (tick t s).sizes := by
  unfold execFiltCrossfade
  simp

@[simp] theorem ownFiltSync_sizes (rq : Request) (s : State) : (ownFiltSync rq s).st.sizes = s.sizes := by
  unfold ownFiltSync
  simp
  repeat' (first | (simp; done) | (split <;> simp_all <;> done) | split)

@[simp] theorem execFiltSync_sizes (t : Time) (rq : Request) (s : State) : osizes (tick t s).sizes (execFiltSync t rq s) = (tick t s).sizes := by
  unfold execFiltSync
  simp

@[simp] theorem ownFiltStatus_sizes (rq : Request) (s : State) : (ownFiltStatus rq s).st.sizes = s.sizes := by
  unfold ownFiltStatus
  simp

@[simp] theorem execFiltStatus_sizes (t : Time) (rq : Request) (s : State) : osizes (tick t s).sizes (execFiltStatus t rq s) = (tick t s).sizes := by
  unfold execFiltStatus
  simp

/-! ### Rec -/

@[simp] theorem ownRecSubscribe_kept (img : Bool) (rq : Request) (s : State) : (ownRecSubscribe img rq s).st.kept = s.kept := by
  unfold ownRecSubscribe
  simp

@[simp] theorem execRecSubscribe_kept (t : Time) (rq : Request) (s : State) : okept (tick t s).kept (execRecSubscribe t rq s) = (tick t s).kept := by
  unfold execRecSubscribe
  simp

@[simp] theorem ownRecStatus_kept (rq : Request) (s : State) : (ownRecStatus rq s).st.kept = s.kept := by
  unfold ownRecStatus
  simp

@[simp] theorem execRecStatus_kept (t : Time) (rq : Request) (s : State) : okept (tick t s).kept (execRecStatus t rq s) = (tick t s).kept := by
  unfold execRecStatus
  simp

@[simp] theorem ownRecSubscribe_sizes (img : Bool) (rq : Request) (s : State) : (ownRecSubscribe img rq s).st.sizes = s.sizes := by
  unfold ownRecSubscribe
  simp

@[simp] theorem execRecSubscribe_sizes (t : Time) (rq : Request) (s : State) : osizes (tick t s).sizes (execRecSubscribe t rq s) = (tick t s).sizes := by
  unfold execRecSubscribe
  simp

@[simp] theorem ownRecStatus_sizes (rq : Request) (s : State) : (ownRecStatus rq s).st.sizes = s.sizes := by
  unfold ownRecStatus
  simp

@[simp] theorem execRecStatus_sizes (t : Time) (rq : Request) (s : State) : osizes (tick t s).sizes (execRecStatus t rq s) = (tick t s).sizes := by
  unfold execRecStatus
  simp

end Sys2Proof.Machine
end

