-- ==== Sys2Proof/Laws/KeepTime.lean ====
section
/-! SUPPORT. What the operations of Time, TimeCmd keep: one lemma each for `State.kept` and for `State.sizes`. -/

set_option maxRecDepth 4000

namespace Sys2Proof.Machine

/-! ### Time -/

@[simp] theorem modTime_kept (f : TimeSt → TimeSt) (s : State) : (modTime f s).kept = s.kept := by
  unfold modTime
  simp

@[simp] theorem modDom_kept (d : ℕ) (f : Domain → Domain) (s : State) : (modDom d f s).kept = s.kept := by
  unfold modDom
  simp

@[simp] theorem modTod_kept (f : TodSt → TodSt) (s : State) : (modTod f s).kept = s.kept := by
  unfold modTod
  simp

@[simp] theorem modPtp_kept (p : ℕ) (f : PtpPort → PtpPort) (s : State) : (modPtp p f s).kept = s.kept := by
  unfold modPtp
  simp

@[simp] theorem noteY_kept (s : State) : (noteY s).kept = s.kept := by
  unfold noteY
  split <;> simp

@[simp] theorem advance_kept (s : State) : (advance s).kept = s.kept := by
  unfold advance
  simp

@[simp] theorem setY_kept (y : ℤ) (s : State) : (setY y s).kept = s.kept := by
  unfold setY
  simp

@[simp] theorem releaseDom_kept (s : State) : (releaseDom s).kept = s.kept := by
  unfold releaseDom
  simp

@[simp] theorem noteLimit_kept (s : State) : (noteLimit s).kept = s.kept := by
  unfold noteLimit
  simp

@[simp] theorem switchDom_kept (n : ℕ) (s : State) : (switchDom n s).kept = s.kept := by
  unfold switchDom
  simp

@[simp] theorem noteBin_kept (s : State) : (noteBin s).kept = s.kept := by
  unfold noteBin
  simp

@[simp] theorem followTable_kept (s0 : State) : (followTable s0).kept = s0.kept := by
  unfold followTable
  simp

@[simp] theorem enterHoldover_kept (s : State) : (enterHoldover s).kept = s.kept := by
  unfold enterHoldover
  simp

@[simp] theorem enterFree_kept (y : ℤ) (s : State) : (enterFree y s).kept = s.kept := by
  unfold enterFree
  simp

@[simp] theorem autoSync_kept (s : State) : (autoSync s).kept = s.kept := by
  unfold autoSync
  simp

@[simp] theorem toState_kept (d : ℕ) (new : DomState) (s : State) : (toState d new s).kept = s.kept := by
  unfold toState
  simp

@[simp] theorem quietTime_kept (s : State) : (quietTime s).kept = s.kept := by
  unfold quietTime
  simp

@[simp] theorem chooseDom_kept (s : State) : (chooseDom s).kept = s.kept := by
  unfold chooseDom
  simp
  repeat' (first | (simp; done) | (split <;> simp_all <;> done) | split)

@[simp] theorem decideStep_kept (delta : ℤ) (cause : StepCause) (origin : Option ℕ) (s : State) : (decideStep delta cause origin s).kept = s.kept := by
  unfold decideStep
  split <;> simp

@[simp] theorem largeOffset_kept (d : ℕ) (s : State) : (largeOffset d s).kept = s.kept := by
  unfold largeOffset
  simp

@[simp] theorem smallOffset_kept (d : ℕ) (own : ℤ) (tb : ℤ) (s : State) : (smallOffset d own tb s).kept = s.kept := by
  unfold smallOffset
  simp

@[simp] theorem bigOffset_kept (d : ℕ) (own : ℤ) (tb : ℤ) (s : State) : (bigOffset d own tb s).kept = s.kept := by
  unfold bigOffset
  simp

@[simp] theorem measure_kept (d : ℕ) (raw : ℤ) (rootUnc : Bool) (s0 : State) : (measure d raw rootUnc s0).kept = s0.kept := by
  unfold measure
  simp

@[simp] theorem missed_kept (d : ℕ) (s : State) : (missed d s).kept = s.kept := by
  unfold missed
  simp

@[simp] theorem supplyUtc_kept (d : ℕ) (valid : Bool) (offset : ℤ) (l61 : Bool) (l59 : Bool) (leapTime : ℕ) (s : State) : (supplyUtc d valid offset l61 l59 leapTime s).kept = s.kept := by
  unfold supplyUtc
  simp

@[simp] theorem dIn_kept (s : State) (port : ℕ) (rt : Option ℤ) : (dIn s port rt).2.kept = s.kept := by
  unfold dIn
  split <;> simp

@[simp] theorem frameAt_kept (d : ℕ) (f : TimeFrame) (s : State) : (frameAt d f s).kept = s.kept := by
  unfold frameAt
  simp

@[simp] theorem execTimeFrameRx_kept (t : Time) (f : TimeFrame) (s0 : State) : okept (tick t s0).kept (execTimeFrameRx t f s0) = (tick t s0).kept := by
  unfold execTimeFrameRx
  simp

@[simp] theorem execTimeCopySwitch_kept (t : Time) (d : Fin 2) (s0 : State) : okept (tick t s0).kept (execTimeCopySwitch t d s0) = (tick t s0).kept := by
  unfold execTimeCopySwitch
  simp
  repeat' (first | (simp; done) | (split <;> simp_all <;> done) | split)

@[simp] theorem execDomainSignalLoss_kept (t : Time) (d : Fin 2) (s0 : State) : okept (tick t s0).kept (execDomainSignalLoss t d s0) = (tick t s0).kept := by
  unfold execDomainSignalLoss
  simp

@[simp] theorem execSlewComplete_kept (t : Time) (s0 : State) : okept (tick t s0).kept (execSlewComplete t s0) = (tick t s0).kept := by
  unfold execSlewComplete
  simp

@[simp] theorem execRevertiveSwitch_kept (t : Time) (s0 : State) : okept (tick t s0).kept (execRevertiveSwitch t s0) = (tick t s0).kept := by
  unfold execRevertiveSwitch
  simp

@[simp] theorem execFaultRecovery_kept (t : Time) (d : Fin 2) (s0 : State) : okept (tick t s0).kept (execFaultRecovery t d s0) = (tick t s0).kept := by
  unfold execFaultRecovery
  simp
  repeat' (first | (simp; done) | (split <;> simp_all <;> done) | split)

@[simp] theorem execHoldoverLearn_kept (t : Time) (s0 : State) : okept (tick t s0).kept (execHoldoverLearn t s0) = (tick t s0).kept := by
  unfold execHoldoverLearn
  simp

@[simp] theorem execHoldoverTableWrite_kept (t : Time) (s0 : State) : okept (tick t s0).kept (execHoldoverTableWrite t s0) = (tick t s0).kept := by
  unfold execHoldoverTableWrite
  simp

@[simp] theorem execHoldoverBoundExpiry_kept (t : Time) (s0 : State) : okept (tick t s0).kept (execHoldoverBoundExpiry t s0) = (tick t s0).kept := by
  unfold execHoldoverBoundExpiry
  simp

@[simp] theorem execLeapEvent_kept (t : Time) (s0 : State) : okept (tick t s0).kept (execLeapEvent t s0) = (tick t s0).kept := by
  unfold execLeapEvent
  simp

@[simp] theorem execTimeFrameTx_kept (t : Time) (s0 : State) : okept (tick t s0).kept (execTimeFrameTx t s0) = (tick t s0).kept := by
  unfold execTimeFrameTx
  simp

@[simp] theorem modLink_kept (port : ℕ) (lane : ℕ) (f : LinkRt → LinkRt) (s : State) : (modLink port lane f s).kept = s.kept := by
  unfold modLink
  simp

@[simp] theorem linkEvent_kept (port : ℕ) (lane : ℕ) (change : ℤ) (s : State) : (linkEvent port lane change s).kept = s.kept := by
  unfold linkEvent
  simp

@[simp] theorem execLinkDelayUpdate_kept (t : Time) (port : Fin 3) (lane : Fin 8) (s0 : State) : okept (tick t s0).kept (execLinkDelayUpdate t port lane s0) = (tick t s0).kept := by
  unfold execLinkDelayUpdate
  simp
  repeat' (first | (simp; done) | (split <;> simp_all <;> done) | split)

@[simp] theorem execLinkDelayEventTimer_kept (t : Time) (port : Fin 3) (lane : Fin 8) (s0 : State) : okept (tick t s0).kept (execLinkDelayEventTimer t port lane s0) = (tick t s0).kept := by
  unfold execLinkDelayEventTimer
  simp
  repeat' (first | (simp; done) | (split <;> simp_all <;> done) | split)

@[simp] theorem sendPtp_kept (p : ℕ) (kind : ℕ) (content : ℤ) (s : State) : (sendPtp p kind content s).kept = s.kept := by
  unfold sendPtp
  simp

@[simp] theorem ptpMeasure_kept (p : ℕ) (rx : ℕ) (origin : ℕ) (corr : ℤ) (logI : ℤ) (s : State) : (ptpMeasure p rx origin corr logI s).kept = s.kept := by
  unfold ptpMeasure
  simp
  repeat' (first | (simp; done) | (split <;> simp_all <;> done) | split)

@[simp] theorem ptpSync_kept (p : ℕ) (m : PtpSync) (s : State) : (ptpSync p m s).kept = s.kept := by
  unfold ptpSync
  simp

@[simp] theorem ptpFollowUp_kept (p : ℕ) (src : BitVec 64) (seq : ℕ) (origin : ℕ) (corr : ℤ) (s : State) : (ptpFollowUp p src seq origin corr s).kept = s.kept := by
  unfold ptpFollowUp
  split <;> simp

@[simp] theorem ptpAnnounce_kept (p : ℕ) (m : PtpAnnounce) (s : State) : (ptpAnnounce p m s).kept = s.kept := by
  unfold ptpAnnounce
  simp
  repeat' (first | (simp; done) | (split <;> simp_all <;> done) | split)

@[simp] theorem execPtpMessageRx_kept (t : Time) (port : Fin 2) (domainNum : ℕ) (udp : Bool) (tags : ℕ) (m : PtpMsg) (s0 : State) : okept (tick t s0).kept (execPtpMessageRx t port domainNum udp tags m s0) = (tick t s0).kept := by
  unfold execPtpMessageRx
  split <;> simp

@[simp] theorem execPtpMessageTimer_kept (t : Time) (port : Fin 2) (kind : Fin 3) (s0 : State) : okept (tick t s0).kept (execPtpMessageTimer t port kind s0) = (tick t s0).kept := by
  unfold execPtpMessageTimer
  simp

@[simp] theorem execTodMessageRx_kept (t : Time) (bytes : List Byte) (s0 : State) : okept (tick t s0).kept (execTodMessageRx t bytes s0) = (tick t s0).kept := by
  unfold execTodMessageRx
  simp
  repeat' (first | (simp; done) | (split <;> simp_all <;> done) | split)

@[simp] theorem execPpsInEdge_kept (t : Time) (s0 : State) : okept (tick t s0).kept (execPpsInEdge t s0) = (tick t s0).kept := by
  unfold execPpsInEdge
  simp
  repeat' (first | (simp; done) | (split <;> simp_all <;> done) | split)

@[simp] theorem execTodTxMessage_kept (t : Time) (s0 : State) : okept (tick t s0).kept (execTodTxMessage t s0) = (tick t s0).kept := by
  unfold execTodTxMessage
  simp
  repeat' (first | (simp; done) | (split <;> simp_all <;> done) | split)

@[simp] theorem execAonSecondsLoad_kept (t : Time) (s0 : State) : okept (tick t s0).kept (execAonSecondsLoad t s0) = (tick t s0).kept := by
  unfold execAonSecondsLoad
  simp

@[simp] theorem modDom_sizes (d : ℕ) (f : Domain → Domain) (s : State) : (modDom d f s).sizes = s.sizes := by
  unfold modDom
  simp

@[simp] theorem modTod_sizes (f : TodSt → TodSt) (s : State) : (modTod f s).sizes = s.sizes := by
  unfold modTod
  simp

@[simp] theorem modPtp_sizes (p : ℕ) (f : PtpPort → PtpPort) (s : State) : (modPtp p f s).sizes = s.sizes := by
  unfold modPtp
  simp

@[simp] theorem noteY_sizes (s : State) : (noteY s).sizes = s.sizes := by
  unfold noteY
  split <;> simp

@[simp] theorem advance_sizes (s : State) : (advance s).sizes = s.sizes := by
  unfold advance
  simp

@[simp] theorem setY_sizes (y : ℤ) (s : State) : (setY y s).sizes = s.sizes := by
  unfold setY
  simp

@[simp] theorem releaseDom_sizes (s : State) : (releaseDom s).sizes = s.sizes := by
  unfold releaseDom
  simp

@[simp] theorem noteLimit_sizes (s : State) : (noteLimit s).sizes = s.sizes := by
  unfold noteLimit
  simp

@[simp] theorem switchDom_sizes (n : ℕ) (s : State) : (switchDom n s).sizes = s.sizes := by
  unfold switchDom
  simp

@[simp] theorem noteBin_sizes (s : State) : (noteBin s).sizes = s.sizes := by
  unfold noteBin
  simp

@[simp] theorem followTable_sizes (s0 : State) : (followTable s0).sizes = s0.sizes := by
  unfold followTable
  simp

@[simp] theorem enterHoldover_sizes (s : State) : (enterHoldover s).sizes = s.sizes := by
  unfold enterHoldover
  simp

@[simp] theorem enterFree_sizes (y : ℤ) (s : State) : (enterFree y s).sizes = s.sizes := by
  unfold enterFree
  simp

@[simp] theorem autoSync_sizes (s : State) : (autoSync s).sizes = s.sizes := by
  unfold autoSync
  simp

@[simp] theorem toState_sizes (d : ℕ) (new : DomState) (s : State) : (toState d new s).sizes = s.sizes := by
  unfold toState
  simp

@[simp] theorem quietTime_sizes (s : State) : (quietTime s).sizes = s.sizes := by
  unfold quietTime
  simp

@[simp] theorem chooseDom_sizes (s : State) : (chooseDom s).sizes = s.sizes := by
  unfold chooseDom
  simp
  repeat' (first | (simp; done) | (split <;> simp_all <;> done) | split)

@[simp] theorem decideStep_sizes (delta : ℤ) (cause : StepCause) (origin : Option ℕ) (s : State) : (decideStep delta cause origin s).sizes = s.sizes := by
  unfold decideStep
  split <;> simp

@[simp] theorem largeOffset_sizes (d : ℕ) (s : State) : (largeOffset d s).sizes = s.sizes := by
  unfold largeOffset
  simp

@[simp] theorem smallOffset_sizes (d : ℕ) (own : ℤ) (tb : ℤ) (s : State) : (smallOffset d own tb s).sizes = s.sizes := by
  unfold smallOffset
  simp

@[simp] theorem bigOffset_sizes (d : ℕ) (own : ℤ) (tb : ℤ) (s : State) : (bigOffset d own tb s).sizes = s.sizes := by
  unfold bigOffset
  simp

@[simp] theorem measure_sizes (d : ℕ) (raw : ℤ) (rootUnc : Bool) (s0 : State) : (measure d raw rootUnc s0).sizes = s0.sizes := by
  unfold measure
  simp

@[simp] theorem missed_sizes (d : ℕ) (s : State) : (missed d s).sizes = s.sizes := by
  unfold missed
  simp

@[simp] theorem supplyUtc_sizes (d : ℕ) (valid : Bool) (offset : ℤ) (l61 : Bool) (l59 : Bool) (leapTime : ℕ) (s : State) : (supplyUtc d valid offset l61 l59 leapTime s).sizes = s.sizes := by
  unfold supplyUtc
  simp

@[simp] theorem dIn_sizes (s : State) (port : ℕ) (rt : Option ℤ) : (dIn s port rt).2.sizes = s.sizes := by
  unfold dIn
  split <;> simp

@[simp] theorem frameAt_sizes (d : ℕ) (f : TimeFrame) (s : State) : (frameAt d f s).sizes = s.sizes := by
  unfold frameAt
  simp

@[simp] theorem execTimeFrameRx_sizes (t : Time) (f : TimeFrame) (s0 : State) : osizes (tick t s0).sizes (execTimeFrameRx t f s0) = (tick t s0).sizes := by
  unfold execTimeFrameRx
  simp

@[simp] theorem execTimeCopySwitch_sizes (t : Time) (d : Fin 2) (s0 : State) : osizes (tick t s0).sizes (execTimeCopySwitch t d s0) = (tick t s0).sizes := by
  unfold execTimeCopySwitch
  simp
  repeat' (first | (simp; done) | (split <;> simp_all <;> done) | split)

@[simp] theorem execDomainSignalLoss_sizes (t : Time) (d : Fin 2) (s0 : State) : osizes (tick t s0).sizes (execDomainSignalLoss t d s0) = (tick t s0).sizes := by
  unfold execDomainSignalLoss
  simp

@[simp] theorem execSlewComplete_sizes (t : Time) (s0 : State) : osizes (tick t s0).sizes (execSlewComplete t s0) = (tick t s0).sizes := by
  unfold execSlewComplete
  simp

@[simp] theorem execRevertiveSwitch_sizes (t : Time) (s0 : State) : osizes (tick t s0).sizes (execRevertiveSwitch t s0) = (tick t s0).sizes := by
  unfold execRevertiveSwitch
  simp

@[simp] theorem execFaultRecovery_sizes (t : Time) (d : Fin 2) (s0 : State) : osizes (tick t s0).sizes (execFaultRecovery t d s0) = (tick t s0).sizes := by
  unfold execFaultRecovery
  simp
  repeat' (first | (simp; done) | (split <;> simp_all <;> done) | split)

@[simp] theorem execHoldoverLearn_sizes (t : Time) (s0 : State) : osizes (tick t s0).sizes (execHoldoverLearn t s0) = (tick t s0).sizes := by
  unfold execHoldoverLearn
  simp

@[simp] theorem execHoldoverTableWrite_sizes (t : Time) (s0 : State) : osizes (tick t s0).sizes (execHoldoverTableWrite t s0) = (tick t s0).sizes := by
  unfold execHoldoverTableWrite
  simp

@[simp] theorem execHoldoverBoundExpiry_sizes (t : Time) (s0 : State) : osizes (tick t s0).sizes (execHoldoverBoundExpiry t s0) = (tick t s0).sizes := by
  unfold execHoldoverBoundExpiry
  simp

@[simp] theorem execLeapEvent_sizes (t : Time) (s0 : State) : osizes (tick t s0).sizes (execLeapEvent t s0) = (tick t s0).sizes := by
  unfold execLeapEvent
  simp

@[simp] theorem execTimeFrameTx_sizes (t : Time) (s0 : State) : osizes (tick t s0).sizes (execTimeFrameTx t s0) = (tick t s0).sizes := by
  unfold execTimeFrameTx
  simp

@[simp] theorem modLink_sizes (port : ℕ) (lane : ℕ) (f : LinkRt → LinkRt) (s : State) : (modLink port lane f s).sizes = s.sizes := by
  unfold modLink
  simp

@[simp] theorem linkEvent_sizes (port : ℕ) (lane : ℕ) (change : ℤ) (s : State) : (linkEvent port lane change s).sizes = s.sizes := by
  unfold linkEvent
  simp

@[simp] theorem execLinkDelayUpdate_sizes (t : Time) (port : Fin 3) (lane : Fin 8) (s0 : State) : osizes (tick t s0).sizes (execLinkDelayUpdate t port lane s0) = (tick t s0).sizes := by
  unfold execLinkDelayUpdate
  simp
  repeat' (first | (simp; done) | (split <;> simp_all <;> done) | split)

@[simp] theorem execLinkDelayEventTimer_sizes (t : Time) (port : Fin 3) (lane : Fin 8) (s0 : State) : osizes (tick t s0).sizes (execLinkDelayEventTimer t port lane s0) = (tick t s0).sizes := by
  unfold execLinkDelayEventTimer
  simp
  repeat' (first | (simp; done) | (split <;> simp_all <;> done) | split)

@[simp] theorem sendPtp_sizes (p : ℕ) (kind : ℕ) (content : ℤ) (s : State) : (sendPtp p kind content s).sizes = s.sizes := by
  unfold sendPtp
  simp

@[simp] theorem ptpMeasure_sizes (p : ℕ) (rx : ℕ) (origin : ℕ) (corr : ℤ) (logI : ℤ) (s : State) : (ptpMeasure p rx origin corr logI s).sizes = s.sizes := by
  unfold ptpMeasure
  simp
  repeat' (first | (simp; done) | (split <;> simp_all <;> done) | split)

@[simp] theorem ptpSync_sizes (p : ℕ) (m : PtpSync) (s : State) : (ptpSync p m s).sizes = s.sizes := by
  unfold ptpSync
  simp

@[simp] theorem ptpFollowUp_sizes (p : ℕ) (src : BitVec 64) (seq : ℕ) (origin : ℕ) (corr : ℤ) (s : State) : (ptpFollowUp p src seq origin corr s).sizes = s.sizes := by
  unfold ptpFollowUp
  split <;> simp

@[simp] theorem ptpAnnounce_sizes (p : ℕ) (m : PtpAnnounce) (s : State) : (ptpAnnounce p m s).sizes = s.sizes := by
  unfold ptpAnnounce
  simp
  repeat' (first | (simp; done) | (split <;> simp_all <;> done) | split)

@[simp] theorem execPtpMessageRx_sizes (t : Time) (port : Fin 2) (domainNum : ℕ) (udp : Bool) (tags : ℕ) (m : PtpMsg) (s0 : State) : osizes (tick t s0).sizes (execPtpMessageRx t port domainNum udp tags m s0) = (tick t s0).sizes := by
  unfold execPtpMessageRx
  split <;> simp

@[simp] theorem execPtpMessageTimer_sizes (t : Time) (port : Fin 2) (kind : Fin 3) (s0 : State) : osizes (tick t s0).sizes (execPtpMessageTimer t port kind s0) = (tick t s0).sizes := by
  unfold execPtpMessageTimer
  simp

@[simp] theorem execTodMessageRx_sizes (t : Time) (bytes : List Byte) (s0 : State) : osizes (tick t s0).sizes (execTodMessageRx t bytes s0) = (tick t s0).sizes := by
  unfold execTodMessageRx
  simp
  repeat' (first | (simp; done) | (split <;> simp_all <;> done) | split)

@[simp] theorem execPpsInEdge_sizes (t : Time) (s0 : State) : osizes (tick t s0).sizes (execPpsInEdge t s0) = (tick t s0).sizes := by
  unfold execPpsInEdge
  simp
  repeat' (first | (simp; done) | (split <;> simp_all <;> done) | split)

@[simp] theorem execTodTxMessage_sizes (t : Time) (s0 : State) : osizes (tick t s0).sizes (execTodTxMessage t s0) = (tick t s0).sizes := by
  unfold execTodTxMessage
  simp
  repeat' (first | (simp; done) | (split <;> simp_all <;> done) | split)

@[simp] theorem execAonSecondsLoad_sizes (t : Time) (s0 : State) : osizes (tick t s0).sizes (execAonSecondsLoad t s0) = (tick t s0).sizes := by
  unfold execAonSecondsLoad
  simp

/-! ### TimeCmd -/

@[simp] theorem ownTimeGetTime_kept (x : Request) (s : State) : (ownTimeGetTime x s).st.kept = s.kept := by
  unfold ownTimeGetTime
  simp

@[simp] theorem execTimeGetTime_kept (t : Time) (rq : Request) (s : State) : okept (tick t s).kept (execTimeGetTime t rq s) = (tick t s).kept := by
  unfold execTimeGetTime
  simp

@[simp] theorem ownTimeStatus_kept (x : Request) (s : State) : (ownTimeStatus x s).st.kept = s.kept := by
  unfold ownTimeStatus
  simp

@[simp] theorem execTimeStatus_kept (t : Time) (rq : Request) (s : State) : okept (tick t s).kept (execTimeStatus t rq s) = (tick t s).kept := by
  unfold execTimeStatus
  simp

@[simp] theorem configDomain_kept (d : ℕ) (src : DomSource) (dPps : ℤ) (s : State) : (configDomain d src dPps s).kept = s.kept := by
  unfold configDomain
  simp

@[simp] theorem ownTimeConfigDomain_kept (img : Bool) (rq : Request) (s : State) : (ownTimeConfigDomain img rq s).st.kept = s.kept := by
  unfold ownTimeConfigDomain
  simp

@[simp] theorem execTimeConfigDomain_kept (t : Time) (rq : Request) (s : State) : okept (tick t s).kept (execTimeConfigDomain t rq s) = (tick t s).kept := by
  unfold execTimeConfigDomain
  simp

@[simp] theorem ownTimeConfigServo_kept (img : Bool) (rq : Request) (s : State) : (ownTimeConfigServo img rq s).st.kept = s.kept := by
  unfold ownTimeConfigServo
  simp

@[simp] theorem execTimeConfigServo_kept (t : Time) (rq : Request) (s : State) : okept (tick t s).kept (execTimeConfigServo t rq s) = (tick t s).kept := by
  unfold execTimeConfigServo
  simp

@[simp] theorem ownTimeSelectDomain_kept (img : Bool) (rq : Request) (s : State) : (ownTimeSelectDomain img rq s).st.kept = s.kept := by
  unfold ownTimeSelectDomain
  simp

@[simp] theorem execTimeSelectDomain_kept (t : Time) (rq : Request) (s : State) : okept (tick t s).kept (execTimeSelectDomain t rq s) = (tick t s).kept := by
  unfold execTimeSelectDomain
  simp

@[simp] theorem ownTimeClearFault_kept (rq : Request) (s : State) : (ownTimeClearFault rq s).st.kept = s.kept := by
  unfold ownTimeClearFault
  simp

@[simp] theorem execTimeClearFault_kept (t : Time) (rq : Request) (s : State) : okept (tick t s).kept (execTimeClearFault t rq s) = (tick t s).kept := by
  unfold execTimeClearFault
  simp

@[simp] theorem ownTimeSetAsym_kept (img : Bool) (rq : Request) (s : State) : (ownTimeSetAsym img rq s).st.kept = s.kept := by
  unfold ownTimeSetAsym
  simp

@[simp] theorem execTimeSetAsym_kept (t : Time) (rq : Request) (s : State) : okept (tick t s).kept (execTimeSetAsym t rq s) = (tick t s).kept := by
  unfold execTimeSetAsym
  simp

@[simp] theorem ownTimeConfigRoot_kept (img : Bool) (rq : Request) (s : State) : (ownTimeConfigRoot img rq s).st.kept = s.kept := by
  unfold ownTimeConfigRoot
  simp

@[simp] theorem execTimeConfigRoot_kept (t : Time) (rq : Request) (s : State) : okept (tick t s).kept (execTimeConfigRoot t rq s) = (tick t s).kept := by
  unfold execTimeConfigRoot
  simp

@[simp] theorem ownTimeConfigHoldover_kept (rq : Request) (s : State) : (ownTimeConfigHoldover rq s).st.kept = s.kept := by
  unfold ownTimeConfigHoldover
  simp

@[simp] theorem execTimeConfigHoldover_kept (t : Time) (rq : Request) (s : State) : okept (tick t s).kept (execTimeConfigHoldover t rq s) = (tick t s).kept := by
  unfold execTimeConfigHoldover
  simp

@[simp] theorem ownTimeConfigTod_kept (rq : Request) (s : State) : (ownTimeConfigTod rq s).st.kept = s.kept := by
  unfold ownTimeConfigTod
  simp

@[simp] theorem execTimeConfigTod_kept (t : Time) (rq : Request) (s : State) : okept (tick t s).kept (execTimeConfigTod t rq s) = (tick t s).kept := by
  unfold execTimeConfigTod
  simp

@[simp] theorem ownTimeSetUtcOffset_kept (rq : Request) (s : State) : (ownTimeSetUtcOffset rq s).st.kept = s.kept := by
  unfold ownTimeSetUtcOffset
  simp

@[simp] theorem execTimeSetUtcOffset_kept (t : Time) (rq : Request) (s : State) : okept (tick t s).kept (execTimeSetUtcOffset t rq s) = (tick t s).kept := by
  unfold execTimeSetUtcOffset
  simp

@[simp] theorem ownTimeStepLog_kept (x : Request) (s : State) : (ownTimeStepLog x s).st.kept = s.kept := by
  unfold ownTimeStepLog
  simp

@[simp] theorem execTimeStepLog_kept (t : Time) (rq : Request) (s : State) : okept (tick t s).kept (execTimeStepLog t rq s) = (tick t s).kept := by
  unfold execTimeStepLog
  simp

@[simp] theorem ownTimeGetTime_sizes (x : Request) (s : State) : (ownTimeGetTime x s).st.sizes = s.sizes := by
  unfold ownTimeGetTime
  simp

@[simp] theorem execTimeGetTime_sizes (t : Time) (rq : Request) (s : State) : osizes (tick t s).sizes (execTimeGetTime t rq s) = (tick t s).sizes := by
  unfold execTimeGetTime
  simp

@[simp] theorem ownTimeStatus_sizes (x : Request) (s : State) : (ownTimeStatus x s).st.sizes = s.sizes := by
  unfold ownTimeStatus
  simp

@[simp] theorem execTimeStatus_sizes (t : Time) (rq : Request) (s : State) : osizes (tick t s).sizes (execTimeStatus t rq s) = (tick t s).sizes := by
  unfold execTimeStatus
  simp

@[simp] theorem configDomain_sizes (d : ℕ) (src : DomSource) (dPps : ℤ) (s : State) : (configDomain d src dPps s).sizes = s.sizes := by
  unfold configDomain
  simp

@[simp] theorem ownTimeConfigDomain_sizes (img : Bool) (rq : Request) (s : State) : (ownTimeConfigDomain img rq s).st.sizes = s.sizes := by
  unfold ownTimeConfigDomain
  simp

@[simp] theorem execTimeConfigDomain_sizes (t : Time) (rq : Request) (s : State) : osizes (tick t s).sizes (execTimeConfigDomain t rq s) = (tick t s).sizes := by
  unfold execTimeConfigDomain
  simp

@[simp] theorem ownTimeConfigServo_sizes (img : Bool) (rq : Request) (s : State) : (ownTimeConfigServo img rq s).st.sizes = s.sizes := by
  unfold ownTimeConfigServo
  simp

@[simp] theorem execTimeConfigServo_sizes (t : Time) (rq : Request) (s : State) : osizes (tick t s).sizes (execTimeConfigServo t rq s) = (tick t s).sizes := by
  unfold execTimeConfigServo
  simp

@[simp] theorem ownTimeSelectDomain_sizes (img : Bool) (rq : Request) (s : State) : (ownTimeSelectDomain img rq s).st.sizes = s.sizes := by
  unfold ownTimeSelectDomain
  simp

@[simp] theorem execTimeSelectDomain_sizes (t : Time) (rq : Request) (s : State) : osizes (tick t s).sizes (execTimeSelectDomain t rq s) = (tick t s).sizes := by
  unfold execTimeSelectDomain
  simp

@[simp] theorem ownTimeClearFault_sizes (rq : Request) (s : State) : (ownTimeClearFault rq s).st.sizes = s.sizes := by
  unfold ownTimeClearFault
  simp

@[simp] theorem execTimeClearFault_sizes (t : Time) (rq : Request) (s : State) : osizes (tick t s).sizes (execTimeClearFault t rq s) = (tick t s).sizes := by
  unfold execTimeClearFault
  simp

@[simp] theorem ownTimeSetAsym_sizes (img : Bool) (rq : Request) (s : State) : (ownTimeSetAsym img rq s).st.sizes = s.sizes := by
  unfold ownTimeSetAsym
  simp

@[simp] theorem execTimeSetAsym_sizes (t : Time) (rq : Request) (s : State) : osizes (tick t s).sizes (execTimeSetAsym t rq s) = (tick t s).sizes := by
  unfold execTimeSetAsym
  simp

@[simp] theorem ownTimeConfigRoot_sizes (img : Bool) (rq : Request) (s : State) : (ownTimeConfigRoot img rq s).st.sizes = s.sizes := by
  unfold ownTimeConfigRoot
  simp

@[simp] theorem execTimeConfigRoot_sizes (t : Time) (rq : Request) (s : State) : osizes (tick t s).sizes (execTimeConfigRoot t rq s) = (tick t s).sizes := by
  unfold execTimeConfigRoot
  simp

@[simp] theorem ownTimeConfigHoldover_sizes (rq : Request) (s : State) : (ownTimeConfigHoldover rq s).st.sizes = s.sizes := by
  unfold ownTimeConfigHoldover
  simp

@[simp] theorem execTimeConfigHoldover_sizes (t : Time) (rq : Request) (s : State) : osizes (tick t s).sizes (execTimeConfigHoldover t rq s) = (tick t s).sizes := by
  unfold execTimeConfigHoldover
  simp

@[simp] theorem ownTimeConfigTod_sizes (rq : Request) (s : State) : (ownTimeConfigTod rq s).st.sizes = s.sizes := by
  unfold ownTimeConfigTod
  simp

@[simp] theorem execTimeConfigTod_sizes (t : Time) (rq : Request) (s : State) : osizes (tick t s).sizes (execTimeConfigTod t rq s) = (tick t s).sizes := by
  unfold execTimeConfigTod
  simp

@[simp] theorem ownTimeSetUtcOffset_sizes (rq : Request) (s : State) : (ownTimeSetUtcOffset rq s).st.sizes = s.sizes := by
  unfold ownTimeSetUtcOffset
  simp

@[simp] theorem execTimeSetUtcOffset_sizes (t : Time) (rq : Request) (s : State) : osizes (tick t s).sizes (execTimeSetUtcOffset t rq s) = (tick t s).sizes := by
  unfold execTimeSetUtcOffset
  simp

@[simp] theorem ownTimeStepLog_sizes (x : Request) (s : State) : (ownTimeStepLog x s).st.sizes = s.sizes := by
  unfold ownTimeStepLog
  simp

@[simp] theorem execTimeStepLog_sizes (t : Time) (rq : Request) (s : State) : osizes (tick t s).sizes (execTimeStepLog t rq s) = (tick t s).sizes := by
  unfold execTimeStepLog
  simp

end Sys2Proof.Machine
end

