-- ==== Sys2Proof/Laws/KeepBasin.lean ====
section
/-! SUPPORT. What the operations of Mem, Basin, Oper, TbRef keep: one lemma each for `State.kept` and for `State.sizes`. -/

set_option maxRecDepth 4000

namespace Sys2Proof.Machine

/-! ### Mem -/

@[simp] theorem modBasin_kept (f : BasinSt → BasinSt) (s : State) : (modBasin f s).kept = s.kept := by
  unfold modBasin
  simp

@[simp] theorem modSeg_kept (g : ℕ) (f : Segment → Segment) (s : State) : (modSeg g f s).kept = s.kept := by
  unfold modSeg
  simp

@[simp] theorem mirrorMark_kept (g : ℕ) (freeze : Bool) (s : State) : (mirrorMark g freeze s).kept = s.kept := by
  unfold mirrorMark
  simp

@[simp] theorem freezeNow_kept (g : ℕ) (truncated : Bool) (s : State) : (freezeNow g truncated s).kept = s.kept := by
  unfold freezeNow
  simp only [mirrorMark_kept, emitNow_kept, modSeg_kept]

@[simp] theorem trigger_kept (g : ℕ) (src : ℕ) (tTrig : ℕ) (s : State) : (trigger g src tTrig s).kept = s.kept := by
  unfold trigger
  simp
  repeat' (first | (simp; done) | (split <;> simp_all <;> done) | split)

@[simp] theorem mirrorOut_kept (g : ℕ) (gen : ℕ) (w : Word) (s : State) : (mirrorOut g gen w s).kept = s.kept := by
  unfold mirrorOut
  simp

@[simp] theorem storeRec_kept (g : ℕ) (r : QRec) (s : State) : (storeRec g r s).kept = s.kept := by
  unfold storeRec
  simp

@[simp] theorem arrive_kept (g : ℕ) (r : QRec) (s : State) : (arrive g r s).kept = s.kept := by
  unfold arrive
  simp
  repeat' (first | (simp; done) | (split <;> simp_all <;> done) | split)

@[simp] theorem execBasinRecordWrite_kept (t : Time) (seg : Fin 1024) (s0 : State) : okept (tick t s0).kept (execBasinRecordWrite t seg s0) = (tick t s0).kept := by
  unfold execBasinRecordWrite
  simp
  repeat' (first | (simp; done) | (split <;> simp_all <;> done) | split)

@[simp] theorem execSegmentIdleFreeze_kept (t : Time) (seg : Fin 1024) (s0 : State) : okept (tick t s0).kept (execSegmentIdleFreeze t seg s0) = (tick t s0).kept := by
  unfold execSegmentIdleFreeze
  simp

@[simp] theorem execMirrorOriginLost_kept (t : Time) (seg : Fin 1024) (s0 : State) : okept (tick t s0).kept (execMirrorOriginLost t seg s0) = (tick t s0).kept := by
  unfold execMirrorOriginLost
  simp
  repeat' (first | (simp; done) | (split <;> simp_all <;> done) | split)

@[simp] theorem cutMeta_kept (s : State) : (cutMeta s).kept = s.kept := by
  unfold cutMeta
  simp

@[simp] theorem modSeg_sizes (g : ℕ) (f : Segment → Segment) (s : State) : (modSeg g f s).sizes = s.sizes := by
  unfold modSeg
  simp

@[simp] theorem mirrorMark_sizes (g : ℕ) (freeze : Bool) (s : State) : (mirrorMark g freeze s).sizes = s.sizes := by
  unfold mirrorMark
  simp

@[simp] theorem freezeNow_sizes (g : ℕ) (truncated : Bool) (s : State) : (freezeNow g truncated s).sizes = s.sizes := by
  unfold freezeNow
  simp only [mirrorMark_sizes, emitNow_sizes, modSeg_sizes]

@[simp] theorem trigger_sizes (g : ℕ) (src : ℕ) (tTrig : ℕ) (s : State) : (trigger g src tTrig s).sizes = s.sizes := by
  unfold trigger
  simp
  repeat' (first | (simp; done) | (split <;> simp_all <;> done) | split)

@[simp] theorem mirrorOut_sizes (g : ℕ) (gen : ℕ) (w : Word) (s : State) : (mirrorOut g gen w s).sizes = s.sizes := by
  unfold mirrorOut
  simp

@[simp] theorem storeRec_sizes (g : ℕ) (r : QRec) (s : State) : (storeRec g r s).sizes = s.sizes := by
  unfold storeRec
  simp

@[simp] theorem arrive_sizes (g : ℕ) (r : QRec) (s : State) : (arrive g r s).sizes = s.sizes := by
  unfold arrive
  simp
  repeat' (first | (simp; done) | (split <;> simp_all <;> done) | split)

@[simp] theorem execBasinRecordWrite_sizes (t : Time) (seg : Fin 1024) (s0 : State) : osizes (tick t s0).sizes (execBasinRecordWrite t seg s0) = (tick t s0).sizes := by
  unfold execBasinRecordWrite
  simp
  repeat' (first | (simp; done) | (split <;> simp_all <;> done) | split)

@[simp] theorem execSegmentIdleFreeze_sizes (t : Time) (seg : Fin 1024) (s0 : State) : osizes (tick t s0).sizes (execSegmentIdleFreeze t seg s0) = (tick t s0).sizes := by
  unfold execSegmentIdleFreeze
  simp

@[simp] theorem execMirrorOriginLost_sizes (t : Time) (seg : Fin 1024) (s0 : State) : osizes (tick t s0).sizes (execMirrorOriginLost t seg s0) = (tick t s0).sizes := by
  unfold execMirrorOriginLost
  simp
  repeat' (first | (simp; done) | (split <;> simp_all <;> done) | split)

@[simp] theorem cutMeta_sizes (s : State) : (cutMeta s).sizes = s.sizes := by
  unfold cutMeta
  simp

/-! ### Basin -/

@[simp] theorem ownBasinConfigSegment_kept (img : Bool) (rq : Request) (s : State) : (ownBasinConfigSegment img rq s).st.kept = s.kept := by
  unfold ownBasinConfigSegment
  simp

@[simp] theorem execBasinConfigSegment_kept (t : Time) (rq : Request) (s : State) : okept (tick t s).kept (execBasinConfigSegment t rq s) = (tick t s).kept := by
  unfold execBasinConfigSegment
  simp

@[simp] theorem ownBasinClear_kept (rq : Request) (s : State) : (ownBasinClear rq s).st.kept = s.kept := by
  unfold ownBasinClear
  simp

@[simp] theorem execBasinClear_kept (t : Time) (rq : Request) (s : State) : okept (tick t s).kept (execBasinClear t rq s) = (tick t s).kept := by
  unfold execBasinClear
  simp

@[simp] theorem ownBasinFreeze_kept (rq : Request) (s : State) : (ownBasinFreeze rq s).st.kept = s.kept := by
  unfold ownBasinFreeze
  simp

@[simp] theorem execBasinFreeze_kept (t : Time) (rq : Request) (s : State) : okept (tick t s).kept (execBasinFreeze t rq s) = (tick t s).kept := by
  unfold execBasinFreeze
  simp

@[simp] theorem releaseSeg_kept (g : ℕ) (s : State) : (releaseSeg g s).kept = s.kept := by
  unfold releaseSeg
  simp

@[simp] theorem freeWords_kept (g : ℕ) (n : ℕ) (s : State) : (freeWords g n s).kept = s.kept := by
  unfold freeWords
  simp

@[simp] theorem ownBasinRelease_kept (rq : Request) (s : State) : (ownBasinRelease rq s).st.kept = s.kept := by
  unfold ownBasinRelease
  simp

@[simp] theorem execBasinRelease_kept (t : Time) (rq : Request) (s : State) : okept (tick t s).kept (execBasinRelease t rq s) = (tick t s).kept := by
  unfold execBasinRelease
  simp

@[simp] theorem ownBasinExtract_kept (rq : Request) (s : State) : (ownBasinExtract rq s).st.kept = s.kept := by
  unfold ownBasinExtract
  simp

@[simp] theorem execBasinExtract_kept (t : Time) (rq : Request) (s : State) : okept (tick t s).kept (execBasinExtract t rq s) = (tick t s).kept := by
  unfold execBasinExtract
  simp

@[simp] theorem ownBasinSetWindow_kept (rq : Request) (s : State) : (ownBasinSetWindow rq s).st.kept = s.kept := by
  unfold ownBasinSetWindow
  simp

@[simp] theorem execBasinSetWindow_kept (t : Time) (rq : Request) (s : State) : okept (tick t s).kept (execBasinSetWindow t rq s) = (tick t s).kept := by
  unfold execBasinSetWindow
  simp

@[simp] theorem ownBasinExport_kept (rq : Request) (s : State) : (ownBasinExport rq s).st.kept = s.kept := by
  unfold ownBasinExport
  simp

@[simp] theorem execBasinExport_kept (t : Time) (rq : Request) (s : State) : okept (tick t s).kept (execBasinExport t rq s) = (tick t s).kept := by
  unfold execBasinExport
  simp

@[simp] theorem ownBasinStatus_kept (rq : Request) (s : State) : (ownBasinStatus rq s).st.kept = s.kept := by
  unfold ownBasinStatus
  simp

@[simp] theorem execBasinStatus_kept (t : Time) (rq : Request) (s : State) : okept (tick t s).kept (execBasinStatus t rq s) = (tick t s).kept := by
  unfold execBasinStatus
  simp

@[simp] theorem ownBasinConfigSegment_sizes (img : Bool) (rq : Request) (s : State) : (ownBasinConfigSegment img rq s).st.sizes = s.sizes := by
  unfold ownBasinConfigSegment
  simp

@[simp] theorem execBasinConfigSegment_sizes (t : Time) (rq : Request) (s : State) : osizes (tick t s).sizes (execBasinConfigSegment t rq s) = (tick t s).sizes := by
  unfold execBasinConfigSegment
  simp

@[simp] theorem ownBasinClear_sizes (rq : Request) (s : State) : (ownBasinClear rq s).st.sizes = s.sizes := by
  unfold ownBasinClear
  simp

@[simp] theorem execBasinClear_sizes (t : Time) (rq : Request) (s : State) : osizes (tick t s).sizes (execBasinClear t rq s) = (tick t s).sizes := by
  unfold execBasinClear
  simp

@[simp] theorem ownBasinFreeze_sizes (rq : Request) (s : State) : (ownBasinFreeze rq s).st.sizes = s.sizes := by
  unfold ownBasinFreeze
  simp

@[simp] theorem execBasinFreeze_sizes (t : Time) (rq : Request) (s : State) : osizes (tick t s).sizes (execBasinFreeze t rq s) = (tick t s).sizes := by
  unfold execBasinFreeze
  simp

@[simp] theorem releaseSeg_sizes (g : ℕ) (s : State) : (releaseSeg g s).sizes = s.sizes := by
  unfold releaseSeg
  simp

@[simp] theorem freeWords_sizes (g : ℕ) (n : ℕ) (s : State) : (freeWords g n s).sizes = s.sizes := by
  unfold freeWords
  simp

@[simp] theorem ownBasinRelease_sizes (rq : Request) (s : State) : (ownBasinRelease rq s).st.sizes = s.sizes := by
  unfold ownBasinRelease
  simp

@[simp] theorem execBasinRelease_sizes (t : Time) (rq : Request) (s : State) : osizes (tick t s).sizes (execBasinRelease t rq s) = (tick t s).sizes := by
  unfold execBasinRelease
  simp

@[simp] theorem ownBasinExtract_sizes (rq : Request) (s : State) : (ownBasinExtract rq s).st.sizes = s.sizes := by
  unfold ownBasinExtract
  simp

@[simp] theorem execBasinExtract_sizes (t : Time) (rq : Request) (s : State) : osizes (tick t s).sizes (execBasinExtract t rq s) = (tick t s).sizes := by
  unfold execBasinExtract
  simp

@[simp] theorem ownBasinSetWindow_sizes (rq : Request) (s : State) : (ownBasinSetWindow rq s).st.sizes = s.sizes := by
  unfold ownBasinSetWindow
  simp

@[simp] theorem execBasinSetWindow_sizes (t : Time) (rq : Request) (s : State) : osizes (tick t s).sizes (execBasinSetWindow t rq s) = (tick t s).sizes := by
  unfold execBasinSetWindow
  simp

@[simp] theorem ownBasinExport_sizes (rq : Request) (s : State) : (ownBasinExport rq s).st.sizes = s.sizes := by
  unfold ownBasinExport
  simp

@[simp] theorem execBasinExport_sizes (t : Time) (rq : Request) (s : State) : osizes (tick t s).sizes (execBasinExport t rq s) = (tick t s).sizes := by
  unfold execBasinExport
  simp

@[simp] theorem ownBasinStatus_sizes (rq : Request) (s : State) : (ownBasinStatus rq s).st.sizes = s.sizes := by
  unfold ownBasinStatus
  simp

@[simp] theorem execBasinStatus_sizes (t : Time) (rq : Request) (s : State) : osizes (tick t s).sizes (execBasinStatus t rq s) = (tick t s).sizes := by
  unfold execBasinStatus
  simp

/-! ### Oper -/

@[simp] theorem opEmpty_kept (n : ℕ) (run : OpRun) (s : State) : (opEmpty n run s).kept = s.kept := by
  unfold opEmpty
  split <;> simp

@[simp] theorem opRefresh_kept (s : State) : (opRefresh s).kept = s.kept := by
  unfold opRefresh
  apply foldl_kept
  intro a p
  split <;> simp

@[simp] theorem emitDerived_kept (n : ℕ) (i : ℕ) (value : ℤ) (time : ℕ) (flags : BitVec 12) (s : State) : (emitDerived n i value time flags s).kept = s.kept := by
  unfold emitDerived
  split <;> simp

@[simp] theorem statsStep_kept (n : ℕ) (k : ℕ) (s : State) : (statsStep n k s).kept = s.kept := by
  unfold statsStep
  simp

@[simp] theorem threshFreeze_kept (n : ℕ) (time : ℕ) (s : State) : (threshFreeze n time s).kept = s.kept := by
  unfold threshFreeze
  simp

@[simp] theorem threshStep_kept (n : ℕ) (u : ℤ) (lo : ℤ) (r : OpRec) (s : State) : (threshStep n u lo r s).kept = s.kept := by
  unfold threshStep
  split <;> simp

@[simp] theorem combineStep_kept (n : ℕ) (k : OpCfg) (coefs : List ℤ) (offset : ℤ) (r : OpRec) (s : State) : (combineStep n k coefs offset r s).kept = s.kept := by
  unfold combineStep
  simp

@[simp] theorem decimStep_kept (n : ℕ) (taps : List ℤ) (d : ℕ) (s : State) : (decimStep n taps d s).kept = s.kept := by
  unfold decimStep
  simp

@[simp] theorem spectrumStep_kept (n : ℕ) (l : ℕ) (s : State) : (spectrumStep n l s).kept = s.kept := by
  unfold spectrumStep
  simp

@[simp] theorem eventStep_kept (n : ℕ) (le : ℤ) (he : ℤ) (r : OpRec) (s : State) : (eventStep n le he r s).kept = s.kept := by
  unfold eventStep
  simp
  repeat' (first | (simp; done) | (split <;> simp_all <;> done) | split)

@[simp] theorem pairOut_kept (n : ℕ) (dMm : ℕ) (shift : ℕ) (gMs : ℕ) (a : OpRec) (b : OpRec) (s : State) : (pairOut n dMm shift gMs a b s).kept = s.kept := by
  unfold pairOut
  simp
  repeat' (first | (simp; done) | (split <;> simp_all <;> done) | split)

@[simp] theorem correlateStep_kept (n : ℕ) (lo : ℕ) (hi : ℕ) (dMm : ℕ) (shift : ℕ) (gMs : ℕ) (a : ℕ) (x7 : List OpRec) (x8 : State) : (correlateStep n lo hi dMm shift gMs a x7 x8).kept = x8.kept := by
  induction a generalizing x7 x8 with
  | zero => rfl
  | succ k ih =>
    unfold correlateStep
    split
    · rfl
    · simp only []
      split <;> simp [ih]

@[simp] theorem opTake_kept (n : ℕ) (i : ℕ) (r : QRec) (s : State) : (opTake n i r s).kept = s.kept := by
  unfold opTake
  repeat' split
  all_goals simp

@[simp] theorem execOperatorInput_kept (t : Time) (slot : Fin 32) (s0 : State) : okept (tick t s0).kept (execOperatorInput t slot s0) = (tick t s0).kept := by
  unfold execOperatorInput
  simp
  repeat' (first | (simp; done) | (split <;> simp_all <;> done) | split)

@[simp] theorem execOperatorHoldExpiry_kept (t : Time) (slot : Fin 32) (s0 : State) : okept (tick t s0).kept (execOperatorHoldExpiry t slot s0) = (tick t s0).kept := by
  unfold execOperatorHoldExpiry
  simp
  repeat' (first | (simp; done) | (split <;> simp_all <;> done) | split)

@[simp] theorem ownOperConfig_kept (img : Bool) (rq : Request) (s : State) : (ownOperConfig img rq s).st.kept = s.kept := by
  unfold ownOperConfig
  simp
  repeat' (first | (simp; done) | (split <;> simp_all <;> done) | split)

@[simp] theorem execOperConfig_kept (t : Time) (rq : Request) (s : State) : okept (tick t s).kept (execOperConfig t rq s) = (tick t s).kept := by
  unfold execOperConfig
  simp

@[simp] theorem ownOperStart_kept (rq : Request) (s : State) : (ownOperStart rq s).st.kept = s.kept := by
  unfold ownOperStart
  simp

@[simp] theorem execOperStart_kept (t : Time) (rq : Request) (s : State) : okept (tick t s).kept (execOperStart t rq s) = (tick t s).kept := by
  unfold execOperStart
  simp

@[simp] theorem ownOperStop_kept (rq : Request) (s : State) : (ownOperStop rq s).st.kept = s.kept := by
  unfold ownOperStop
  simp

@[simp] theorem execOperStop_kept (t : Time) (rq : Request) (s : State) : okept (tick t s).kept (execOperStop t rq s) = (tick t s).kept := by
  unfold execOperStop
  simp

@[simp] theorem ownOperStatus_kept (rq : Request) (s : State) : (ownOperStatus rq s).st.kept = s.kept := by
  unfold ownOperStatus
  simp

@[simp] theorem execOperStatus_kept (t : Time) (rq : Request) (s : State) : okept (tick t s).kept (execOperStatus t rq s) = (tick t s).kept := by
  unfold execOperStatus
  simp

@[simp] theorem opEmpty_sizes (n : ℕ) (run : OpRun) (s : State) : (opEmpty n run s).sizes = s.sizes := by
  unfold opEmpty
  split <;> simp

@[simp] theorem opRefresh_sizes (s : State) : (opRefresh s).sizes = s.sizes := by
  unfold opRefresh
  apply foldl_sizes
  intro a p
  split <;> simp

@[simp] theorem emitDerived_sizes (n : ℕ) (i : ℕ) (value : ℤ) (time : ℕ) (flags : BitVec 12) (s : State) : (emitDerived n i value time flags s).sizes = s.sizes := by
  unfold emitDerived
  split <;> simp

@[simp] theorem statsStep_sizes (n : ℕ) (k : ℕ) (s : State) : (statsStep n k s).sizes = s.sizes := by
  unfold statsStep
  simp

@[simp] theorem threshFreeze_sizes (n : ℕ) (time : ℕ) (s : State) : (threshFreeze n time s).sizes = s.sizes := by
  unfold threshFreeze
  simp

@[simp] theorem threshStep_sizes (n : ℕ) (u : ℤ) (lo : ℤ) (r : OpRec) (s : State) : (threshStep n u lo r s).sizes = s.sizes := by
  unfold threshStep
  split <;> simp

@[simp] theorem combineStep_sizes (n : ℕ) (k : OpCfg) (coefs : List ℤ) (offset : ℤ) (r : OpRec) (s : State) : (combineStep n k coefs offset r s).sizes = s.sizes := by
  unfold combineStep
  simp

@[simp] theorem decimStep_sizes (n : ℕ) (taps : List ℤ) (d : ℕ) (s : State) : (decimStep n taps d s).sizes = s.sizes := by
  unfold decimStep
  simp

@[simp] theorem spectrumStep_sizes (n : ℕ) (l : ℕ) (s : State) : (spectrumStep n l s).sizes = s.sizes := by
  unfold spectrumStep
  simp

@[simp] theorem eventStep_sizes (n : ℕ) (le : ℤ) (he : ℤ) (r : OpRec) (s : State) : (eventStep n le he r s).sizes = s.sizes := by
  unfold eventStep
  simp
  repeat' (first | (simp; done) | (split <;> simp_all <;> done) | split)

@[simp] theorem pairOut_sizes (n : ℕ) (dMm : ℕ) (shift : ℕ) (gMs : ℕ) (a : OpRec) (b : OpRec) (s : State) : (pairOut n dMm shift gMs a b s).sizes = s.sizes := by
  unfold pairOut
  simp
  repeat' (first | (simp; done) | (split <;> simp_all <;> done) | split)

@[simp] theorem correlateStep_sizes (n : ℕ) (lo : ℕ) (hi : ℕ) (dMm : ℕ) (shift : ℕ) (gMs : ℕ) (a : ℕ) (x7 : List OpRec) (x8 : State) : (correlateStep n lo hi dMm shift gMs a x7 x8).sizes = x8.sizes := by
  induction a generalizing x7 x8 with
  | zero => rfl
  | succ k ih =>
    unfold correlateStep
    split
    · rfl
    · simp only []
      split <;> simp [ih]

@[simp] theorem opTake_sizes (n : ℕ) (i : ℕ) (r : QRec) (s : State) : (opTake n i r s).sizes = s.sizes := by
  unfold opTake
  repeat' split
  all_goals simp

@[simp] theorem execOperatorInput_sizes (t : Time) (slot : Fin 32) (s0 : State) : osizes (tick t s0).sizes (execOperatorInput t slot s0) = (tick t s0).sizes := by
  unfold execOperatorInput
  simp
  repeat' (first | (simp; done) | (split <;> simp_all <;> done) | split)

@[simp] theorem execOperatorHoldExpiry_sizes (t : Time) (slot : Fin 32) (s0 : State) : osizes (tick t s0).sizes (execOperatorHoldExpiry t slot s0) = (tick t s0).sizes := by
  unfold execOperatorHoldExpiry
  simp
  repeat' (first | (simp; done) | (split <;> simp_all <;> done) | split)

@[simp] theorem ownOperConfig_sizes (img : Bool) (rq : Request) (s : State) : (ownOperConfig img rq s).st.sizes = s.sizes := by
  unfold ownOperConfig
  simp
  repeat' (first | (simp; done) | (split <;> simp_all <;> done) | split)

@[simp] theorem execOperConfig_sizes (t : Time) (rq : Request) (s : State) : osizes (tick t s).sizes (execOperConfig t rq s) = (tick t s).sizes := by
  unfold execOperConfig
  simp

@[simp] theorem ownOperStart_sizes (rq : Request) (s : State) : (ownOperStart rq s).st.sizes = s.sizes := by
  unfold ownOperStart
  simp

@[simp] theorem execOperStart_sizes (t : Time) (rq : Request) (s : State) : osizes (tick t s).sizes (execOperStart t rq s) = (tick t s).sizes := by
  unfold execOperStart
  simp

@[simp] theorem ownOperStop_sizes (rq : Request) (s : State) : (ownOperStop rq s).st.sizes = s.sizes := by
  unfold ownOperStop
  simp

@[simp] theorem execOperStop_sizes (t : Time) (rq : Request) (s : State) : osizes (tick t s).sizes (execOperStop t rq s) = (tick t s).sizes := by
  unfold execOperStop
  simp

@[simp] theorem ownOperStatus_sizes (rq : Request) (s : State) : (ownOperStatus rq s).st.sizes = s.sizes := by
  unfold ownOperStatus
  simp

@[simp] theorem execOperStatus_sizes (t : Time) (rq : Request) (s : State) : osizes (tick t s).sizes (execOperStatus t rq s) = (tick t s).sizes := by
  unfold execOperStatus
  simp

/-! ### TbRef -/

@[simp] theorem modClk_kept (f : ClkSt → ClkSt) (s : State) : (modClk f s).kept = s.kept := by
  unfold modClk
  simp

@[simp] theorem setPll_kept (code : ℕ) (p : PllState) (s : State) : (setPll code p s).kept = s.kept := by
  unfold setPll
  simp

@[simp] theorem holdPll_kept (code : ℕ) (s : State) : (holdPll code s).kept = s.kept := by
  unfold holdPll
  simp

@[simp] theorem modRef_kept (b : Bool) (f : RefIn → RefIn) (s : State) : (modRef b f s).kept = s.kept := by
  unfold modRef
  simp

@[simp] theorem switchTb_kept (entry : ℕ) (s : State) : (switchTb entry s).kept = s.kept := by
  unfold switchTb
  simp

@[simp] theorem keepTbRef_kept (was : Option Bool) (s : State) : (keepTbRef was s).kept = s.kept := by
  unfold keepTbRef
  split <;> simp

@[simp] theorem laneRefLost_kept (p : ℕ) (l : ℕ) (s : State) : (laneRefLost p l s).kept = s.kept := by
  unfold laneRefLost
  simp

@[simp] theorem setPll_sizes (code : ℕ) (p : PllState) (s : State) : (setPll code p s).sizes = s.sizes := by
  unfold setPll
  simp

@[simp] theorem holdPll_sizes (code : ℕ) (s : State) : (holdPll code s).sizes = s.sizes := by
  unfold holdPll
  simp

@[simp] theorem modRef_sizes (b : Bool) (f : RefIn → RefIn) (s : State) : (modRef b f s).sizes = s.sizes := by
  unfold modRef
  split <;> simp

@[simp] theorem switchTb_sizes (entry : ℕ) (s : State) : (switchTb entry s).sizes = s.sizes := by
  unfold switchTb
  simp

@[simp] theorem keepTbRef_sizes (was : Option Bool) (s : State) : (keepTbRef was s).sizes = s.sizes := by
  unfold keepTbRef
  split <;> simp

@[simp] theorem laneRefLost_sizes (p : ℕ) (l : ℕ) (s : State) : (laneRefLost p l s).sizes = s.sizes := by
  unfold laneRefLost
  simp

end Sys2Proof.Machine
end

