-- ==== Sys2Proof/Laws/KeepLine.lean ====
section
/-! SUPPORT. What the operations of Line, Fab, Ethm keep: one lemma each for `State.kept` and for `State.sizes`. -/

set_option maxRecDepth 4000

namespace Sys2Proof.Machine

/-! ### Line -/

@[simp] theorem sendEnum_kept (p : ℕ) (ws : List Word) (s : State) : (sendEnum p ws s).kept = s.kept := by
  unfold sendEnum
  simp

@[simp] theorem noteBreak_kept (up : Bool) (b : Break) (s : State) : (noteBreak up b s).kept = s.kept := by
  unfold noteBreak
  simp

@[simp] theorem portChange_kept (p : ℕ) (up : Bool) (s : State) : (portChange p up s).kept = s.kept := by
  unfold portChange
  repeat' split
  all_goals simp

@[simp] theorem leaveAdjacent_kept (p : ℕ) (s : State) : (leaveAdjacent p s).kept = s.kept := by
  unfold leaveAdjacent
  simp

@[simp] theorem checkLink_kept (p : ℕ) (s : State) : (checkLink p s).kept = s.kept := by
  unfold checkLink
  simp

@[simp] theorem checkLinks_kept (s : State) : (checkLinks s).kept = s.kept := by
  unfold checkLinks
  simp

@[simp] theorem toLane_kept (p : ℕ) (l : ℕ) (new : LaneState) (s : State) : (toLane p l new s).kept = s.kept := by
  unfold toLane
  simp

@[simp] theorem startTraining_kept (p : ℕ) (l : ℕ) (s : State) : (startTraining p l s).kept = s.kept := by
  unfold startTraining
  simp

@[simp] theorem onLane_kept (l : ℕ) (s : State) (go : Unit → State) (h_go : (go ()).kept = s.kept) : okept s.kept (onLane l s go) = s.kept := by
  unfold onLane
  split <;> simp [h_go]

@[simp] theorem execLaneSignalDetect_kept (t : Time) (port : Fin 2) (lane : Fin 8) (s0 : State) : okept (tick t s0).kept (execLaneSignalDetect t port lane s0) = (tick t s0).kept := by
  unfold execLaneSignalDetect
  simp

@[simp] theorem execLaneRxConverged_kept (t : Time) (port : Fin 2) (lane : Fin 8) (s0 : State) : okept (tick t s0).kept (execLaneRxConverged t port lane s0) = (tick t s0).kept := by
  unfold execLaneRxConverged
  simp

@[simp] theorem execLaneNegotiationDone_kept (t : Time) (port : Fin 2) (lane : Fin 8) (sameRate : Bool) (s0 : State) : okept (tick t s0).kept (execLaneNegotiationDone t port lane sameRate s0) = (tick t s0).kept := by
  unfold execLaneNegotiationDone
  simp

@[simp] theorem laneOrderFault_kept (p : ℕ) (l : ℕ) (f : ℕ) (s : State) : (laneOrderFault p l f s).kept = s.kept := by
  unfold laneOrderFault
  simp

@[simp] theorem modCircuit_kept (id : BitVec 16) (f : Circuit → Circuit) (s : State) : (modCircuit id f s).kept = s.kept := by
  unfold modCircuit
  simp

@[simp] theorem execLaneAligned_kept (t : Time) (port : Fin 2) (lane : Fin 8) (laneField : Fin 8) (s0 : State) : okept (tick t s0).kept (execLaneAligned t port lane laneField s0) = (tick t s0).kept := by
  unfold execLaneAligned
  simp

@[simp] theorem execLaneTrainingTimeout_kept (t : Time) (port : Fin 2) (lane : Fin 8) (s0 : State) : okept (tick t s0).kept (execLaneTrainingTimeout t port lane s0) = (tick t s0).kept := by
  unfold execLaneTrainingTimeout
  simp

@[simp] theorem execLaneRetryTimer_kept (t : Time) (port : Fin 2) (lane : Fin 8) (s0 : State) : okept (tick t s0).kept (execLaneRetryTimer t port lane s0) = (tick t s0).kept := by
  unfold execLaneRetryTimer
  simp
  repeat' (first | (simp; done) | (split <;> simp_all <;> done) | split)

@[simp] theorem execLaneFailure_kept (t : Time) (port : Fin 2) (lane : Fin 8) (s0 : State) : okept (tick t s0).kept (execLaneFailure t port lane s0) = (tick t s0).kept := by
  unfold execLaneFailure
  simp

@[simp] theorem takeMap_kept (p : ℕ) (m : List ℕ) (s : State) : (takeMap p m s).kept = s.kept := by
  unfold takeMap
  simp

@[simp] theorem transitBudget_kept (p : ℕ) (i : ℕ) (h : ℕ) (s : State) : (transitBudget p i h s).kept = s.kept := by
  unfold transitBudget
  simp

@[simp] theorem sendFraming_kept (p : ℕ) (l : ℕ) (stuff : Bool) (deleteNext : Bool) (s : State) : (sendFraming p l stuff deleteNext s).kept = s.kept := by
  unfold sendFraming
  simp

@[simp] theorem takeStamps_kept (p : ℕ) (l : ℕ) (half : Bool) (cw : Word) (s : State) : (takeStamps p l half cw s).kept = s.kept := by
  unfold takeStamps
  simp

@[simp] theorem takeFir_kept (p : ℕ) (l : ℕ) (r : Option (Fin 4 × Bool)) (s : State) : (takeFir p l r s).kept = s.kept := by
  unfold takeFir
  split <;> simp

@[simp] theorem takeSide_kept (p : ℕ) (l : ℕ) (m : Option SideMsg) (s : State) : (takeSide p l m s).kept = s.kept := by
  unfold takeSide
  split <;> simp

@[simp] theorem execFramingCodewordRx_kept (t : Time) (port : Fin 3) (lane : Fin 8) (cw : Word) (side : Option SideMsg) (s0 : State) : okept (tick t s0).kept (execFramingCodewordRx t port lane cw side s0) = (tick t s0).kept := by
  unfold execFramingCodewordRx
  simp

@[simp] theorem execLaneJustification_kept (t : Time) (port : Fin 2) (lane : Fin 8) (bufferHigh : Bool) (beyondRange : Bool) (s0 : State) : okept (tick t s0).kept (execLaneJustification t port lane bufferHigh beyondRange s0) = (tick t s0).kept := by
  unfold execLaneJustification
  simp

@[simp] theorem execCtleReevaluate_kept (t : Time) (port : Fin 2) (lane : Fin 8) (better : ℕ) (s0 : State) : okept (tick t s0).kept (execCtleReevaluate t port lane better s0) = (tick t s0).kept := by
  unfold execCtleReevaluate
  simp

@[simp] theorem execFirTapRequest_kept (t : Time) (port : Fin 2) (lane : Fin 8) (tap : Fin 4) (up : Bool) (gainDb100 : ℕ) (s0 : State) : okept (tick t s0).kept (execFirTapRequest t port lane tap up gainDb100 s0) = (tick t s0).kept := by
  unfold execFirTapRequest
  simp

@[simp] theorem execLaneDegradedChange_kept (t : Time) (port : Fin 2) (lane : Fin 8) (ber : ℕ) (s0 : State) : okept (tick t s0).kept (execLaneDegradedChange t port lane ber s0) = (tick t s0).kept := by
  unfold execLaneDegradedChange
  simp

@[simp] theorem shedEnter_kept (s : State) : (shedEnter s).kept = s.kept := by
  unfold shedEnter
  simp

@[simp] theorem shedLeave_kept (s : State) : (shedLeave s).kept = s.kept := by
  unfold shedLeave
  simp

@[simp] theorem execLaneShedPowerdown_kept (t : Time) (port : Fin 2) (lane : Fin 8) (s0 : State) : okept (tick t s0).kept (execLaneShedPowerdown t port lane s0) = (tick t s0).kept := by
  unfold execLaneShedPowerdown
  simp

@[simp] theorem innerDecode_kept (p : ℕ) (l : ℕ) (cw : Word) (resolved : Option (BitVec 120)) (s : State) : (innerDecode p l cw resolved s).2.kept = s.kept := by
  unfold innerDecode
  split <;> simp

@[simp] theorem sendSlot_kept (p : ℕ) (i : ℕ) (hops : ℕ) (info : BitVec 120) (s : State) : (sendSlot p i hops info s).kept = s.kept := by
  unfold sendSlot
  simp

@[simp] theorem sendIdle_kept (p : ℕ) (i : ℕ) (s : State) : (sendIdle p i s).kept = s.kept := by
  unfold sendIdle
  simp

@[simp] theorem execExpressCodeword_kept (t : Time) (port : Fin 2) (lane : Fin 8) (j : Fin 1088) (cw : Word) (resolved : Option (BitVec 120)) (s0 : State) : okept (tick t s0).kept (execExpressCodeword t port lane j cw resolved s0) = (tick t s0).kept := by
  unfold execExpressCodeword
  simp
  repeat' (first | (simp; done) | (split <;> simp_all <;> done) | split)

@[simp] theorem sendCircuit_kept (p : ℕ) (id : BitVec 16) (ws : List (BitVec 120)) (s : State) : (sendCircuit p id ws s).kept = s.kept := by
  unfold sendCircuit
  simp

@[simp] theorem execCircuitAdd_kept (t : Time) (circuit : BitVec 16) (codewords : List (BitVec 120)) (s0 : State) : okept (tick t s0).kept (execCircuitAdd t circuit codewords s0) = (tick t s0).kept := by
  unfold execCircuitAdd
  simp
  repeat' (first | (simp; done) | (split <;> simp_all <;> done) | split)

@[simp] theorem execCircuitDrop_kept (t : Time) (circuit : BitVec 16) (working : Option (List (BitVec 120))) (protecting : Option (List (BitVec 120))) (skewNs : ℕ) (diffDelayUs : ℕ) (s0 : State) : okept (tick t s0).kept (execCircuitDrop t circuit working protecting skewNs diffDelayUs s0) = (tick t s0).kept := by
  unfold execCircuitDrop
  simp
  repeat' (first | (simp; done) | (split <;> simp_all <;> done) | split)

@[simp] theorem execCircuitRegen_kept (t : Time) (port : Fin 2) (slot : Fin 64) (info : BitVec 120) (s0 : State) : okept (tick t s0).kept (execCircuitRegen t port slot info s0) = (tick t s0).kept := by
  unfold execCircuitRegen
  simp

@[simp] theorem ownLaneConfig_kept (img : Bool) (rq : Request) (s : State) : (ownLaneConfig img rq s).st.kept = s.kept := by
  unfold ownLaneConfig
  simp

@[simp] theorem execLaneConfig_kept (t : Time) (rq : Request) (s : State) : okept (tick t s).kept (execLaneConfig t rq s) = (tick t s).kept := by
  unfold execLaneConfig
  simp

@[simp] theorem ownLaneRetrain_kept (rq : Request) (s : State) : (ownLaneRetrain rq s).st.kept = s.kept := by
  unfold ownLaneRetrain
  simp

@[simp] theorem execLaneRetrain_kept (t : Time) (rq : Request) (s : State) : okept (tick t s).kept (execLaneRetrain t rq s) = (tick t s).kept := by
  unfold execLaneRetrain
  simp

@[simp] theorem adaptTaps_kept (p : ℕ) (s : State) : (adaptTaps p s).kept = s.kept := by
  unfold adaptTaps
  simp

@[simp] theorem ownLaneStatus_kept (rq : Request) (s : State) : (ownLaneStatus rq s).st.kept = s.kept := by
  unfold ownLaneStatus
  simp

@[simp] theorem execLaneStatus_kept (t : Time) (rq : Request) (s : State) : okept (tick t s).kept (execLaneStatus t rq s) = (tick t s).kept := by
  unfold execLaneStatus
  simp

@[simp] theorem ownSlotStatus_kept (rq : Request) (s : State) : (ownSlotStatus rq s).st.kept = s.kept := by
  unfold ownSlotStatus
  simp

@[simp] theorem execSlotStatus_kept (t : Time) (rq : Request) (s : State) : okept (tick t s).kept (execSlotStatus t rq s) = (tick t s).kept := by
  unfold execSlotStatus
  simp

@[simp] theorem sendEnum_sizes (p : ℕ) (ws : List Word) (s : State) : (sendEnum p ws s).sizes = s.sizes := by
  unfold sendEnum
  simp

@[simp] theorem noteBreak_sizes (up : Bool) (b : Break) (s : State) : (noteBreak up b s).sizes = s.sizes := by
  unfold noteBreak
  simp

@[simp] theorem portChange_sizes (p : ℕ) (up : Bool) (s : State) : (portChange p up s).sizes = s.sizes := by
  unfold portChange
  repeat' split
  all_goals simp

@[simp] theorem leaveAdjacent_sizes (p : ℕ) (s : State) : (leaveAdjacent p s).sizes = s.sizes := by
  unfold leaveAdjacent
  simp

@[simp] theorem checkLink_sizes (p : ℕ) (s : State) : (checkLink p s).sizes = s.sizes := by
  unfold checkLink
  simp

@[simp] theorem checkLinks_sizes (s : State) : (checkLinks s).sizes = s.sizes := by
  unfold checkLinks
  simp

@[simp] theorem toLane_sizes (p : ℕ) (l : ℕ) (new : LaneState) (s : State) : (toLane p l new s).sizes = s.sizes := by
  unfold toLane
  simp

@[simp] theorem startTraining_sizes (p : ℕ) (l : ℕ) (s : State) : (startTraining p l s).sizes = s.sizes := by
  unfold startTraining
  simp

@[simp] theorem onLane_sizes (l : ℕ) (s : State) (go : Unit → State) (h_go : (go ()).sizes = s.sizes) : osizes s.sizes (onLane l s go) = s.sizes := by
  unfold onLane
  split <;> simp [h_go]

@[simp] theorem execLaneSignalDetect_sizes (t : Time) (port : Fin 2) (lane : Fin 8) (s0 : State) : osizes (tick t s0).sizes (execLaneSignalDetect t port lane s0) = (tick t s0).sizes := by
  unfold execLaneSignalDetect
  simp

@[simp] theorem execLaneRxConverged_sizes (t : Time) (port : Fin 2) (lane : Fin 8) (s0 : State) : osizes (tick t s0).sizes (execLaneRxConverged t port lane s0) = (tick t s0).sizes := by
  unfold execLaneRxConverged
  simp

@[simp] theorem execLaneNegotiationDone_sizes (t : Time) (port : Fin 2) (lane : Fin 8) (sameRate : Bool) (s0 : State) : osizes (tick t s0).sizes (execLaneNegotiationDone t port lane sameRate s0) = (tick t s0).sizes := by
  unfold execLaneNegotiationDone
  simp

@[simp] theorem laneOrderFault_sizes (p : ℕ) (l : ℕ) (f : ℕ) (s : State) : (laneOrderFault p l f s).sizes = s.sizes := by
  unfold laneOrderFault
  simp

@[simp] theorem modCircuit_sizes (id : BitVec 16) (f : Circuit → Circuit) (s : State) : (modCircuit id f s).sizes = s.sizes := by
  unfold modCircuit
  simp

@[simp] theorem execLaneAligned_sizes (t : Time) (port : Fin 2) (lane : Fin 8) (laneField : Fin 8) (s0 : State) : osizes (tick t s0).sizes (execLaneAligned t port lane laneField s0) = (tick t s0).sizes := by
  unfold execLaneAligned
  simp

@[simp] theorem execLaneTrainingTimeout_sizes (t : Time) (port : Fin 2) (lane : Fin 8) (s0 : State) : osizes (tick t s0).sizes (execLaneTrainingTimeout t port lane s0) = (tick t s0).sizes := by
  unfold execLaneTrainingTimeout
  simp

@[simp] theorem execLaneRetryTimer_sizes (t : Time) (port : Fin 2) (lane : Fin 8) (s0 : State) : osizes (tick t s0).sizes (execLaneRetryTimer t port lane s0) = (tick t s0).sizes := by
  unfold execLaneRetryTimer
  simp
  repeat' (first | (simp; done) | (split <;> simp_all <;> done) | split)

@[simp] theorem execLaneFailure_sizes (t : Time) (port : Fin 2) (lane : Fin 8) (s0 : State) : osizes (tick t s0).sizes (execLaneFailure t port lane s0) = (tick t s0).sizes := by
  unfold execLaneFailure
  simp

@[simp] theorem takeMap_sizes (p : ℕ) (m : List ℕ) (s : State) : (takeMap p m s).sizes = s.sizes := by
  unfold takeMap
  simp

@[simp] theorem transitBudget_sizes (p : ℕ) (i : ℕ) (h : ℕ) (s : State) : (transitBudget p i h s).sizes = s.sizes := by
  unfold transitBudget
  simp

@[simp] theorem sendFraming_sizes (p : ℕ) (l : ℕ) (stuff : Bool) (deleteNext : Bool) (s : State) : (sendFraming p l stuff deleteNext s).sizes = s.sizes := by
  unfold sendFraming
  simp

@[simp] theorem takeStamps_sizes (p : ℕ) (l : ℕ) (half : Bool) (cw : Word) (s : State) : (takeStamps p l half cw s).sizes = s.sizes := by
  unfold takeStamps
  simp

@[simp] theorem takeFir_sizes (p : ℕ) (l : ℕ) (r : Option (Fin 4 × Bool)) (s : State) : (takeFir p l r s).sizes = s.sizes := by
  unfold takeFir
  split <;> simp

@[simp] theorem takeSide_sizes (p : ℕ) (l : ℕ) (m : Option SideMsg) (s : State) : (takeSide p l m s).sizes = s.sizes := by
  unfold takeSide
  split <;> simp

@[simp] theorem execFramingCodewordRx_sizes (t : Time) (port : Fin 3) (lane : Fin 8) (cw : Word) (side : Option SideMsg) (s0 : State) : osizes (tick t s0).sizes (execFramingCodewordRx t port lane cw side s0) = (tick t s0).sizes := by
  unfold execFramingCodewordRx
  simp

@[simp] theorem execLaneJustification_sizes (t : Time) (port : Fin 2) (lane : Fin 8) (bufferHigh : Bool) (beyondRange : Bool) (s0 : State) : osizes (tick t s0).sizes (execLaneJustification t port lane bufferHigh beyondRange s0) = (tick t s0).sizes := by
  unfold execLaneJustification
  simp

@[simp] theorem execCtleReevaluate_sizes (t : Time) (port : Fin 2) (lane : Fin 8) (better : ℕ) (s0 : State) : osizes (tick t s0).sizes (execCtleReevaluate t port lane better s0) = (tick t s0).sizes := by
  unfold execCtleReevaluate
  simp

@[simp] theorem execFirTapRequest_sizes (t : Time) (port : Fin 2) (lane : Fin 8) (tap : Fin 4) (up : Bool) (gainDb100 : ℕ) (s0 : State) : osizes (tick t s0).sizes (execFirTapRequest t port lane tap up gainDb100 s0) = (tick t s0).sizes := by
  unfold execFirTapRequest
  simp

@[simp] theorem execLaneDegradedChange_sizes (t : Time) (port : Fin 2) (lane : Fin 8) (ber : ℕ) (s0 : State) : osizes (tick t s0).sizes (execLaneDegradedChange t port lane ber s0) = (tick t s0).sizes := by
  unfold execLaneDegradedChange
  simp

@[simp] theorem shedEnter_sizes (s : State) : (shedEnter s).sizes = s.sizes := by
  unfold shedEnter
  simp

@[simp] theorem shedLeave_sizes (s : State) : (shedLeave s).sizes = s.sizes := by
  unfold shedLeave
  simp

@[simp] theorem execLaneShedPowerdown_sizes (t : Time) (port : Fin 2) (lane : Fin 8) (s0 : State) : osizes (tick t s0).sizes (execLaneShedPowerdown t port lane s0) = (tick t s0).sizes := by
  unfold execLaneShedPowerdown
  simp

@[simp] theorem innerDecode_sizes (p : ℕ) (l : ℕ) (cw : Word) (resolved : Option (BitVec 120)) (s : State) : (innerDecode p l cw resolved s).2.sizes = s.sizes := by
  unfold innerDecode
  split <;> simp

@[simp] theorem sendSlot_sizes (p : ℕ) (i : ℕ) (hops : ℕ) (info : BitVec 120) (s : State) : (sendSlot p i hops info s).sizes = s.sizes := by
  unfold sendSlot
  simp

@[simp] theorem sendIdle_sizes (p : ℕ) (i : ℕ) (s : State) : (sendIdle p i s).sizes = s.sizes := by
  unfold sendIdle
  simp

@[simp] theorem execExpressCodeword_sizes (t : Time) (port : Fin 2) (lane : Fin 8) (j : Fin 1088) (cw : Word) (resolved : Option (BitVec 120)) (s0 : State) : osizes (tick t s0).sizes (execExpressCodeword t port lane j cw resolved s0) = (tick t s0).sizes := by
  unfold execExpressCodeword
  simp
  repeat' (first | (simp; done) | (split <;> simp_all <;> done) | split)

@[simp] theorem sendCircuit_sizes (p : ℕ) (id : BitVec 16) (ws : List (BitVec 120)) (s : State) : (sendCircuit p id ws s).sizes = s.sizes := by
  unfold sendCircuit
  simp

@[simp] theorem execCircuitAdd_sizes (t : Time) (circuit : BitVec 16) (codewords : List (BitVec 120)) (s0 : State) : osizes (tick t s0).sizes (execCircuitAdd t circuit codewords s0) = (tick t s0).sizes := by
  unfold execCircuitAdd
  simp
  repeat' (first | (simp; done) | (split <;> simp_all <;> done) | split)

@[simp] theorem execCircuitDrop_sizes (t : Time) (circuit : BitVec 16) (working : Option (List (BitVec 120))) (protecting : Option (List (BitVec 120))) (skewNs : ℕ) (diffDelayUs : ℕ) (s0 : State) : osizes (tick t s0).sizes (execCircuitDrop t circuit working protecting skewNs diffDelayUs s0) = (tick t s0).sizes := by
  unfold execCircuitDrop
  simp
  repeat' (first | (simp; done) | (split <;> simp_all <;> done) | split)

@[simp] theorem execCircuitRegen_sizes (t : Time) (port : Fin 2) (slot : Fin 64) (info : BitVec 120) (s0 : State) : osizes (tick t s0).sizes (execCircuitRegen t port slot info s0) = (tick t s0).sizes := by
  unfold execCircuitRegen
  simp

@[simp] theorem ownLaneConfig_sizes (img : Bool) (rq : Request) (s : State) : (ownLaneConfig img rq s).st.sizes = s.sizes := by
  unfold ownLaneConfig
  simp

@[simp] theorem execLaneConfig_sizes (t : Time) (rq : Request) (s : State) : osizes (tick t s).sizes (execLaneConfig t rq s) = (tick t s).sizes := by
  unfold execLaneConfig
  simp

@[simp] theorem ownLaneRetrain_sizes (rq : Request) (s : State) : (ownLaneRetrain rq s).st.sizes = s.sizes := by
  unfold ownLaneRetrain
  simp

@[simp] theorem execLaneRetrain_sizes (t : Time) (rq : Request) (s : State) : osizes (tick t s).sizes (execLaneRetrain t rq s) = (tick t s).sizes := by
  unfold execLaneRetrain
  simp

@[simp] theorem adaptTaps_sizes (p : ℕ) (s : State) : (adaptTaps p s).sizes = s.sizes := by
  unfold adaptTaps
  simp

@[simp] theorem ownLaneStatus_sizes (rq : Request) (s : State) : (ownLaneStatus rq s).st.sizes = s.sizes := by
  unfold ownLaneStatus
  apply guarded_sizes
  simp

@[simp] theorem execLaneStatus_sizes (t : Time) (rq : Request) (s : State) : osizes (tick t s).sizes (execLaneStatus t rq s) = (tick t s).sizes := by
  unfold execLaneStatus
  simp

@[simp] theorem ownSlotStatus_sizes (rq : Request) (s : State) : (ownSlotStatus rq s).st.sizes = s.sizes := by
  unfold ownSlotStatus
  simp

@[simp] theorem execSlotStatus_sizes (t : Time) (rq : Request) (s : State) : osizes (tick t s).sizes (execSlotStatus t rq s) = (tick t s).sizes := by
  unfold execSlotStatus
  simp

/-! ### Fab -/

@[simp] theorem putWin_kept (w : DupWin) (s : State) : (putWin w s).kept = s.kept := by
  unfold putWin
  simp

@[simp] theorem keepCopy_kept (gate : Bool) (src : BitVec 16) (q : ℕ) (s : State) : (keepCopy gate src q s).2.kept = s.kept := by
  unfold keepCopy
  simp
  repeat' (first | (simp; done) | (split <;> simp_all <;> done) | split)

@[simp] theorem deliverRemote_kept (node : BitVec 16) (a : ℕ) (r : QRec) (s : State) (d : Dest) : (deliverRemote node a r s d).kept = s.kept := by
  unfold deliverRemote
  simp

@[simp] theorem takeRemote_kept (node : BitVec 16) (gen : ℕ) (w : Word) (s : State) : (takeRemote node gen w s).kept = s.kept := by
  unfold takeRemote
  simp

@[simp] theorem putOrder_kept (o : SrcOrder) (s : State) : (putOrder o s).kept = s.kept := by
  unfold putOrder
  simp

@[simp] theorem lossGap_kept (src : BitVec 16) (w : Word) (s : State) : (lossGap src w s).2.kept = s.kept := by
  unfold lossGap
  repeat' split
  all_goals simp

@[simp] theorem deliverRecords_kept (f : Frame) (s : State) : (deliverRecords f s).kept = s.kept := by
  unfold deliverRecords
  simp

@[simp] theorem modEth_kept (p : ℕ) (f : EthPort → EthPort) (s : State) : (modEth p f s).kept = s.kept := by
  unfold modEth
  simp

@[simp] theorem learnMac_kept (g : ℕ) (m : BitVec 48) (node : BitVec 16) (port : Option ℕ) (s : State) : (learnMac g m node port s).kept = s.kept := by
  unfold learnMac
  simp

@[simp] theorem etherOut_kept (p : ℕ) (ws : List Word) (corr : ℤ) (s : State) : (etherOut p ws corr s).kept = s.kept := by
  unfold etherOut
  simp

@[simp] theorem deliverData_kept (f : Frame) (s : State) : (deliverData f s).kept = s.kept := by
  unfold deliverData
  simp

@[simp] theorem consume_kept (f : Frame) (s : State) : (consume f s).kept = s.kept := by
  unfold consume
  repeat' split
  all_goals simp

@[simp] theorem drainOrder_kept (src : BitVec 16) (a : ℕ) (x2 : State) : (drainOrder src a x2).kept = x2.kept := by
  induction a generalizing x2 with
  | zero => rfl
  | succ k ih =>
    unfold drainOrder
    repeat' (first | rfl | (simp [ih]; done) | split)

@[simp] theorem inOrder_kept (src : BitVec 16) (q : ℕ) (f : Frame) (s : State) : (inOrder src q f s).kept = s.kept := by
  unfold inOrder
  split <;> simp

@[simp] theorem noteSecond_kept (src : BitVec 16) (q : ℕ) (s : State) : (noteSecond src q s).kept = s.kept := by
  unfold noteSecond
  repeat' split
  all_goals simp

@[simp] theorem acceptDual_kept (h : Hdr) (f : Frame) (s : State) : (acceptDual h f s).kept = s.kept := by
  unfold acceptDual
  simp

@[simp] theorem expireHeld_kept (src : BitVec 16) (a : ℕ) (x2 : State) : (expireHeld src a x2).kept = x2.kept := by
  induction a generalizing x2 with
  | zero => rfl
  | succ k ih =>
    unfold expireHeld
    split
    · rfl
    · simp only []
      split
      · rfl
      · split
        · rfl
        · simp only [ih, drainOrder_kept, modFab_kept, putOrder_kept]

@[simp] theorem execReorderHoldExpiry_kept (t : Time) (src : BitVec 16) (s0 : State) : okept (tick t s0).kept (execReorderHoldExpiry t src s0) = (tick t s0).kept := by
  unfold execReorderHoldExpiry
  simp
  repeat' (first | (simp; done) | (split <;> simp_all <;> done) | split)

@[simp] theorem execSourceForget_kept (t : Time) (src : BitVec 16) (s0 : State) : okept (tick t s0).kept (execSourceForget t src s0) = (tick t s0).kept := by
  unfold execSourceForget
  simp

@[simp] theorem noteStomp_kept (p : ℕ) (c : ℕ) (own : Bool) (s : State) : (noteStomp p c own s).kept = s.kept := by
  unfold noteStomp
  simp

@[simp] theorem passOn_kept (f : Frame) (outs : List ℕ) (bad : Bool) (gain : ℤ) (s : State) : (passOn f outs bad gain s).kept = s.kept := by
  unfold passOn
  simp

@[simp] theorem crossNow_kept (h : Hdr) (p : ℕ) (bad : Bool) (s : State) : (crossNow h p bad s).2.kept = s.kept := by
  unfold crossNow
  repeat' split
  all_goals simp

@[simp] theorem routeFrame_kept (f : Frame) (h : Hdr) (residence : ℕ) (s : State) : (routeFrame f h residence s).kept = s.kept := by
  unfold routeFrame
  repeat' split
  all_goals simp

@[simp] theorem execFrameForward_kept (t : Time) (f : Frame) (residence : ℕ) (s0 : State) : okept (tick t s0).kept (execFrameForward t f residence s0) = (tick t s0).kept := by
  unfold execFrameForward
  simp

@[simp] theorem takeMirror_kept (g : ℕ) (gen : ℕ) (node : BitVec 16) (ws : List Word) (s : State) : (takeMirror g gen node ws s).kept = s.kept := by
  unfold takeMirror
  simp

@[simp] theorem takeMark_kept (g : ℕ) (mark : Option Bool) (s : State) : (takeMark g mark s).kept = s.kept := by
  unfold takeMark
  split <;> simp

@[simp] theorem execRecordsFrameRx_kept (t : Time) (f : Frame) (mark : Option Bool) (s0 : State) : okept (tick t s0).kept (execRecordsFrameRx t f mark s0) = (tick t s0).kept := by
  unfold execRecordsFrameRx
  extract_lets s h
  apply arriveAt_kept
  repeat' (first | (simp; done) | split)

@[simp] theorem execDataFrameRx_kept (t : Time) (f : Frame) (s0 : State) : okept (tick t s0).kept (execDataFrameRx t f s0) = (tick t s0).kept := by
  unfold execDataFrameRx
  simp

@[simp] theorem execOriginationHoldEnd_kept (t : Time) (s0 : State) : okept (tick t s0).kept (execOriginationHoldEnd t s0) = (tick t s0).kept := by
  unfold execOriginationHoldEnd
  simp

@[simp] theorem execOriginationLimitRelease_kept (t : Time) (s0 : State) : okept (tick t s0).kept (execOriginationLimitRelease t s0) = (tick t s0).kept := by
  unfold execOriginationLimitRelease
  simp

@[simp] theorem execLimiterExtensionEnd_kept (t : Time) (s0 : State) : okept (tick t s0).kept (execLimiterExtensionEnd t s0) = (tick t s0).kept := by
  unfold execLimiterExtensionEnd
  simp

@[simp] theorem closeExport_kept (force : Bool) (g : ℕ) (node : BitVec 16) (s : State) : (closeExport force g node s).kept = s.kept := by
  unfold closeExport
  simp
  repeat' (first | (simp; done) | (split <;> simp_all <;> done) | split)

@[simp] theorem execExportFrameClose_kept (t : Time) (g : Fin 10) (s0 : State) : okept (tick t s0).kept (execExportFrameClose t g s0) = (tick t s0).kept := by
  unfold execExportFrameClose
  simp

@[simp] theorem execHelloRx_kept (t : Time) (port : Fin 3) (uid : BitVec 64) (heard : BitVec 64) (sameRing : Bool) (s0 : State) : okept (tick t s0).kept (execHelloRx t port uid heard sameRing s0) = (tick t s0).kept := by
  unfold execHelloRx
  simp

@[simp] theorem execHelloTx_kept (t : Time) (port : Fin 3) (s0 : State) : okept (tick t s0).kept (execHelloTx t port s0) = (tick t s0).kept := by
  unfold execHelloTx
  simp

@[simp] theorem execAdjacencyTimeout_kept (t : Time) (port : Fin 3) (s0 : State) : okept (tick t s0).kept (execAdjacencyTimeout t port s0) = (tick t s0).kept := by
  unfold execAdjacencyTimeout
  simp

@[simp] theorem noteDivergence_kept (s : State) : (noteDivergence s).kept = s.kept := by
  unfold noteDivergence
  split <;> simp

@[simp] theorem takePos_kept (r : PosRun) (s : State) : (takePos r s).kept = s.kept := by
  unfold takePos
  simp

@[simp] theorem execTokenRx_kept (t : Time) (port : Fin 2) (payload1 : Word) (payload2 : Word) (s0 : State) : okept (tick t s0).kept (execTokenRx t port payload1 payload2 s0) = (tick t s0).kept := by
  unfold execTokenRx
  simp

@[simp] theorem execTokenTx_kept (t : Time) (s0 : State) : okept (tick t s0).kept (execTokenTx t s0) = (tick t s0).kept := by
  unfold execTokenTx
  simp

@[simp] theorem execSecondaryAnchorTakeover_kept (t : Time) (s0 : State) : okept (tick t s0).kept (execSecondaryAnchorTakeover t s0) = (tick t s0).kept := by
  unfold execSecondaryAnchorTakeover
  simp

@[simp] theorem execLinkStateRx_kept (t : Time) (port : Fin 2) (up : Bool) (pos : Fin 1024) (brokenPort : Fin 3) (s0 : State) : okept (tick t s0).kept (execLinkStateRx t port up pos brokenPort s0) = (tick t s0).kept := by
  unfold execLinkStateRx
  simp
  repeat' (first | (simp; done) | (split <;> simp_all <;> done) | split)

@[simp] theorem execBeaconTx_kept (t : Time) (s0 : State) : okept (tick t s0).kept (execBeaconTx t s0) = (tick t s0).kept := by
  unfold execBeaconTx
  simp

@[simp] theorem execBeaconRx_kept (t : Time) (b : Beacon) (s0 : State) : okept (tick t s0).kept (execBeaconRx t b s0) = (tick t s0).kept := by
  unfold execBeaconRx
  simp

@[simp] theorem ownFabStatus_kept (_rq : Request) (s : State) : (ownFabStatus _rq s).st.kept = s.kept := by
  unfold ownFabStatus
  simp

@[simp] theorem execFabStatus_kept (t : Time) (rq : Request) (s : State) : okept (tick t s).kept (execFabStatus t rq s) = (tick t s).kept := by
  unfold execFabStatus
  simp

@[simp] theorem ownFabProbe_kept (ans : Option (ℕ × ℕ)) (rq : Request) (s : State) : (ownFabProbe ans rq s).st.kept = s.kept := by
  unfold ownFabProbe
  split <;> simp

@[simp] theorem execFabProbe_kept (t : Time) (rq : Request) (answer : Option (ℕ × ℕ)) (s : State) : okept (tick t s).kept (execFabProbe t rq answer s) = (tick t s).kept := by
  unfold execFabProbe
  simp

@[simp] theorem putWin_sizes (w : DupWin) (s : State) : (putWin w s).sizes = s.sizes := by
  unfold putWin
  simp

@[simp] theorem keepCopy_sizes (gate : Bool) (src : BitVec 16) (q : ℕ) (s : State) : (keepCopy gate src q s).2.sizes = s.sizes := by
  unfold keepCopy
  simp
  repeat' (first | (simp; done) | (split <;> simp_all <;> done) | split)

@[simp] theorem deliverRemote_sizes (node : BitVec 16) (a : ℕ) (r : QRec) (s : State) (d : Dest) : (deliverRemote node a r s d).sizes = s.sizes := by
  unfold deliverRemote
  simp

@[simp] theorem takeRemote_sizes (node : BitVec 16) (gen : ℕ) (w : Word) (s : State) : (takeRemote node gen w s).sizes = s.sizes := by
  unfold takeRemote
  simp

@[simp] theorem putOrder_sizes (o : SrcOrder) (s : State) : (putOrder o s).sizes = s.sizes := by
  unfold putOrder
  simp

@[simp] theorem lossGap_sizes (src : BitVec 16) (w : Word) (s : State) : (lossGap src w s).2.sizes = s.sizes := by
  unfold lossGap
  repeat' split
  all_goals simp

@[simp] theorem deliverRecords_sizes (f : Frame) (s : State) : (deliverRecords f s).sizes = s.sizes := by
  unfold deliverRecords
  simp

@[simp] theorem modEth_sizes (p : ℕ) (f : EthPort → EthPort) (s : State) : (modEth p f s).sizes = s.sizes := by
  unfold modEth
  simp

@[simp] theorem learnMac_sizes (g : ℕ) (m : BitVec 48) (node : BitVec 16) (port : Option ℕ) (s : State) : (learnMac g m node port s).sizes = s.sizes := by
  unfold learnMac
  simp

@[simp] theorem etherOut_sizes (p : ℕ) (ws : List Word) (corr : ℤ) (s : State) : (etherOut p ws corr s).sizes = s.sizes := by
  unfold etherOut
  simp

@[simp] theorem deliverData_sizes (f : Frame) (s : State) : (deliverData f s).sizes = s.sizes := by
  unfold deliverData
  simp

@[simp] theorem consume_sizes (f : Frame) (s : State) : (consume f s).sizes = s.sizes := by
  unfold consume
  repeat' split
  all_goals simp

@[simp] theorem drainOrder_sizes (src : BitVec 16) (a : ℕ) (x2 : State) : (drainOrder src a x2).sizes = x2.sizes := by
  induction a generalizing x2 with
  | zero => rfl
  | succ k ih =>
    unfold drainOrder
    repeat' (first | rfl | (simp [ih]; done) | split)

@[simp] theorem inOrder_sizes (src : BitVec 16) (q : ℕ) (f : Frame) (s : State) : (inOrder src q f s).sizes = s.sizes := by
  unfold inOrder
  split <;> simp

@[simp] theorem noteSecond_sizes (src : BitVec 16) (q : ℕ) (s : State) : (noteSecond src q s).sizes = s.sizes := by
  unfold noteSecond
  repeat' split
  all_goals simp

@[simp] theorem acceptDual_sizes (h : Hdr) (f : Frame) (s : State) : (acceptDual h f s).sizes = s.sizes := by
  unfold acceptDual
  simp

@[simp] theorem expireHeld_sizes (src : BitVec 16) (a : ℕ) (x2 : State) : (expireHeld src a x2).sizes = x2.sizes := by
  induction a generalizing x2 with
  | zero => rfl
  | succ k ih =>
    unfold expireHeld
    split
    · rfl
    · simp only []
      split
      · rfl
      · split
        · rfl
        · simp only [ih, drainOrder_sizes]
          simp

@[simp] theorem execReorderHoldExpiry_sizes (t : Time) (src : BitVec 16) (s0 : State) : osizes (tick t s0).sizes (execReorderHoldExpiry t src s0) = (tick t s0).sizes := by
  unfold execReorderHoldExpiry
  simp
  repeat' (first | (simp; done) | (split <;> simp_all <;> done) | split)

@[simp] theorem execSourceForget_sizes (t : Time) (src : BitVec 16) (s0 : State) : osizes (tick t s0).sizes (execSourceForget t src s0) = (tick t s0).sizes := by
  unfold execSourceForget
  simp

@[simp] theorem noteStomp_sizes (p : ℕ) (c : ℕ) (own : Bool) (s : State) : (noteStomp p c own s).sizes = s.sizes := by
  unfold noteStomp
  simp

@[simp] theorem passOn_sizes (f : Frame) (outs : List ℕ) (bad : Bool) (gain : ℤ) (s : State) : (passOn f outs bad gain s).sizes = s.sizes := by
  unfold passOn
  simp

@[simp] theorem crossNow_sizes (h : Hdr) (p : ℕ) (bad : Bool) (s : State) : (crossNow h p bad s).2.sizes = s.sizes := by
  unfold crossNow
  repeat' split
  all_goals simp

@[simp] theorem routeFrame_sizes (f : Frame) (h : Hdr) (residence : ℕ) (s : State) : (routeFrame f h residence s).sizes = s.sizes := by
  unfold routeFrame
  repeat' split
  all_goals simp

@[simp] theorem execFrameForward_sizes (t : Time) (f : Frame) (residence : ℕ) (s0 : State) : osizes (tick t s0).sizes (execFrameForward t f residence s0) = (tick t s0).sizes := by
  unfold execFrameForward
  simp

@[simp] theorem takeMirror_sizes (g : ℕ) (gen : ℕ) (node : BitVec 16) (ws : List Word) (s : State) : (takeMirror g gen node ws s).sizes = s.sizes := by
  unfold takeMirror
  simp

@[simp] theorem takeMark_sizes (g : ℕ) (mark : Option Bool) (s : State) : (takeMark g mark s).sizes = s.sizes := by
  unfold takeMark
  split <;> simp

@[simp] theorem execRecordsFrameRx_sizes (t : Time) (f : Frame) (mark : Option Bool) (s0 : State) : osizes (tick t s0).sizes (execRecordsFrameRx t f mark s0) = (tick t s0).sizes := by
  unfold execRecordsFrameRx
  extract_lets s h
  apply arriveAt_sizes
  repeat' (first | (simp; done) | split)

@[simp] theorem execDataFrameRx_sizes (t : Time) (f : Frame) (s0 : State) : osizes (tick t s0).sizes (execDataFrameRx t f s0) = (tick t s0).sizes := by
  unfold execDataFrameRx
  simp

@[simp] theorem execOriginationHoldEnd_sizes (t : Time) (s0 : State) : osizes (tick t s0).sizes (execOriginationHoldEnd t s0) = (tick t s0).sizes := by
  unfold execOriginationHoldEnd
  simp

@[simp] theorem execOriginationLimitRelease_sizes (t : Time) (s0 : State) : osizes (tick t s0).sizes (execOriginationLimitRelease t s0) = (tick t s0).sizes := by
  unfold execOriginationLimitRelease
  simp

@[simp] theorem execLimiterExtensionEnd_sizes (t : Time) (s0 : State) : osizes (tick t s0).sizes (execLimiterExtensionEnd t s0) = (tick t s0).sizes := by
  unfold execLimiterExtensionEnd
  simp

@[simp] theorem closeExport_sizes (force : Bool) (g : ℕ) (node : BitVec 16) (s : State) : (closeExport force g node s).sizes = s.sizes := by
  unfold closeExport
  simp
  repeat' (first | (simp; done) | (split <;> simp_all <;> done) | split)

@[simp] theorem execExportFrameClose_sizes (t : Time) (g : Fin 10) (s0 : State) : osizes (tick t s0).sizes (execExportFrameClose t g s0) = (tick t s0).sizes := by
  unfold execExportFrameClose
  simp

@[simp] theorem execHelloRx_sizes (t : Time) (port : Fin 3) (uid : BitVec 64) (heard : BitVec 64) (sameRing : Bool) (s0 : State) : osizes (tick t s0).sizes (execHelloRx t port uid heard sameRing s0) = (tick t s0).sizes := by
  unfold execHelloRx
  simp

@[simp] theorem execHelloTx_sizes (t : Time) (port : Fin 3) (s0 : State) : osizes (tick t s0).sizes (execHelloTx t port s0) = (tick t s0).sizes := by
  unfold execHelloTx
  simp

@[simp] theorem execAdjacencyTimeout_sizes (t : Time) (port : Fin 3) (s0 : State) : osizes (tick t s0).sizes (execAdjacencyTimeout t port s0) = (tick t s0).sizes := by
  unfold execAdjacencyTimeout
  simp

@[simp] theorem noteDivergence_sizes (s : State) : (noteDivergence s).sizes = s.sizes := by
  unfold noteDivergence
  split <;> simp

@[simp] theorem takePos_sizes (r : PosRun) (s : State) : (takePos r s).sizes = s.sizes := by
  unfold takePos
  simp

@[simp] theorem execTokenRx_sizes (t : Time) (port : Fin 2) (payload1 : Word) (payload2 : Word) (s0 : State) : osizes (tick t s0).sizes (execTokenRx t port payload1 payload2 s0) = (tick t s0).sizes := by
  unfold execTokenRx
  simp
  repeat' (first | (simp; done) | (split <;> simp_all <;> done) | split)

@[simp] theorem execTokenTx_sizes (t : Time) (s0 : State) : osizes (tick t s0).sizes (execTokenTx t s0) = (tick t s0).sizes := by
  unfold execTokenTx
  simp

@[simp] theorem execSecondaryAnchorTakeover_sizes (t : Time) (s0 : State) : osizes (tick t s0).sizes (execSecondaryAnchorTakeover t s0) = (tick t s0).sizes := by
  unfold execSecondaryAnchorTakeover
  simp

@[simp] theorem execLinkStateRx_sizes (t : Time) (port : Fin 2) (up : Bool) (pos : Fin 1024) (brokenPort : Fin 3) (s0 : State) : osizes (tick t s0).sizes (execLinkStateRx t port up pos brokenPort s0) = (tick t s0).sizes := by
  unfold execLinkStateRx
  simp
  repeat' (first | (simp; done) | (split <;> simp_all <;> done) | split)

@[simp] theorem execBeaconTx_sizes (t : Time) (s0 : State) : osizes (tick t s0).sizes (execBeaconTx t s0) = (tick t s0).sizes := by
  unfold execBeaconTx
  simp

@[simp] theorem execBeaconRx_sizes (t : Time) (b : Beacon) (s0 : State) : osizes (tick t s0).sizes (execBeaconRx t b s0) = (tick t s0).sizes := by
  unfold execBeaconRx
  simp

@[simp] theorem ownFabStatus_sizes (_rq : Request) (s : State) : (ownFabStatus _rq s).st.sizes = s.sizes := by
  unfold ownFabStatus
  simp

@[simp] theorem execFabStatus_sizes (t : Time) (rq : Request) (s : State) : osizes (tick t s).sizes (execFabStatus t rq s) = (tick t s).sizes := by
  unfold execFabStatus
  simp

@[simp] theorem ownFabProbe_sizes (ans : Option (ℕ × ℕ)) (rq : Request) (s : State) : (ownFabProbe ans rq s).st.sizes = s.sizes := by
  unfold ownFabProbe
  split <;> simp

@[simp] theorem execFabProbe_sizes (t : Time) (rq : Request) (answer : Option (ℕ × ℕ)) (s : State) : osizes (tick t s).sizes (execFabProbe t rq answer s) = (tick t s).sizes := by
  unfold execFabProbe
  simp

/-! ### Ethm -/

@[simp] theorem bridgeFrame_kept (p : ℕ) (bytes : ℕ) (ptp : Bool) (ws : List Word) (fabric : Bool) (s : State) : (bridgeFrame p bytes ptp ws fabric s).kept = s.kept := by
  unfold bridgeFrame
  simp

@[simp] theorem execEthmFrameRx_kept (t : Time) (port : Fin 2) (bytes : ℕ) (fcsOk : Bool) (pause : Bool) (ptpEvent : Bool) (words : List Word) (s0 : State) : okept (tick t s0).kept (execEthmFrameRx t port bytes fcsOk pause ptpEvent words s0) = (tick t s0).kept := by
  unfold execEthmFrameRx
  simp
  repeat' (first | (simp; done) | (split <;> simp_all <;> done) | split)

@[simp] theorem execEthmLinkChange_kept (t : Time) (port : Fin 2) (up : Bool) (s0 : State) : okept (tick t s0).kept (execEthmLinkChange t port up s0) = (tick t s0).kept := by
  unfold execEthmLinkChange
  simp

@[simp] theorem execMacAgeing_kept (t : Time) (group : Fin 16) (mac : BitVec 48) (s0 : State) : okept (tick t s0).kept (execMacAgeing t group mac s0) = (tick t s0).kept := by
  unfold execMacAgeing
  simp

@[simp] theorem ethSet_kept (p : ℕ) (enable : Bool) (slow : Bool) (s : State) : (ethSet p enable slow s).kept = s.kept := by
  unfold ethSet
  simp

@[simp] theorem ownEthmConfig_kept (rq : Request) (s : State) : (ownEthmConfig rq s).st.kept = s.kept := by
  unfold ownEthmConfig
  simp

@[simp] theorem execEthmConfig_kept (t : Time) (rq : Request) (s : State) : okept (tick t s).kept (execEthmConfig t rq s) = (tick t s).kept := by
  unfold execEthmConfig
  simp

@[simp] theorem setPtp_kept (q : Word) (s : State) : (setPtp q s).kept = s.kept := by
  unfold setPtp
  simp

@[simp] theorem ownEthmPtpConfig_kept (rq : Request) (s : State) : (ownEthmPtpConfig rq s).st.kept = s.kept := by
  unfold ownEthmPtpConfig
  simp

@[simp] theorem execEthmPtpConfig_kept (t : Time) (rq : Request) (s : State) : okept (tick t s).kept (execEthmPtpConfig t rq s) = (tick t s).kept := by
  unfold execEthmPtpConfig
  simp

@[simp] theorem ownEthmStatus_kept (rq : Request) (s : State) : (ownEthmStatus rq s).st.kept = s.kept := by
  unfold ownEthmStatus
  simp

@[simp] theorem execEthmStatus_kept (t : Time) (rq : Request) (s : State) : okept (tick t s).kept (execEthmStatus t rq s) = (tick t s).kept := by
  unfold execEthmStatus
  simp

@[simp] theorem bridgeFrame_sizes (p : ℕ) (bytes : ℕ) (ptp : Bool) (ws : List Word) (fabric : Bool) (s : State) : (bridgeFrame p bytes ptp ws fabric s).sizes = s.sizes := by
  unfold bridgeFrame
  simp

@[simp] theorem execEthmFrameRx_sizes (t : Time) (port : Fin 2) (bytes : ℕ) (fcsOk : Bool) (pause : Bool) (ptpEvent : Bool) (words : List Word) (s0 : State) : osizes (tick t s0).sizes (execEthmFrameRx t port bytes fcsOk pause ptpEvent words s0) = (tick t s0).sizes := by
  unfold execEthmFrameRx
  simp
  repeat' (first | (simp; done) | (split <;> simp_all <;> done) | split)

@[simp] theorem execEthmLinkChange_sizes (t : Time) (port : Fin 2) (up : Bool) (s0 : State) : osizes (tick t s0).sizes (execEthmLinkChange t port up s0) = (tick t s0).sizes := by
  unfold execEthmLinkChange
  simp

@[simp] theorem execMacAgeing_sizes (t : Time) (group : Fin 16) (mac : BitVec 48) (s0 : State) : osizes (tick t s0).sizes (execMacAgeing t group mac s0) = (tick t s0).sizes := by
  unfold execMacAgeing
  simp

@[simp] theorem ethSet_sizes (p : ℕ) (enable : Bool) (slow : Bool) (s : State) : (ethSet p enable slow s).sizes = s.sizes := by
  unfold ethSet
  simp

@[simp] theorem ownEthmConfig_sizes (rq : Request) (s : State) : (ownEthmConfig rq s).st.sizes = s.sizes := by
  unfold ownEthmConfig
  simp

@[simp] theorem execEthmConfig_sizes (t : Time) (rq : Request) (s : State) : osizes (tick t s).sizes (execEthmConfig t rq s) = (tick t s).sizes := by
  unfold execEthmConfig
  simp

@[simp] theorem setPtp_sizes (q : Word) (s : State) : (setPtp q s).sizes = s.sizes := by
  unfold setPtp
  simp

@[simp] theorem ownEthmPtpConfig_sizes (rq : Request) (s : State) : (ownEthmPtpConfig rq s).st.sizes = s.sizes := by
  unfold ownEthmPtpConfig
  simp

@[simp] theorem execEthmPtpConfig_sizes (t : Time) (rq : Request) (s : State) : osizes (tick t s).sizes (execEthmPtpConfig t rq s) = (tick t s).sizes := by
  unfold execEthmPtpConfig
  simp

@[simp] theorem ownEthmStatus_sizes (rq : Request) (s : State) : (ownEthmStatus rq s).st.sizes = s.sizes := by
  unfold ownEthmStatus
  simp

@[simp] theorem execEthmStatus_sizes (t : Time) (rq : Request) (s : State) : osizes (tick t s).sizes (execEthmStatus t rq s) = (tick t s).sizes := by
  unfold execEthmStatus
  simp

end Sys2Proof.Machine
end

