-- ==== Sys2Proof/Laws/KeepPower.lean ====
section
/-! SUPPORT. What the operations of Resets, Power, Therm, Islands, Clk keep: one lemma each for `State.kept` and for `State.sizes`. -/

set_option maxRecDepth 4000

namespace Sys2Proof.Machine

/-! ### Resets -/

@[simp] theorem powerCut_kept (s : State) : (powerCut s).kept = s.kept := by
  unfold powerCut
  simp

@[simp] theorem modAon_kept (f : AonSt → AonSt) (s : State) : (modAon f s).kept = s.kept := by
  unfold modAon
  simp

@[simp] theorem coarseNow_kept (s : State) : (coarseNow s).2.kept = s.kept := by
  unfold coarseNow
  repeat' split
  all_goals simp

@[simp] theorem thermalShutdown_kept (s : State) : (thermalShutdown s).kept = s.kept := by
  unfold thermalShutdown
  simp

@[simp] theorem execAonThermalTrip_kept (t : Time) (s0 : State) : okept (tick t s0).kept (execAonThermalTrip t s0) = (tick t s0).kept := by
  unfold execAonThermalTrip
  simp

@[simp] theorem execThermalRestart_kept (t : Time) (s0 : State) : okept (tick t s0).kept (execThermalRestart t s0) = (tick t s0).kept := by
  unfold execThermalRestart
  simp

@[simp] theorem powerCut_sizes (s : State) (h : s.sizes = partsList) : (powerCut s).sizes = partsList := by
  have hm : s.mems.length = 3 := sizes_mems h
  have hn : s.nv.refreshed.length = 7 := sizes_refreshed h
  have e : powerCut s = { (powerCut s) with line := Reset.line s.fuseShadow.laneCap } := rfl
  have e2 : ({ (powerCut s) with line := Reset.line false } : State).sizes = partsList := by
    have e3 : ({ (powerCut s) with line := Reset.line false } : State).sizes =
        [[21, 32, s.mems.length], [16, 16], [2, 5, 2, 3], [64, 16, 8], [64, 16, 8, 8, 64, 72, 1024], [8], [14, 4], [17, 7], [8, 8, 64, 64], [3], [2, 16], [1024], [s.nv.refreshed.length], [5]] := by
      unfold powerCut
      simp only [sizes_mk, List.length_map]
      congr 1
    rw [e3, hm, hn]
    rfl
  rw [e]
  exact sizes_line ({ (powerCut s) with line := Reset.line false }) s.fuseShadow.laneCap e2

@[simp] theorem modAon_sizes (f : AonSt → AonSt) (s : State) : (modAon f s).sizes = s.sizes := by
  unfold modAon
  simp

@[simp] theorem coarseNow_sizes (s : State) : (coarseNow s).2.sizes = s.sizes := by
  unfold coarseNow
  repeat' split
  all_goals simp

@[simp] theorem thermalShutdown_sizes (s : State) (h : s.sizes = partsList) : (thermalShutdown s).sizes = partsList := by
  unfold thermalShutdown
  rw [modAon_sizes]
  exact sizes_pwr _ _ (powerCut_sizes s h) (by simp [Reset.pwr])

@[simp] theorem execAonThermalTrip_sizes (t : Time) (s0 : State) (h : s0.sizes = partsList) : osizes partsList (execAonThermalTrip t s0) = partsList := by
  have h1 : (tick t s0).sizes = partsList := h
  unfold execAonThermalTrip
  simp only []
  split
  · simp [h1]
  · simp [h1]

@[simp] theorem execThermalRestart_sizes (t : Time) (s0 : State) : osizes (tick t s0).sizes (execThermalRestart t s0) = (tick t s0).sizes := by
  unfold execThermalRestart
  simp

/-! ### Power -/

@[simp] theorem modPwr_kept (f : PwrSt → PwrSt) (s : State) : (modPwr f s).kept = s.kept := by
  unfold modPwr
  simp

@[simp] theorem setOp_kept (op : ℕ) (s : State) : (setOp op s).kept = s.kept := by
  unfold setOp
  simp

@[simp] theorem startChange_kept (target : ℕ) (s : State) : (startChange target s).kept = s.kept := by
  unfold startChange
  simp

@[simp] theorem wantOp_kept (target : ℕ) (s : State) : (wantOp target s).kept = s.kept := by
  unfold wantOp
  simp

@[simp] theorem opNext_kept (s : State) : (opNext s).kept = s.kept := by
  unfold opNext
  split <;> simp

@[simp] theorem writeBack_kept (c : AvsChange) (s : State) : (writeBack c s).kept = s.kept := by
  unfold writeBack
  simp

@[simp] theorem execVctlVerify_kept (t : Time) (readingMv : ℕ) (s0 : State) : okept (tick t s0).kept (execVctlVerify t readingMv s0) = (tick t s0).kept := by
  unfold execVctlVerify
  simp
  repeat' (first | (simp; done) | (split <;> simp_all <;> done) | split)

@[simp] theorem execAvsTimeout_kept (t : Time) (s0 : State) : okept (tick t s0).kept (execAvsTimeout t s0) = (tick t s0).kept := by
  unfold execAvsTimeout
  simp
  repeat' (first | (simp; done) | (split <;> simp_all <;> done) | split)

@[simp] theorem sagStopsChange_kept (s : State) : (sagStopsChange s).kept = s.kept := by
  unfold sagStopsChange
  split <;> simp

@[simp] theorem ownPwrSetOp_kept (rq : Request) (s : State) : (ownPwrSetOp rq s).st.kept = s.kept := by
  unfold ownPwrSetOp
  simp

@[simp] theorem execPwrSetOp_kept (t : Time) (rq : Request) (s : State) : okept (tick t s).kept (execPwrSetOp t rq s) = (tick t s).kept := by
  unfold execPwrSetOp
  simp

@[simp] theorem imageOp_kept (op : ℕ) (s : State) : (imageOp op s).kept = s.kept := by
  unfold imageOp
  simp

@[simp] theorem ownPwrStatus_kept (railMv : List ℕ) (x : Request) (s : State) : (ownPwrStatus railMv x s).st.kept = s.kept := by
  unfold ownPwrStatus
  simp

@[simp] theorem execPwrStatus_kept (t : Time) (rq : Request) (railMv : List ℕ) (s : State) : okept (tick t s).kept (execPwrStatus t rq railMv s) = (tick t s).kept := by
  unfold execPwrStatus
  simp

@[simp] theorem execPmbusPoll_kept (t : Time) (currents : List (Option ℕ)) (oscTemp : ℤ) (s0 : State) : okept (tick t s0).kept (execPmbusPoll t currents oscTemp s0) = (tick t s0).kept := by
  unfold execPmbusPoll
  simp

@[simp] theorem setOp_sizes (op : ℕ) (s : State) : (setOp op s).sizes = s.sizes := by
  unfold setOp
  simp

@[simp] theorem startChange_sizes (target : ℕ) (s : State) : (startChange target s).sizes = s.sizes := by
  unfold startChange
  simp

@[simp] theorem wantOp_sizes (target : ℕ) (s : State) : (wantOp target s).sizes = s.sizes := by
  unfold wantOp
  simp

@[simp] theorem opNext_sizes (s : State) : (opNext s).sizes = s.sizes := by
  unfold opNext
  split <;> simp

@[simp] theorem writeBack_sizes (c : AvsChange) (s : State) : (writeBack c s).sizes = s.sizes := by
  unfold writeBack
  simp

@[simp] theorem execVctlVerify_sizes (t : Time) (readingMv : ℕ) (s0 : State) : osizes (tick t s0).sizes (execVctlVerify t readingMv s0) = (tick t s0).sizes := by
  unfold execVctlVerify
  simp
  repeat' (first | (simp; done) | (split <;> simp_all <;> done) | split)

@[simp] theorem execAvsTimeout_sizes (t : Time) (s0 : State) : osizes (tick t s0).sizes (execAvsTimeout t s0) = (tick t s0).sizes := by
  unfold execAvsTimeout
  simp
  repeat' (first | (simp; done) | (split <;> simp_all <;> done) | split)

@[simp] theorem sagStopsChange_sizes (s : State) : (sagStopsChange s).sizes = s.sizes := by
  unfold sagStopsChange
  split <;> simp

@[simp] theorem ownPwrSetOp_sizes (rq : Request) (s : State) : (ownPwrSetOp rq s).st.sizes = s.sizes := by
  unfold ownPwrSetOp
  simp

@[simp] theorem execPwrSetOp_sizes (t : Time) (rq : Request) (s : State) : osizes (tick t s).sizes (execPwrSetOp t rq s) = (tick t s).sizes := by
  unfold execPwrSetOp
  simp

@[simp] theorem imageOp_sizes (op : ℕ) (s : State) : (imageOp op s).sizes = s.sizes := by
  unfold imageOp
  simp

@[simp] theorem ownPwrStatus_sizes (railMv : List ℕ) (x : Request) (s : State) : (ownPwrStatus railMv x s).st.sizes = s.sizes := by
  unfold ownPwrStatus
  simp

@[simp] theorem execPwrStatus_sizes (t : Time) (rq : Request) (railMv : List ℕ) (s : State) : osizes (tick t s).sizes (execPwrStatus t rq railMv s) = (tick t s).sizes := by
  unfold execPwrStatus
  simp

@[simp] theorem execPmbusPoll_sizes (t : Time) (currents : List (Option ℕ)) (oscTemp : ℤ) (s0 : State) (h : s0.sizes = partsList) : osizes partsList (execPmbusPoll t currents oscTemp s0) = partsList := by
  have h1 : (tick t s0).sizes = partsList := h
  unfold execPmbusPoll
  simp only []
  split
  · simp [h1]
  · rw [osizes_next, followTable_sizes]
    exact sizes_pwr _ _ h1 (by simp)

/-! ### Therm -/

@[simp] theorem modTherm_kept (f : ThermSt → ThermSt) (s : State) : (modTherm f s).kept = s.kept := by
  unfold modTherm
  simp

@[simp] theorem modZone_kept (z : ℕ) (f : Zone → Zone) (s : State) : (modZone z f s).kept = s.kept := by
  unfold modZone
  simp

@[simp] theorem modSensor_kept (i : ℕ) (f : Sensor → Sensor) (s : State) : (modSensor i f s).kept = s.kept := by
  unfold modSensor
  simp

@[simp] theorem execSensorRead_kept (t : Time) (readings : List ℤ) (openShort : BitVec 17) (s0 : State) : okept (tick t s0).kept (execSensorRead t readings openShort s0) = (tick t s0).kept := by
  unfold execSensorRead
  simp only [okept_next, followTable_kept]
  rw [foldl_kept]
  · simp
  · intro a z
    split <;> simp

@[simp] theorem noteZones_kept (s : State) : (noteZones s).kept = s.kept := by
  unfold noteZones
  simp

@[simp] theorem noteDemand_kept (s : State) : (noteDemand s).kept = s.kept := by
  unfold noteDemand
  split <;> simp

@[simp] theorem enterL1_kept (s : State) : (enterL1 s).kept = s.kept := by
  unfold enterL1
  simp

@[simp] theorem leaveL1_kept (s : State) : (leaveL1 s).kept = s.kept := by
  unfold leaveL1
  split <;> simp

@[simp] theorem setLevel_kept (n : ℕ) (s : State) : (setLevel n s).kept = s.kept := by
  unfold setLevel
  simp

@[simp] theorem checkLevel_kept (s : State) : (checkLevel s).kept = s.kept := by
  unfold checkLevel
  simp

@[simp] theorem thermCheck_kept (s : State) : (thermCheck s).kept = s.kept := by
  unfold thermCheck
  simp

@[simp] theorem crossing_kept (z : ℕ) (what : ℕ) (entry : Bool) (s : State) : (crossing z what entry s).kept = s.kept := by
  unfold crossing
  simp

@[simp] theorem execSensorBrokenChange_kept (t : Time) (sensor : Fin 17) (s0 : State) : okept (tick t s0).kept (execSensorBrokenChange t sensor s0) = (tick t s0).kept := by
  unfold execSensorBrokenChange
  simp

@[simp] theorem crossOne_kept (z : ℕ) (what : Option ℕ) (cur : Bool) (up : ℕ) (down : ℕ) (put : Bool → Zone → Zone) (s : State) : (crossOne z what cur up down put s).kept = s.kept := by
  unfold crossOne
  repeat' split
  all_goals simp

@[simp] theorem reachCrit_kept (z : ℕ) (s : State) : (reachCrit z s).kept = s.kept := by
  unfold reachCrit
  simp

@[simp] theorem execZoneThresholdCrossing_kept (t : Time) (zone : Fin 7) (s0 : State) : okept (tick t s0).kept (execZoneThresholdCrossing t zone s0) = (tick t s0).kept := by
  unfold execZoneThresholdCrossing
  simp

@[simp] theorem execZoneRisingFastChange_kept (t : Time) (zone : Fin 7) (s0 : State) : okept (tick t s0).kept (execZoneRisingFastChange t zone s0) = (tick t s0).kept := by
  unfold execZoneRisingFastChange
  simp

@[simp] theorem execGraceTimeExpiry_kept (t : Time) (s0 : State) : okept (tick t s0).kept (execGraceTimeExpiry t s0) = (tick t s0).kept := by
  unfold execGraceTimeExpiry
  simp

@[simp] theorem execL2HotTimer_kept (t : Time) (s0 : State) : okept (tick t s0).kept (execL2HotTimer t s0) = (tick t s0).kept := by
  unfold execL2HotTimer
  simp

@[simp] theorem execZoneAllBrokenTimer_kept (t : Time) (zone : Fin 7) (s0 : State) : okept (tick t s0).kept (execZoneAllBrokenTimer t zone s0) = (tick t s0).kept := by
  unfold execZoneAllBrokenTimer
  simp

@[simp] theorem ownThermConfig_kept (img : Bool) (rq : Request) (s : State) : (ownThermConfig img rq s).st.kept = s.kept := by
  unfold ownThermConfig
  simp

@[simp] theorem execThermConfig_kept (t : Time) (rq : Request) (s : State) : okept (tick t s).kept (execThermConfig t rq s) = (tick t s).kept := by
  unfold execThermConfig
  simp

@[simp] theorem ownThermStatus_kept (x : Request) (s : State) : (ownThermStatus x s).st.kept = s.kept := by
  unfold ownThermStatus
  simp

@[simp] theorem execThermStatus_kept (t : Time) (rq : Request) (s : State) : okept (tick t s).kept (execThermStatus t rq s) = (tick t s).kept := by
  unfold execThermStatus
  simp

@[simp] theorem modZone_sizes (z : ℕ) (f : Zone → Zone) (s : State) : (modZone z f s).sizes = s.sizes := by
  unfold modZone
  simp

@[simp] theorem modSensor_sizes (i : ℕ) (f : Sensor → Sensor) (s : State) : (modSensor i f s).sizes = s.sizes := by
  unfold modSensor
  simp

@[simp] theorem execSensorRead_sizes (t : Time) (readings : List ℤ) (openShort : BitVec 17) (s0 : State) : osizes (tick t s0).sizes (execSensorRead t readings openShort s0) = (tick t s0).sizes := by
  unfold execSensorRead
  simp only [osizes_next, followTable_sizes]
  rw [foldl_sizes]
  · simp
  · intro a z
    split <;> simp

@[simp] theorem noteZones_sizes (s : State) : (noteZones s).sizes = s.sizes := by
  unfold noteZones
  simp

@[simp] theorem noteDemand_sizes (s : State) : (noteDemand s).sizes = s.sizes := by
  unfold noteDemand
  split <;> simp

@[simp] theorem enterL1_sizes (s : State) : (enterL1 s).sizes = s.sizes := by
  unfold enterL1
  simp

@[simp] theorem leaveL1_sizes (s : State) : (leaveL1 s).sizes = s.sizes := by
  unfold leaveL1
  split <;> simp

@[simp] theorem setLevel_sizes (n : ℕ) (s : State) : (setLevel n s).sizes = s.sizes := by
  unfold setLevel
  simp

@[simp] theorem checkLevel_sizes (s : State) : (checkLevel s).sizes = s.sizes := by
  unfold checkLevel
  simp

@[simp] theorem thermCheck_sizes (s : State) : (thermCheck s).sizes = s.sizes := by
  unfold thermCheck
  simp

@[simp] theorem crossing_sizes (z : ℕ) (what : ℕ) (entry : Bool) (s : State) : (crossing z what entry s).sizes = s.sizes := by
  unfold crossing
  simp

@[simp] theorem execSensorBrokenChange_sizes (t : Time) (sensor : Fin 17) (s0 : State) : osizes (tick t s0).sizes (execSensorBrokenChange t sensor s0) = (tick t s0).sizes := by
  unfold execSensorBrokenChange
  simp

@[simp] theorem crossOne_sizes (z : ℕ) (what : Option ℕ) (cur : Bool) (up : ℕ) (down : ℕ) (put : Bool → Zone → Zone) (s : State) : (crossOne z what cur up down put s).sizes = s.sizes := by
  unfold crossOne
  repeat' split
  all_goals simp

@[simp] theorem reachCrit_sizes (z : ℕ) (s : State) (h : s.sizes = partsList) : (reachCrit z s).sizes = partsList := by
  unfold reachCrit
  exact thermalShutdown_sizes _ (by simp [h])

@[simp] theorem execZoneThresholdCrossing_sizes (t : Time) (zone : Fin 7) (s0 : State) (h : s0.sizes = partsList) : osizes partsList (execZoneThresholdCrossing t zone s0) = partsList := by
  have h1 : (tick t s0).sizes = partsList := h
  unfold execZoneThresholdCrossing
  simp only [osizes_next]
  split
  · exact reachCrit_sizes _ _ (by simp [h1])
  · simp [h1]

@[simp] theorem execZoneRisingFastChange_sizes (t : Time) (zone : Fin 7) (s0 : State) : osizes (tick t s0).sizes (execZoneRisingFastChange t zone s0) = (tick t s0).sizes := by
  unfold execZoneRisingFastChange
  simp

@[simp] theorem execGraceTimeExpiry_sizes (t : Time) (s0 : State) : osizes (tick t s0).sizes (execGraceTimeExpiry t s0) = (tick t s0).sizes := by
  unfold execGraceTimeExpiry
  simp

@[simp] theorem execL2HotTimer_sizes (t : Time) (s0 : State) : osizes (tick t s0).sizes (execL2HotTimer t s0) = (tick t s0).sizes := by
  unfold execL2HotTimer
  simp

@[simp] theorem execZoneAllBrokenTimer_sizes (t : Time) (zone : Fin 7) (s0 : State) (h : s0.sizes = partsList) : osizes partsList (execZoneAllBrokenTimer t zone s0) = partsList := by
  have h1 : (tick t s0).sizes = partsList := h
  unfold execZoneAllBrokenTimer
  simp only []
  split
  · simp [h1]
  · simp [h1]

@[simp] theorem ownThermConfig_sizes (img : Bool) (rq : Request) (s : State) : (ownThermConfig img rq s).st.sizes = s.sizes := by
  unfold ownThermConfig
  simp

@[simp] theorem execThermConfig_sizes (t : Time) (rq : Request) (s : State) : osizes (tick t s).sizes (execThermConfig t rq s) = (tick t s).sizes := by
  unfold execThermConfig
  simp

@[simp] theorem ownThermStatus_sizes (x : Request) (s : State) : (ownThermStatus x s).st.sizes = s.sizes := by
  unfold ownThermStatus
  simp

@[simp] theorem execThermStatus_sizes (t : Time) (rq : Request) (s : State) : osizes (tick t s).sizes (execThermStatus t rq s) = (tick t s).sizes := by
  unfold execThermStatus
  simp

/-! ### Islands -/

@[simp] theorem chanDown_kept (c : ℕ) (s : State) : (chanDown c s).kept = s.kept := by
  unfold chanDown
  simp

@[simp] theorem genDown_kept (n : ℕ) (s : State) : (genDown n s).kept = s.kept := by
  unfold genDown
  simp

@[simp] theorem daqDown_kept (g : ℕ) (s : State) : (daqDown g s).kept = s.kept := by
  unfold daqDown
  simp

@[simp] theorem daqUp_kept (g : ℕ) (s : State) : (daqUp g s).kept = s.kept := by
  unfold daqUp
  extract_lets s1 s2 s3
  have h1 : s1.kept = s.kept := by 
    simp only [s1, modGroup_kept]
    rw [foldl_kept]
    intro a x
    simp only [loadConv_kept]
  have h2 : s2.kept = s.kept := by simp only [s2]; rw [foldl_kept, h1]; intro a x; simp only [modGen_kept]
  have h3 : s3.kept = s.kept := by simp only [s3]; rw [forChans_kept, h2]; intro c x; simp only [gapChanAll_kept, restartChan_kept]
  split
  · rw [addSync_kept, h3]
  · exact h3

@[simp] theorem loopsOff_kept (ports : List ℕ) (s : State) : (loopsOff ports s).kept = s.kept := by
  unfold loopsOff
  simp

@[simp] theorem lineDown_kept (keep : Bool) (p : ℕ) (s : State) : (lineDown keep p s).kept = s.kept := by
  unfold lineDown
  simp

@[simp] theorem xbarDown_kept (s : State) : (xbarDown s).kept = s.kept := by
  unfold xbarDown
  simp

@[simp] theorem xbarUp_kept (s : State) : (xbarUp s).kept = s.kept := by
  unfold xbarUp
  simp

@[simp] theorem basinDown_kept (s : State) : (basinDown s).kept = s.kept := by
  unfold basinDown
  simp

@[simp] theorem basinUp_kept (s : State) : (basinUp s).kept = s.kept := by
  unfold basinUp
  simp

@[simp] theorem ethmDown_kept (keep : Bool) (s : State) : (ethmDown keep s).kept = s.kept := by
  unfold ethmDown
  simp

@[simp] theorem islandDown_kept (keep : Bool) (i : Island) (ph : IslandPhase) (s : State) : (islandDown keep i ph s).kept = s.kept := by
  unfold islandDown
  repeat' split
  all_goals simp

@[simp] theorem islandUp_kept (i : Island) (s : State) : (islandUp i s).kept = s.kept := by
  unfold islandUp
  split <;> simp

@[simp] theorem ownSysIslandReset_kept (rq : Request) (s : State) : (ownSysIslandReset rq s).st.kept = s.kept := by
  unfold ownSysIslandReset
  simp

@[simp] theorem execSysIslandReset_kept (t : Time) (rq : Request) (s : State) : okept (tick t s).kept (execSysIslandReset t rq s) = (tick t s).kept := by
  unfold execSysIslandReset
  simp

@[simp] theorem abortShake_kept (s : State) (p : Fin 21) : (abortShake s p).kept = s.kept := by
  unfold abortShake
  simp

@[simp] theorem execIslandResetDrainEnd_kept (t : Time) (openShakes : List (Fin 21)) (s0 : State) : okept (tick t s0).kept (execIslandResetDrainEnd t openShakes s0) = (tick t s0).kept := by
  unfold execIslandResetDrainEnd
  simp
  repeat' (first | (simp; done) | (split <;> simp_all <;> done) | split)

@[simp] theorem ownClkGate_kept (rq : Request) (s : State) : (ownClkGate rq s).st.kept = s.kept := by
  unfold ownClkGate
  simp

@[simp] theorem execClkGate_kept (t : Time) (rq : Request) (s : State) : okept (tick t s).kept (execClkGate t rq s) = (tick t s).kept := by
  unfold execClkGate
  simp

@[simp] theorem gateClosed_kept (n : ℕ) (s : State) : (gateClosed n s).kept = s.kept := by
  unfold gateClosed
  simp

@[simp] theorem gateOpened_kept (n : ℕ) (s : State) : (gateOpened n s).kept = s.kept := by
  unfold gateOpened
  simp

@[simp] theorem execGateCloseDrainEnd_kept (t : Time) (idle : Bool) (s0 : State) : okept (tick t s0).kept (execGateCloseDrainEnd t idle s0) = (tick t s0).kept := by
  unfold execGateCloseDrainEnd
  simp
  repeat' (first | (simp; done) | (split <;> simp_all <;> done) | split)

@[simp] theorem execGateOpenDone_kept (t : Time) (s0 : State) : okept (tick t s0).kept (execGateOpenDone t s0) = (tick t s0).kept := by
  unfold execGateOpenDone
  simp
  repeat' (first | (simp; done) | (split <;> simp_all <;> done) | split)

@[simp] theorem quietDom_kept (d : ℕ) (s : State) : (quietDom d s).kept = s.kept := by
  unfold quietDom
  split <;> simp

@[simp] theorem enterQuiet_kept (s : State) : (enterQuiet s).kept = s.kept := by
  unfold enterQuiet
  simp

@[simp] theorem leaveQuiet_kept (s : State) : (leaveQuiet s).kept = s.kept := by
  unfold leaveQuiet
  simp

@[simp] theorem ownPwrSetState_kept (idle : Bool) (rq : Request) (s : State) : (ownPwrSetState idle rq s).st.kept = s.kept := by
  unfold ownPwrSetState
  simp
  repeat' (first | (simp; done) | (split <;> simp_all <;> done) | split)

@[simp] theorem execPwrSetState_kept (t : Time) (rq : Request) (idle : Bool) (s : State) : okept (tick t s).kept (execPwrSetState t rq idle s) = (tick t s).kept := by
  unfold execPwrSetState
  simp

@[simp] theorem execHibernateEntry_kept (t : Time) (s0 : State) : okept (tick t s0).kept (execHibernateEntry t s0) = (tick t s0).kept := by
  unfold execHibernateEntry
  simp
  repeat' (first | (simp; done) | (split <;> simp_all <;> done) | split)

@[simp] theorem chanDown_sizes (c : ℕ) (s : State) : (chanDown c s).sizes = s.sizes := by
  unfold chanDown
  simp

@[simp] theorem genDown_sizes (n : ℕ) (s : State) : (genDown n s).sizes = s.sizes := by
  unfold genDown
  simp

@[simp] theorem daqDown_sizes (g : ℕ) (s : State) : (daqDown g s).sizes = s.sizes := by
  unfold daqDown
  simp

@[simp] theorem daqUp_sizes (g : ℕ) (s : State) : (daqUp g s).sizes = s.sizes := by
  unfold daqUp
  extract_lets s1 s2 s3
  have h1 : s1.sizes = s.sizes := by 
    simp only [s1, modGroup_sizes]
    rw [foldl_sizes]
    intro a x
    simp only [loadConv_sizes]
  have h2 : s2.sizes = s.sizes := by simp only [s2]; rw [foldl_sizes, h1]; intro a x; simp only [modGen_sizes]
  have h3 : s3.sizes = s.sizes := by simp only [s3]; rw [forChans_sizes, h2]; intro c x; simp only [gapChanAll_sizes, restartChan_sizes]
  split
  · rw [addSync_sizes, h3]
  · exact h3

@[simp] theorem loopsOff_sizes (ports : List ℕ) (s : State) : (loopsOff ports s).sizes = s.sizes := by
  unfold loopsOff
  simp

@[simp] theorem lineDown_sizes (keep : Bool) (p : ℕ) (s : State) : (lineDown keep p s).sizes = s.sizes := by
  unfold lineDown
  simp

@[simp] theorem xbarDown_sizes (s : State) : (xbarDown s).sizes = s.sizes := by
  unfold xbarDown
  simp

@[simp] theorem xbarUp_sizes (s : State) : (xbarUp s).sizes = s.sizes := by
  unfold xbarUp
  simp

@[simp] theorem basinDown_sizes (s : State) : (basinDown s).sizes = s.sizes := by
  unfold basinDown
  simp

@[simp] theorem basinUp_sizes (s : State) : (basinUp s).sizes = s.sizes := by
  unfold basinUp
  simp

@[simp] theorem ethmDown_sizes (keep : Bool) (s : State) : (ethmDown keep s).sizes = s.sizes := by
  unfold ethmDown
  simp

@[simp] theorem islandDown_sizes (keep : Bool) (i : Island) (ph : IslandPhase) (s : State) : (islandDown keep i ph s).sizes = s.sizes := by
  unfold islandDown
  repeat' split
  all_goals simp

@[simp] theorem islandUp_sizes (i : Island) (s : State) : (islandUp i s).sizes = s.sizes := by
  unfold islandUp
  split <;> simp

@[simp] theorem ownSysIslandReset_sizes (rq : Request) (s : State) : (ownSysIslandReset rq s).st.sizes = s.sizes := by
  unfold ownSysIslandReset
  simp

@[simp] theorem execSysIslandReset_sizes (t : Time) (rq : Request) (s : State) : osizes (tick t s).sizes (execSysIslandReset t rq s) = (tick t s).sizes := by
  unfold execSysIslandReset
  simp

@[simp] theorem abortShake_sizes (s : State) (p : Fin 21) : (abortShake s p).sizes = s.sizes := by
  unfold abortShake
  simp

@[simp] theorem execIslandResetDrainEnd_sizes (t : Time) (openShakes : List (Fin 21)) (s0 : State) : osizes (tick t s0).sizes (execIslandResetDrainEnd t openShakes s0) = (tick t s0).sizes := by
  unfold execIslandResetDrainEnd
  simp
  repeat' (first | (simp; done) | (split <;> simp_all <;> done) | split)

@[simp] theorem ownClkGate_sizes (rq : Request) (s : State) : (ownClkGate rq s).st.sizes = s.sizes := by
  unfold ownClkGate
  simp

@[simp] theorem execClkGate_sizes (t : Time) (rq : Request) (s : State) : osizes (tick t s).sizes (execClkGate t rq s) = (tick t s).sizes := by
  unfold execClkGate
  simp

@[simp] theorem gateClosed_sizes (n : ℕ) (s : State) : (gateClosed n s).sizes = s.sizes := by
  unfold gateClosed
  simp

@[simp] theorem gateOpened_sizes (n : ℕ) (s : State) : (gateOpened n s).sizes = s.sizes := by
  unfold gateOpened
  simp

@[simp] theorem execGateCloseDrainEnd_sizes (t : Time) (idle : Bool) (s0 : State) : osizes (tick t s0).sizes (execGateCloseDrainEnd t idle s0) = (tick t s0).sizes := by
  unfold execGateCloseDrainEnd
  simp
  repeat' (first | (simp; done) | (split <;> simp_all <;> done) | split)

@[simp] theorem execGateOpenDone_sizes (t : Time) (s0 : State) : osizes (tick t s0).sizes (execGateOpenDone t s0) = (tick t s0).sizes := by
  unfold execGateOpenDone
  simp
  repeat' (first | (simp; done) | (split <;> simp_all <;> done) | split)

@[simp] theorem quietDom_sizes (d : ℕ) (s : State) : (quietDom d s).sizes = s.sizes := by
  unfold quietDom
  split <;> simp

@[simp] theorem enterQuiet_sizes (s : State) : (enterQuiet s).sizes = s.sizes := by
  unfold enterQuiet
  simp

@[simp] theorem leaveQuiet_sizes (s : State) : (leaveQuiet s).sizes = s.sizes := by
  unfold leaveQuiet
  simp

@[simp] theorem ownPwrSetState_sizes (idle : Bool) (rq : Request) (s : State) : (ownPwrSetState idle rq s).st.sizes = s.sizes := by
  unfold ownPwrSetState
  simp
  repeat' (first | (simp; done) | (split <;> simp_all <;> done) | split)

@[simp] theorem execPwrSetState_sizes (t : Time) (rq : Request) (idle : Bool) (s : State) : osizes (tick t s).sizes (execPwrSetState t rq idle s) = (tick t s).sizes := by
  unfold execPwrSetState
  simp

@[simp] theorem execHibernateEntry_sizes (t : Time) (s0 : State) (h : s0.sizes = partsList) : osizes partsList (execHibernateEntry t s0) = partsList := by
  have h1 : (tick t s0).sizes = partsList := h
  unfold execHibernateEntry
  simp only []
  split
  · simp [h1]
  · split
    · simp [h1]
    · rw [osizes_next, modAon_sizes, modPwr_sizes _ _ (by simp)]
      exact sizes_islands _ _ (powerCut_sizes _ h1) (by simp)

/-! ### Clk -/

@[simp] theorem toRc_kept (s : State) : (toRc s).kept = s.kept := by
  unfold toRc
  simp

@[simp] theorem controlLost_kept (s : State) : (controlLost s).kept = s.kept := by
  unfold controlLost
  simp

@[simp] theorem failPort_kept (p : ℕ) (s : State) : (failPort p s).kept = s.kept := by
  unfold failPort
  simp

@[simp] theorem refFails_kept (b : Bool) (s : State) : (refFails b s).kept = s.kept := by
  unfold refFails
  simp

@[simp] theorem sourceFails_kept (src : ℕ) (s : State) : (sourceFails src s).kept = s.kept := by
  unfold sourceFails
  split <;> simp

@[simp] theorem execClockSourceFailure_kept (t : Time) (src : Fin 32) (_stopped : Bool) (s0 : State) : okept (tick t s0).kept (execClockSourceFailure t src _stopped s0) = (tick t s0).kept := by
  unfold execClockSourceFailure
  simp

@[simp] theorem execClockForcedSwitch_kept (t : Time) (src : Fin 32) (s0 : State) : okept (tick t s0).kept (execClockForcedSwitch t src s0) = (tick t s0).kept := by
  unfold execClockForcedSwitch
  simp

@[simp] theorem restored_kept (src : ℕ) (s : State) : (restored src s).kept = s.kept := by
  unfold restored
  simp

@[simp] theorem execRefQualified_kept (t : Time) (refB : Bool) (s0 : State) : okept (tick t s0).kept (execRefQualified t refB s0) = (tick t s0).kept := by
  unfold execRefQualified
  simp

@[simp] theorem lockAll_kept (s : State) : (lockAll s).kept = s.kept := by
  unfold lockAll
  simp

@[simp] theorem execClockQualifyTimeout_kept (t : Time) (s0 : State) : okept (tick t s0).kept (execClockQualifyTimeout t s0) = (tick t s0).kept := by
  unfold execClockQualifyTimeout
  simp

@[simp] theorem execTbRefSwitchUp_kept (t : Time) (entry : Fin 3) (s0 : State) : okept (tick t s0).kept (execTbRefSwitchUp t entry s0) = (tick t s0).kept := by
  unfold execTbRefSwitchUp
  simp

@[simp] theorem groupResumes_kept (g : ℕ) (s : State) : (groupResumes g s).kept = s.kept := by
  unfold groupResumes
  simp

@[simp] theorem execPllLocked_kept (t : Time) (src : Fin 32) (s0 : State) : okept (tick t s0).kept (execPllLocked t src s0) = (tick t s0).kept := by
  unfold execPllLocked
  simp
  repeat' (first | (simp; done) | (split <;> simp_all <;> done) | split)

@[simp] theorem execPllHoldExpiry_kept (t : Time) (s0 : State) : okept (tick t s0).kept (execPllHoldExpiry t s0) = (tick t s0).kept := by
  unfold execPllHoldExpiry
  simp
  repeat' (first | (simp; done) | (split <;> simp_all <;> done) | split)

@[simp] theorem execCounterGateClose_kept (t : Time) (c : Fin 4) (measCount : ℕ) (s0 : State) : okept (tick t s0).kept (execCounterGateClose t c measCount s0) = (tick t s0).kept := by
  unfold execCounterGateClose
  simp
  repeat' (first | (simp; done) | (split <;> simp_all <;> done) | split)

@[simp] theorem presentMask_kept (s : State) : (presentMask s).2.kept = s.kept := by
  unfold presentMask
  simp

@[simp] theorem ownClkStatus_kept (x : Request) (s : State) : (ownClkStatus x s).st.kept = s.kept := by
  unfold ownClkStatus
  simp

@[simp] theorem execClkStatus_kept (t : Time) (rq : Request) (s : State) : okept (tick t s).kept (execClkStatus t rq s) = (tick t s).kept := by
  unfold execClkStatus
  simp

@[simp] theorem ownClkCounter_kept (rq : Request) (s : State) : (ownClkCounter rq s).st.kept = s.kept := by
  unfold ownClkCounter
  simp

@[simp] theorem execClkCounter_kept (t : Time) (rq : Request) (s : State) : okept (tick t s).kept (execClkCounter t rq s) = (tick t s).kept := by
  unfold execClkCounter
  simp

@[simp] theorem ownClkSetPriority_kept (rq : Request) (s : State) : (ownClkSetPriority rq s).st.kept = s.kept := by
  unfold ownClkSetPriority
  simp

@[simp] theorem execClkSetPriority_kept (t : Time) (rq : Request) (s : State) : okept (tick t s).kept (execClkSetPriority t rq s) = (tick t s).kept := by
  unfold execClkSetPriority
  simp

@[simp] theorem toRc_sizes (s : State) : (toRc s).sizes = s.sizes := by
  unfold toRc
  simp

@[simp] theorem controlLost_sizes (s : State) : (controlLost s).sizes = s.sizes := by
  unfold controlLost
  simp

@[simp] theorem failPort_sizes (p : ℕ) (s : State) : (failPort p s).sizes = s.sizes := by
  unfold failPort
  simp

@[simp] theorem refFails_sizes (b : Bool) (s : State) : (refFails b s).sizes = s.sizes := by
  unfold refFails
  simp

@[simp] theorem sourceFails_sizes (src : ℕ) (s : State) : (sourceFails src s).sizes = s.sizes := by
  unfold sourceFails
  split <;> simp

@[simp] theorem execClockSourceFailure_sizes (t : Time) (src : Fin 32) (_stopped : Bool) (s0 : State) : osizes (tick t s0).sizes (execClockSourceFailure t src _stopped s0) = (tick t s0).sizes := by
  unfold execClockSourceFailure
  simp

@[simp] theorem execClockForcedSwitch_sizes (t : Time) (src : Fin 32) (s0 : State) : osizes (tick t s0).sizes (execClockForcedSwitch t src s0) = (tick t s0).sizes := by
  unfold execClockForcedSwitch
  simp

@[simp] theorem restored_sizes (src : ℕ) (s : State) : (restored src s).sizes = s.sizes := by
  unfold restored
  simp

@[simp] theorem execRefQualified_sizes (t : Time) (refB : Bool) (s0 : State) : osizes (tick t s0).sizes (execRefQualified t refB s0) = (tick t s0).sizes := by
  unfold execRefQualified
  simp

@[simp] theorem lockAll_sizes (s : State) : (lockAll s).sizes = s.sizes := by
  unfold lockAll
  simp

@[simp] theorem execClockQualifyTimeout_sizes (t : Time) (s0 : State) : osizes (tick t s0).sizes (execClockQualifyTimeout t s0) = (tick t s0).sizes := by
  unfold execClockQualifyTimeout
  simp

@[simp] theorem execTbRefSwitchUp_sizes (t : Time) (entry : Fin 3) (s0 : State) : osizes (tick t s0).sizes (execTbRefSwitchUp t entry s0) = (tick t s0).sizes := by
  unfold execTbRefSwitchUp
  simp

@[simp] theorem groupResumes_sizes (g : ℕ) (s : State) : (groupResumes g s).sizes = s.sizes := by
  unfold groupResumes
  simp

@[simp] theorem execPllLocked_sizes (t : Time) (src : Fin 32) (s0 : State) : osizes (tick t s0).sizes (execPllLocked t src s0) = (tick t s0).sizes := by
  unfold execPllLocked
  simp
  repeat' (first | (simp; done) | (split <;> simp_all <;> done) | split)

@[simp] theorem execPllHoldExpiry_sizes (t : Time) (s0 : State) : osizes (tick t s0).sizes (execPllHoldExpiry t s0) = (tick t s0).sizes := by
  unfold execPllHoldExpiry
  simp
  repeat' (first | (simp; done) | (split <;> simp_all <;> done) | split)

@[simp] theorem execCounterGateClose_sizes (t : Time) (c : Fin 4) (measCount : ℕ) (s0 : State) : osizes (tick t s0).sizes (execCounterGateClose t c measCount s0) = (tick t s0).sizes := by
  unfold execCounterGateClose
  simp
  repeat' (first | (simp; done) | (split <;> simp_all <;> done) | split)

@[simp] theorem presentMask_sizes (s : State) : (presentMask s).2.sizes = s.sizes := by
  unfold presentMask
  simp

@[simp] theorem ownClkStatus_sizes (x : Request) (s : State) : (ownClkStatus x s).st.sizes = s.sizes := by
  unfold ownClkStatus
  simp

@[simp] theorem execClkStatus_sizes (t : Time) (rq : Request) (s : State) : osizes (tick t s).sizes (execClkStatus t rq s) = (tick t s).sizes := by
  unfold execClkStatus
  simp

@[simp] theorem ownClkCounter_sizes (rq : Request) (s : State) : (ownClkCounter rq s).st.sizes = s.sizes := by
  unfold ownClkCounter
  simp

@[simp] theorem execClkCounter_sizes (t : Time) (rq : Request) (s : State) : osizes (tick t s).sizes (execClkCounter t rq s) = (tick t s).sizes := by
  unfold execClkCounter
  simp

@[simp] theorem ownClkSetPriority_sizes (rq : Request) (s : State) : (ownClkSetPriority rq s).st.sizes = s.sizes := by
  unfold ownClkSetPriority
  simp

@[simp] theorem execClkSetPriority_sizes (t : Time) (rq : Request) (s : State) : osizes (tick t s).sizes (execClkSetPriority t rq s) = (tick t s).sizes := by
  unfold execClkSetPriority
  simp

end Sys2Proof.Machine
end

