-- ==== Sys2Proof/Laws/KeepImage.lean ====
section
/-! SUPPORT. What the operations of Dma, Image, Cfg, Tact keep: one lemma each for `State.kept` and for `State.sizes`. -/

set_option maxRecDepth 4000

namespace Sys2Proof.Machine

/-! ### Dma -/

@[simp] theorem modDma_kept (c : ℕ) (f : DmaCh → DmaCh) (s : State) : (modDma c f s).kept = s.kept := by
  unfold modDma
  simp

@[simp] theorem dmaSignal_kept (c : ℕ) (s : State) : (dmaSignal c s).kept = s.kept := by
  unfold dmaSignal
  simp

@[simp] theorem completeDesc_kept (c : ℕ) (b : DmaBuf) (why : Close) (s : State) : (completeDesc c b why s).kept = s.kept := by
  unfold completeDesc
  simp

@[simp] theorem closeBuf_kept (c : ℕ) (why : Close) (s : State) : (closeBuf c why s).kept = s.kept := by
  unfold closeBuf
  split <;> simp

@[simp] theorem closeRings_kept (s : State) : (closeRings s).kept = s.kept := by
  unfold closeRings
  simp

@[simp] theorem putWord_kept (c : ℕ) (w : Word) (poisoned : Bool) (s : State) : (putWord c w poisoned s).kept = s.kept := by
  unfold putWord
  split <;> simp

@[simp] theorem haltDma_kept (c : ℕ) (w : Word) (s : State) : (haltDma c w s).kept = s.kept := by
  unfold haltDma
  simp

@[simp] theorem haltAt_kept (c : ℕ) (r : QRec) (s : State) : (haltAt c r s).kept = s.kept := by
  unfold haltAt
  simp

theorem takeWord_kept {c : Nat} {s s3 : State} {q : QRec} (h : takeWord c s = some (q, s3)) : s3.kept = s.kept := by
  unfold takeWord at h
  repeat' split at h
  all_goals first | (simp at h; done) | (simp only [Option.some.injEq, Prod.mk.injEq] at h; rw [← h.2]; simp)

@[simp] theorem moveWord_kept (c : ℕ) (desc : Word) (bad : Bool) (s : State) : (moveWord c desc bad s).kept = s.kept := by
  unfold moveWord
  split
  · rfl
  · rename_i r h
    extract_lets s1 d s2
    have h1 : s1.kept = s.kept := by
      simp only [s1]
      split
      · split <;> simp
      · rfl
    split
    · exact h1
    · have h2 : s2.kept = s.kept := by
        simp only [s2]
        split <;> simp [h1]
      split
      · simp [h2]
      · split
        · exact h2
        · rename_i heq
          have h3 := takeWord_kept heq
          split <;> simp [h3, h2]

@[simp] theorem writeBuf_kept (desc : Word) (ws : List Word) (s : State) : (writeBuf desc ws s).kept = s.kept := by
  unfold writeBuf
  simp

@[simp] theorem putExtract_kept (e : Extract) (s : State) : (putExtract e s).kept = s.kept := by
  unfold putExtract
  simp

@[simp] theorem moveBasin_kept (c : ℕ) (desc : Word) (s : State) : (moveBasin c desc s).kept = s.kept := by
  unfold moveBasin
  split <;> simp

@[simp] theorem execDmaWrite_kept (t : Time) (c : Fin 16) (desc : Word) (bad : Bool) (s0 : State) : okept (tick t s0).kept (execDmaWrite t c desc bad s0) = (tick t s0).kept := by
  unfold execDmaWrite
  simp

@[simp] theorem execRecBufferFlush_kept (t : Time) (c : Fin 8) (s0 : State) : okept (tick t s0).kept (execRecBufferFlush t c s0) = (tick t s0).kept := by
  unfold execRecBufferFlush
  simp
  repeat' (first | (simp; done) | (split <;> simp_all <;> done) | split)

@[simp] theorem setProd_kept (c : ℕ) (v : BitVec 32) (s : State) : (setProd c v s).kept = s.kept := by
  unfold setProd
  simp

@[simp] theorem execDmaProdWrite_kept (t : Time) (c : Fin 16) (value : BitVec 32) (s0 : State) : okept (tick t s0).kept (execDmaProdWrite t c value s0) = (tick t s0).kept := by
  unfold execDmaProdWrite
  simp

@[simp] theorem startDma_kept (c : ℕ) (s : State) : (startDma c s).kept = s.kept := by
  unfold startDma
  simp

@[simp] theorem stopDma_kept (c : ℕ) (s : State) : (stopDma c s).kept = s.kept := by
  unfold stopDma
  simp

@[simp] theorem resumeWith_kept (c : ℕ) (w : Word) (poisoned : Bool) (s : State) : (resumeWith c w poisoned s).kept = s.kept := by
  unfold resumeWith
  simp

@[simp] theorem gapAtRing_kept (c : ℕ) (s : State) (k : Option (BitVec 16) × ℕ) : (gapAtRing c s k).kept = s.kept := by
  unfold gapAtRing
  simp
  repeat' (first | (simp; done) | (split <;> simp_all <;> done) | split)

@[simp] theorem resumeFit_kept (c : ℕ) (f : Word → State → State) (s : State) (h_f : ∀ y0 y1, (f y0 y1).kept = y1.kept) : (resumeFit c f s).kept = s.kept := by
  unfold resumeFit
  simp
  repeat' (first | (simp; done) | (split <;> simp_all <;> done) | split)

@[simp] theorem resumeDma_kept (c : ℕ) (stillBad : Bool) (s : State) : (resumeDma c stillBad s).kept = s.kept := by
  unfold resumeDma
  simp

@[simp] theorem skipGaps_kept (c : ℕ) (w : Word) (s : State) : (skipGaps c w s).kept = s.kept := by
  unfold skipGaps
  simp

@[simp] theorem resumeSkipDma_kept (c : ℕ) (s : State) : (resumeSkipDma c s).kept = s.kept := by
  unfold resumeSkipDma
  simp

@[simp] theorem dmaAction_kept (c : ℕ) (v : BitVec 32) (s : State) : (dmaAction c v s).kept = s.kept := by
  unfold dmaAction
  split <;> simp

@[simp] theorem dmaDo_kept (t : Time) (f : State → State) (s0 : State) (h_f : ∀ y0, (f y0).kept = y0.kept) : okept (tick t s0).kept (dmaDo t f s0) = (tick t s0).kept := by
  unfold dmaDo
  simp only []
  split <;> simp [h_f]

@[simp] theorem execDmaStart_kept (t : Time) (c : Fin 16) (s : State) : okept (tick t s).kept (execDmaStart t c s) = (tick t s).kept := by
  unfold execDmaStart
  rw [dmaDo_kept]
  intro y
  simp only [startDma_kept]

@[simp] theorem execDmaStop_kept (t : Time) (c : Fin 16) (s : State) : okept (tick t s).kept (execDmaStop t c s) = (tick t s).kept := by
  unfold execDmaStop
  rw [dmaDo_kept]
  intro y
  simp only [stopDma_kept]

@[simp] theorem execDmaResume_kept (t : Time) (c : Fin 16) (stillBad : Bool) (s : State) : okept (tick t s).kept (execDmaResume t c stillBad s) = (tick t s).kept := by
  unfold execDmaResume
  rw [dmaDo_kept]
  intro y
  simp only [resumeDma_kept]

@[simp] theorem execDmaResumeSkip_kept (t : Time) (c : Fin 16) (s : State) : okept (tick t s).kept (execDmaResumeSkip t c s) = (tick t s).kept := by
  unfold execDmaResumeSkip
  rw [dmaDo_kept]
  intro y
  simp only [resumeSkipDma_kept]

@[simp] theorem execDmaDroppedRead_kept (t : Time) (ring : Fin 8) (s0 : State) : okept (tick t s0).kept (execDmaDroppedRead t ring s0) = (tick t s0).kept := by
  unfold execDmaDroppedRead
  simp

@[simp] theorem modDma_sizes (c : ℕ) (f : DmaCh → DmaCh) (s : State) : (modDma c f s).sizes = s.sizes := by
  unfold modDma
  simp

@[simp] theorem dmaSignal_sizes (c : ℕ) (s : State) : (dmaSignal c s).sizes = s.sizes := by
  unfold dmaSignal
  simp

@[simp] theorem completeDesc_sizes (c : ℕ) (b : DmaBuf) (why : Close) (s : State) : (completeDesc c b why s).sizes = s.sizes := by
  unfold completeDesc
  simp

@[simp] theorem closeBuf_sizes (c : ℕ) (why : Close) (s : State) : (closeBuf c why s).sizes = s.sizes := by
  unfold closeBuf
  split <;> simp

@[simp] theorem closeRings_sizes (s : State) : (closeRings s).sizes = s.sizes := by
  unfold closeRings
  simp

@[simp] theorem putWord_sizes (c : ℕ) (w : Word) (poisoned : Bool) (s : State) : (putWord c w poisoned s).sizes = s.sizes := by
  unfold putWord
  split <;> simp

@[simp] theorem haltDma_sizes (c : ℕ) (w : Word) (s : State) : (haltDma c w s).sizes = s.sizes := by
  unfold haltDma
  simp

@[simp] theorem haltAt_sizes (c : ℕ) (r : QRec) (s : State) : (haltAt c r s).sizes = s.sizes := by
  unfold haltAt
  simp

theorem takeWord_sizes {c : Nat} {s s3 : State} {q : QRec} (h : takeWord c s = some (q, s3)) : s3.sizes = s.sizes := by
  unfold takeWord at h
  repeat' split at h
  all_goals first | (simp at h; done) | (simp only [Option.some.injEq, Prod.mk.injEq] at h; rw [← h.2]; simp)

@[simp] theorem moveWord_sizes (c : ℕ) (desc : Word) (bad : Bool) (s : State) : (moveWord c desc bad s).sizes = s.sizes := by
  unfold moveWord
  split
  · rfl
  · rename_i r h
    extract_lets s1 d s2
    have h1 : s1.sizes = s.sizes := by
      simp only [s1]
      split
      · split <;> simp
      · rfl
    split
    · exact h1
    · have h2 : s2.sizes = s.sizes := by
        simp only [s2]
        split <;> simp [h1]
      split
      · simp [h2]
      · split
        · exact h2
        · rename_i heq
          have h3 := takeWord_sizes heq
          split <;> simp [h3, h2]

@[simp] theorem writeBuf_sizes (desc : Word) (ws : List Word) (s : State) : (writeBuf desc ws s).sizes = s.sizes := by
  unfold writeBuf
  simp

@[simp] theorem putExtract_sizes (e : Extract) (s : State) : (putExtract e s).sizes = s.sizes := by
  unfold putExtract
  simp

@[simp] theorem moveBasin_sizes (c : ℕ) (desc : Word) (s : State) : (moveBasin c desc s).sizes = s.sizes := by
  unfold moveBasin
  split <;> simp

@[simp] theorem execDmaWrite_sizes (t : Time) (c : Fin 16) (desc : Word) (bad : Bool) (s0 : State) : osizes (tick t s0).sizes (execDmaWrite t c desc bad s0) = (tick t s0).sizes := by
  unfold execDmaWrite
  simp

@[simp] theorem execRecBufferFlush_sizes (t : Time) (c : Fin 8) (s0 : State) : osizes (tick t s0).sizes (execRecBufferFlush t c s0) = (tick t s0).sizes := by
  unfold execRecBufferFlush
  simp
  repeat' (first | (simp; done) | (split <;> simp_all <;> done) | split)

@[simp] theorem setProd_sizes (c : ℕ) (v : BitVec 32) (s : State) : (setProd c v s).sizes = s.sizes := by
  unfold setProd
  simp

@[simp] theorem execDmaProdWrite_sizes (t : Time) (c : Fin 16) (value : BitVec 32) (s0 : State) : osizes (tick t s0).sizes (execDmaProdWrite t c value s0) = (tick t s0).sizes := by
  unfold execDmaProdWrite
  simp

@[simp] theorem startDma_sizes (c : ℕ) (s : State) : (startDma c s).sizes = s.sizes := by
  unfold startDma
  simp

@[simp] theorem stopDma_sizes (c : ℕ) (s : State) : (stopDma c s).sizes = s.sizes := by
  unfold stopDma
  simp

@[simp] theorem resumeWith_sizes (c : ℕ) (w : Word) (poisoned : Bool) (s : State) : (resumeWith c w poisoned s).sizes = s.sizes := by
  unfold resumeWith
  simp

@[simp] theorem gapAtRing_sizes (c : ℕ) (s : State) (k : Option (BitVec 16) × ℕ) : (gapAtRing c s k).sizes = s.sizes := by
  unfold gapAtRing
  simp
  repeat' (first | (simp; done) | (split <;> simp_all <;> done) | split)

@[simp] theorem resumeFit_sizes (c : ℕ) (f : Word → State → State) (s : State) (h_f : ∀ y0 y1, (f y0 y1).sizes = y1.sizes) : (resumeFit c f s).sizes = s.sizes := by
  unfold resumeFit
  simp
  repeat' (first | (simp; done) | (split <;> simp_all <;> done) | split)

@[simp] theorem resumeDma_sizes (c : ℕ) (stillBad : Bool) (s : State) : (resumeDma c stillBad s).sizes = s.sizes := by
  unfold resumeDma
  simp

@[simp] theorem skipGaps_sizes (c : ℕ) (w : Word) (s : State) : (skipGaps c w s).sizes = s.sizes := by
  unfold skipGaps
  simp

@[simp] theorem resumeSkipDma_sizes (c : ℕ) (s : State) : (resumeSkipDma c s).sizes = s.sizes := by
  unfold resumeSkipDma
  simp

@[simp] theorem dmaAction_sizes (c : ℕ) (v : BitVec 32) (s : State) : (dmaAction c v s).sizes = s.sizes := by
  unfold dmaAction
  split <;> simp

@[simp] theorem dmaDo_sizes (t : Time) (f : State → State) (s0 : State) (h_f : ∀ y0, (f y0).sizes = y0.sizes) : osizes (tick t s0).sizes (dmaDo t f s0) = (tick t s0).sizes := by
  unfold dmaDo
  simp only []
  split <;> simp [h_f]

@[simp] theorem execDmaStart_sizes (t : Time) (c : Fin 16) (s : State) : osizes (tick t s).sizes (execDmaStart t c s) = (tick t s).sizes := by
  unfold execDmaStart
  rw [dmaDo_sizes]
  intro y
  simp only [startDma_sizes]

@[simp] theorem execDmaStop_sizes (t : Time) (c : Fin 16) (s : State) : osizes (tick t s).sizes (execDmaStop t c s) = (tick t s).sizes := by
  unfold execDmaStop
  rw [dmaDo_sizes]
  intro y
  simp only [stopDma_sizes]

@[simp] theorem execDmaResume_sizes (t : Time) (c : Fin 16) (stillBad : Bool) (s : State) : osizes (tick t s).sizes (execDmaResume t c stillBad s) = (tick t s).sizes := by
  unfold execDmaResume
  rw [dmaDo_sizes]
  intro y
  simp only [resumeDma_sizes]

@[simp] theorem execDmaResumeSkip_sizes (t : Time) (c : Fin 16) (s : State) : osizes (tick t s).sizes (execDmaResumeSkip t c s) = (tick t s).sizes := by
  unfold execDmaResumeSkip
  rw [dmaDo_sizes]
  intro y
  simp only [resumeSkipDma_sizes]

@[simp] theorem execDmaDroppedRead_sizes (t : Time) (ring : Fin 8) (s0 : State) : osizes (tick t s0).sizes (execDmaDroppedRead t ring s0) = (tick t s0).sizes := by
  unfold execDmaDroppedRead
  simp

/-! ### Image -/

@[simp] theorem applyFabricRec_kept (kind : ℕ) (body : List Word) (s : State) : (applyFabricRec kind body s).st.kept = s.kept := by
  unfold applyFabricRec
  simp
  repeat' (first | (simp; done) | (split <;> simp_all <;> done) | split)

@[simp] theorem applyRec_kept (r : ImgRec) (s : State) : (applyRec r s).st.kept = s.kept := by
  unfold applyRec
  split <;> simp

@[simp] theorem tryRecords_kept (rs : List ImgRec) (s : State) : (tryRecords rs s).2.kept = s.kept := by
  unfold tryRecords
  rw [foldl_snd_kept]
  intro a x
  split
  · rfl
  · simp only []
    split <;> simp

@[simp] theorem applyRecords_kept (start : Bool) (rs : List ImgRec) (s : State) : (applyRecords start rs s).1.kept = s.kept := by
  unfold applyRecords
  rw [foldl_fst_kept]
  intro a x
  simp only []
  repeat' (first | rfl | (simp; done) | split)

@[simp] theorem changeFilter_kept (c : ℕ) (old : FiltInst) (new : FiltInst) (s : State) : (changeFilter c old new s).1.kept = s.kept := by
  unfold changeFilter
  simp
  repeat' (first | (simp; done) | (split <;> simp_all <;> done) | split)

@[simp] theorem changeFilters_kept (before : State) (s : State) : (changeFilters before s).1.kept = s.kept := by
  unfold changeFilters
  rw [foldl_fst_kept]
  intro a x
  simp only []
  split <;> simp

@[simp] theorem dropPrepared_kept (s : State) : (dropPrepared s).kept = s.kept := by
  unfold dropPrepared
  simp

@[simp] theorem prepareShadows_kept (after : State) (s : State) : (prepareShadows after s).kept = s.kept := by
  unfold prepareShadows
  simp

@[simp] theorem applyImage_kept (start : Bool) (ws : List Word) (s : State) : (applyImage start ws s).1.kept = s.kept := by
  unfold applyImage
  simp

@[simp] theorem applyFabricRec_sizes (kind : ℕ) (body : List Word) (s : State) : (applyFabricRec kind body s).st.sizes = s.sizes := by
  unfold applyFabricRec
  simp
  repeat' (first | (simp; done) | (split <;> simp_all <;> done) | split)

@[simp] theorem applyRec_sizes (r : ImgRec) (s : State) : (applyRec r s).st.sizes = s.sizes := by
  unfold applyRec
  split <;> simp

@[simp] theorem tryRecords_sizes (rs : List ImgRec) (s : State) : (tryRecords rs s).2.sizes = s.sizes := by
  unfold tryRecords
  rw [foldl_snd_sizes]
  intro a x
  split
  · rfl
  · simp only []
    split <;> simp

@[simp] theorem applyRecords_sizes (start : Bool) (rs : List ImgRec) (s : State) : (applyRecords start rs s).1.sizes = s.sizes := by
  unfold applyRecords
  rw [foldl_fst_sizes]
  intro a x
  simp only []
  repeat' (first | rfl | (simp; done) | split)

@[simp] theorem changeFilter_sizes (c : ℕ) (old : FiltInst) (new : FiltInst) (s : State) : (changeFilter c old new s).1.sizes = s.sizes := by
  unfold changeFilter
  simp
  repeat' (first | (simp; done) | (split <;> simp_all <;> done) | split)

@[simp] theorem changeFilters_sizes (before : State) (s : State) : (changeFilters before s).1.sizes = s.sizes := by
  unfold changeFilters
  rw [foldl_fst_sizes]
  intro a x
  simp only []
  split <;> simp

@[simp] theorem dropPrepared_sizes (s : State) : (dropPrepared s).sizes = s.sizes := by
  unfold dropPrepared
  simp

@[simp] theorem prepareShadows_sizes (after : State) (s : State) : (prepareShadows after s).sizes = s.sizes := by
  unfold prepareShadows
  simp

@[simp] theorem applyImage_sizes (start : Bool) (ws : List Word) (s : State) : (applyImage start ws s).1.sizes = s.sizes := by
  unfold applyImage
  simp

/-! ### Cfg -/

@[simp] theorem modCfg_kept (f : CfgSt → CfgSt) (s : State) : (modCfg f s).kept = s.kept := by
  unfold modCfg
  simp

@[simp] theorem finishing_kept (rq : Request) (before : State) (after : State) (f : State → State) (h_f : ∀ y0, (f y0).kept = y0.kept) : (finishing rq before after f).kept = after.kept := by
  unfold finishing
  simp only []
  split <;> simp [h_f]

@[simp] theorem endRq_kept (rq : Request) (status : BitVec 16) (steps : ℕ) (s : State) : (endRq rq status steps s).kept = s.kept := by
  unfold endRq
  simp

@[simp] theorem dropStaged_kept (s : State) : (dropStaged s).kept = s.kept := by
  unfold dropStaged
  simp
  repeat' (first | (simp; done) | (split <;> simp_all <;> done) | split)

@[simp] theorem stageImage_kept (img : Image) (catchup : Bool) (s : State) : (stageImage img catchup s).kept = s.kept := by
  unfold stageImage
  simp

@[simp] theorem sendImage_kept (img : Image) (dest : BitVec 16) (s : State) : (sendImage img dest s).kept = s.kept := by
  unfold sendImage
  simp

@[simp] theorem commitResult_kept (code : ℕ) (gen : ℕ) (chans : List ℕ) (s : State) : (commitResult code gen chans s).kept = s.kept := by
  unfold commitResult
  simp

@[simp] theorem storeConfig_kept (img : Image) (s : State) : (storeConfig img s).kept = s.kept := by
  unfold storeConfig
  simp

@[simp] theorem closeExports_kept (s : State) : (closeExports s).kept = s.kept := by
  unfold closeExports
  simp

@[simp] theorem takeRing_kept (ws : List Word) (s : State) : (takeRing ws s).kept = s.kept := by
  unfold takeRing
  split <;> simp

@[simp] theorem commitSwitch_kept (img : Image) (code : ℕ) (s : State) : (commitSwitch img code s).kept = s.kept := by
  unfold commitSwitch
  simp

@[simp] theorem fireCommit_kept (late : Bool) (s : State) : (fireCommit late s).kept = s.kept := by
  unfold fireCommit
  simp
  repeat' (first | (simp; done) | (split <;> simp_all <;> done) | split)

@[simp] theorem lostCommitDue_kept (s : State) : (lostCommitDue s).kept = s.kept := by
  unfold lostCommitDue
  split <;> simp

@[simp] theorem autoload_kept (s : State) : (autoload s).kept = s.kept := by
  unfold autoload
  simp

@[simp] theorem ownCfgStage_kept (rq : Request) (s : State) : (ownCfgStage rq s).st.kept = s.kept := by
  unfold ownCfgStage
  simp

@[simp] theorem stageFetched_kept (rq : Request) (img : ImageFetch) (othersOk : Bool) (s : State) : (stageFetched rq img othersOk s).kept = s.kept := by
  unfold stageFetched
  simp
  repeat' (first | (simp; done) | (split <;> simp_all <;> done) | split)

@[simp] theorem execCfgStage_kept (t : Time) (rq : Request) (img : ImageFetch) (othersOk : Bool) (s : State) : okept (tick t s).kept (execCfgStage t rq img othersOk s) = (tick t s).kept := by
  unfold execCfgStage
  simp

@[simp] theorem ownCfgCommitAt_kept (rq : Request) (s : State) : (ownCfgCommitAt rq s).st.kept = s.kept := by
  unfold ownCfgCommitAt
  simp

@[simp] theorem castScope_kept (op : ℕ) (rq : Request) (othersOk : Bool) (s : State) : (castScope op rq othersOk s).kept = s.kept := by
  unfold castScope
  simp

@[simp] theorem execCfgCommitAt_kept (t : Time) (rq : Request) (othersOk : Bool) (s : State) : okept (tick t s).kept (execCfgCommitAt t rq othersOk s) = (tick t s).kept := by
  unfold execCfgCommitAt
  simp

@[simp] theorem ownCfgCancelCommit_kept (rq : Request) (s : State) : (ownCfgCancelCommit rq s).st.kept = s.kept := by
  unfold ownCfgCancelCommit
  simp

@[simp] theorem execCfgCancelCommit_kept (t : Time) (rq : Request) (othersOk : Bool) (s : State) : okept (tick t s).kept (execCfgCancelCommit t rq othersOk s) = (tick t s).kept := by
  unfold execCfgCancelCommit
  simp

@[simp] theorem ownCfgReport_kept (collected : Option (List Beacon)) (rq : Request) (s : State) : (ownCfgReport collected rq s).st.kept = s.kept := by
  unfold ownCfgReport
  simp
  repeat' (first | (simp; done) | (split <;> simp_all <;> done) | split)

@[simp] theorem execCfgReport_kept (t : Time) (rq : Request) (collected : Option (List Beacon)) (s : State) : okept (tick t s).kept (execCfgReport t rq collected s) = (tick t s).kept := by
  unfold execCfgReport
  simp

@[simp] theorem ownCfgConfig_kept (rq : Request) (s : State) : (ownCfgConfig rq s).st.kept = s.kept := by
  unfold ownCfgConfig
  simp

@[simp] theorem execCfgConfig_kept (t : Time) (rq : Request) (s : State) : okept (tick t s).kept (execCfgConfig t rq s) = (tick t s).kept := by
  unfold execCfgConfig
  simp

@[simp] theorem takePart_kept (gen : ℕ) (d64 : BitVec 64) (offset : ℕ) (ws : List Word) (s : State) : (takePart gen d64 offset ws s).kept = s.kept := by
  unfold takePart
  simp

@[simp] theorem finishTransfer_kept (gen : ℕ) (d64 : BitVec 64) (s : State) : (finishTransfer gen d64 s).kept = s.kept := by
  unfold finishTransfer
  simp

@[simp] theorem execConfigFrameRx_kept (t : Time) (gen : BitVec 16) (offset : ℕ) (words : List Word) (last : Bool) (digest64 : BitVec 64) (s0 : State) : okept (tick t s0).kept (execConfigFrameRx t gen offset words last digest64 s0) = (tick t s0).kept := by
  unfold execConfigFrameRx
  simp

@[simp] theorem execCatchupTrigger_kept (t : Time) (node : BitVec 16) (s0 : State) : okept (tick t s0).kept (execCatchupTrigger t node s0) = (tick t s0).kept := by
  unfold execCatchupTrigger
  simp
  repeat' (first | (simp; done) | (split <;> simp_all <;> done) | split)

@[simp] theorem execCatchupCommit_kept (t : Time) (s0 : State) : okept (tick t s0).kept (execCatchupCommit t s0) = (tick t s0).kept := by
  unfold execCatchupCommit
  simp
  repeat' (first | (simp; done) | (split <;> simp_all <;> done) | split)

@[simp] theorem modCfg_sizes (f : CfgSt → CfgSt) (s : State) : (modCfg f s).sizes = s.sizes := by
  unfold modCfg
  simp

@[simp] theorem finishing_sizes (rq : Request) (before : State) (after : State) (f : State → State) (h_f : ∀ y0, (f y0).sizes = y0.sizes) : (finishing rq before after f).sizes = after.sizes := by
  unfold finishing
  simp only []
  split <;> simp [h_f]

@[simp] theorem endRq_sizes (rq : Request) (status : BitVec 16) (steps : ℕ) (s : State) : (endRq rq status steps s).sizes = s.sizes := by
  unfold endRq
  simp

@[simp] theorem dropStaged_sizes (s : State) : (dropStaged s).sizes = s.sizes := by
  unfold dropStaged
  simp
  repeat' (first | (simp; done) | (split <;> simp_all <;> done) | split)

@[simp] theorem stageImage_sizes (img : Image) (catchup : Bool) (s : State) : (stageImage img catchup s).sizes = s.sizes := by
  unfold stageImage
  simp

@[simp] theorem sendImage_sizes (img : Image) (dest : BitVec 16) (s : State) : (sendImage img dest s).sizes = s.sizes := by
  unfold sendImage
  simp

@[simp] theorem commitResult_sizes (code : ℕ) (gen : ℕ) (chans : List ℕ) (s : State) : (commitResult code gen chans s).sizes = s.sizes := by
  unfold commitResult
  simp

@[simp] theorem storeConfig_sizes (img : Image) (s : State) : (storeConfig img s).sizes = s.sizes := by
  unfold storeConfig
  simp

@[simp] theorem closeExports_sizes (s : State) : (closeExports s).sizes = s.sizes := by
  unfold closeExports
  simp

@[simp] theorem takeRing_sizes (ws : List Word) (s : State) : (takeRing ws s).sizes = s.sizes := by
  unfold takeRing
  split <;> simp

@[simp] theorem commitSwitch_sizes (img : Image) (code : ℕ) (s : State) : (commitSwitch img code s).sizes = s.sizes := by
  unfold commitSwitch
  simp

@[simp] theorem fireCommit_sizes (late : Bool) (s : State) : (fireCommit late s).sizes = s.sizes := by
  unfold fireCommit
  simp
  repeat' (first | (simp; done) | (split <;> simp_all <;> done) | split)

@[simp] theorem lostCommitDue_sizes (s : State) : (lostCommitDue s).sizes = s.sizes := by
  unfold lostCommitDue
  split <;> simp

@[simp] theorem autoload_sizes (s : State) : (autoload s).sizes = s.sizes := by
  unfold autoload
  simp

@[simp] theorem ownCfgStage_sizes (rq : Request) (s : State) : (ownCfgStage rq s).st.sizes = s.sizes := by
  unfold ownCfgStage
  simp

@[simp] theorem stageFetched_sizes (rq : Request) (img : ImageFetch) (othersOk : Bool) (s : State) : (stageFetched rq img othersOk s).sizes = s.sizes := by
  unfold stageFetched
  simp
  repeat' (first | (simp; done) | (split <;> simp_all <;> done) | split)

@[simp] theorem execCfgStage_sizes (t : Time) (rq : Request) (img : ImageFetch) (othersOk : Bool) (s : State) : osizes (tick t s).sizes (execCfgStage t rq img othersOk s) = (tick t s).sizes := by
  unfold execCfgStage
  simp

@[simp] theorem ownCfgCommitAt_sizes (rq : Request) (s : State) : (ownCfgCommitAt rq s).st.sizes = s.sizes := by
  unfold ownCfgCommitAt
  simp

@[simp] theorem castScope_sizes (op : ℕ) (rq : Request) (othersOk : Bool) (s : State) : (castScope op rq othersOk s).sizes = s.sizes := by
  unfold castScope
  simp

@[simp] theorem execCfgCommitAt_sizes (t : Time) (rq : Request) (othersOk : Bool) (s : State) : osizes (tick t s).sizes (execCfgCommitAt t rq othersOk s) = (tick t s).sizes := by
  unfold execCfgCommitAt
  simp

@[simp] theorem ownCfgCancelCommit_sizes (rq : Request) (s : State) : (ownCfgCancelCommit rq s).st.sizes = s.sizes := by
  unfold ownCfgCancelCommit
  simp

@[simp] theorem execCfgCancelCommit_sizes (t : Time) (rq : Request) (othersOk : Bool) (s : State) : osizes (tick t s).sizes (execCfgCancelCommit t rq othersOk s) = (tick t s).sizes := by
  unfold execCfgCancelCommit
  simp

@[simp] theorem ownCfgReport_sizes (collected : Option (List Beacon)) (rq : Request) (s : State) : (ownCfgReport collected rq s).st.sizes = s.sizes := by
  unfold ownCfgReport
  simp
  repeat' (first | (simp; done) | (split <;> simp_all <;> done) | split)

@[simp] theorem execCfgReport_sizes (t : Time) (rq : Request) (collected : Option (List Beacon)) (s : State) : osizes (tick t s).sizes (execCfgReport t rq collected s) = (tick t s).sizes := by
  unfold execCfgReport
  simp

@[simp] theorem ownCfgConfig_sizes (rq : Request) (s : State) : (ownCfgConfig rq s).st.sizes = s.sizes := by
  unfold ownCfgConfig
  simp

@[simp] theorem execCfgConfig_sizes (t : Time) (rq : Request) (s : State) : osizes (tick t s).sizes (execCfgConfig t rq s) = (tick t s).sizes := by
  unfold execCfgConfig
  simp

@[simp] theorem takePart_sizes (gen : ℕ) (d64 : BitVec 64) (offset : ℕ) (ws : List Word) (s : State) : (takePart gen d64 offset ws s).sizes = s.sizes := by
  unfold takePart
  simp

@[simp] theorem finishTransfer_sizes (gen : ℕ) (d64 : BitVec 64) (s : State) : (finishTransfer gen d64 s).sizes = s.sizes := by
  unfold finishTransfer
  simp

@[simp] theorem execConfigFrameRx_sizes (t : Time) (gen : BitVec 16) (offset : ℕ) (words : List Word) (last : Bool) (digest64 : BitVec 64) (s0 : State) : osizes (tick t s0).sizes (execConfigFrameRx t gen offset words last digest64 s0) = (tick t s0).sizes := by
  unfold execConfigFrameRx
  simp

@[simp] theorem execCatchupTrigger_sizes (t : Time) (node : BitVec 16) (s0 : State) : osizes (tick t s0).sizes (execCatchupTrigger t node s0) = (tick t s0).sizes := by
  unfold execCatchupTrigger
  simp
  repeat' (first | (simp; done) | (split <;> simp_all <;> done) | split)

@[simp] theorem execCatchupCommit_sizes (t : Time) (s0 : State) : osizes (tick t s0).sizes (execCatchupCommit t s0) = (tick t s0).sizes := by
  unfold execCatchupCommit
  simp
  repeat' (first | (simp; done) | (split <;> simp_all <;> done) | split)

/-! ### Tact -/

@[simp] theorem modTact_kept (f : TactSt → TactSt) (s : State) : (modTact f s).kept = s.kept := by
  unfold modTact
  simp

@[simp] theorem modTev_kept (n : ℕ) (f : TevPin → TevPin) (s : State) : (modTev n f s).kept = s.kept := by
  unfold modTev
  simp

@[simp] theorem modTcap_kept (n : ℕ) (f : TcapIn → TcapIn) (s : State) : (modTcap n f s).kept = s.kept := by
  unfold modTcap
  simp

@[simp] theorem tevEdge_kept (n : ℕ) (at_ : Time) (drive : Bool) (dTev : ℤ) (level : Bool) (s : State) : (tevEdge n at_ drive dTev level s).kept = s.kept := by
  unfold tevEdge
  simp

@[simp] theorem tevPulse_kept (n : ℕ) (f : Time) (width : ℕ) (s : State) : (tevPulse n f width s).kept = s.kept := by
  unfold tevPulse
  simp
  repeat' (first | (simp; done) | (split <;> simp_all <;> done) | split)

@[simp] theorem slotPulse_kept (n : ℕ) (f : Time) (width : ℕ) (s : State) : (slotPulse n f width s).kept = s.kept := by
  unfold slotPulse
  simp

@[simp] theorem showRest_kept (n : ℕ) (s : State) : (showRest n s).kept = s.kept := by
  unfold showRest
  simp

@[simp] theorem execTevPulseEnd_kept (t : Time) (pin : Fin 16) (s0 : State) : okept (tick t s0).kept (execTevPulseEnd t pin s0) = (tick t s0).kept := by
  unfold execTevPulseEnd
  simp
  repeat' (first | (simp; done) | (split <;> simp_all <;> done) | split)

@[simp] theorem syncNow_kept (gs : List ℕ) (ts : Time) (s : State) : (syncNow gs ts s).kept = s.kept := by
  unfold syncNow
  rw [foldl_kept]
  intro a x
  simp only []
  split <;> simp

@[simp] theorem releaseArmed_kept (cs : List ℕ) (s : State) : (releaseArmed cs s).kept = s.kept := by
  unfold releaseArmed
  simp

@[simp] theorem startWeaves_kept (cs : List ℕ) (ts : Time) (s : State) : (startWeaves cs ts s).2.kept = s.kept := by
  unfold startWeaves
  simp
  repeat' (first | (simp; done) | (split <;> simp_all <;> done) | split)

@[simp] theorem applyKind_kept (a : SlotArm) (k : ℕ) (f : ℕ) (late : Bool) (s : State) : (applyKind a k f late s).2.kept = s.kept := by
  unfold applyKind
  repeat' split
  all_goals simp

@[simp] theorem slotDone_kept (i : ℕ) (a : SlotArm) (f : ℕ) (s : State) : (slotDone i a f s).kept = s.kept := by
  unfold slotDone
  simp

@[simp] theorem fireOcc_kept (i : ℕ) (a : SlotArm) (late : Bool) (s : State) : (fireOcc i a late s).kept = s.kept := by
  unfold fireOcc
  simp

@[simp] theorem fireThrough_kept (a : ℕ) (x1 : Option ℕ) (x2 : State) : (fireThrough a x1 x2).kept = x2.kept := by
  induction a generalizing x2 with
  | zero => rfl
  | succ n ih =>
    unfold fireThrough
    repeat' (first | rfl | (simp [ih]; done) | split)

@[simp] theorem fireBefore_kept (a : ℕ) (x1 : State) : (fireBefore a x1).kept = x1.kept := by
  induction a generalizing x1 with
  | zero => rfl
  | succ n ih =>
    unfold fireBefore
    repeat' (first | rfl | (simp [ih]; done) | split)

@[simp] theorem execActionFire_kept (t : Time) (slot : Fin 64) (s0 : State) : okept (tick t s0).kept (execActionFire t slot s0) = (tick t s0).kept := by
  unfold execActionFire
  simp
  repeat' (first | (simp; done) | (split <;> simp_all <;> done) | split)

@[simp] theorem stepSlot_kept (i : ℕ) (s : State) : (stepSlot i s).kept = s.kept := by
  unfold stepSlot
  split <;> simp

@[simp] theorem stepOnTime_kept (i : ℕ) (s : State) : (stepOnTime i s).kept = s.kept := by
  unfold stepOnTime
  split <;> simp

@[simp] theorem stepSlots_kept (s : State) : (stepSlots s).kept = s.kept := by
  unfold stepSlots
  rw [foldl_kept]
  intro a x
  rw [foldl_kept]
  intro b y
  repeat' (first | rfl | (simp; done) | split)

@[simp] theorem stepBy_kept (delta : ℤ) (cause : StepCause) (origin : Option ℕ) (s0 : State) : (stepBy delta cause origin s0).kept = s0.kept := by
  unfold stepBy
  simp

@[simp] theorem stepPending_kept (s : State) : (stepPending s).kept = s.kept := by
  unfold stepPending
  split <;> simp

@[simp] theorem execTimebaseStep_kept (t : Time) (s0 : State) : okept (tick t s0).kept (execTimebaseStep t s0) = (tick t s0).kept := by
  unfold execTimebaseStep
  simp

@[simp] theorem ownTimeSet_kept (rq : Request) (s : State) : (ownTimeSet rq s).st.kept = s.kept := by
  unfold ownTimeSet
  simp

@[simp] theorem execTimeSet_kept (t : Time) (rq : Request) (s : State) : okept (tick t s).kept (execTimeSet t rq s) = (tick t s).kept := by
  unfold execTimeSet
  simp

@[simp] theorem ownTimeStepAccept_kept (rq : Request) (s : State) : (ownTimeStepAccept rq s).st.kept = s.kept := by
  unfold ownTimeStepAccept
  simp
  repeat' (first | (simp; done) | (split <;> simp_all <;> done) | split)

@[simp] theorem execTimeStepAccept_kept (t : Time) (rq : Request) (s : State) : okept (tick t s).kept (execTimeStepAccept t rq s) = (tick t s).kept := by
  unfold execTimeStepAccept
  simp

@[simp] theorem execPpsOutPulse_kept (t : Time) (s0 : State) : okept (tick t s0).kept (execPpsOutPulse t s0) = (tick t s0).kept := by
  unfold execPpsOutPulse
  simp
  repeat' (first | (simp; done) | (split <;> simp_all <;> done) | split)

@[simp] theorem execPpsPulseEnd_kept (t : Time) (s0 : State) : okept (tick t s0).kept (execPpsPulseEnd t s0) = (tick t s0).kept := by
  unfold execPpsPulseEnd
  simp
  repeat' (first | (simp; done) | (split <;> simp_all <;> done) | split)

@[simp] theorem execTcapEdge_kept (t : Time) (input : Fin 8) (falling : Bool) (pulse : ℕ) (s0 : State) : okept (tick t s0).kept (execTcapEdge t input falling pulse s0) = (tick t s0).kept := by
  unfold execTcapEdge
  simp

@[simp] theorem ownTactArm_kept (rq : Request) (s : State) : (ownTactArm rq s).st.kept = s.kept := by
  unfold ownTactArm
  simp
  repeat' (first | (simp; done) | (split <;> simp_all <;> done) | split)

@[simp] theorem execTactArm_kept (t : Time) (rq : Request) (s : State) : okept (tick t s).kept (execTactArm t rq s) = (tick t s).kept := by
  unfold execTactArm
  simp

@[simp] theorem ownTactCancel_kept (rq : Request) (s0 : State) : (ownTactCancel rq s0).st.kept = s0.kept := by
  unfold ownTactCancel
  simp
  repeat' (first | (simp; done) | (split <;> simp_all <;> done) | split)

@[simp] theorem execTactCancel_kept (t : Time) (rq : Request) (s : State) : okept (tick t s).kept (execTactCancel t rq s) = (tick t s).kept := by
  unfold execTactCancel
  simp

@[simp] theorem ownTactStatus_kept (rq : Request) (s0 : State) : (ownTactStatus rq s0).st.kept = s0.kept := by
  unfold ownTactStatus
  simp

@[simp] theorem execTactStatus_kept (t : Time) (rq : Request) (s : State) : okept (tick t s).kept (execTactStatus t rq s) = (tick t s).kept := by
  unfold execTactStatus
  simp

@[simp] theorem ownTactConfigPin_kept (rq : Request) (s : State) : (ownTactConfigPin rq s).st.kept = s.kept := by
  unfold ownTactConfigPin
  simp

@[simp] theorem execTactConfigPin_kept (t : Time) (rq : Request) (s : State) : okept (tick t s).kept (execTactConfigPin t rq s) = (tick t s).kept := by
  unfold execTactConfigPin
  simp

@[simp] theorem ownTactConfigPps_kept (rq : Request) (s : State) : (ownTactConfigPps rq s).st.kept = s.kept := by
  unfold ownTactConfigPps
  simp

@[simp] theorem execTactConfigPps_kept (t : Time) (rq : Request) (s : State) : okept (tick t s).kept (execTactConfigPps t rq s) = (tick t s).kept := by
  unfold execTactConfigPps
  simp

@[simp] theorem ownTactConfigCapture_kept (rq : Request) (s : State) : (ownTactConfigCapture rq s).st.kept = s.kept := by
  unfold ownTactConfigCapture
  simp

@[simp] theorem execTactConfigCapture_kept (t : Time) (rq : Request) (s : State) : okept (tick t s).kept (execTactConfigCapture t rq s) = (tick t s).kept := by
  unfold execTactConfigCapture
  simp

@[simp] theorem ownTactReadCapture_kept (rq : Request) (s : State) : (ownTactReadCapture rq s).st.kept = s.kept := by
  unfold ownTactReadCapture
  simp

@[simp] theorem execTactReadCapture_kept (t : Time) (rq : Request) (s : State) : okept (tick t s).kept (execTactReadCapture t rq s) = (tick t s).kept := by
  unfold execTactReadCapture
  simp

@[simp] theorem modTev_sizes (n : ℕ) (f : TevPin → TevPin) (s : State) : (modTev n f s).sizes = s.sizes := by
  unfold modTev
  simp

@[simp] theorem modTcap_sizes (n : ℕ) (f : TcapIn → TcapIn) (s : State) : (modTcap n f s).sizes = s.sizes := by
  unfold modTcap
  simp

@[simp] theorem tevEdge_sizes (n : ℕ) (at_ : Time) (drive : Bool) (dTev : ℤ) (level : Bool) (s : State) : (tevEdge n at_ drive dTev level s).sizes = s.sizes := by
  unfold tevEdge
  simp

@[simp] theorem tevPulse_sizes (n : ℕ) (f : Time) (width : ℕ) (s : State) : (tevPulse n f width s).sizes = s.sizes := by
  unfold tevPulse
  simp
  repeat' (first | (simp; done) | (split <;> simp_all <;> done) | split)

@[simp] theorem slotPulse_sizes (n : ℕ) (f : Time) (width : ℕ) (s : State) : (slotPulse n f width s).sizes = s.sizes := by
  unfold slotPulse
  simp

@[simp] theorem showRest_sizes (n : ℕ) (s : State) : (showRest n s).sizes = s.sizes := by
  unfold showRest
  simp

@[simp] theorem execTevPulseEnd_sizes (t : Time) (pin : Fin 16) (s0 : State) : osizes (tick t s0).sizes (execTevPulseEnd t pin s0) = (tick t s0).sizes := by
  unfold execTevPulseEnd
  simp
  repeat' (first | (simp; done) | (split <;> simp_all <;> done) | split)

@[simp] theorem syncNow_sizes (gs : List ℕ) (ts : Time) (s : State) : (syncNow gs ts s).sizes = s.sizes := by
  unfold syncNow
  rw [foldl_sizes]
  intro a x
  simp only []
  split <;> simp

@[simp] theorem releaseArmed_sizes (cs : List ℕ) (s : State) : (releaseArmed cs s).sizes = s.sizes := by
  unfold releaseArmed
  simp

@[simp] theorem startWeaves_sizes (cs : List ℕ) (ts : Time) (s : State) : (startWeaves cs ts s).2.sizes = s.sizes := by
  unfold startWeaves
  simp
  repeat' (first | (simp; done) | (split <;> simp_all <;> done) | split)

@[simp] theorem applyKind_sizes (a : SlotArm) (k : ℕ) (f : ℕ) (late : Bool) (s : State) : (applyKind a k f late s).2.sizes = s.sizes := by
  unfold applyKind
  repeat' split
  all_goals simp

@[simp] theorem slotDone_sizes (i : ℕ) (a : SlotArm) (f : ℕ) (s : State) : (slotDone i a f s).sizes = s.sizes := by
  unfold slotDone
  simp

@[simp] theorem fireOcc_sizes (i : ℕ) (a : SlotArm) (late : Bool) (s : State) : (fireOcc i a late s).sizes = s.sizes := by
  unfold fireOcc
  simp

@[simp] theorem fireThrough_sizes (a : ℕ) (x1 : Option ℕ) (x2 : State) : (fireThrough a x1 x2).sizes = x2.sizes := by
  induction a generalizing x2 with
  | zero => rfl
  | succ n ih =>
    unfold fireThrough
    repeat' (first | rfl | (simp [ih]; done) | split)

@[simp] theorem fireBefore_sizes (a : ℕ) (x1 : State) : (fireBefore a x1).sizes = x1.sizes := by
  induction a generalizing x1 with
  | zero => rfl
  | succ n ih =>
    unfold fireBefore
    repeat' (first | rfl | (simp [ih]; done) | split)

@[simp] theorem execActionFire_sizes (t : Time) (slot : Fin 64) (s0 : State) : osizes (tick t s0).sizes (execActionFire t slot s0) = (tick t s0).sizes := by
  unfold execActionFire
  simp
  repeat' (first | (simp; done) | (split <;> simp_all <;> done) | split)

@[simp] theorem stepSlot_sizes (i : ℕ) (s : State) : (stepSlot i s).sizes = s.sizes := by
  unfold stepSlot
  split <;> simp

@[simp] theorem stepOnTime_sizes (i : ℕ) (s : State) : (stepOnTime i s).sizes = s.sizes := by
  unfold stepOnTime
  split <;> simp

@[simp] theorem stepSlots_sizes (s : State) : (stepSlots s).sizes = s.sizes := by
  unfold stepSlots
  rw [foldl_sizes]
  intro a x
  rw [foldl_sizes]
  intro b y
  repeat' (first | rfl | (simp; done) | split)

@[simp] theorem stepBy_sizes (delta : ℤ) (cause : StepCause) (origin : Option ℕ) (s0 : State) : (stepBy delta cause origin s0).sizes = s0.sizes := by
  unfold stepBy
  simp

@[simp] theorem stepPending_sizes (s : State) : (stepPending s).sizes = s.sizes := by
  unfold stepPending
  split <;> simp

@[simp] theorem execTimebaseStep_sizes (t : Time) (s0 : State) : osizes (tick t s0).sizes (execTimebaseStep t s0) = (tick t s0).sizes := by
  unfold execTimebaseStep
  simp

@[simp] theorem ownTimeSet_sizes (rq : Request) (s : State) : (ownTimeSet rq s).st.sizes = s.sizes := by
  unfold ownTimeSet
  simp

@[simp] theorem execTimeSet_sizes (t : Time) (rq : Request) (s : State) : osizes (tick t s).sizes (execTimeSet t rq s) = (tick t s).sizes := by
  unfold execTimeSet
  simp

@[simp] theorem ownTimeStepAccept_sizes (rq : Request) (s : State) : (ownTimeStepAccept rq s).st.sizes = s.sizes := by
  unfold ownTimeStepAccept
  simp
  repeat' (first | (simp; done) | (split <;> simp_all <;> done) | split)

@[simp] theorem execTimeStepAccept_sizes (t : Time) (rq : Request) (s : State) : osizes (tick t s).sizes (execTimeStepAccept t rq s) = (tick t s).sizes := by
  unfold execTimeStepAccept
  simp

@[simp] theorem execPpsOutPulse_sizes (t : Time) (s0 : State) : osizes (tick t s0).sizes (execPpsOutPulse t s0) = (tick t s0).sizes := by
  unfold execPpsOutPulse
  simp
  repeat' (first | (simp; done) | (split <;> simp_all <;> done) | split)

@[simp] theorem execPpsPulseEnd_sizes (t : Time) (s0 : State) : osizes (tick t s0).sizes (execPpsPulseEnd t s0) = (tick t s0).sizes := by
  unfold execPpsPulseEnd
  simp
  repeat' (first | (simp; done) | (split <;> simp_all <;> done) | split)

@[simp] theorem execTcapEdge_sizes (t : Time) (input : Fin 8) (falling : Bool) (pulse : ℕ) (s0 : State) : osizes (tick t s0).sizes (execTcapEdge t input falling pulse s0) = (tick t s0).sizes := by
  unfold execTcapEdge
  simp

@[simp] theorem ownTactArm_sizes (rq : Request) (s : State) : (ownTactArm rq s).st.sizes = s.sizes := by
  unfold ownTactArm
  simp
  repeat' (first | (simp; done) | (split <;> simp_all <;> done) | split)

@[simp] theorem execTactArm_sizes (t : Time) (rq : Request) (s : State) : osizes (tick t s).sizes (execTactArm t rq s) = (tick t s).sizes := by
  unfold execTactArm
  simp

@[simp] theorem ownTactCancel_sizes (rq : Request) (s0 : State) : (ownTactCancel rq s0).st.sizes = s0.sizes := by
  unfold ownTactCancel
  simp
  repeat' (first | (simp; done) | (split <;> simp_all <;> done) | split)

@[simp] theorem execTactCancel_sizes (t : Time) (rq : Request) (s : State) : osizes (tick t s).sizes (execTactCancel t rq s) = (tick t s).sizes := by
  unfold execTactCancel
  simp

@[simp] theorem ownTactStatus_sizes (rq : Request) (s0 : State) : (ownTactStatus rq s0).st.sizes = s0.sizes := by
  unfold ownTactStatus
  simp

@[simp] theorem execTactStatus_sizes (t : Time) (rq : Request) (s : State) : osizes (tick t s).sizes (execTactStatus t rq s) = (tick t s).sizes := by
  unfold execTactStatus
  simp

@[simp] theorem ownTactConfigPin_sizes (rq : Request) (s : State) : (ownTactConfigPin rq s).st.sizes = s.sizes := by
  unfold ownTactConfigPin
  simp

@[simp] theorem execTactConfigPin_sizes (t : Time) (rq : Request) (s : State) : osizes (tick t s).sizes (execTactConfigPin t rq s) = (tick t s).sizes := by
  unfold execTactConfigPin
  simp

@[simp] theorem ownTactConfigPps_sizes (rq : Request) (s : State) : (ownTactConfigPps rq s).st.sizes = s.sizes := by
  unfold ownTactConfigPps
  simp

@[simp] theorem execTactConfigPps_sizes (t : Time) (rq : Request) (s : State) : osizes (tick t s).sizes (execTactConfigPps t rq s) = (tick t s).sizes := by
  unfold execTactConfigPps
  simp

@[simp] theorem ownTactConfigCapture_sizes (rq : Request) (s : State) : (ownTactConfigCapture rq s).st.sizes = s.sizes := by
  unfold ownTactConfigCapture
  simp

@[simp] theorem execTactConfigCapture_sizes (t : Time) (rq : Request) (s : State) : osizes (tick t s).sizes (execTactConfigCapture t rq s) = (tick t s).sizes := by
  unfold execTactConfigCapture
  simp

@[simp] theorem ownTactReadCapture_sizes (rq : Request) (s : State) : (ownTactReadCapture rq s).st.sizes = s.sizes := by
  unfold ownTactReadCapture
  simp

@[simp] theorem execTactReadCapture_sizes (t : Time) (rq : Request) (s : State) : osizes (tick t s).sizes (execTactReadCapture t rq s) = (tick t s).sizes := by
  unfold execTactReadCapture
  simp

end Sys2Proof.Machine
end

