-- ==== Sys2Proof/Laws/KeepHost.lean ====
section
/-! SUPPORT. What the operations of Start, Mgmt, Host keep: one lemma each for `State.kept` and for `State.sizes`. -/

set_option maxRecDepth 4000

namespace Sys2Proof.Machine

/-! ### Start -/

@[simp] theorem execPowerOnReset_kept (t : Time) (s0 : State) : okept (tick t s0).kept (execPowerOnReset t s0) = (tick t s0).kept := by
  unfold execPowerOnReset
  simp

@[simp] theorem execResetNAssert_kept (t : Time) (lowNs : ℕ) (s0 : State) : okept (tick t s0).kept (execResetNAssert t lowNs s0) = (tick t s0).kept := by
  unfold execResetNAssert
  split <;> simp

@[simp] theorem execResetNRelease_kept (t : Time) (railsOk : Bool) (s0 : State) : okept (tick t s0).kept (execResetNRelease t railsOk s0) = (tick t s0).kept := by
  unfold execResetNRelease
  simp

@[simp] theorem execSupplyRelease_kept (t : Time) (s0 : State) : okept (tick t s0).kept (execSupplyRelease t s0) = (tick t s0).kept := by
  unfold execSupplyRelease
  simp

@[simp] theorem execSagWarning_kept (t : Time) (rail : Fin 8) (s0 : State) : okept (tick t s0).kept (execSagWarning t rail s0) = (tick t s0).kept := by
  unfold execSagWarning
  simp

@[simp] theorem storeQueue_kept (s : State) : (storeQueue s).kept = s.kept := by
  unfold storeQueue
  simp

@[simp] theorem execSagWarningClear_kept (t : Time) (s0 : State) : okept (tick t s0).kept (execSagWarningClear t s0) = (tick t s0).kept := by
  unfold execSagWarningClear
  simp

@[simp] theorem execSagCommandTimeout_kept (t : Time) (s0 : State) : okept (tick t s0).kept (execSagCommandTimeout t s0) = (tick t s0).kept := by
  unfold execSagCommandTimeout
  simp

@[simp] theorem execSagReset_kept (t : Time) (rails : BitVec 8) (s0 : State) : okept (tick t s0).kept (execSagReset t rails s0) = (tick t s0).kept := by
  unfold execSagReset
  simp

@[simp] theorem qualifyRefs_kept (env : StartEnv) (s : State) : (qualifyRefs env s).kept = s.kept := by
  unfold qualifyRefs
  simp

@[simp] theorem startPlls_kept (s : State) : (startPlls s).kept = s.kept := by
  unfold startPlls
  simp

@[simp] theorem confirmVctl_kept (ok : Bool) (s : State) : (confirmVctl ok s).kept = s.kept := by
  unfold confirmVctl
  simp

@[simp] theorem strapRole_kept (straps : BitVec 2) (s : State) : (strapRole straps s).kept = s.kept := by
  unfold strapRole
  repeat' split
  all_goals simp

@[simp] theorem repairMaps_kept (s : State) : (repairMaps s).kept = s.kept := by
  unfold repairMaps
  simp

@[simp] theorem runIslands_kept (l : List Island) (s : State) : (runIslands l s).kept = s.kept := by
  unfold runIslands
  simp

@[simp] theorem execColdStartRelease_kept (t : Time) (env : StartEnv) (s0 : State) : okept (tick t s0).kept (execColdStartRelease t env s0) = (tick t s0).kept := by
  unfold execColdStartRelease
  simp

@[simp] theorem execBasinInitDone_kept (t : Time) (s0 : State) : okept (tick t s0).kept (execBasinInitDone t s0) = (tick t s0).kept := by
  unfold execBasinInitDone
  simp

@[simp] theorem resolveJournal_kept (s : State) : (resolveJournal s).kept = s.kept := by
  unfold resolveJournal
  simp

@[simp] theorem recallFailed_kept (soft : Bool) (c : ℕ) (s : State) : (recallFailed soft c s).kept = s.kept := by
  unfold recallFailed
  simp

@[simp] theorem loadCal_kept (table : Bool) (s : State) : (loadCal table s).kept = s.kept := by
  unfold loadCal
  simp

@[simp] theorem startPlane_kept (s : State) : (startPlane s).kept = s.kept := by
  unfold startPlane
  simp

@[simp] theorem runImage_kept (n : ℕ) (x : FwSlot) (s : State) : (runImage n x s).kept = s.kept := by
  unfold runImage
  simp

@[simp] theorem execBootImageVerify_kept (t : Time) (sigA : Bool) (sigB : Bool) (s0 : State) : okept (tick t s0).kept (execBootImageVerify t sigA sigB s0) = (tick t s0).kept := by
  unfold execBootImageVerify
  simp

@[simp] theorem warmCut_kept (s0 : State) : (warmCut s0).kept = s0.kept := by
  unfold warmCut
  simp

@[simp] theorem execWarmReset_kept (t : Time) (env : StartEnv) (s0 : State) : okept (tick t s0).kept (execWarmReset t env s0) = (tick t s0).kept := by
  unfold execWarmReset
  simp

@[simp] theorem ownSysReset_kept (rq : Request) (s : State) : (ownSysReset rq s).st.kept = s.kept := by
  unfold ownSysReset
  simp

@[simp] theorem execSysReset_kept (t : Time) (rq : Request) (s : State) : okept (tick t s).kept (execSysReset t rq s) = (tick t s).kept := by
  unfold execSysReset
  simp

@[simp] theorem execPowerOnReset_sizes (t : Time) (s0 : State) (h : s0.sizes = partsList) : osizes partsList (execPowerOnReset t s0) = partsList := by
  have hn : s0.nv.refreshed.length = 7 := sizes_refreshed h
  unfold execPowerOnReset
  simp only [osizes_next, sizes_mk]
  rw [show (tick t s0).nv = s0.nv from rfl, hn]
  exact reset_sizes

@[simp] theorem execResetNAssert_sizes (t : Time) (lowNs : ℕ) (s0 : State) (h : s0.sizes = partsList) : osizes partsList (execResetNAssert t lowNs s0) = partsList := by
  have h1 : (tick t s0).sizes = partsList := h
  have e : (if 100 ≤ lowNs ∧ lowNs < 1000 then drawBool (tick t s0) else (decide (1000 ≤ lowNs), tick t s0)).2.sizes = partsList := by
    split <;> simp [h1]
  unfold execResetNAssert
  simp only []
  generalize (if 100 ≤ lowNs ∧ lowNs < 1000 then drawBool (tick t s0) else (decide (1000 ≤ lowNs), tick t s0)) = r at e ⊢
  split
  · exact e
  · rw [osizes_next, modAon_sizes, modPwr_sizes _ _ (by simp), powerCut_sizes _ e]

@[simp] theorem execResetNRelease_sizes (t : Time) (railsOk : Bool) (s0 : State) : osizes (tick t s0).sizes (execResetNRelease t railsOk s0) = (tick t s0).sizes := by
  unfold execResetNRelease
  simp

@[simp] theorem execSupplyRelease_sizes (t : Time) (s0 : State) : osizes (tick t s0).sizes (execSupplyRelease t s0) = (tick t s0).sizes := by
  unfold execSupplyRelease
  simp

@[simp] theorem execSagWarning_sizes (t : Time) (rail : Fin 8) (s0 : State) : osizes (tick t s0).sizes (execSagWarning t rail s0) = (tick t s0).sizes := by
  unfold execSagWarning
  simp

@[simp] theorem storeQueue_sizes (s : State) : (storeQueue s).sizes = s.sizes := by
  unfold storeQueue
  simp

@[simp] theorem execSagWarningClear_sizes (t : Time) (s0 : State) : osizes (tick t s0).sizes (execSagWarningClear t s0) = (tick t s0).sizes := by
  unfold execSagWarningClear
  simp

@[simp] theorem execSagCommandTimeout_sizes (t : Time) (s0 : State) : osizes (tick t s0).sizes (execSagCommandTimeout t s0) = (tick t s0).sizes := by
  unfold execSagCommandTimeout
  simp

@[simp] theorem execSagReset_sizes (t : Time) (rails : BitVec 8) (s0 : State) (h : s0.sizes = partsList) : osizes partsList (execSagReset t rails s0) = partsList := by
  have h1 : (tick t s0).sizes = partsList := h
  unfold execSagReset
  simp only []
  generalize (if (tick t s0).pwr.state == .hibernate then rails &&& 0x10#8 else rails) = r
  split
  · simp [h1]
  · rw [osizes_next, modAon_sizes, modPwr_sizes _ _ (by simp), powerCut_sizes _ h1]

@[simp] theorem qualifyRefs_sizes (env : StartEnv) (s : State) : (qualifyRefs env s).sizes = s.sizes := by
  unfold qualifyRefs
  simp

@[simp] theorem startPlls_sizes (s : State) : (startPlls s).sizes = s.sizes := by
  unfold startPlls
  simp

@[simp] theorem confirmVctl_sizes (ok : Bool) (s : State) : (confirmVctl ok s).sizes = s.sizes := by
  unfold confirmVctl
  simp

@[simp] theorem strapRole_sizes (straps : BitVec 2) (s : State) : (strapRole straps s).sizes = s.sizes := by
  unfold strapRole
  repeat' split
  all_goals simp

@[simp] theorem repairMaps_sizes (s : State) : (repairMaps s).sizes = s.sizes := by
  unfold repairMaps
  simp

@[simp] theorem runIslands_sizes (l : List Island) (s : State) : (runIslands l s).sizes = s.sizes := by
  unfold runIslands
  simp

@[simp] theorem execColdStartRelease_sizes (t : Time) (env : StartEnv) (s0 : State) (h : s0.sizes = partsList) : osizes partsList (execColdStartRelease t env s0) = partsList := by
  have h1 : (tick t s0).sizes = partsList := h
  unfold execColdStartRelease
  simp only []
  split
  · simp [h1]
  · rw [osizes_next, strapRole_sizes, confirmVctl_sizes, startPlls_sizes, qualifyRefs_sizes, repairMaps_sizes, runIslands_sizes,
      modAon_sizes, modTime_sizes _ _ (by simp) (by simp) (by simp) (by simp), coarseNow_sizes]
    have e := sizes_line (tick t s0) (tick t s0).fuses.laneCap h1
    simpa using e

@[simp] theorem execBasinInitDone_sizes (t : Time) (s0 : State) : osizes (tick t s0).sizes (execBasinInitDone t s0) = (tick t s0).sizes := by
  unfold execBasinInitDone
  simp

@[simp] theorem resolveJournal_sizes (s : State) : (resolveJournal s).sizes = s.sizes := by
  unfold resolveJournal
  simp

@[simp] theorem recallFailed_sizes (soft : Bool) (c : ℕ) (s : State) : (recallFailed soft c s).sizes = s.sizes := by
  unfold recallFailed
  simp

@[simp] theorem loadCal_sizes (table : Bool) (s : State) : (loadCal table s).sizes = s.sizes := by
  unfold loadCal
  simp

@[simp] theorem startPlane_sizes (s : State) : (startPlane s).sizes = s.sizes := by
  unfold startPlane
  simp

@[simp] theorem runImage_sizes (n : ℕ) (x : FwSlot) (s : State) : (runImage n x s).sizes = s.sizes := by
  unfold runImage
  simp

@[simp] theorem execBootImageVerify_sizes (t : Time) (sigA : Bool) (sigB : Bool) (s0 : State) : osizes (tick t s0).sizes (execBootImageVerify t sigA sigB s0) = (tick t s0).sizes := by
  unfold execBootImageVerify
  simp

@[simp] theorem warmCut_sizes (s0 : State) (h : s0.sizes = partsList) : (warmCut s0).sizes = partsList := by
  have hx : (basinDown (dropStaged s0)).sizes = partsList := by rw [basinDown_sizes, dropStaged_sizes, h]
  have hl : ∀ b, (Reset.line b).lanes.map List.length ++ (Reset.line b).slots.map List.length = [8, 8, 64, 64] := by intro b; cases b <;> decide +kernel
  unfold warmCut
  generalize basinDown (dropStaged s0) = x at hx
  have g : ∀ i j, (x.sizes.getD i []).getD j 0 = (partsList.getD i []).getD j 0 := by intro i j; rw [hx]
  have g0 : x.islands.length = 21 := g 0 0
  have g2 : x.mems.length = 3 := g 0 2
  have gd : x.host.dma.length = 16 := g 1 1
  have gt : x.time.dom.length = 2 := g 2 0
  have ga : x.time.asym.length = 5 := g 2 1
  have gs : x.tact.slots.length = 64 := g 3 0
  have gv : x.tact.tev.length = 16 := g 3 1
  have gc : x.tact.tcap.length = 8 := g 3 2
  have gp : x.pwr.currents.length = 8 := g 5 0
  have gl : x.clk.plls.length = 14 := g 6 0
  have gb : x.basin.segs.length = 1024 := g 11 0
  have gn : x.nv.refreshed.length = 7 := g 12 0
  simp only [State.sizes, hl, List.length_map, List.length_mapIdx, List.length_set, g0, g2, gd, gt, ga, gs, gv, gc, gp, gl, gb, gn]
  rfl

@[simp] theorem execWarmReset_sizes (t : Time) (env : StartEnv) (s0 : State) (h : s0.sizes = partsList) : osizes partsList (execWarmReset t env s0) = partsList := by
  have h1 : (tick t s0).sizes = partsList := h
  unfold execWarmReset
  simp only []
  split
  · simp [h1]
  · rw [osizes_next, strapRole_sizes, confirmVctl_sizes, basinUp_sizes, runIslands_sizes, warmCut_sizes _ h1]

@[simp] theorem ownSysReset_sizes (rq : Request) (s : State) : (ownSysReset rq s).st.sizes = s.sizes := by
  unfold ownSysReset
  simp

@[simp] theorem execSysReset_sizes (t : Time) (rq : Request) (s : State) : osizes (tick t s).sizes (execSysReset t rq s) = (tick t s).sizes := by
  unfold execSysReset
  simp

/-! ### Mgmt -/

@[simp] theorem modMgmt_kept (f : MgmtSt → MgmtSt) (s : State) : (modMgmt f s).kept = s.kept := by
  unfold modMgmt
  simp

@[simp] theorem modPair_kept (n : ℕ) (f : Pair → Pair) (s : State) : (modPair n f s).kept = s.kept := by
  unfold modPair
  simp

@[simp] theorem ptpLost_kept (d : ℕ) (s : State) : (ptpLost d s).kept = s.kept := by
  unfold ptpLost
  split <;> simp

@[simp] theorem activeFails_kept (cause : ℕ) (s0 : State) : (activeFails cause s0).kept = s0.kept := by
  unfold activeFails
  simp

@[simp] theorem pairFails_kept (standby : Bool) (cause : ℕ) (s : State) : (pairFails standby cause s).kept = s.kept := by
  unfold pairFails
  simp

@[simp] theorem execMgmtFault_kept (t : Time) (standbyPair : Bool) (fetch : Bool) (s : State) : okept (tick t s).kept (execMgmtFault t standbyPair fetch s) = (tick t s).kept := by
  unfold execMgmtFault
  simp

@[simp] theorem execWatchdogExpiry_kept (t : Time) (standbyPair : Bool) (s : State) : okept (tick t s).kept (execWatchdogExpiry t standbyPair s) = (tick t s).kept := by
  unfold execWatchdogExpiry
  simp

@[simp] theorem journalRestart_kept (k : ℕ) (a : Agent) (src : BitVec 16) (seq : BitVec 32) (s : State) : (journalRestart k a src seq s).kept = s.kept := by
  unfold journalRestart
  simp

@[simp] theorem interrupt_kept (open_ : List OpenStep) (r : Running) (s : State) : (interrupt open_ r s).kept = s.kept := by
  unfold interrupt
  repeat' split
  all_goals simp

@[simp] theorem interruptRemote_kept (p : RemotePending) (s : State) : (interruptRemote p s).kept = s.kept := by
  unfold interruptRemote
  simp

@[simp] theorem restartEnds_kept (open_ : List OpenStep) (s : State) : (restartEnds open_ s).kept = s.kept := by
  unfold restartEnds
  simp
  repeat' (first | (simp; done) | (split <;> simp_all <;> done) | split)

@[simp] theorem execMgmtTakeover_kept (t : Time) (openSteps : List OpenStep) (s0 : State) : okept (tick t s0).kept (execMgmtTakeover t openSteps s0) = (tick t s0).kept := by
  unfold execMgmtTakeover
  simp

@[simp] theorem execStandbyReady_kept (t : Time) (pairB : Bool) (selfTestOk : Bool) (s0 : State) : okept (tick t s0).kept (execStandbyReady t pairB selfTestOk s0) = (tick t s0).kept := by
  unfold execStandbyReady
  simp

@[simp] theorem execMgmtRestartAttempt_kept (t : Time) (pairB : Bool) (s0 : State) : okept (tick t s0).kept (execMgmtRestartAttempt t pairB s0) = (tick t s0).kept := by
  unfold execMgmtRestartAttempt
  simp

@[simp] theorem ownSysLoadFirmware_kept (rq : Request) (s : State) : (ownSysLoadFirmware rq s).st.kept = s.kept := by
  unfold ownSysLoadFirmware
  simp

@[simp] theorem storeFirmware_kept (img : FwImage) (s : State) : (storeFirmware img s).kept = s.kept := by
  unfold storeFirmware
  simp

@[simp] theorem restartOnto_kept (s : State) : (restartOnto s).kept = s.kept := by
  unfold restartOnto
  simp

@[simp] theorem firmwareFetched_kept (rq : Request) (img : FwImage) (s : State) : (firmwareFetched rq img s).kept = s.kept := by
  unfold firmwareFetched
  simp

@[simp] theorem execSysLoadFirmware_kept (t : Time) (rq : Request) (img : FwImage) (s : State) : okept (tick t s).kept (execSysLoadFirmware t rq img s) = (tick t s).kept := by
  unfold execSysLoadFirmware
  simp

@[simp] theorem modMgmt_sizes (f : MgmtSt → MgmtSt) (s : State) : (modMgmt f s).sizes = s.sizes := by
  unfold modMgmt
  simp

@[simp] theorem modPair_sizes (n : ℕ) (f : Pair → Pair) (s : State) : (modPair n f s).sizes = s.sizes := by
  unfold modPair
  simp

@[simp] theorem ptpLost_sizes (d : ℕ) (s : State) : (ptpLost d s).sizes = s.sizes := by
  unfold ptpLost
  split <;> simp

@[simp] theorem activeFails_sizes (cause : ℕ) (s0 : State) : (activeFails cause s0).sizes = s0.sizes := by
  unfold activeFails
  simp

@[simp] theorem pairFails_sizes (standby : Bool) (cause : ℕ) (s : State) : (pairFails standby cause s).sizes = s.sizes := by
  unfold pairFails
  simp

@[simp] theorem execMgmtFault_sizes (t : Time) (standbyPair : Bool) (fetch : Bool) (s : State) : osizes (tick t s).sizes (execMgmtFault t standbyPair fetch s) = (tick t s).sizes := by
  unfold execMgmtFault
  simp

@[simp] theorem execWatchdogExpiry_sizes (t : Time) (standbyPair : Bool) (s : State) : osizes (tick t s).sizes (execWatchdogExpiry t standbyPair s) = (tick t s).sizes := by
  unfold execWatchdogExpiry
  simp

@[simp] theorem journalRestart_sizes (k : ℕ) (a : Agent) (src : BitVec 16) (seq : BitVec 32) (s : State) : (journalRestart k a src seq s).sizes = s.sizes := by
  unfold journalRestart
  simp

@[simp] theorem interrupt_sizes (open_ : List OpenStep) (r : Running) (s : State) : (interrupt open_ r s).sizes = s.sizes := by
  unfold interrupt
  repeat' split
  all_goals simp

@[simp] theorem interruptRemote_sizes (p : RemotePending) (s : State) : (interruptRemote p s).sizes = s.sizes := by
  unfold interruptRemote
  simp

@[simp] theorem restartEnds_sizes (open_ : List OpenStep) (s : State) : (restartEnds open_ s).sizes = s.sizes := by
  unfold restartEnds
  extract_lets rs ps s1 s2 s3 s4 s5
  have h1 : s1.sizes = s.sizes := by simp [s1]
  have h2 : s2.sizes = s.sizes := by simp [s2, h1]
  have h3 : s3.sizes = s.sizes := by
    simp only [s3]
    split
    · split <;> simp [h2]
    · exact h2
  have h4 : s4.sizes = s.sizes := by simp [s4, h3]
  have h5 : s5.sizes = s.sizes := by
    simp only [s5]
    rw [modBasin_sizes _ _ (by simp), dropStaged_sizes]
    rw [← h4]
    simp only [State.sizes, List.length_map]
  rw [abandonAll_sizes, checkLinks_sizes, sizes_diag]
  · rw [modCfg_sizes, h5]
  · simp only [List.length_map]
    rfl

@[simp] theorem execMgmtTakeover_sizes (t : Time) (openSteps : List OpenStep) (s0 : State) : osizes (tick t s0).sizes (execMgmtTakeover t openSteps s0) = (tick t s0).sizes := by
  unfold execMgmtTakeover
  simp

@[simp] theorem execStandbyReady_sizes (t : Time) (pairB : Bool) (selfTestOk : Bool) (s0 : State) : osizes (tick t s0).sizes (execStandbyReady t pairB selfTestOk s0) = (tick t s0).sizes := by
  unfold execStandbyReady
  simp

@[simp] theorem execMgmtRestartAttempt_sizes (t : Time) (pairB : Bool) (s0 : State) : osizes (tick t s0).sizes (execMgmtRestartAttempt t pairB s0) = (tick t s0).sizes := by
  unfold execMgmtRestartAttempt
  simp

@[simp] theorem execRollbackAdvance_sizes (t : Time) (s0 : State) : osizes (tick t s0).sizes (execRollbackAdvance t s0) = (tick t s0).sizes := by
  unfold execRollbackAdvance
  simp

@[simp] theorem ownSysLoadFirmware_sizes (rq : Request) (s : State) : (ownSysLoadFirmware rq s).st.sizes = s.sizes := by
  unfold ownSysLoadFirmware
  simp

@[simp] theorem storeFirmware_sizes (img : FwImage) (s : State) : (storeFirmware img s).sizes = s.sizes := by
  unfold storeFirmware
  simp

@[simp] theorem restartOnto_sizes (s : State) : (restartOnto s).sizes = s.sizes := by
  unfold restartOnto
  simp

@[simp] theorem firmwareFetched_sizes (rq : Request) (img : FwImage) (s : State) : (firmwareFetched rq img s).sizes = s.sizes := by
  unfold firmwareFetched
  simp

@[simp] theorem execSysLoadFirmware_sizes (t : Time) (rq : Request) (img : FwImage) (s : State) : osizes (tick t s).sizes (execSysLoadFirmware t rq img s) = (tick t s).sizes := by
  unfold execSysLoadFirmware
  simp

/-! ### Host -/

@[simp] theorem protoErr_kept (s : State) : (protoErr s).kept = s.kept := by
  unfold protoErr
  simp

@[simp] theorem clearInt_kept (v : BitVec 32) (s : State) : (clearInt v s).kept = s.kept := by
  unfold clearInt
  simp

@[simp] theorem clearNmi_kept (v : BitVec 32) (s : State) : (clearNmi v s).kept = s.kept := by
  unfold clearNmi
  simp

@[simp] theorem clearSagSeen_kept (v : BitVec 32) (s : State) : (clearSagSeen v s).kept = s.kept := by
  unfold clearSagSeen
  simp

@[simp] theorem setHead_kept (v : BitVec 32) (s : State) : (setHead v s).kept = s.kept := by
  unfold setHead
  simp

@[simp] theorem setEvqCtrl_kept (v : BitVec 32) (s : State) : (setEvqCtrl v s).kept = s.kept := by
  unfold setEvqCtrl
  simp

@[simp] theorem writeEvq_kept (off : ℕ) (v : BitVec 32) (s : State) : (writeEvq off v s).kept = s.kept := by
  unfold writeEvq
  split <;> simp

@[simp] theorem writeDma_kept (c : ℕ) (off : ℕ) (v : BitVec 32) (s : State) : (writeDma c off v s).kept = s.kept := by
  unfold writeDma
  split <;> simp

@[simp] theorem writeMbox_kept (n : ℕ) (off : ℕ) (v : BitVec 32) (s : State) : (writeMbox n off v s).kept = s.kept := by
  unfold writeMbox
  split <;> simp

@[simp] theorem ring_kept (n : ℕ) (v : BitVec 32) (viaSpi : Bool) (s : State) : (ring n v viaSpi s).kept = s.kept := by
  unfold ring
  simp

@[simp] theorem writeReg_kept (viaSpi : Bool) (off : ℕ) (v : BitVec 32) (s : State) : (writeReg viaSpi off v s).kept = s.kept := by
  unfold writeReg
  simp

@[simp] theorem hostDo_kept (t : Time) (f : State → State) (s0 : State) (h_f : ∀ y0, (f y0).kept = y0.kept) : okept (tick t s0).kept (hostDo t f s0) = (tick t s0).kept := by
  unfold hostDo
  simp only []
  split <;> simp [h_f]

@[simp] theorem execDoorbell_kept (t : Time) (n : Fin 16) (value : BitVec 32) (viaSpi : Bool) (s : State) : okept (tick t s).kept (execDoorbell t n value viaSpi s) = (tick t s).kept := by
  unfold execDoorbell
  simp

@[simp] theorem execRegisterWrite_kept (t : Time) (offset : ℕ) (value : BitVec 32) (s : State) : okept (tick t s).kept (execRegisterWrite t offset value s) = (tick t s).kept := by
  unfold execRegisterWrite
  simp

@[simp] theorem execBar0InvalidAccess_kept (t : Time) (s : State) : okept (tick t s).kept (execBar0InvalidAccess t s) = (tick t s).kept := by
  unfold execBar0InvalidAccess
  simp

@[simp] theorem execProtoErrRead_kept (t : Time) (s : State) : okept (tick t s).kept (execProtoErrRead t s) = (tick t s).kept := by
  unfold execProtoErrRead
  simp

@[simp] theorem execEvqLostRead_kept (t : Time) (s : State) : okept (tick t s).kept (execEvqLostRead t s) = (tick t s).kept := by
  unfold execEvqLostRead
  simp

@[simp] theorem execIntStatusClear_kept (t : Time) (mask : BitVec 32) (s : State) : okept (tick t s).kept (execIntStatusClear t mask s) = (tick t s).kept := by
  unfold execIntStatusClear
  simp

@[simp] theorem execNmiCauseClear_kept (t : Time) (mask : BitVec 32) (s : State) : okept (tick t s).kept (execNmiCauseClear t mask s) = (tick t s).kept := by
  unfold execNmiCauseClear
  simp

@[simp] theorem execSagSeenClear_kept (t : Time) (mask : BitVec 32) (s : State) : okept (tick t s).kept (execSagSeenClear t mask s) = (tick t s).kept := by
  unfold execSagSeenClear
  simp

@[simp] theorem dropHeld_kept (bad : List ℕ) (s : State) : (dropHeld bad s).kept = s.kept := by
  unfold dropHeld
  simp

@[simp] theorem execEvqHeadWrite_kept (t : Time) (value : BitVec 32) (bad : List ℕ) (s : State) : okept (tick t s).kept (execEvqHeadWrite t value bad s) = (tick t s).kept := by
  unfold execEvqHeadWrite
  simp

@[simp] theorem execEvqModTimer_kept (t : Time) (s : State) : okept (tick t s).kept (execEvqModTimer t s) = (tick t s).kept := by
  unfold execEvqModTimer
  rw [hostDo_kept]
  intro y
  simp only []
  repeat' (first | rfl | (simp; done) | split)

@[simp] theorem execBar2Read_kept (t : Time) (word : Fin 67108864) (s : State) : okept (tick t s).kept (execBar2Read t word s) = (tick t s).kept := by
  unfold execBar2Read
  rw [hostDo_kept]
  intro y
  simp only []
  repeat' (first | rfl | (simp; done) | split)

@[simp] theorem execBar2Write_kept (t : Time) (s : State) : okept (tick t s).kept (execBar2Write t s) = (tick t s).kept := by
  unfold execBar2Write
  simp

@[simp] theorem spiFrame_kept (read : Bool) (off : ℕ) (v : BitVec 32) (s : State) : (spiFrame read off v s).1.kept = s.kept := by
  unfold spiFrame
  repeat' split
  all_goals simp

@[simp] theorem spiFrames_kept (read : Bool) (a : ℕ) (x2 : List (BitVec 32)) (x3 : State) : (spiFrames read a x2 x3).1.kept = x3.kept := by
  induction x2 generalizing a x3 with
  | nil => rfl
  | cons v l ih => simp [spiFrames, ih]

@[simp] theorem execSpiTransaction_kept (t : Time) (cmd : BitVec 32) (data : List (BitVec 32)) (s : State) : okept (tick t s).kept (execSpiTransaction t cmd data s) = (tick t s).kept := by
  unfold execSpiTransaction
  rw [hostDo_kept]
  intro y
  simp

@[simp] theorem execHostReset_kept (t : Time) (s0 : State) : okept (tick t s0).kept (execHostReset t s0) = (tick t s0).kept := by
  unfold execHostReset
  simp

@[simp] theorem linkLost_kept (s : State) : (linkLost s).kept = s.kept := by
  unfold linkLost
  simp

@[simp] theorem msixFlush_kept (s : State) : (msixFlush s).kept = s.kept := by
  unfold msixFlush
  simp

@[simp] theorem execPcieLinkChange_kept (t : Time) (up : Bool) (s0 : State) : okept (tick t s0).kept (execPcieLinkChange t up s0) = (tick t s0).kept := by
  unfold execPcieLinkChange
  simp

@[simp] theorem protoErr_sizes (s : State) : (protoErr s).sizes = s.sizes := by
  unfold protoErr
  simp

@[simp] theorem clearInt_sizes (v : BitVec 32) (s : State) : (clearInt v s).sizes = s.sizes := by
  unfold clearInt
  simp

@[simp] theorem clearNmi_sizes (v : BitVec 32) (s : State) : (clearNmi v s).sizes = s.sizes := by
  unfold clearNmi
  simp

@[simp] theorem clearSagSeen_sizes (v : BitVec 32) (s : State) : (clearSagSeen v s).sizes = s.sizes := by
  unfold clearSagSeen
  simp

@[simp] theorem setHead_sizes (v : BitVec 32) (s : State) : (setHead v s).sizes = s.sizes := by
  unfold setHead
  simp

@[simp] theorem setEvqCtrl_sizes (v : BitVec 32) (s : State) : (setEvqCtrl v s).sizes = s.sizes := by
  unfold setEvqCtrl
  simp

@[simp] theorem writeEvq_sizes (off : ℕ) (v : BitVec 32) (s : State) : (writeEvq off v s).sizes = s.sizes := by
  unfold writeEvq
  split <;> simp

@[simp] theorem writeDma_sizes (c : ℕ) (off : ℕ) (v : BitVec 32) (s : State) : (writeDma c off v s).sizes = s.sizes := by
  unfold writeDma
  split <;> simp

@[simp] theorem writeMbox_sizes (n : ℕ) (off : ℕ) (v : BitVec 32) (s : State) : (writeMbox n off v s).sizes = s.sizes := by
  unfold writeMbox
  split <;> simp

@[simp] theorem ring_sizes (n : ℕ) (v : BitVec 32) (viaSpi : Bool) (s : State) : (ring n v viaSpi s).sizes = s.sizes := by
  unfold ring
  simp

@[simp] theorem writeReg_sizes (viaSpi : Bool) (off : ℕ) (v : BitVec 32) (s : State) : (writeReg viaSpi off v s).sizes = s.sizes := by
  unfold writeReg
  simp

@[simp] theorem hostDo_sizes (t : Time) (f : State → State) (s0 : State) (h_f : ∀ y0, (f y0).sizes = y0.sizes) : osizes (tick t s0).sizes (hostDo t f s0) = (tick t s0).sizes := by
  unfold hostDo
  simp only []
  split <;> simp [h_f]

@[simp] theorem execDoorbell_sizes (t : Time) (n : Fin 16) (value : BitVec 32) (viaSpi : Bool) (s : State) : osizes (tick t s).sizes (execDoorbell t n value viaSpi s) = (tick t s).sizes := by
  unfold execDoorbell
  simp

@[simp] theorem execRegisterWrite_sizes (t : Time) (offset : ℕ) (value : BitVec 32) (s : State) : osizes (tick t s).sizes (execRegisterWrite t offset value s) = (tick t s).sizes := by
  unfold execRegisterWrite
  simp

@[simp] theorem execBar0InvalidAccess_sizes (t : Time) (s : State) : osizes (tick t s).sizes (execBar0InvalidAccess t s) = (tick t s).sizes := by
  unfold execBar0InvalidAccess
  simp

@[simp] theorem execProtoErrRead_sizes (t : Time) (s : State) : osizes (tick t s).sizes (execProtoErrRead t s) = (tick t s).sizes := by
  unfold execProtoErrRead
  simp

@[simp] theorem execEvqLostRead_sizes (t : Time) (s : State) : osizes (tick t s).sizes (execEvqLostRead t s) = (tick t s).sizes := by
  unfold execEvqLostRead
  simp

@[simp] theorem execIntStatusClear_sizes (t : Time) (mask : BitVec 32) (s : State) : osizes (tick t s).sizes (execIntStatusClear t mask s) = (tick t s).sizes := by
  unfold execIntStatusClear
  simp

@[simp] theorem execNmiCauseClear_sizes (t : Time) (mask : BitVec 32) (s : State) : osizes (tick t s).sizes (execNmiCauseClear t mask s) = (tick t s).sizes := by
  unfold execNmiCauseClear
  simp

@[simp] theorem execSagSeenClear_sizes (t : Time) (mask : BitVec 32) (s : State) : osizes (tick t s).sizes (execSagSeenClear t mask s) = (tick t s).sizes := by
  unfold execSagSeenClear
  simp

@[simp] theorem dropHeld_sizes (bad : List ℕ) (s : State) : (dropHeld bad s).sizes = s.sizes := by
  unfold dropHeld
  simp

@[simp] theorem execEvqHeadWrite_sizes (t : Time) (value : BitVec 32) (bad : List ℕ) (s : State) : osizes (tick t s).sizes (execEvqHeadWrite t value bad s) = (tick t s).sizes := by
  unfold execEvqHeadWrite
  simp

@[simp] theorem execEvqModTimer_sizes (t : Time) (s : State) : osizes (tick t s).sizes (execEvqModTimer t s) = (tick t s).sizes := by
  unfold execEvqModTimer
  rw [hostDo_sizes]
  intro y
  simp only []
  repeat' (first | rfl | (simp; done) | split)

@[simp] theorem execBar2Read_sizes (t : Time) (word : Fin 67108864) (s : State) : osizes (tick t s).sizes (execBar2Read t word s) = (tick t s).sizes := by
  unfold execBar2Read
  rw [hostDo_sizes]
  intro y
  simp only []
  repeat' (first | rfl | (simp; done) | split)

@[simp] theorem execBar2Write_sizes (t : Time) (s : State) : osizes (tick t s).sizes (execBar2Write t s) = (tick t s).sizes := by
  unfold execBar2Write
  simp

@[simp] theorem spiFrame_sizes (read : Bool) (off : ℕ) (v : BitVec 32) (s : State) : (spiFrame read off v s).1.sizes = s.sizes := by
  unfold spiFrame
  repeat' split
  all_goals simp

@[simp] theorem spiFrames_sizes (read : Bool) (a : ℕ) (x2 : List (BitVec 32)) (x3 : State) : (spiFrames read a x2 x3).1.sizes = x3.sizes := by
  induction x2 generalizing a x3 with
  | nil => rfl
  | cons v l ih => simp [spiFrames, ih]

@[simp] theorem execSpiTransaction_sizes (t : Time) (cmd : BitVec 32) (data : List (BitVec 32)) (s : State) : osizes (tick t s).sizes (execSpiTransaction t cmd data s) = (tick t s).sizes := by
  unfold execSpiTransaction
  rw [hostDo_sizes]
  intro y
  simp

@[simp] theorem execHostReset_sizes (t : Time) (s0 : State) : osizes (tick t s0).sizes (execHostReset t s0) = (tick t s0).sizes := by
  unfold execHostReset
  simp

@[simp] theorem linkLost_sizes (s : State) : (linkLost s).sizes = s.sizes := by
  unfold linkLost
  simp

@[simp] theorem msixFlush_sizes (s : State) : (msixFlush s).sizes = s.sizes := by
  unfold msixFlush
  simp

@[simp] theorem execPcieLinkChange_sizes (t : Time) (up : Bool) (s0 : State) : osizes (tick t s0).sizes (execPcieLinkChange t up s0) = (tick t s0).sizes := by
  unfold execPcieLinkChange
  simp

end Sys2Proof.Machine
end

