-- ==== Sys2Proof/Laws/KeepStore.lean ====
section
/-! SUPPORT. What the operations of Store, Sys, Remote keep: one lemma each for `State.kept` and for `State.sizes`. -/

set_option maxRecDepth 4000

namespace Sys2Proof.Machine

/-! ### Store -/

@[simp] theorem modMem_kept (m : ℕ) (f : MemSt → MemSt) (s : State) : (modMem m f s).kept = s.kept := by
  unfold modMem
  simp

@[simp] theorem judgeWord_kept (a : List ℕ) (x1 : State) : (judgeWord a x1).2.kept = x1.kept := by
  induction a generalizing x1 with
  | nil => rfl
  | cons v l ih =>
    unfold judgeWord
    simp only [ih]
    split <;> simp

@[simp] theorem memEvent_kept (what : ℕ) (m : ℕ) (at_ : ℕ) (s : State) : (memEvent what m at_ s).kept = s.kept := by
  unfold memEvent
  simp

@[simp] theorem badWord_kept (m : ℕ) (n : ℕ) (s : State) : (badWord m n s).kept = s.kept := by
  unfold badWord
  simp
  repeat' (first | (simp; done) | (split <;> simp_all <;> done) | split)

@[simp] theorem freeSpare_kept (m : ℕ) (s : State) : (freeSpare m s).2.kept = s.kept := by
  unfold freeSpare
  simp
  repeat' (first | (simp; done) | (split <;> simp_all <;> done) | split)

@[simp] theorem hardFault_kept (m : ℕ) (n : ℕ) (s : State) : (hardFault m n s).kept = s.kept := by
  unfold hardFault
  simp only []
  split
  · simp
  · split
    · rename_i heq
      have h := freeSpare_kept m (memEvent 2 m (n / rowWords m) (modMem m (fun x => { x with hardWords := x.hardWords ++ [n / rowWords m] }) s))
      rw [heq] at h
      simpa using h
    · rename_i heq
      have h := freeSpare_kept m (memEvent 2 m (n / rowWords m) (modMem m (fun x => { x with hardWords := x.hardWords ++ [n / rowWords m] }) s))
      rw [heq] at h
      simpa using h

@[simp] theorem correctedWord_kept (m : ℕ) (n : ℕ) (s : State) : (correctedWord m n s).kept = s.kept := by
  unfold correctedWord
  simp

@[simp] theorem execScrubWord_kept (t : Time) (mem : Fin 3) (badBits : List ℕ) (tagOk : Bool) (s0 : State) : okept (tick t s0).kept (execScrubWord t mem badBits tagOk s0) = (tick t s0).kept := by
  unfold execScrubWord
  simp

@[simp] theorem execSoftRepairComplete_kept (t : Time) (mem : Fin 3) (row : ℕ) (s0 : State) : okept (tick t s0).kept (execSoftRepairComplete t mem row s0) = (tick t s0).kept := by
  unfold execSoftRepairComplete
  simp
  repeat' (first | (simp; done) | (split <;> simp_all <;> done) | split)

@[simp] theorem ownMemStatus_kept (x : Request) (s : State) : (ownMemStatus x s).st.kept = s.kept := by
  unfold ownMemStatus
  simp

@[simp] theorem execMemStatus_kept (t : Time) (rq : Request) (s : State) : okept (tick t s).kept (execMemStatus t rq s) = (tick t s).kept := by
  unfold execMemStatus
  simp

@[simp] theorem execNvWriteCountStore_kept (t : Time) (s0 : State) : okept (tick t s0).kept (execNvWriteCountStore t s0) = (tick t s0).kept := by
  unfold execNvWriteCountStore
  simp

@[simp] theorem refreshRegions_kept (rs : List ℕ) (s : State) : (refreshRegions rs s).kept = s.kept := by
  unfold refreshRegions
  simp

@[simp] theorem execNvRefreshCheck_kept (t : Time) (s0 : State) : okept (tick t s0).kept (execNvRefreshCheck t s0) = (tick t s0).kept := by
  unfold execNvRefreshCheck
  simp

@[simp] theorem ownNvsStatus_kept (x : Request) (s : State) : (ownNvsStatus x s).st.kept = s.kept := by
  unfold ownNvsStatus
  simp

@[simp] theorem execNvsStatus_kept (t : Time) (rq : Request) (s : State) : okept (tick t s).kept (execNvsStatus t rq s) = (tick t s).kept := by
  unfold execNvsStatus
  simp

@[simp] theorem ownNvsRefresh_kept (rq : Request) (s : State) : (ownNvsRefresh rq s).st.kept = s.kept := by
  unfold ownNvsRefresh
  simp

@[simp] theorem execNvsRefresh_kept (t : Time) (rq : Request) (s : State) : okept (tick t s).kept (execNvsRefresh t rq s) = (tick t s).kept := by
  unfold execNvsRefresh
  simp

@[simp] theorem ownFuseRead_kept (rq : Request) (s : State) : (ownFuseRead rq s).st.kept = s.kept := by
  unfold ownFuseRead
  simp

@[simp] theorem execFuseRead_kept (t : Time) (rq : Request) (s : State) : okept (tick t s).kept (execFuseRead t rq s) = (tick t s).kept := by
  unfold execFuseRead
  simp

@[simp] theorem ownLogConfig_kept (rq : Request) (s : State) : (ownLogConfig rq s).st.kept = s.kept := by
  unfold ownLogConfig
  simp

@[simp] theorem execLogConfig_kept (t : Time) (rq : Request) (s : State) : okept (tick t s).kept (execLogConfig t rq s) = (tick t s).kept := by
  unfold execLogConfig
  simp

@[simp] theorem drawWords_kept (a : ℕ) (x1 : State) : (drawWords a x1).2.kept = x1.kept := by
  induction a generalizing x1 with
  | zero => rfl
  | succ n ih => simp [drawWords, ih]

@[simp] theorem ownLogRead_kept (rq : Request) (s : State) : (ownLogRead rq s).st.kept = s.kept := by
  unfold ownLogRead
  simp

@[simp] theorem execLogRead_kept (t : Time) (rq : Request) (s : State) : okept (tick t s).kept (execLogRead t rq s) = (tick t s).kept := by
  unfold execLogRead
  simp

@[simp] theorem ownDiagLoopback_kept (rq : Request) (s : State) : (ownDiagLoopback rq s).st.kept = s.kept := by
  unfold ownDiagLoopback
  simp

@[simp] theorem execDiagLoopback_kept (t : Time) (rq : Request) (s : State) : okept (tick t s).kept (execDiagLoopback t rq s) = (tick t s).kept := by
  unfold execDiagLoopback
  simp

@[simp] theorem ownDiagSelftest_kept (rq : Request) (s : State) : (ownDiagSelftest rq s).st.kept = s.kept := by
  unfold ownDiagSelftest
  simp

@[simp] theorem execDiagSelftest_kept (t : Time) (rq : Request) (passed : Bool) (s : State) : okept (tick t s).kept (execDiagSelftest t rq passed s) = (tick t s).kept := by
  unfold execDiagSelftest
  simp

@[simp] theorem ownDiagCapture_kept (samples : List Word) (rq : Request) (s : State) : (ownDiagCapture samples rq s).st.kept = s.kept := by
  unfold ownDiagCapture
  simp

@[simp] theorem execDiagCapture_kept (t : Time) (rq : Request) (samples : List Word) (s : State) : okept (tick t s).kept (execDiagCapture t rq samples s) = (tick t s).kept := by
  unfold execDiagCapture
  simp

@[simp] theorem modMem_sizes (m : ℕ) (f : MemSt → MemSt) (s : State) : (modMem m f s).sizes = s.sizes := by
  unfold modMem
  simp

@[simp] theorem judgeWord_sizes (a : List ℕ) (x1 : State) : (judgeWord a x1).2.sizes = x1.sizes := by
  induction a generalizing x1 with
  | nil => rfl
  | cons v l ih =>
    unfold judgeWord
    simp only [ih]
    split <;> simp

@[simp] theorem memEvent_sizes (what : ℕ) (m : ℕ) (at_ : ℕ) (s : State) : (memEvent what m at_ s).sizes = s.sizes := by
  unfold memEvent
  simp

@[simp] theorem badWord_sizes (m : ℕ) (n : ℕ) (s : State) : (badWord m n s).sizes = s.sizes := by
  unfold badWord
  simp
  repeat' (first | (simp; done) | (split <;> simp_all <;> done) | split)

@[simp] theorem freeSpare_sizes (m : ℕ) (s : State) : (freeSpare m s).2.sizes = s.sizes := by
  unfold freeSpare
  simp
  repeat' (first | (simp; done) | (split <;> simp_all <;> done) | split)

@[simp] theorem hardFault_sizes (m : ℕ) (n : ℕ) (s : State) : (hardFault m n s).sizes = s.sizes := by
  unfold hardFault
  simp only []
  split
  · simp
  · split
    · rename_i heq
      have h := freeSpare_sizes m (memEvent 2 m (n / rowWords m) (modMem m (fun x => { x with hardWords := x.hardWords ++ [n / rowWords m] }) s))
      rw [heq] at h
      simpa using h
    · rename_i heq
      have h := freeSpare_sizes m (memEvent 2 m (n / rowWords m) (modMem m (fun x => { x with hardWords := x.hardWords ++ [n / rowWords m] }) s))
      rw [heq] at h
      simpa using h

@[simp] theorem correctedWord_sizes (m : ℕ) (n : ℕ) (s : State) : (correctedWord m n s).sizes = s.sizes := by
  unfold correctedWord
  simp

@[simp] theorem execScrubWord_sizes (t : Time) (mem : Fin 3) (badBits : List ℕ) (tagOk : Bool) (s0 : State) : osizes (tick t s0).sizes (execScrubWord t mem badBits tagOk s0) = (tick t s0).sizes := by
  unfold execScrubWord
  simp

@[simp] theorem execSoftRepairComplete_sizes (t : Time) (mem : Fin 3) (row : ℕ) (s0 : State) : osizes (tick t s0).sizes (execSoftRepairComplete t mem row s0) = (tick t s0).sizes := by
  unfold execSoftRepairComplete
  simp
  repeat' (first | (simp; done) | (split <;> simp_all <;> done) | split)

@[simp] theorem ownMemStatus_sizes (x : Request) (s : State) : (ownMemStatus x s).st.sizes = s.sizes := by
  unfold ownMemStatus
  simp

@[simp] theorem execMemStatus_sizes (t : Time) (rq : Request) (s : State) : osizes (tick t s).sizes (execMemStatus t rq s) = (tick t s).sizes := by
  unfold execMemStatus
  simp

@[simp] theorem ownMemCommitRepair_sizes (verified : Bool) (rq : Request) (s : State) : (ownMemCommitRepair verified rq s).st.sizes = s.sizes := by
  unfold ownMemCommitRepair
  simp

@[simp] theorem execMemCommitRepair_sizes (t : Time) (rq : Request) (verified : Bool) (s : State) : osizes (tick t s).sizes (execMemCommitRepair t rq verified s) = (tick t s).sizes := by
  unfold execMemCommitRepair
  simp

@[simp] theorem execNvWriteCountStore_sizes (t : Time) (s0 : State) : osizes (tick t s0).sizes (execNvWriteCountStore t s0) = (tick t s0).sizes := by
  unfold execNvWriteCountStore
  simp only []
  split
  · rfl
  · rfl

@[simp] theorem refreshRegions_sizes (rs : List ℕ) (s : State) : (refreshRegions rs s).sizes = s.sizes := by
  unfold refreshRegions
  simp

@[simp] theorem execNvRefreshCheck_sizes (t : Time) (s0 : State) : osizes (tick t s0).sizes (execNvRefreshCheck t s0) = (tick t s0).sizes := by
  unfold execNvRefreshCheck
  simp

@[simp] theorem ownNvsStatus_sizes (x : Request) (s : State) : (ownNvsStatus x s).st.sizes = s.sizes := by
  unfold ownNvsStatus
  simp

@[simp] theorem execNvsStatus_sizes (t : Time) (rq : Request) (s : State) : osizes (tick t s).sizes (execNvsStatus t rq s) = (tick t s).sizes := by
  unfold execNvsStatus
  simp

@[simp] theorem ownNvsRefresh_sizes (rq : Request) (s : State) : (ownNvsRefresh rq s).st.sizes = s.sizes := by
  unfold ownNvsRefresh
  simp

@[simp] theorem execNvsRefresh_sizes (t : Time) (rq : Request) (s : State) : osizes (tick t s).sizes (execNvsRefresh t rq s) = (tick t s).sizes := by
  unfold execNvsRefresh
  simp

@[simp] theorem ownFuseRead_sizes (rq : Request) (s : State) : (ownFuseRead rq s).st.sizes = s.sizes := by
  unfold ownFuseRead
  simp

@[simp] theorem execFuseRead_sizes (t : Time) (rq : Request) (s : State) : osizes (tick t s).sizes (execFuseRead t rq s) = (tick t s).sizes := by
  unfold execFuseRead
  simp

theorem blow_sizes (s : State) (code : Nat) (held : BitVec 384) : ({ s with fuses := blow code held s.fuses } : State).sizes = s.sizes := rfl
theorem shadow_sizes (s : State) (code : Nat) (held : BitVec 384) : ({ s with fuseShadow := blow code held s.fuseShadow } : State).sizes = s.sizes := rfl

@[simp] theorem fuseBlow_sizes (unblown : BitVec 384) (cut : Option (BitVec 384)) (code : ℕ) (val : BitVec 384) (s : State) : (fuseBlow unblown cut code val s).st.sizes = s.sizes := by
  unfold fuseBlow
  extract_lets held s1
  have h1 : s1.sizes = s.sizes := blow_sizes s code held
  split
  · exact h1
  · split
    · rw [show ∀ (n : Nat) (ws : List Word) (x : State), (okaySteps n ws x).st = x from fun _ _ _ => rfl]
      split
      · rw [shadow_sizes, h1]
      · exact h1
    · exact h1

theorem fuseBlow_guarded (c : List (Bool × BitVec 16)) (code : Nat) (v unblown : BitVec 384) (cut : Option (BitVec 384)) (s : State) (h : (fuseBlow unblown cut code v s).st.sizes = s.sizes) : (guarded c s (fun _ => fuseBlow unblown cut code v s)).st.sizes = s.sizes :=
  guarded_sizes _ _ _ h

@[simp] theorem ownFuseProgram_sizes (unblown : BitVec 384) (cut : Option (BitVec 384)) (rq : Request) (s : State) : (ownFuseProgram unblown cut rq s).st.sizes = s.sizes := by
  unfold ownFuseProgram
  rw [fuseBlow_guarded _ _ _ _ _ _ (fuseBlow_sizes unblown cut (fuseCode rq) (fuseBits rq) s)]

@[simp] theorem execFuseProgram_sizes (t : Time) (rq : Request) (unblown : BitVec 384) (cut : Option (BitVec 384)) (s : State) : osizes (tick t s).sizes (execFuseProgram t rq unblown cut s) = (tick t s).sizes := by
  unfold execFuseProgram
  simp

@[simp] theorem ownFuseLock_sizes (rq : Request) (s : State) : (ownFuseLock rq s).st.sizes = s.sizes := by
  unfold ownFuseLock
  simp

@[simp] theorem execFuseLock_sizes (t : Time) (rq : Request) (s : State) : osizes (tick t s).sizes (execFuseLock t rq s) = (tick t s).sizes := by
  unfold execFuseLock
  simp

@[simp] theorem ownLogConfig_sizes (rq : Request) (s : State) : (ownLogConfig rq s).st.sizes = s.sizes := by
  unfold ownLogConfig
  simp

@[simp] theorem execLogConfig_sizes (t : Time) (rq : Request) (s : State) : osizes (tick t s).sizes (execLogConfig t rq s) = (tick t s).sizes := by
  unfold execLogConfig
  simp

@[simp] theorem drawWords_sizes (a : ℕ) (x1 : State) : (drawWords a x1).2.sizes = x1.sizes := by
  induction a generalizing x1 with
  | zero => rfl
  | succ n ih => simp [drawWords, ih]

@[simp] theorem ownLogRead_sizes (rq : Request) (s : State) : (ownLogRead rq s).st.sizes = s.sizes := by
  unfold ownLogRead
  simp

@[simp] theorem execLogRead_sizes (t : Time) (rq : Request) (s : State) : osizes (tick t s).sizes (execLogRead t rq s) = (tick t s).sizes := by
  unfold execLogRead
  simp

@[simp] theorem ownDiagLoopback_sizes (rq : Request) (s : State) : (ownDiagLoopback rq s).st.sizes = s.sizes := by
  unfold ownDiagLoopback
  simp

@[simp] theorem execDiagLoopback_sizes (t : Time) (rq : Request) (s : State) : osizes (tick t s).sizes (execDiagLoopback t rq s) = (tick t s).sizes := by
  unfold execDiagLoopback
  simp

@[simp] theorem ownDiagSelftest_sizes (rq : Request) (s : State) : (ownDiagSelftest rq s).st.sizes = s.sizes := by
  unfold ownDiagSelftest
  simp

@[simp] theorem execDiagSelftest_sizes (t : Time) (rq : Request) (passed : Bool) (s : State) : osizes (tick t s).sizes (execDiagSelftest t rq passed s) = (tick t s).sizes := by
  unfold execDiagSelftest
  simp

@[simp] theorem ownDiagCapture_sizes (samples : List Word) (rq : Request) (s : State) : (ownDiagCapture samples rq s).st.sizes = s.sizes := by
  unfold ownDiagCapture
  simp

@[simp] theorem execDiagCapture_sizes (t : Time) (rq : Request) (samples : List Word) (s : State) : osizes (tick t s).sizes (execDiagCapture t rq samples s) = (tick t s).sizes := by
  unfold execDiagCapture
  simp

/-! ### Sys -/

@[simp] theorem ownSysIdentify_kept (x : Request) (s : State) : (ownSysIdentify x s).st.kept = s.kept := by
  unfold ownSysIdentify
  simp

@[simp] theorem execSysIdentify_kept (t : Time) (rq : Request) (s : State) : okept (tick t s).kept (execSysIdentify t rq s) = (tick t s).kept := by
  unfold execSysIdentify
  simp

@[simp] theorem ownSysCmdStatus_kept (rq : Request) (s : State) : (ownSysCmdStatus rq s).st.kept = s.kept := by
  unfold ownSysCmdStatus
  simp
  repeat' (first | (simp; done) | (split <;> simp_all <;> done) | split)

@[simp] theorem execSysCmdStatus_kept (t : Time) (rq : Request) (s : State) : okept (tick t s).kept (execSysCmdStatus t rq s) = (tick t s).kept := by
  unfold execSysCmdStatus
  simp

@[simp] theorem endExtract_kept (e : Extract) (s : State) : (endExtract e s).kept = s.kept := by
  unfold endExtract
  simp

@[simp] theorem finishExtract_kept (e : Extract) (s : State) : (finishExtract e s).kept = s.kept := by
  unfold finishExtract
  split <;> simp

@[simp] theorem execLongCommandComplete_kept (t : Time) (agent : Agent) (seq : BitVec 32) (_status : BitVec 16) (_stepsDone : ℕ) (s0 : State) : okept (tick t s0).kept (execLongCommandComplete t agent seq _status _stepsDone s0) = (tick t s0).kept := by
  unfold execLongCommandComplete
  simp
  repeat' (first | (simp; done) | (split <;> simp_all <;> done) | split)

@[simp] theorem remoteOutcome_kept (rq : Request) (status : BitVec 16) (s : State) : (remoteOutcome rq status s).kept = s.kept := by
  unfold remoteOutcome
  simp

@[simp] theorem remoteEnds_kept (p : RemotePending) (status : BitVec 16) (words : List Word) (s : State) : (remoteEnds p status words s).kept = s.kept := by
  unfold remoteEnds
  simp

@[simp] theorem execMgmtRspRx_kept (t : Time) (mailbox : Fin 16) (seq : BitVec 32) (status : BitVec 16) (words : List Word) (s0 : State) : okept (tick t s0).kept (execMgmtRspRx t mailbox seq status words s0) = (tick t s0).kept := by
  unfold execMgmtRspRx
  extract_lets s
  apply arriveAt_kept
  repeat' (first | (simp; done) | split)

@[simp] theorem execRemoteCommandTimeout_kept (t : Time) (mailbox : Fin 16) (s0 : State) : okept (tick t s0).kept (execRemoteCommandTimeout t mailbox s0) = (tick t s0).kept := by
  unfold execRemoteCommandTimeout
  simp
  repeat' (first | (simp; done) | (split <;> simp_all <;> done) | split)

@[simp] theorem ownSysIdentify_sizes (x : Request) (s : State) : (ownSysIdentify x s).st.sizes = s.sizes := by
  unfold ownSysIdentify
  simp

@[simp] theorem execSysIdentify_sizes (t : Time) (rq : Request) (s : State) : osizes (tick t s).sizes (execSysIdentify t rq s) = (tick t s).sizes := by
  unfold execSysIdentify
  simp

@[simp] theorem ownSysCmdStatus_sizes (rq : Request) (s : State) : (ownSysCmdStatus rq s).st.sizes = s.sizes := by
  unfold ownSysCmdStatus
  simp
  repeat' (first | (simp; done) | (split <;> simp_all <;> done) | split)

@[simp] theorem execSysCmdStatus_sizes (t : Time) (rq : Request) (s : State) : osizes (tick t s).sizes (execSysCmdStatus t rq s) = (tick t s).sizes := by
  unfold execSysCmdStatus
  simp

@[simp] theorem endExtract_sizes (e : Extract) (s : State) : (endExtract e s).sizes = s.sizes := by
  unfold endExtract
  simp

@[simp] theorem finishExtract_sizes (e : Extract) (s : State) : (finishExtract e s).sizes = s.sizes := by
  unfold finishExtract
  split <;> simp

@[simp] theorem execLongCommandComplete_sizes (t : Time) (agent : Agent) (seq : BitVec 32) (_status : BitVec 16) (_stepsDone : ℕ) (s0 : State) : osizes (tick t s0).sizes (execLongCommandComplete t agent seq _status _stepsDone s0) = (tick t s0).sizes := by
  unfold execLongCommandComplete
  simp
  repeat' (first | (simp; done) | (split <;> simp_all <;> done) | split)

@[simp] theorem remoteOutcome_sizes (rq : Request) (status : BitVec 16) (s : State) : (remoteOutcome rq status s).sizes = s.sizes := by
  unfold remoteOutcome
  simp

@[simp] theorem remoteEnds_sizes (p : RemotePending) (status : BitVec 16) (words : List Word) (s : State) : (remoteEnds p status words s).sizes = s.sizes := by
  unfold remoteEnds
  simp

@[simp] theorem execMgmtRspRx_sizes (t : Time) (mailbox : Fin 16) (seq : BitVec 32) (status : BitVec 16) (words : List Word) (s0 : State) : osizes (tick t s0).sizes (execMgmtRspRx t mailbox seq status words s0) = (tick t s0).sizes := by
  unfold execMgmtRspRx
  extract_lets s
  apply arriveAt_sizes
  repeat' (first | (simp; done) | split)

@[simp] theorem execRemoteCommandTimeout_sizes (t : Time) (mailbox : Fin 16) (s0 : State) : osizes (tick t s0).sizes (execRemoteCommandTimeout t mailbox s0) = (tick t s0).sizes := by
  unfold execRemoteCommandTimeout
  simp
  repeat' (first | (simp; done) | (split <;> simp_all <;> done) | split)

/-! ### Remote -/

@[simp] theorem execUnknownCommand_kept (t : Time) (rq : Request) (opcode : BitVec 16) (s : State) : okept (tick t s).kept (execUnknownCommand t rq opcode s) = (tick t s).kept := by
  unfold execUnknownCommand
  simp

@[simp] theorem queueRemote_kept (op : ℕ) (t : Time) (rq : Request) (s0 : State) : okept (tick t s0).kept (queueRemote op t rq s0) = (tick t s0).kept := by
  unfold queueRemote
  simp

@[simp] theorem remoteSys_kept (op : ℕ) (t : Time) (rq : Request) (s : State) : okept (tick t s).kept (remoteSys op t rq s) = (tick t s).kept := by
  unfold remoteSys
  split <;> simp

@[simp] theorem remoteCfg_kept (op : ℕ) (t : Time) (rq : Request) (s : State) : okept (tick t s).kept (remoteCfg op t rq s) = (tick t s).kept := by
  unfold remoteCfg
  split <;> simp

@[simp] theorem remoteChan_kept (op : ℕ) (t : Time) (rq : Request) (s : State) : okept (tick t s).kept (remoteChan op t rq s) = (tick t s).kept := by
  unfold remoteChan
  split <;> simp

@[simp] theorem remoteExc_kept (op : ℕ) (t : Time) (rq : Request) (s : State) : okept (tick t s).kept (remoteExc op t rq s) = (tick t s).kept := by
  unfold remoteExc
  split <;> simp

@[simp] theorem remoteFilt_kept (op : ℕ) (t : Time) (rq : Request) (s : State) : okept (tick t s).kept (remoteFilt op t rq s) = (tick t s).kept := by
  unfold remoteFilt
  split <;> simp

@[simp] theorem remoteWeave_kept (op : ℕ) (t : Time) (rq : Request) (s : State) : okept (tick t s).kept (remoteWeave op t rq s) = (tick t s).kept := by
  unfold remoteWeave
  split <;> simp

@[simp] theorem remoteCal_kept (op : ℕ) (t : Time) (rq : Request) (s : State) : okept (tick t s).kept (remoteCal op t rq s) = (tick t s).kept := by
  unfold remoteCal
  split <;> simp

@[simp] theorem remoteRec_kept (op : ℕ) (t : Time) (rq : Request) (s : State) : okept (tick t s).kept (remoteRec op t rq s) = (tick t s).kept := by
  unfold remoteRec
  split <;> simp

@[simp] theorem remoteTime_kept (op : ℕ) (t : Time) (rq : Request) (s : State) : okept (tick t s).kept (remoteTime op t rq s) = (tick t s).kept := by
  unfold remoteTime
  split <;> simp

@[simp] theorem remoteTact_kept (op : ℕ) (t : Time) (rq : Request) (s : State) : okept (tick t s).kept (remoteTact op t rq s) = (tick t s).kept := by
  unfold remoteTact
  split <;> simp

@[simp] theorem remoteLane_kept (op : ℕ) (t : Time) (rq : Request) (s : State) : okept (tick t s).kept (remoteLane op t rq s) = (tick t s).kept := by
  unfold remoteLane
  split <;> simp

@[simp] theorem remoteSlot_kept (op : ℕ) (t : Time) (rq : Request) (s : State) : okept (tick t s).kept (remoteSlot op t rq s) = (tick t s).kept := by
  unfold remoteSlot
  simp

@[simp] theorem remoteFab_kept (op : ℕ) (t : Time) (rq : Request) (s : State) : okept (tick t s).kept (remoteFab op t rq s) = (tick t s).kept := by
  unfold remoteFab
  split <;> simp

@[simp] theorem remoteEthm_kept (op : ℕ) (t : Time) (rq : Request) (s : State) : okept (tick t s).kept (remoteEthm op t rq s) = (tick t s).kept := by
  unfold remoteEthm
  split <;> simp

@[simp] theorem remoteBasin_kept (op : ℕ) (t : Time) (rq : Request) (s : State) : okept (tick t s).kept (remoteBasin op t rq s) = (tick t s).kept := by
  unfold remoteBasin
  split <;> simp

@[simp] theorem remoteOper_kept (op : ℕ) (t : Time) (rq : Request) (s : State) : okept (tick t s).kept (remoteOper op t rq s) = (tick t s).kept := by
  unfold remoteOper
  split <;> simp

@[simp] theorem remoteClk_kept (op : ℕ) (t : Time) (rq : Request) (s : State) : okept (tick t s).kept (remoteClk op t rq s) = (tick t s).kept := by
  unfold remoteClk
  split <;> simp

@[simp] theorem remotePwr_kept (op : ℕ) (t : Time) (rq : Request) (s : State) : okept (tick t s).kept (remotePwr op t rq s) = (tick t s).kept := by
  unfold remotePwr
  split <;> simp

@[simp] theorem remoteTherm_kept (op : ℕ) (t : Time) (rq : Request) (s : State) : okept (tick t s).kept (remoteTherm op t rq s) = (tick t s).kept := by
  unfold remoteTherm
  split <;> simp

@[simp] theorem remoteMem_kept (op : ℕ) (t : Time) (rq : Request) (s : State) : okept (tick t s).kept (remoteMem op t rq s) = (tick t s).kept := by
  unfold remoteMem
  split <;> simp

@[simp] theorem remoteNvs_kept (op : ℕ) (t : Time) (rq : Request) (s : State) : okept (tick t s).kept (remoteNvs op t rq s) = (tick t s).kept := by
  unfold remoteNvs
  split <;> simp

theorem execFuseLock_fabric_kept (t : Time) (rq : Request) (s : State) (h : rq.agent = .fabric) : okept (tick t s).kept (execFuseLock t rq s) = (tick t s).kept := by
  have ha : ∀ x : State, allowed x 0x5503 rq.agent = false := by intro x; simp [allowed, defaultAllows, h]
  unfold execFuseLock commandSupply serve
  simp only [ha]
  repeat' split
  all_goals simp_all

@[simp] theorem remoteFuse_kept (op : ℕ) (t : Time) (rq : Request) (s : State) (h : rq.agent = .fabric) : okept (tick t s).kept (remoteFuse op t rq s) = (tick t s).kept := by
  unfold remoteFuse
  split
  · simp
  · simp
  · exact execFuseLock_fabric_kept t rq s h

@[simp] theorem remoteLog_kept (op : ℕ) (t : Time) (rq : Request) (s : State) : okept (tick t s).kept (remoteLog op t rq s) = (tick t s).kept := by
  unfold remoteLog
  split <;> simp

@[simp] theorem remoteDiag_kept (op : ℕ) (t : Time) (rq : Request) (s : State) : okept (tick t s).kept (remoteDiag op t rq s) = (tick t s).kept := by
  unfold remoteDiag
  split <;> simp

@[simp] theorem remoteExec_kept (op : ℕ) (t : Time) (rq : Request) (s : State) (h : rq.agent = .fabric) : okept (tick t s).kept (remoteExec op t rq s) = (tick t s).kept := by
  unfold remoteExec
  split <;> simp [h]

@[simp] theorem execMgmtReqRx_kept (t : Time) (src : BitVec 16) (headerOnly : Bool) (opcode : BitVec 16) (rq : Request) (s0 : State) : okept (tick t s0).kept (execMgmtReqRx t src headerOnly opcode rq s0) = (tick t s0).kept := by
  unfold execMgmtReqRx
  have e : tick t (tick t s0) = tick t s0 := by simp [tick]
  extract_lets s
  apply arriveAt_kept
  split
  · simp
  · split
    · simp
    · extract_lets rq1
      split
      · have h := execUnknownCommand_kept t { rq with agent := .fabric, srcNode := src, bell := rq.seq, arrival := (tick t s0).now, remote := none } opcode (tick t s0)
        rw [e] at h
        exact h
      · have h := remoteExec_kept opcode.toNat t { rq with agent := .fabric, srcNode := src, bell := rq.seq, arrival := (tick t s0).now, remote := none } (tick t s0) rfl
        rw [e] at h
        exact h

@[simp] theorem execUnknownCommand_sizes (t : Time) (rq : Request) (opcode : BitVec 16) (s : State) : osizes (tick t s).sizes (execUnknownCommand t rq opcode s) = (tick t s).sizes := by
  unfold execUnknownCommand
  simp

@[simp] theorem queueRemote_sizes (op : ℕ) (t : Time) (rq : Request) (s0 : State) : osizes (tick t s0).sizes (queueRemote op t rq s0) = (tick t s0).sizes := by
  unfold queueRemote
  simp

@[simp] theorem remoteSys_sizes (op : ℕ) (t : Time) (rq : Request) (s : State) : osizes (tick t s).sizes (remoteSys op t rq s) = (tick t s).sizes := by
  unfold remoteSys
  split <;> simp

@[simp] theorem remoteCfg_sizes (op : ℕ) (t : Time) (rq : Request) (s : State) : osizes (tick t s).sizes (remoteCfg op t rq s) = (tick t s).sizes := by
  unfold remoteCfg
  split <;> simp

@[simp] theorem remoteChan_sizes (op : ℕ) (t : Time) (rq : Request) (s : State) : osizes (tick t s).sizes (remoteChan op t rq s) = (tick t s).sizes := by
  unfold remoteChan
  split <;> simp

@[simp] theorem remoteExc_sizes (op : ℕ) (t : Time) (rq : Request) (s : State) : osizes (tick t s).sizes (remoteExc op t rq s) = (tick t s).sizes := by
  unfold remoteExc
  split <;> simp

@[simp] theorem remoteFilt_sizes (op : ℕ) (t : Time) (rq : Request) (s : State) : osizes (tick t s).sizes (remoteFilt op t rq s) = (tick t s).sizes := by
  unfold remoteFilt
  split <;> simp

@[simp] theorem remoteWeave_sizes (op : ℕ) (t : Time) (rq : Request) (s : State) : osizes (tick t s).sizes (remoteWeave op t rq s) = (tick t s).sizes := by
  unfold remoteWeave
  split <;> simp

@[simp] theorem remoteCal_sizes (op : ℕ) (t : Time) (rq : Request) (s : State) : osizes (tick t s).sizes (remoteCal op t rq s) = (tick t s).sizes := by
  unfold remoteCal
  split <;> simp

@[simp] theorem remoteRec_sizes (op : ℕ) (t : Time) (rq : Request) (s : State) : osizes (tick t s).sizes (remoteRec op t rq s) = (tick t s).sizes := by
  unfold remoteRec
  split <;> simp

@[simp] theorem remoteTime_sizes (op : ℕ) (t : Time) (rq : Request) (s : State) : osizes (tick t s).sizes (remoteTime op t rq s) = (tick t s).sizes := by
  unfold remoteTime
  split <;> simp

@[simp] theorem remoteTact_sizes (op : ℕ) (t : Time) (rq : Request) (s : State) : osizes (tick t s).sizes (remoteTact op t rq s) = (tick t s).sizes := by
  unfold remoteTact
  split <;> simp

@[simp] theorem remoteLane_sizes (op : ℕ) (t : Time) (rq : Request) (s : State) : osizes (tick t s).sizes (remoteLane op t rq s) = (tick t s).sizes := by
  unfold remoteLane
  split <;> simp

@[simp] theorem remoteSlot_sizes (op : ℕ) (t : Time) (rq : Request) (s : State) : osizes (tick t s).sizes (remoteSlot op t rq s) = (tick t s).sizes := by
  unfold remoteSlot
  simp

@[simp] theorem remoteFab_sizes (op : ℕ) (t : Time) (rq : Request) (s : State) : osizes (tick t s).sizes (remoteFab op t rq s) = (tick t s).sizes := by
  unfold remoteFab
  split <;> simp

@[simp] theorem remoteEthm_sizes (op : ℕ) (t : Time) (rq : Request) (s : State) : osizes (tick t s).sizes (remoteEthm op t rq s) = (tick t s).sizes := by
  unfold remoteEthm
  split <;> simp

@[simp] theorem remoteBasin_sizes (op : ℕ) (t : Time) (rq : Request) (s : State) : osizes (tick t s).sizes (remoteBasin op t rq s) = (tick t s).sizes := by
  unfold remoteBasin
  split <;> simp

@[simp] theorem remoteOper_sizes (op : ℕ) (t : Time) (rq : Request) (s : State) : osizes (tick t s).sizes (remoteOper op t rq s) = (tick t s).sizes := by
  unfold remoteOper
  split <;> simp

@[simp] theorem remoteClk_sizes (op : ℕ) (t : Time) (rq : Request) (s : State) : osizes (tick t s).sizes (remoteClk op t rq s) = (tick t s).sizes := by
  unfold remoteClk
  split <;> simp

@[simp] theorem remotePwr_sizes (op : ℕ) (t : Time) (rq : Request) (s : State) : osizes (tick t s).sizes (remotePwr op t rq s) = (tick t s).sizes := by
  unfold remotePwr
  split <;> simp

@[simp] theorem remoteTherm_sizes (op : ℕ) (t : Time) (rq : Request) (s : State) : osizes (tick t s).sizes (remoteTherm op t rq s) = (tick t s).sizes := by
  unfold remoteTherm
  split <;> simp

@[simp] theorem remoteMem_sizes (op : ℕ) (t : Time) (rq : Request) (s : State) : osizes (tick t s).sizes (remoteMem op t rq s) = (tick t s).sizes := by
  unfold remoteMem
  split <;> simp

@[simp] theorem remoteNvs_sizes (op : ℕ) (t : Time) (rq : Request) (s : State) : osizes (tick t s).sizes (remoteNvs op t rq s) = (tick t s).sizes := by
  unfold remoteNvs
  split <;> simp

theorem execFuseLock_fabric_sizes (t : Time) (rq : Request) (s : State) (h : rq.agent = .fabric) : osizes (tick t s).sizes (execFuseLock t rq s) = (tick t s).sizes := by
  have ha : ∀ x : State, allowed x 0x5503 rq.agent = false := by intro x; simp [allowed, defaultAllows, h]
  unfold execFuseLock commandSupply serve
  simp only [ha]
  repeat' split
  all_goals simp_all

@[simp] theorem remoteFuse_sizes (op : ℕ) (t : Time) (rq : Request) (s : State) (h : rq.agent = .fabric) : osizes (tick t s).sizes (remoteFuse op t rq s) = (tick t s).sizes := by
  unfold remoteFuse
  split
  · simp
  · simp
  · exact execFuseLock_fabric_sizes t rq s h

@[simp] theorem remoteLog_sizes (op : ℕ) (t : Time) (rq : Request) (s : State) : osizes (tick t s).sizes (remoteLog op t rq s) = (tick t s).sizes := by
  unfold remoteLog
  split <;> simp

@[simp] theorem remoteDiag_sizes (op : ℕ) (t : Time) (rq : Request) (s : State) : osizes (tick t s).sizes (remoteDiag op t rq s) = (tick t s).sizes := by
  unfold remoteDiag
  split <;> simp

@[simp] theorem remoteExec_sizes (op : ℕ) (t : Time) (rq : Request) (s : State) (h : rq.agent = .fabric) : osizes (tick t s).sizes (remoteExec op t rq s) = (tick t s).sizes := by
  unfold remoteExec
  split <;> simp [h]

@[simp] theorem execMgmtReqRx_sizes (t : Time) (src : BitVec 16) (headerOnly : Bool) (opcode : BitVec 16) (rq : Request) (s0 : State) : osizes (tick t s0).sizes (execMgmtReqRx t src headerOnly opcode rq s0) = (tick t s0).sizes := by
  unfold execMgmtReqRx
  have e : tick t (tick t s0) = tick t s0 := by simp [tick]
  extract_lets s
  apply arriveAt_sizes
  split
  · simp
  · split
    · simp
    · extract_lets rq1
      split
      · have h := execUnknownCommand_sizes t { rq with agent := .fabric, srcNode := src, bell := rq.seq, arrival := (tick t s0).now, remote := none } opcode (tick t s0)
        rw [e] at h
        exact h
      · have h := remoteExec_sizes opcode.toNat t { rq with agent := .fabric, srcNode := src, bell := rq.seq, arrival := (tick t s0).now, remote := none } (tick t s0) rfl
        rw [e] at h
        exact h

end Sys2Proof.Machine
end

