-- ==== Sys2Proof/Laws/Fuses.lean ====
section
/-! SUPPORT. How the four meanings that blow fuses change the three banks, and the general form of a served request. -/

namespace Sys2Proof.Machine

/-- A request is either not executed, and keeps what every operation keeps, or is settled with what its own part answers on a
state that keeps it. -/
theorem serve_kept_cases (op : Nat) (known : Bool) (lenOk : Nat → Bool) (ownSupply : Bool)
    (routed : BitVec 16 → State → Bool) (own : State → Reply) (t : Time) (rq : Request) (s0 : State) :
    (serve op known lenOk ownSupply routed own t rq s0).kept = (tick t s0).kept ∨
      ∃ x : State, x.kept = (tick t s0).kept ∧
        (serve op known lenOk ownSupply routed own t rq s0).kept = (own x).st.kept := by
  have hx : (unpark rq (loadRequest op rq (tick t s0))).kept = (tick t s0).kept := by simp
  unfold serve
  simp only []
  repeat' split
  all_goals first
    | (left; simp; done)
    | (right; exact ⟨_, hx, by simp⟩)

theorem reaching_kept_cases (op : Nat) (own : Request → State → Reply) (rq : Request) (s : State) :
    (reaching op own rq s).st.kept = s.kept ∨ (reaching op own rq s).st.kept = (own rq s).st.kept := by
  unfold reaching
  simp only []
  split
  · left; rfl
  · right; rfl

theorem guarded_kept_cases (cs : List (Bool × BitVec 16)) (s : State) (go : Unit → Reply) :
    (guarded cs s go).st.kept = s.kept ∨ (guarded cs s go).st.kept = (go ()).st.kept := by
  unfold guarded
  split
  · left; rfl
  · right; rfl

/-! ### The banks grow -/

theorem fusesBelow_refl (a : FuseBank) : fusesBelow a a := by simp [fusesBelow]

theorem and_or_self_left {n : Nat} (a b : BitVec n) : a &&& (a ||| b) = a := by
  ext i
  simp
  intro h
  exact Or.inl h

theorem sealed_below (a : FuseBank) : fusesBelow a { a with sealed := true } := by simp [fusesBelow]

theorem rollback_below (a : FuseBank) (r : BitVec 64) : fusesBelow a { a with rollback := a.rollback ||| r } := by
  simp [fusesBelow, and_or_self_left]

theorem blow_below (code : Nat) (v : BitVec 384) (f : FuseBank) : fusesBelow f (blow code v f) := by
  unfold blow
  split <;> simp [fusesBelow, and_or_self_left] <;> intro h <;> simp [h]

/-- A blow leaves the queue and the clock, and the banks hold the bits that blew. -/
theorem fuseBlow_fuses (unblown : BitVec 384) (cut : Option (BitVec 384)) (code : Nat) (v : BitVec 384) (s : State) :
    (fuseBlow unblown cut code v s).st.kept =
      (s.pending, blow code (v &&& ~~~unblown &&& cut.getD (BitVec.allOnes 384)) s.fuses, s.now) := by
  unfold fuseBlow
  extract_lets held s1
  have h1 : s1.kept = (s.pending, blow code held s.fuses, s.now) := rfl
  repeat' split
  all_goals exact h1

/-- What holds of the kept projection after a step that may blow fuses. -/
def grows (k m : List Instr × FuseBank × Time) : Prop := m.1 = k.1 ∧ fusesBelow k.2.1 m.2.1 ∧ m.2.2 = k.2.2

theorem grows_refl (k) : grows k k := ⟨rfl, fusesBelow_refl _, rfl⟩

theorem fuseBlow_grows (cs : List (Bool × BitVec 16)) (unblown : BitVec 384) (cut : Option (BitVec 384)) (code : Nat)
    (v : BitVec 384) (s : State) :
    grows s.kept (guarded cs s (fun _ => fuseBlow unblown cut code v s)).st.kept := by
  rcases guarded_kept_cases cs s (fun _ => fuseBlow unblown cut code v s) with h | h
  · rw [h]; exact grows_refl _
  · rw [h, fuseBlow_fuses unblown cut code v s]
    exact ⟨rfl, blow_below _ _ _, rfl⟩

theorem ownFuseProgram_grows (unblown : BitVec 384) (cut : Option (BitVec 384)) (rq : Request) (s : State) :
    grows s.kept (ownFuseProgram unblown cut rq s).st.kept :=
  fuseBlow_grows (fuseChecks rq s) unblown cut (fuseCode rq) (fuseBits rq) s

theorem ownFuseLock_grows (rq : Request) (s : State) : grows s.kept (ownFuseLock rq s).st.kept := by
  unfold ownFuseLock
  simp only []
  generalize ([_, _, _, _] : List (Bool × BitVec 16)) = cs
  rcases guarded_kept_cases cs s (fun _ => okay [] { s with
      fuses := { s.fuses with sealed := true }, fuseShadow := { s.fuseShadow with sealed := true } }) with h | h
  · rw [h]; exact grows_refl _
  · rw [h]
    exact ⟨rfl, sealed_below _, rfl⟩

theorem ownMemCommitRepair_grows (verified : Bool) (rq : Request) (s : State) :
    grows s.kept (ownMemCommitRepair verified rq s).st.kept := by
  unfold ownMemCommitRepair
  extract_lets q i
  generalize ([_, _, _, _] : List (Bool × BitVec 16)) = cs
  have key : ∀ (e : Nat × Nat × Nat) (a : List QueueEntry) (n : NvSt),
      grows s.kept (if verified then okaySteps 2 [] { s with
          fuses := { s.fuses with repairs := s.fuses.repairs ++ [e] }, repairQueue := a, nv := n }
        else { okaySteps 2 [] { s with fuses := { s.fuses with repairs := s.fuses.repairs ++ [e] } } with
          status := stResourceFailed, done := 1 }).st.kept := by
    intro e a n
    have hb : fusesBelow s.fuses { s.fuses with repairs := s.fuses.repairs ++ [e] } := by simp [fusesBelow]
    split
    · exact ⟨rfl, hb, rfl⟩
    · exact ⟨rfl, hb, rfl⟩
  unfold guarded
  split
  · exact grows_refl _
  · exact key _ _ _

theorem settled_grows {own : State → Reply} (op : Nat) (known : Bool) (lenOk : Nat → Bool) (ownSupply : Bool)
    (routed : BitVec 16 → State → Bool) (t : Time) (rq : Request) (s : State)
    (h : ∀ x, grows x.kept (own x).st.kept) :
    grows (tick t s).kept (serve op known lenOk ownSupply routed own t rq s).kept := by
  rcases serve_kept_cases op known lenOk ownSupply routed own t rq s with e | ⟨x, hx, e⟩
  · rw [e]; exact grows_refl _
  · rw [e, ← hx]; exact h x

theorem reaching_grows {own : Request → State → Reply} (op : Nat) (rq : Request) (s : State)
    (h : grows s.kept (own rq s).st.kept) : grows s.kept (reaching op own rq s).st.kept := by
  rcases reaching_kept_cases op own rq s with e | e
  · rw [e]; exact grows_refl _
  · rw [e]; exact h

theorem execFuseProgram_grows (t : Time) (rq : Request) (unblown : BitVec 384) (cut : Option (BitVec 384)) (s : State) :
    grows (tick t s).kept (okept (tick t s).kept (execFuseProgram t rq unblown cut s)) := by
  unfold execFuseProgram commandSupply
  rw [okept_next]
  exact settled_grows _ _ _ _ _ _ _ _ (fun x => reaching_grows _ _ _ (ownFuseProgram_grows _ _ _ _))

theorem execFuseLock_grows (t : Time) (rq : Request) (s : State) :
    grows (tick t s).kept (okept (tick t s).kept (execFuseLock t rq s)) := by
  unfold execFuseLock commandSupply
  rw [okept_next]
  exact settled_grows _ _ _ _ _ _ _ _ (fun x => reaching_grows _ _ _ (ownFuseLock_grows _ _))

theorem execMemCommitRepair_grows (t : Time) (rq : Request) (verified : Bool) (s : State) :
    grows (tick t s).kept (okept (tick t s).kept (execMemCommitRepair t rq verified s)) := by
  unfold execMemCommitRepair commandSupply
  rw [okept_next]
  exact settled_grows _ _ _ _ _ _ _ _ (fun x => reaching_grows _ _ _ (ownMemCommitRepair_grows _ _ _))

theorem execRollbackAdvance_grows (t : Time) (s : State) :
    grows (tick t s).kept (okept (tick t s).kept (execRollbackAdvance t s)) := by
  unfold execRollbackAdvance
  simp only []
  split
  · exact grows_refl _
  · exact ⟨rfl, rollback_below _ _, rfl⟩

end Sys2Proof.Machine
end

