-- ==== Sys2Proof/Laws/State.lean ====
section
/-! SUPPORT. What each update of one part of the state leaves in each part: one lemma for each field and update. -/

namespace Sys2Proof.Machine

/-! ### tick -/

@[simp] theorem tick_pending (t : Time) (s : State) : (tick t s).pending = s.pending := rfl
@[simp] theorem tick_now (t : Time) (s : State) : (tick t s).now = max s.now t := rfl
@[simp] theorem tick_free (t : Time) (s : State) : (tick t s).free = s.free := rfl
@[simp] theorem tick_islands (t : Time) (s : State) : (tick t s).islands = s.islands := rfl
@[simp] theorem tick_host (t : Time) (s : State) : (tick t s).host = s.host := rfl
@[simp] theorem tick_mgmt (t : Time) (s : State) : (tick t s).mgmt = s.mgmt := rfl
@[simp] theorem tick_time (t : Time) (s : State) : (tick t s).time = s.time := rfl
@[simp] theorem tick_tact (t : Time) (s : State) : (tick t s).tact = s.tact := rfl
@[simp] theorem tick_daq (t : Time) (s : State) : (tick t s).daq = s.daq := rfl
@[simp] theorem tick_pwr (t : Time) (s : State) : (tick t s).pwr = s.pwr := rfl
@[simp] theorem tick_clk (t : Time) (s : State) : (tick t s).clk = s.clk := rfl
@[simp] theorem tick_therm (t : Time) (s : State) : (tick t s).therm = s.therm := rfl
@[simp] theorem tick_cfg (t : Time) (s : State) : (tick t s).cfg = s.cfg := rfl
@[simp] theorem tick_line (t : Time) (s : State) : (tick t s).line = s.line := rfl
@[simp] theorem tick_fab (t : Time) (s : State) : (tick t s).fab = s.fab := rfl
@[simp] theorem tick_eth (t : Time) (s : State) : (tick t s).eth = s.eth := rfl
@[simp] theorem tick_basin (t : Time) (s : State) : (tick t s).basin = s.basin := rfl
@[simp] theorem tick_oper (t : Time) (s : State) : (tick t s).oper = s.oper := rfl
@[simp] theorem tick_mems (t : Time) (s : State) : (tick t s).mems = s.mems := rfl
@[simp] theorem tick_tagMismatch (t : Time) (s : State) : (tick t s).tagMismatch = s.tagMismatch := rfl
@[simp] theorem tick_softRepairs (t : Time) (s : State) : (tick t s).softRepairs = s.softRepairs := rfl
@[simp] theorem tick_repairQueue (t : Time) (s : State) : (tick t s).repairQueue = s.repairQueue := rfl
@[simp] theorem tick_nv (t : Time) (s : State) : (tick t s).nv = s.nv := rfl
@[simp] theorem tick_fuses (t : Time) (s : State) : (tick t s).fuses = s.fuses := rfl
@[simp] theorem tick_fuseShadow (t : Time) (s : State) : (tick t s).fuseShadow = s.fuseShadow := rfl
@[simp] theorem tick_aon (t : Time) (s : State) : (tick t s).aon = s.aon := rfl
@[simp] theorem tick_diag (t : Time) (s : State) : (tick t s).diag = s.diag := rfl
@[simp] theorem tick_out (t : Time) (s : State) : (tick t s).out = s.out := rfl

/-! ### emitOut -/

@[simp] theorem emitOut_pending (o : Out) (s : State) : (emitOut o s).pending = s.pending := rfl
@[simp] theorem emitOut_now (o : Out) (s : State) : (emitOut o s).now = s.now := rfl
@[simp] theorem emitOut_free (o : Out) (s : State) : (emitOut o s).free = s.free := rfl
@[simp] theorem emitOut_islands (o : Out) (s : State) : (emitOut o s).islands = s.islands := rfl
@[simp] theorem emitOut_host (o : Out) (s : State) : (emitOut o s).host = s.host := rfl
@[simp] theorem emitOut_mgmt (o : Out) (s : State) : (emitOut o s).mgmt = s.mgmt := rfl
@[simp] theorem emitOut_time (o : Out) (s : State) : (emitOut o s).time = s.time := rfl
@[simp] theorem emitOut_tact (o : Out) (s : State) : (emitOut o s).tact = s.tact := rfl
@[simp] theorem emitOut_daq (o : Out) (s : State) : (emitOut o s).daq = s.daq := rfl
@[simp] theorem emitOut_pwr (o : Out) (s : State) : (emitOut o s).pwr = s.pwr := rfl
@[simp] theorem emitOut_clk (o : Out) (s : State) : (emitOut o s).clk = s.clk := rfl
@[simp] theorem emitOut_therm (o : Out) (s : State) : (emitOut o s).therm = s.therm := rfl
@[simp] theorem emitOut_cfg (o : Out) (s : State) : (emitOut o s).cfg = s.cfg := rfl
@[simp] theorem emitOut_line (o : Out) (s : State) : (emitOut o s).line = s.line := rfl
@[simp] theorem emitOut_fab (o : Out) (s : State) : (emitOut o s).fab = s.fab := rfl
@[simp] theorem emitOut_eth (o : Out) (s : State) : (emitOut o s).eth = s.eth := rfl
@[simp] theorem emitOut_basin (o : Out) (s : State) : (emitOut o s).basin = s.basin := rfl
@[simp] theorem emitOut_oper (o : Out) (s : State) : (emitOut o s).oper = s.oper := rfl
@[simp] theorem emitOut_mems (o : Out) (s : State) : (emitOut o s).mems = s.mems := rfl
@[simp] theorem emitOut_tagMismatch (o : Out) (s : State) : (emitOut o s).tagMismatch = s.tagMismatch := rfl
@[simp] theorem emitOut_softRepairs (o : Out) (s : State) : (emitOut o s).softRepairs = s.softRepairs := rfl
@[simp] theorem emitOut_repairQueue (o : Out) (s : State) : (emitOut o s).repairQueue = s.repairQueue := rfl
@[simp] theorem emitOut_nv (o : Out) (s : State) : (emitOut o s).nv = s.nv := rfl
@[simp] theorem emitOut_fuses (o : Out) (s : State) : (emitOut o s).fuses = s.fuses := rfl
@[simp] theorem emitOut_fuseShadow (o : Out) (s : State) : (emitOut o s).fuseShadow = s.fuseShadow := rfl
@[simp] theorem emitOut_aon (o : Out) (s : State) : (emitOut o s).aon = s.aon := rfl
@[simp] theorem emitOut_diag (o : Out) (s : State) : (emitOut o s).diag = s.diag := rfl
@[simp] theorem emitOut_out (o : Out) (s : State) : (emitOut o s).out = s.out ++ [o] := rfl

/-! ### modIsland -/

@[simp] theorem modIsland_pending (s : State) (i : Island) (f : IslandSt → IslandSt) : (modIsland s i f).pending = s.pending := rfl
@[simp] theorem modIsland_now (s : State) (i : Island) (f : IslandSt → IslandSt) : (modIsland s i f).now = s.now := rfl
@[simp] theorem modIsland_free (s : State) (i : Island) (f : IslandSt → IslandSt) : (modIsland s i f).free = s.free := rfl
@[simp] theorem modIsland_islands (s : State) (i : Island) (f : IslandSt → IslandSt) : (modIsland s i f).islands = s.islands.modify (islandIx i) f := rfl
@[simp] theorem modIsland_host (s : State) (i : Island) (f : IslandSt → IslandSt) : (modIsland s i f).host = s.host := rfl
@[simp] theorem modIsland_mgmt (s : State) (i : Island) (f : IslandSt → IslandSt) : (modIsland s i f).mgmt = s.mgmt := rfl
@[simp] theorem modIsland_time (s : State) (i : Island) (f : IslandSt → IslandSt) : (modIsland s i f).time = s.time := rfl
@[simp] theorem modIsland_tact (s : State) (i : Island) (f : IslandSt → IslandSt) : (modIsland s i f).tact = s.tact := rfl
@[simp] theorem modIsland_daq (s : State) (i : Island) (f : IslandSt → IslandSt) : (modIsland s i f).daq = s.daq := rfl
@[simp] theorem modIsland_pwr (s : State) (i : Island) (f : IslandSt → IslandSt) : (modIsland s i f).pwr = s.pwr := rfl
@[simp] theorem modIsland_clk (s : State) (i : Island) (f : IslandSt → IslandSt) : (modIsland s i f).clk = s.clk := rfl
@[simp] theorem modIsland_therm (s : State) (i : Island) (f : IslandSt → IslandSt) : (modIsland s i f).therm = s.therm := rfl
@[simp] theorem modIsland_cfg (s : State) (i : Island) (f : IslandSt → IslandSt) : (modIsland s i f).cfg = s.cfg := rfl
@[simp] theorem modIsland_line (s : State) (i : Island) (f : IslandSt → IslandSt) : (modIsland s i f).line = s.line := rfl
@[simp] theorem modIsland_fab (s : State) (i : Island) (f : IslandSt → IslandSt) : (modIsland s i f).fab = s.fab := rfl
@[simp] theorem modIsland_eth (s : State) (i : Island) (f : IslandSt → IslandSt) : (modIsland s i f).eth = s.eth := rfl
@[simp] theorem modIsland_basin (s : State) (i : Island) (f : IslandSt → IslandSt) : (modIsland s i f).basin = s.basin := rfl
@[simp] theorem modIsland_oper (s : State) (i : Island) (f : IslandSt → IslandSt) : (modIsland s i f).oper = s.oper := rfl
@[simp] theorem modIsland_mems (s : State) (i : Island) (f : IslandSt → IslandSt) : (modIsland s i f).mems = s.mems := rfl
@[simp] theorem modIsland_tagMismatch (s : State) (i : Island) (f : IslandSt → IslandSt) : (modIsland s i f).tagMismatch = s.tagMismatch := rfl
@[simp] theorem modIsland_softRepairs (s : State) (i : Island) (f : IslandSt → IslandSt) : (modIsland s i f).softRepairs = s.softRepairs := rfl
@[simp] theorem modIsland_repairQueue (s : State) (i : Island) (f : IslandSt → IslandSt) : (modIsland s i f).repairQueue = s.repairQueue := rfl
@[simp] theorem modIsland_nv (s : State) (i : Island) (f : IslandSt → IslandSt) : (modIsland s i f).nv = s.nv := rfl
@[simp] theorem modIsland_fuses (s : State) (i : Island) (f : IslandSt → IslandSt) : (modIsland s i f).fuses = s.fuses := rfl
@[simp] theorem modIsland_fuseShadow (s : State) (i : Island) (f : IslandSt → IslandSt) : (modIsland s i f).fuseShadow = s.fuseShadow := rfl
@[simp] theorem modIsland_aon (s : State) (i : Island) (f : IslandSt → IslandSt) : (modIsland s i f).aon = s.aon := rfl
@[simp] theorem modIsland_diag (s : State) (i : Island) (f : IslandSt → IslandSt) : (modIsland s i f).diag = s.diag := rfl
@[simp] theorem modIsland_out (s : State) (i : Island) (f : IslandSt → IslandSt) : (modIsland s i f).out = s.out := rfl

/-! ### modHost -/

@[simp] theorem modHost_pending (f : HostSt → HostSt) (s : State) : (modHost f s).pending = s.pending := rfl
@[simp] theorem modHost_now (f : HostSt → HostSt) (s : State) : (modHost f s).now = s.now := rfl
@[simp] theorem modHost_free (f : HostSt → HostSt) (s : State) : (modHost f s).free = s.free := rfl
@[simp] theorem modHost_islands (f : HostSt → HostSt) (s : State) : (modHost f s).islands = s.islands := rfl
@[simp] theorem modHost_host (f : HostSt → HostSt) (s : State) : (modHost f s).host = f s.host := rfl
@[simp] theorem modHost_mgmt (f : HostSt → HostSt) (s : State) : (modHost f s).mgmt = s.mgmt := rfl
@[simp] theorem modHost_time (f : HostSt → HostSt) (s : State) : (modHost f s).time = s.time := rfl
@[simp] theorem modHost_tact (f : HostSt → HostSt) (s : State) : (modHost f s).tact = s.tact := rfl
@[simp] theorem modHost_daq (f : HostSt → HostSt) (s : State) : (modHost f s).daq = s.daq := rfl
@[simp] theorem modHost_pwr (f : HostSt → HostSt) (s : State) : (modHost f s).pwr = s.pwr := rfl
@[simp] theorem modHost_clk (f : HostSt → HostSt) (s : State) : (modHost f s).clk = s.clk := rfl
@[simp] theorem modHost_therm (f : HostSt → HostSt) (s : State) : (modHost f s).therm = s.therm := rfl
@[simp] theorem modHost_cfg (f : HostSt → HostSt) (s : State) : (modHost f s).cfg = s.cfg := rfl
@[simp] theorem modHost_line (f : HostSt → HostSt) (s : State) : (modHost f s).line = s.line := rfl
@[simp] theorem modHost_fab (f : HostSt → HostSt) (s : State) : (modHost f s).fab = s.fab := rfl
@[simp] theorem modHost_eth (f : HostSt → HostSt) (s : State) : (modHost f s).eth = s.eth := rfl
@[simp] theorem modHost_basin (f : HostSt → HostSt) (s : State) : (modHost f s).basin = s.basin := rfl
@[simp] theorem modHost_oper (f : HostSt → HostSt) (s : State) : (modHost f s).oper = s.oper := rfl
@[simp] theorem modHost_mems (f : HostSt → HostSt) (s : State) : (modHost f s).mems = s.mems := rfl
@[simp] theorem modHost_tagMismatch (f : HostSt → HostSt) (s : State) : (modHost f s).tagMismatch = s.tagMismatch := rfl
@[simp] theorem modHost_softRepairs (f : HostSt → HostSt) (s : State) : (modHost f s).softRepairs = s.softRepairs := rfl
@[simp] theorem modHost_repairQueue (f : HostSt → HostSt) (s : State) : (modHost f s).repairQueue = s.repairQueue := rfl
@[simp] theorem modHost_nv (f : HostSt → HostSt) (s : State) : (modHost f s).nv = s.nv := rfl
@[simp] theorem modHost_fuses (f : HostSt → HostSt) (s : State) : (modHost f s).fuses = s.fuses := rfl
@[simp] theorem modHost_fuseShadow (f : HostSt → HostSt) (s : State) : (modHost f s).fuseShadow = s.fuseShadow := rfl
@[simp] theorem modHost_aon (f : HostSt → HostSt) (s : State) : (modHost f s).aon = s.aon := rfl
@[simp] theorem modHost_diag (f : HostSt → HostSt) (s : State) : (modHost f s).diag = s.diag := rfl
@[simp] theorem modHost_out (f : HostSt → HostSt) (s : State) : (modHost f s).out = s.out := rfl

/-! ### modMgmt -/

@[simp] theorem modMgmt_pending (f : MgmtSt → MgmtSt) (s : State) : (modMgmt f s).pending = s.pending := rfl
@[simp] theorem modMgmt_now (f : MgmtSt → MgmtSt) (s : State) : (modMgmt f s).now = s.now := rfl
@[simp] theorem modMgmt_free (f : MgmtSt → MgmtSt) (s : State) : (modMgmt f s).free = s.free := rfl
@[simp] theorem modMgmt_islands (f : MgmtSt → MgmtSt) (s : State) : (modMgmt f s).islands = s.islands := rfl
@[simp] theorem modMgmt_host (f : MgmtSt → MgmtSt) (s : State) : (modMgmt f s).host = s.host := rfl
@[simp] theorem modMgmt_mgmt (f : MgmtSt → MgmtSt) (s : State) : (modMgmt f s).mgmt = f s.mgmt := rfl
@[simp] theorem modMgmt_time (f : MgmtSt → MgmtSt) (s : State) : (modMgmt f s).time = s.time := rfl
@[simp] theorem modMgmt_tact (f : MgmtSt → MgmtSt) (s : State) : (modMgmt f s).tact = s.tact := rfl
@[simp] theorem modMgmt_daq (f : MgmtSt → MgmtSt) (s : State) : (modMgmt f s).daq = s.daq := rfl
@[simp] theorem modMgmt_pwr (f : MgmtSt → MgmtSt) (s : State) : (modMgmt f s).pwr = s.pwr := rfl
@[simp] theorem modMgmt_clk (f : MgmtSt → MgmtSt) (s : State) : (modMgmt f s).clk = s.clk := rfl
@[simp] theorem modMgmt_therm (f : MgmtSt → MgmtSt) (s : State) : (modMgmt f s).therm = s.therm := rfl
@[simp] theorem modMgmt_cfg (f : MgmtSt → MgmtSt) (s : State) : (modMgmt f s).cfg = s.cfg := rfl
@[simp] theorem modMgmt_line (f : MgmtSt → MgmtSt) (s : State) : (modMgmt f s).line = s.line := rfl
@[simp] theorem modMgmt_fab (f : MgmtSt → MgmtSt) (s : State) : (modMgmt f s).fab = s.fab := rfl
@[simp] theorem modMgmt_eth (f : MgmtSt → MgmtSt) (s : State) : (modMgmt f s).eth = s.eth := rfl
@[simp] theorem modMgmt_basin (f : MgmtSt → MgmtSt) (s : State) : (modMgmt f s).basin = s.basin := rfl
@[simp] theorem modMgmt_oper (f : MgmtSt → MgmtSt) (s : State) : (modMgmt f s).oper = s.oper := rfl
@[simp] theorem modMgmt_mems (f : MgmtSt → MgmtSt) (s : State) : (modMgmt f s).mems = s.mems := rfl
@[simp] theorem modMgmt_tagMismatch (f : MgmtSt → MgmtSt) (s : State) : (modMgmt f s).tagMismatch = s.tagMismatch := rfl
@[simp] theorem modMgmt_softRepairs (f : MgmtSt → MgmtSt) (s : State) : (modMgmt f s).softRepairs = s.softRepairs := rfl
@[simp] theorem modMgmt_repairQueue (f : MgmtSt → MgmtSt) (s : State) : (modMgmt f s).repairQueue = s.repairQueue := rfl
@[simp] theorem modMgmt_nv (f : MgmtSt → MgmtSt) (s : State) : (modMgmt f s).nv = s.nv := rfl
@[simp] theorem modMgmt_fuses (f : MgmtSt → MgmtSt) (s : State) : (modMgmt f s).fuses = s.fuses := rfl
@[simp] theorem modMgmt_fuseShadow (f : MgmtSt → MgmtSt) (s : State) : (modMgmt f s).fuseShadow = s.fuseShadow := rfl
@[simp] theorem modMgmt_aon (f : MgmtSt → MgmtSt) (s : State) : (modMgmt f s).aon = s.aon := rfl
@[simp] theorem modMgmt_diag (f : MgmtSt → MgmtSt) (s : State) : (modMgmt f s).diag = s.diag := rfl
@[simp] theorem modMgmt_out (f : MgmtSt → MgmtSt) (s : State) : (modMgmt f s).out = s.out := rfl

/-! ### modTime -/

@[simp] theorem modTime_pending (f : TimeSt → TimeSt) (s : State) : (modTime f s).pending = s.pending := rfl
@[simp] theorem modTime_now (f : TimeSt → TimeSt) (s : State) : (modTime f s).now = s.now := rfl
@[simp] theorem modTime_free (f : TimeSt → TimeSt) (s : State) : (modTime f s).free = s.free := rfl
@[simp] theorem modTime_islands (f : TimeSt → TimeSt) (s : State) : (modTime f s).islands = s.islands := rfl
@[simp] theorem modTime_host (f : TimeSt → TimeSt) (s : State) : (modTime f s).host = s.host := rfl
@[simp] theorem modTime_mgmt (f : TimeSt → TimeSt) (s : State) : (modTime f s).mgmt = s.mgmt := rfl
@[simp] theorem modTime_time (f : TimeSt → TimeSt) (s : State) : (modTime f s).time = f s.time := rfl
@[simp] theorem modTime_tact (f : TimeSt → TimeSt) (s : State) : (modTime f s).tact = s.tact := rfl
@[simp] theorem modTime_daq (f : TimeSt → TimeSt) (s : State) : (modTime f s).daq = s.daq := rfl
@[simp] theorem modTime_pwr (f : TimeSt → TimeSt) (s : State) : (modTime f s).pwr = s.pwr := rfl
@[simp] theorem modTime_clk (f : TimeSt → TimeSt) (s : State) : (modTime f s).clk = s.clk := rfl
@[simp] theorem modTime_therm (f : TimeSt → TimeSt) (s : State) : (modTime f s).therm = s.therm := rfl
@[simp] theorem modTime_cfg (f : TimeSt → TimeSt) (s : State) : (modTime f s).cfg = s.cfg := rfl
@[simp] theorem modTime_line (f : TimeSt → TimeSt) (s : State) : (modTime f s).line = s.line := rfl
@[simp] theorem modTime_fab (f : TimeSt → TimeSt) (s : State) : (modTime f s).fab = s.fab := rfl
@[simp] theorem modTime_eth (f : TimeSt → TimeSt) (s : State) : (modTime f s).eth = s.eth := rfl
@[simp] theorem modTime_basin (f : TimeSt → TimeSt) (s : State) : (modTime f s).basin = s.basin := rfl
@[simp] theorem modTime_oper (f : TimeSt → TimeSt) (s : State) : (modTime f s).oper = s.oper := rfl
@[simp] theorem modTime_mems (f : TimeSt → TimeSt) (s : State) : (modTime f s).mems = s.mems := rfl
@[simp] theorem modTime_tagMismatch (f : TimeSt → TimeSt) (s : State) : (modTime f s).tagMismatch = s.tagMismatch := rfl
@[simp] theorem modTime_softRepairs (f : TimeSt → TimeSt) (s : State) : (modTime f s).softRepairs = s.softRepairs := rfl
@[simp] theorem modTime_repairQueue (f : TimeSt → TimeSt) (s : State) : (modTime f s).repairQueue = s.repairQueue := rfl
@[simp] theorem modTime_nv (f : TimeSt → TimeSt) (s : State) : (modTime f s).nv = s.nv := rfl
@[simp] theorem modTime_fuses (f : TimeSt → TimeSt) (s : State) : (modTime f s).fuses = s.fuses := rfl
@[simp] theorem modTime_fuseShadow (f : TimeSt → TimeSt) (s : State) : (modTime f s).fuseShadow = s.fuseShadow := rfl
@[simp] theorem modTime_aon (f : TimeSt → TimeSt) (s : State) : (modTime f s).aon = s.aon := rfl
@[simp] theorem modTime_diag (f : TimeSt → TimeSt) (s : State) : (modTime f s).diag = s.diag := rfl
@[simp] theorem modTime_out (f : TimeSt → TimeSt) (s : State) : (modTime f s).out = s.out := rfl

/-! ### modTact -/

@[simp] theorem modTact_pending (f : TactSt → TactSt) (s : State) : (modTact f s).pending = s.pending := rfl
@[simp] theorem modTact_now (f : TactSt → TactSt) (s : State) : (modTact f s).now = s.now := rfl
@[simp] theorem modTact_free (f : TactSt → TactSt) (s : State) : (modTact f s).free = s.free := rfl
@[simp] theorem modTact_islands (f : TactSt → TactSt) (s : State) : (modTact f s).islands = s.islands := rfl
@[simp] theorem modTact_host (f : TactSt → TactSt) (s : State) : (modTact f s).host = s.host := rfl
@[simp] theorem modTact_mgmt (f : TactSt → TactSt) (s : State) : (modTact f s).mgmt = s.mgmt := rfl
@[simp] theorem modTact_time (f : TactSt → TactSt) (s : State) : (modTact f s).time = s.time := rfl
@[simp] theorem modTact_tact (f : TactSt → TactSt) (s : State) : (modTact f s).tact = f s.tact := rfl
@[simp] theorem modTact_daq (f : TactSt → TactSt) (s : State) : (modTact f s).daq = s.daq := rfl
@[simp] theorem modTact_pwr (f : TactSt → TactSt) (s : State) : (modTact f s).pwr = s.pwr := rfl
@[simp] theorem modTact_clk (f : TactSt → TactSt) (s : State) : (modTact f s).clk = s.clk := rfl
@[simp] theorem modTact_therm (f : TactSt → TactSt) (s : State) : (modTact f s).therm = s.therm := rfl
@[simp] theorem modTact_cfg (f : TactSt → TactSt) (s : State) : (modTact f s).cfg = s.cfg := rfl
@[simp] theorem modTact_line (f : TactSt → TactSt) (s : State) : (modTact f s).line = s.line := rfl
@[simp] theorem modTact_fab (f : TactSt → TactSt) (s : State) : (modTact f s).fab = s.fab := rfl
@[simp] theorem modTact_eth (f : TactSt → TactSt) (s : State) : (modTact f s).eth = s.eth := rfl
@[simp] theorem modTact_basin (f : TactSt → TactSt) (s : State) : (modTact f s).basin = s.basin := rfl
@[simp] theorem modTact_oper (f : TactSt → TactSt) (s : State) : (modTact f s).oper = s.oper := rfl
@[simp] theorem modTact_mems (f : TactSt → TactSt) (s : State) : (modTact f s).mems = s.mems := rfl
@[simp] theorem modTact_tagMismatch (f : TactSt → TactSt) (s : State) : (modTact f s).tagMismatch = s.tagMismatch := rfl
@[simp] theorem modTact_softRepairs (f : TactSt → TactSt) (s : State) : (modTact f s).softRepairs = s.softRepairs := rfl
@[simp] theorem modTact_repairQueue (f : TactSt → TactSt) (s : State) : (modTact f s).repairQueue = s.repairQueue := rfl
@[simp] theorem modTact_nv (f : TactSt → TactSt) (s : State) : (modTact f s).nv = s.nv := rfl
@[simp] theorem modTact_fuses (f : TactSt → TactSt) (s : State) : (modTact f s).fuses = s.fuses := rfl
@[simp] theorem modTact_fuseShadow (f : TactSt → TactSt) (s : State) : (modTact f s).fuseShadow = s.fuseShadow := rfl
@[simp] theorem modTact_aon (f : TactSt → TactSt) (s : State) : (modTact f s).aon = s.aon := rfl
@[simp] theorem modTact_diag (f : TactSt → TactSt) (s : State) : (modTact f s).diag = s.diag := rfl
@[simp] theorem modTact_out (f : TactSt → TactSt) (s : State) : (modTact f s).out = s.out := rfl

/-! ### modDaq -/

@[simp] theorem modDaq_pending (f : DaqSt → DaqSt) (s : State) : (modDaq f s).pending = s.pending := rfl
@[simp] theorem modDaq_now (f : DaqSt → DaqSt) (s : State) : (modDaq f s).now = s.now := rfl
@[simp] theorem modDaq_free (f : DaqSt → DaqSt) (s : State) : (modDaq f s).free = s.free := rfl
@[simp] theorem modDaq_islands (f : DaqSt → DaqSt) (s : State) : (modDaq f s).islands = s.islands := rfl
@[simp] theorem modDaq_host (f : DaqSt → DaqSt) (s : State) : (modDaq f s).host = s.host := rfl
@[simp] theorem modDaq_mgmt (f : DaqSt → DaqSt) (s : State) : (modDaq f s).mgmt = s.mgmt := rfl
@[simp] theorem modDaq_time (f : DaqSt → DaqSt) (s : State) : (modDaq f s).time = s.time := rfl
@[simp] theorem modDaq_tact (f : DaqSt → DaqSt) (s : State) : (modDaq f s).tact = s.tact := rfl
@[simp] theorem modDaq_daq (f : DaqSt → DaqSt) (s : State) : (modDaq f s).daq = f s.daq := rfl
@[simp] theorem modDaq_pwr (f : DaqSt → DaqSt) (s : State) : (modDaq f s).pwr = s.pwr := rfl
@[simp] theorem modDaq_clk (f : DaqSt → DaqSt) (s : State) : (modDaq f s).clk = s.clk := rfl
@[simp] theorem modDaq_therm (f : DaqSt → DaqSt) (s : State) : (modDaq f s).therm = s.therm := rfl
@[simp] theorem modDaq_cfg (f : DaqSt → DaqSt) (s : State) : (modDaq f s).cfg = s.cfg := rfl
@[simp] theorem modDaq_line (f : DaqSt → DaqSt) (s : State) : (modDaq f s).line = s.line := rfl
@[simp] theorem modDaq_fab (f : DaqSt → DaqSt) (s : State) : (modDaq f s).fab = s.fab := rfl
@[simp] theorem modDaq_eth (f : DaqSt → DaqSt) (s : State) : (modDaq f s).eth = s.eth := rfl
@[simp] theorem modDaq_basin (f : DaqSt → DaqSt) (s : State) : (modDaq f s).basin = s.basin := rfl
@[simp] theorem modDaq_oper (f : DaqSt → DaqSt) (s : State) : (modDaq f s).oper = s.oper := rfl
@[simp] theorem modDaq_mems (f : DaqSt → DaqSt) (s : State) : (modDaq f s).mems = s.mems := rfl
@[simp] theorem modDaq_tagMismatch (f : DaqSt → DaqSt) (s : State) : (modDaq f s).tagMismatch = s.tagMismatch := rfl
@[simp] theorem modDaq_softRepairs (f : DaqSt → DaqSt) (s : State) : (modDaq f s).softRepairs = s.softRepairs := rfl
@[simp] theorem modDaq_repairQueue (f : DaqSt → DaqSt) (s : State) : (modDaq f s).repairQueue = s.repairQueue := rfl
@[simp] theorem modDaq_nv (f : DaqSt → DaqSt) (s : State) : (modDaq f s).nv = s.nv := rfl
@[simp] theorem modDaq_fuses (f : DaqSt → DaqSt) (s : State) : (modDaq f s).fuses = s.fuses := rfl
@[simp] theorem modDaq_fuseShadow (f : DaqSt → DaqSt) (s : State) : (modDaq f s).fuseShadow = s.fuseShadow := rfl
@[simp] theorem modDaq_aon (f : DaqSt → DaqSt) (s : State) : (modDaq f s).aon = s.aon := rfl
@[simp] theorem modDaq_diag (f : DaqSt → DaqSt) (s : State) : (modDaq f s).diag = s.diag := rfl
@[simp] theorem modDaq_out (f : DaqSt → DaqSt) (s : State) : (modDaq f s).out = s.out := rfl

/-! ### modPwr -/

@[simp] theorem modPwr_pending (f : PwrSt → PwrSt) (s : State) : (modPwr f s).pending = s.pending := rfl
@[simp] theorem modPwr_now (f : PwrSt → PwrSt) (s : State) : (modPwr f s).now = s.now := rfl
@[simp] theorem modPwr_free (f : PwrSt → PwrSt) (s : State) : (modPwr f s).free = s.free := rfl
@[simp] theorem modPwr_islands (f : PwrSt → PwrSt) (s : State) : (modPwr f s).islands = s.islands := rfl
@[simp] theorem modPwr_host (f : PwrSt → PwrSt) (s : State) : (modPwr f s).host = s.host := rfl
@[simp] theorem modPwr_mgmt (f : PwrSt → PwrSt) (s : State) : (modPwr f s).mgmt = s.mgmt := rfl
@[simp] theorem modPwr_time (f : PwrSt → PwrSt) (s : State) : (modPwr f s).time = s.time := rfl
@[simp] theorem modPwr_tact (f : PwrSt → PwrSt) (s : State) : (modPwr f s).tact = s.tact := rfl
@[simp] theorem modPwr_daq (f : PwrSt → PwrSt) (s : State) : (modPwr f s).daq = s.daq := rfl
@[simp] theorem modPwr_pwr (f : PwrSt → PwrSt) (s : State) : (modPwr f s).pwr = f s.pwr := rfl
@[simp] theorem modPwr_clk (f : PwrSt → PwrSt) (s : State) : (modPwr f s).clk = s.clk := rfl
@[simp] theorem modPwr_therm (f : PwrSt → PwrSt) (s : State) : (modPwr f s).therm = s.therm := rfl
@[simp] theorem modPwr_cfg (f : PwrSt → PwrSt) (s : State) : (modPwr f s).cfg = s.cfg := rfl
@[simp] theorem modPwr_line (f : PwrSt → PwrSt) (s : State) : (modPwr f s).line = s.line := rfl
@[simp] theorem modPwr_fab (f : PwrSt → PwrSt) (s : State) : (modPwr f s).fab = s.fab := rfl
@[simp] theorem modPwr_eth (f : PwrSt → PwrSt) (s : State) : (modPwr f s).eth = s.eth := rfl
@[simp] theorem modPwr_basin (f : PwrSt → PwrSt) (s : State) : (modPwr f s).basin = s.basin := rfl
@[simp] theorem modPwr_oper (f : PwrSt → PwrSt) (s : State) : (modPwr f s).oper = s.oper := rfl
@[simp] theorem modPwr_mems (f : PwrSt → PwrSt) (s : State) : (modPwr f s).mems = s.mems := rfl
@[simp] theorem modPwr_tagMismatch (f : PwrSt → PwrSt) (s : State) : (modPwr f s).tagMismatch = s.tagMismatch := rfl
@[simp] theorem modPwr_softRepairs (f : PwrSt → PwrSt) (s : State) : (modPwr f s).softRepairs = s.softRepairs := rfl
@[simp] theorem modPwr_repairQueue (f : PwrSt → PwrSt) (s : State) : (modPwr f s).repairQueue = s.repairQueue := rfl
@[simp] theorem modPwr_nv (f : PwrSt → PwrSt) (s : State) : (modPwr f s).nv = s.nv := rfl
@[simp] theorem modPwr_fuses (f : PwrSt → PwrSt) (s : State) : (modPwr f s).fuses = s.fuses := rfl
@[simp] theorem modPwr_fuseShadow (f : PwrSt → PwrSt) (s : State) : (modPwr f s).fuseShadow = s.fuseShadow := rfl
@[simp] theorem modPwr_aon (f : PwrSt → PwrSt) (s : State) : (modPwr f s).aon = s.aon := rfl
@[simp] theorem modPwr_diag (f : PwrSt → PwrSt) (s : State) : (modPwr f s).diag = s.diag := rfl
@[simp] theorem modPwr_out (f : PwrSt → PwrSt) (s : State) : (modPwr f s).out = s.out := rfl

/-! ### modClk -/

@[simp] theorem modClk_pending (f : ClkSt → ClkSt) (s : State) : (modClk f s).pending = s.pending := rfl
@[simp] theorem modClk_now (f : ClkSt → ClkSt) (s : State) : (modClk f s).now = s.now := rfl
@[simp] theorem modClk_free (f : ClkSt → ClkSt) (s : State) : (modClk f s).free = s.free := rfl
@[simp] theorem modClk_islands (f : ClkSt → ClkSt) (s : State) : (modClk f s).islands = s.islands := rfl
@[simp] theorem modClk_host (f : ClkSt → ClkSt) (s : State) : (modClk f s).host = s.host := rfl
@[simp] theorem modClk_mgmt (f : ClkSt → ClkSt) (s : State) : (modClk f s).mgmt = s.mgmt := rfl
@[simp] theorem modClk_time (f : ClkSt → ClkSt) (s : State) : (modClk f s).time = s.time := rfl
@[simp] theorem modClk_tact (f : ClkSt → ClkSt) (s : State) : (modClk f s).tact = s.tact := rfl
@[simp] theorem modClk_daq (f : ClkSt → ClkSt) (s : State) : (modClk f s).daq = s.daq := rfl
@[simp] theorem modClk_pwr (f : ClkSt → ClkSt) (s : State) : (modClk f s).pwr = s.pwr := rfl
@[simp] theorem modClk_clk (f : ClkSt → ClkSt) (s : State) : (modClk f s).clk = f s.clk := rfl
@[simp] theorem modClk_therm (f : ClkSt → ClkSt) (s : State) : (modClk f s).therm = s.therm := rfl
@[simp] theorem modClk_cfg (f : ClkSt → ClkSt) (s : State) : (modClk f s).cfg = s.cfg := rfl
@[simp] theorem modClk_line (f : ClkSt → ClkSt) (s : State) : (modClk f s).line = s.line := rfl
@[simp] theorem modClk_fab (f : ClkSt → ClkSt) (s : State) : (modClk f s).fab = s.fab := rfl
@[simp] theorem modClk_eth (f : ClkSt → ClkSt) (s : State) : (modClk f s).eth = s.eth := rfl
@[simp] theorem modClk_basin (f : ClkSt → ClkSt) (s : State) : (modClk f s).basin = s.basin := rfl
@[simp] theorem modClk_oper (f : ClkSt → ClkSt) (s : State) : (modClk f s).oper = s.oper := rfl
@[simp] theorem modClk_mems (f : ClkSt → ClkSt) (s : State) : (modClk f s).mems = s.mems := rfl
@[simp] theorem modClk_tagMismatch (f : ClkSt → ClkSt) (s : State) : (modClk f s).tagMismatch = s.tagMismatch := rfl
@[simp] theorem modClk_softRepairs (f : ClkSt → ClkSt) (s : State) : (modClk f s).softRepairs = s.softRepairs := rfl
@[simp] theorem modClk_repairQueue (f : ClkSt → ClkSt) (s : State) : (modClk f s).repairQueue = s.repairQueue := rfl
@[simp] theorem modClk_nv (f : ClkSt → ClkSt) (s : State) : (modClk f s).nv = s.nv := rfl
@[simp] theorem modClk_fuses (f : ClkSt → ClkSt) (s : State) : (modClk f s).fuses = s.fuses := rfl
@[simp] theorem modClk_fuseShadow (f : ClkSt → ClkSt) (s : State) : (modClk f s).fuseShadow = s.fuseShadow := rfl
@[simp] theorem modClk_aon (f : ClkSt → ClkSt) (s : State) : (modClk f s).aon = s.aon := rfl
@[simp] theorem modClk_diag (f : ClkSt → ClkSt) (s : State) : (modClk f s).diag = s.diag := rfl
@[simp] theorem modClk_out (f : ClkSt → ClkSt) (s : State) : (modClk f s).out = s.out := rfl

/-! ### modTherm -/

@[simp] theorem modTherm_pending (f : ThermSt → ThermSt) (s : State) : (modTherm f s).pending = s.pending := rfl
@[simp] theorem modTherm_now (f : ThermSt → ThermSt) (s : State) : (modTherm f s).now = s.now := rfl
@[simp] theorem modTherm_free (f : ThermSt → ThermSt) (s : State) : (modTherm f s).free = s.free := rfl
@[simp] theorem modTherm_islands (f : ThermSt → ThermSt) (s : State) : (modTherm f s).islands = s.islands := rfl
@[simp] theorem modTherm_host (f : ThermSt → ThermSt) (s : State) : (modTherm f s).host = s.host := rfl
@[simp] theorem modTherm_mgmt (f : ThermSt → ThermSt) (s : State) : (modTherm f s).mgmt = s.mgmt := rfl
@[simp] theorem modTherm_time (f : ThermSt → ThermSt) (s : State) : (modTherm f s).time = s.time := rfl
@[simp] theorem modTherm_tact (f : ThermSt → ThermSt) (s : State) : (modTherm f s).tact = s.tact := rfl
@[simp] theorem modTherm_daq (f : ThermSt → ThermSt) (s : State) : (modTherm f s).daq = s.daq := rfl
@[simp] theorem modTherm_pwr (f : ThermSt → ThermSt) (s : State) : (modTherm f s).pwr = s.pwr := rfl
@[simp] theorem modTherm_clk (f : ThermSt → ThermSt) (s : State) : (modTherm f s).clk = s.clk := rfl
@[simp] theorem modTherm_therm (f : ThermSt → ThermSt) (s : State) : (modTherm f s).therm = f s.therm := rfl
@[simp] theorem modTherm_cfg (f : ThermSt → ThermSt) (s : State) : (modTherm f s).cfg = s.cfg := rfl
@[simp] theorem modTherm_line (f : ThermSt → ThermSt) (s : State) : (modTherm f s).line = s.line := rfl
@[simp] theorem modTherm_fab (f : ThermSt → ThermSt) (s : State) : (modTherm f s).fab = s.fab := rfl
@[simp] theorem modTherm_eth (f : ThermSt → ThermSt) (s : State) : (modTherm f s).eth = s.eth := rfl
@[simp] theorem modTherm_basin (f : ThermSt → ThermSt) (s : State) : (modTherm f s).basin = s.basin := rfl
@[simp] theorem modTherm_oper (f : ThermSt → ThermSt) (s : State) : (modTherm f s).oper = s.oper := rfl
@[simp] theorem modTherm_mems (f : ThermSt → ThermSt) (s : State) : (modTherm f s).mems = s.mems := rfl
@[simp] theorem modTherm_tagMismatch (f : ThermSt → ThermSt) (s : State) : (modTherm f s).tagMismatch = s.tagMismatch := rfl
@[simp] theorem modTherm_softRepairs (f : ThermSt → ThermSt) (s : State) : (modTherm f s).softRepairs = s.softRepairs := rfl
@[simp] theorem modTherm_repairQueue (f : ThermSt → ThermSt) (s : State) : (modTherm f s).repairQueue = s.repairQueue := rfl
@[simp] theorem modTherm_nv (f : ThermSt → ThermSt) (s : State) : (modTherm f s).nv = s.nv := rfl
@[simp] theorem modTherm_fuses (f : ThermSt → ThermSt) (s : State) : (modTherm f s).fuses = s.fuses := rfl
@[simp] theorem modTherm_fuseShadow (f : ThermSt → ThermSt) (s : State) : (modTherm f s).fuseShadow = s.fuseShadow := rfl
@[simp] theorem modTherm_aon (f : ThermSt → ThermSt) (s : State) : (modTherm f s).aon = s.aon := rfl
@[simp] theorem modTherm_diag (f : ThermSt → ThermSt) (s : State) : (modTherm f s).diag = s.diag := rfl
@[simp] theorem modTherm_out (f : ThermSt → ThermSt) (s : State) : (modTherm f s).out = s.out := rfl

/-! ### modCfg -/

@[simp] theorem modCfg_pending (f : CfgSt → CfgSt) (s : State) : (modCfg f s).pending = s.pending := rfl
@[simp] theorem modCfg_now (f : CfgSt → CfgSt) (s : State) : (modCfg f s).now = s.now := rfl
@[simp] theorem modCfg_free (f : CfgSt → CfgSt) (s : State) : (modCfg f s).free = s.free := rfl
@[simp] theorem modCfg_islands (f : CfgSt → CfgSt) (s : State) : (modCfg f s).islands = s.islands := rfl
@[simp] theorem modCfg_host (f : CfgSt → CfgSt) (s : State) : (modCfg f s).host = s.host := rfl
@[simp] theorem modCfg_mgmt (f : CfgSt → CfgSt) (s : State) : (modCfg f s).mgmt = s.mgmt := rfl
@[simp] theorem modCfg_time (f : CfgSt → CfgSt) (s : State) : (modCfg f s).time = s.time := rfl
@[simp] theorem modCfg_tact (f : CfgSt → CfgSt) (s : State) : (modCfg f s).tact = s.tact := rfl
@[simp] theorem modCfg_daq (f : CfgSt → CfgSt) (s : State) : (modCfg f s).daq = s.daq := rfl
@[simp] theorem modCfg_pwr (f : CfgSt → CfgSt) (s : State) : (modCfg f s).pwr = s.pwr := rfl
@[simp] theorem modCfg_clk (f : CfgSt → CfgSt) (s : State) : (modCfg f s).clk = s.clk := rfl
@[simp] theorem modCfg_therm (f : CfgSt → CfgSt) (s : State) : (modCfg f s).therm = s.therm := rfl
@[simp] theorem modCfg_cfg (f : CfgSt → CfgSt) (s : State) : (modCfg f s).cfg = f s.cfg := rfl
@[simp] theorem modCfg_line (f : CfgSt → CfgSt) (s : State) : (modCfg f s).line = s.line := rfl
@[simp] theorem modCfg_fab (f : CfgSt → CfgSt) (s : State) : (modCfg f s).fab = s.fab := rfl
@[simp] theorem modCfg_eth (f : CfgSt → CfgSt) (s : State) : (modCfg f s).eth = s.eth := rfl
@[simp] theorem modCfg_basin (f : CfgSt → CfgSt) (s : State) : (modCfg f s).basin = s.basin := rfl
@[simp] theorem modCfg_oper (f : CfgSt → CfgSt) (s : State) : (modCfg f s).oper = s.oper := rfl
@[simp] theorem modCfg_mems (f : CfgSt → CfgSt) (s : State) : (modCfg f s).mems = s.mems := rfl
@[simp] theorem modCfg_tagMismatch (f : CfgSt → CfgSt) (s : State) : (modCfg f s).tagMismatch = s.tagMismatch := rfl
@[simp] theorem modCfg_softRepairs (f : CfgSt → CfgSt) (s : State) : (modCfg f s).softRepairs = s.softRepairs := rfl
@[simp] theorem modCfg_repairQueue (f : CfgSt → CfgSt) (s : State) : (modCfg f s).repairQueue = s.repairQueue := rfl
@[simp] theorem modCfg_nv (f : CfgSt → CfgSt) (s : State) : (modCfg f s).nv = s.nv := rfl
@[simp] theorem modCfg_fuses (f : CfgSt → CfgSt) (s : State) : (modCfg f s).fuses = s.fuses := rfl
@[simp] theorem modCfg_fuseShadow (f : CfgSt → CfgSt) (s : State) : (modCfg f s).fuseShadow = s.fuseShadow := rfl
@[simp] theorem modCfg_aon (f : CfgSt → CfgSt) (s : State) : (modCfg f s).aon = s.aon := rfl
@[simp] theorem modCfg_diag (f : CfgSt → CfgSt) (s : State) : (modCfg f s).diag = s.diag := rfl
@[simp] theorem modCfg_out (f : CfgSt → CfgSt) (s : State) : (modCfg f s).out = s.out := rfl

/-! ### modLine -/

@[simp] theorem modLine_pending (f : LineSt → LineSt) (s : State) : (modLine f s).pending = s.pending := rfl
@[simp] theorem modLine_now (f : LineSt → LineSt) (s : State) : (modLine f s).now = s.now := rfl
@[simp] theorem modLine_free (f : LineSt → LineSt) (s : State) : (modLine f s).free = s.free := rfl
@[simp] theorem modLine_islands (f : LineSt → LineSt) (s : State) : (modLine f s).islands = s.islands := rfl
@[simp] theorem modLine_host (f : LineSt → LineSt) (s : State) : (modLine f s).host = s.host := rfl
@[simp] theorem modLine_mgmt (f : LineSt → LineSt) (s : State) : (modLine f s).mgmt = s.mgmt := rfl
@[simp] theorem modLine_time (f : LineSt → LineSt) (s : State) : (modLine f s).time = s.time := rfl
@[simp] theorem modLine_tact (f : LineSt → LineSt) (s : State) : (modLine f s).tact = s.tact := rfl
@[simp] theorem modLine_daq (f : LineSt → LineSt) (s : State) : (modLine f s).daq = s.daq := rfl
@[simp] theorem modLine_pwr (f : LineSt → LineSt) (s : State) : (modLine f s).pwr = s.pwr := rfl
@[simp] theorem modLine_clk (f : LineSt → LineSt) (s : State) : (modLine f s).clk = s.clk := rfl
@[simp] theorem modLine_therm (f : LineSt → LineSt) (s : State) : (modLine f s).therm = s.therm := rfl
@[simp] theorem modLine_cfg (f : LineSt → LineSt) (s : State) : (modLine f s).cfg = s.cfg := rfl
@[simp] theorem modLine_line (f : LineSt → LineSt) (s : State) : (modLine f s).line = f s.line := rfl
@[simp] theorem modLine_fab (f : LineSt → LineSt) (s : State) : (modLine f s).fab = s.fab := rfl
@[simp] theorem modLine_eth (f : LineSt → LineSt) (s : State) : (modLine f s).eth = s.eth := rfl
@[simp] theorem modLine_basin (f : LineSt → LineSt) (s : State) : (modLine f s).basin = s.basin := rfl
@[simp] theorem modLine_oper (f : LineSt → LineSt) (s : State) : (modLine f s).oper = s.oper := rfl
@[simp] theorem modLine_mems (f : LineSt → LineSt) (s : State) : (modLine f s).mems = s.mems := rfl
@[simp] theorem modLine_tagMismatch (f : LineSt → LineSt) (s : State) : (modLine f s).tagMismatch = s.tagMismatch := rfl
@[simp] theorem modLine_softRepairs (f : LineSt → LineSt) (s : State) : (modLine f s).softRepairs = s.softRepairs := rfl
@[simp] theorem modLine_repairQueue (f : LineSt → LineSt) (s : State) : (modLine f s).repairQueue = s.repairQueue := rfl
@[simp] theorem modLine_nv (f : LineSt → LineSt) (s : State) : (modLine f s).nv = s.nv := rfl
@[simp] theorem modLine_fuses (f : LineSt → LineSt) (s : State) : (modLine f s).fuses = s.fuses := rfl
@[simp] theorem modLine_fuseShadow (f : LineSt → LineSt) (s : State) : (modLine f s).fuseShadow = s.fuseShadow := rfl
@[simp] theorem modLine_aon (f : LineSt → LineSt) (s : State) : (modLine f s).aon = s.aon := rfl
@[simp] theorem modLine_diag (f : LineSt → LineSt) (s : State) : (modLine f s).diag = s.diag := rfl
@[simp] theorem modLine_out (f : LineSt → LineSt) (s : State) : (modLine f s).out = s.out := rfl

/-! ### modFab -/

@[simp] theorem modFab_pending (f : FabSt → FabSt) (s : State) : (modFab f s).pending = s.pending := rfl
@[simp] theorem modFab_now (f : FabSt → FabSt) (s : State) : (modFab f s).now = s.now := rfl
@[simp] theorem modFab_free (f : FabSt → FabSt) (s : State) : (modFab f s).free = s.free := rfl
@[simp] theorem modFab_islands (f : FabSt → FabSt) (s : State) : (modFab f s).islands = s.islands := rfl
@[simp] theorem modFab_host (f : FabSt → FabSt) (s : State) : (modFab f s).host = s.host := rfl
@[simp] theorem modFab_mgmt (f : FabSt → FabSt) (s : State) : (modFab f s).mgmt = s.mgmt := rfl
@[simp] theorem modFab_time (f : FabSt → FabSt) (s : State) : (modFab f s).time = s.time := rfl
@[simp] theorem modFab_tact (f : FabSt → FabSt) (s : State) : (modFab f s).tact = s.tact := rfl
@[simp] theorem modFab_daq (f : FabSt → FabSt) (s : State) : (modFab f s).daq = s.daq := rfl
@[simp] theorem modFab_pwr (f : FabSt → FabSt) (s : State) : (modFab f s).pwr = s.pwr := rfl
@[simp] theorem modFab_clk (f : FabSt → FabSt) (s : State) : (modFab f s).clk = s.clk := rfl
@[simp] theorem modFab_therm (f : FabSt → FabSt) (s : State) : (modFab f s).therm = s.therm := rfl
@[simp] theorem modFab_cfg (f : FabSt → FabSt) (s : State) : (modFab f s).cfg = s.cfg := rfl
@[simp] theorem modFab_line (f : FabSt → FabSt) (s : State) : (modFab f s).line = s.line := rfl
@[simp] theorem modFab_fab (f : FabSt → FabSt) (s : State) : (modFab f s).fab = f s.fab := rfl
@[simp] theorem modFab_eth (f : FabSt → FabSt) (s : State) : (modFab f s).eth = s.eth := rfl
@[simp] theorem modFab_basin (f : FabSt → FabSt) (s : State) : (modFab f s).basin = s.basin := rfl
@[simp] theorem modFab_oper (f : FabSt → FabSt) (s : State) : (modFab f s).oper = s.oper := rfl
@[simp] theorem modFab_mems (f : FabSt → FabSt) (s : State) : (modFab f s).mems = s.mems := rfl
@[simp] theorem modFab_tagMismatch (f : FabSt → FabSt) (s : State) : (modFab f s).tagMismatch = s.tagMismatch := rfl
@[simp] theorem modFab_softRepairs (f : FabSt → FabSt) (s : State) : (modFab f s).softRepairs = s.softRepairs := rfl
@[simp] theorem modFab_repairQueue (f : FabSt → FabSt) (s : State) : (modFab f s).repairQueue = s.repairQueue := rfl
@[simp] theorem modFab_nv (f : FabSt → FabSt) (s : State) : (modFab f s).nv = s.nv := rfl
@[simp] theorem modFab_fuses (f : FabSt → FabSt) (s : State) : (modFab f s).fuses = s.fuses := rfl
@[simp] theorem modFab_fuseShadow (f : FabSt → FabSt) (s : State) : (modFab f s).fuseShadow = s.fuseShadow := rfl
@[simp] theorem modFab_aon (f : FabSt → FabSt) (s : State) : (modFab f s).aon = s.aon := rfl
@[simp] theorem modFab_diag (f : FabSt → FabSt) (s : State) : (modFab f s).diag = s.diag := rfl
@[simp] theorem modFab_out (f : FabSt → FabSt) (s : State) : (modFab f s).out = s.out := rfl

/-! ### modBasin -/

@[simp] theorem modBasin_pending (f : BasinSt → BasinSt) (s : State) : (modBasin f s).pending = s.pending := rfl
@[simp] theorem modBasin_now (f : BasinSt → BasinSt) (s : State) : (modBasin f s).now = s.now := rfl
@[simp] theorem modBasin_free (f : BasinSt → BasinSt) (s : State) : (modBasin f s).free = s.free := rfl
@[simp] theorem modBasin_islands (f : BasinSt → BasinSt) (s : State) : (modBasin f s).islands = s.islands := rfl
@[simp] theorem modBasin_host (f : BasinSt → BasinSt) (s : State) : (modBasin f s).host = s.host := rfl
@[simp] theorem modBasin_mgmt (f : BasinSt → BasinSt) (s : State) : (modBasin f s).mgmt = s.mgmt := rfl
@[simp] theorem modBasin_time (f : BasinSt → BasinSt) (s : State) : (modBasin f s).time = s.time := rfl
@[simp] theorem modBasin_tact (f : BasinSt → BasinSt) (s : State) : (modBasin f s).tact = s.tact := rfl
@[simp] theorem modBasin_daq (f : BasinSt → BasinSt) (s : State) : (modBasin f s).daq = s.daq := rfl
@[simp] theorem modBasin_pwr (f : BasinSt → BasinSt) (s : State) : (modBasin f s).pwr = s.pwr := rfl
@[simp] theorem modBasin_clk (f : BasinSt → BasinSt) (s : State) : (modBasin f s).clk = s.clk := rfl
@[simp] theorem modBasin_therm (f : BasinSt → BasinSt) (s : State) : (modBasin f s).therm = s.therm := rfl
@[simp] theorem modBasin_cfg (f : BasinSt → BasinSt) (s : State) : (modBasin f s).cfg = s.cfg := rfl
@[simp] theorem modBasin_line (f : BasinSt → BasinSt) (s : State) : (modBasin f s).line = s.line := rfl
@[simp] theorem modBasin_fab (f : BasinSt → BasinSt) (s : State) : (modBasin f s).fab = s.fab := rfl
@[simp] theorem modBasin_eth (f : BasinSt → BasinSt) (s : State) : (modBasin f s).eth = s.eth := rfl
@[simp] theorem modBasin_basin (f : BasinSt → BasinSt) (s : State) : (modBasin f s).basin = f s.basin := rfl
@[simp] theorem modBasin_oper (f : BasinSt → BasinSt) (s : State) : (modBasin f s).oper = s.oper := rfl
@[simp] theorem modBasin_mems (f : BasinSt → BasinSt) (s : State) : (modBasin f s).mems = s.mems := rfl
@[simp] theorem modBasin_tagMismatch (f : BasinSt → BasinSt) (s : State) : (modBasin f s).tagMismatch = s.tagMismatch := rfl
@[simp] theorem modBasin_softRepairs (f : BasinSt → BasinSt) (s : State) : (modBasin f s).softRepairs = s.softRepairs := rfl
@[simp] theorem modBasin_repairQueue (f : BasinSt → BasinSt) (s : State) : (modBasin f s).repairQueue = s.repairQueue := rfl
@[simp] theorem modBasin_nv (f : BasinSt → BasinSt) (s : State) : (modBasin f s).nv = s.nv := rfl
@[simp] theorem modBasin_fuses (f : BasinSt → BasinSt) (s : State) : (modBasin f s).fuses = s.fuses := rfl
@[simp] theorem modBasin_fuseShadow (f : BasinSt → BasinSt) (s : State) : (modBasin f s).fuseShadow = s.fuseShadow := rfl
@[simp] theorem modBasin_aon (f : BasinSt → BasinSt) (s : State) : (modBasin f s).aon = s.aon := rfl
@[simp] theorem modBasin_diag (f : BasinSt → BasinSt) (s : State) : (modBasin f s).diag = s.diag := rfl
@[simp] theorem modBasin_out (f : BasinSt → BasinSt) (s : State) : (modBasin f s).out = s.out := rfl

/-! ### modAon -/

@[simp] theorem modAon_pending (f : AonSt → AonSt) (s : State) : (modAon f s).pending = s.pending := rfl
@[simp] theorem modAon_now (f : AonSt → AonSt) (s : State) : (modAon f s).now = s.now := rfl
@[simp] theorem modAon_free (f : AonSt → AonSt) (s : State) : (modAon f s).free = s.free := rfl
@[simp] theorem modAon_islands (f : AonSt → AonSt) (s : State) : (modAon f s).islands = s.islands := rfl
@[simp] theorem modAon_host (f : AonSt → AonSt) (s : State) : (modAon f s).host = s.host := rfl
@[simp] theorem modAon_mgmt (f : AonSt → AonSt) (s : State) : (modAon f s).mgmt = s.mgmt := rfl
@[simp] theorem modAon_time (f : AonSt → AonSt) (s : State) : (modAon f s).time = s.time := rfl
@[simp] theorem modAon_tact (f : AonSt → AonSt) (s : State) : (modAon f s).tact = s.tact := rfl
@[simp] theorem modAon_daq (f : AonSt → AonSt) (s : State) : (modAon f s).daq = s.daq := rfl
@[simp] theorem modAon_pwr (f : AonSt → AonSt) (s : State) : (modAon f s).pwr = s.pwr := rfl
@[simp] theorem modAon_clk (f : AonSt → AonSt) (s : State) : (modAon f s).clk = s.clk := rfl
@[simp] theorem modAon_therm (f : AonSt → AonSt) (s : State) : (modAon f s).therm = s.therm := rfl
@[simp] theorem modAon_cfg (f : AonSt → AonSt) (s : State) : (modAon f s).cfg = s.cfg := rfl
@[simp] theorem modAon_line (f : AonSt → AonSt) (s : State) : (modAon f s).line = s.line := rfl
@[simp] theorem modAon_fab (f : AonSt → AonSt) (s : State) : (modAon f s).fab = s.fab := rfl
@[simp] theorem modAon_eth (f : AonSt → AonSt) (s : State) : (modAon f s).eth = s.eth := rfl
@[simp] theorem modAon_basin (f : AonSt → AonSt) (s : State) : (modAon f s).basin = s.basin := rfl
@[simp] theorem modAon_oper (f : AonSt → AonSt) (s : State) : (modAon f s).oper = s.oper := rfl
@[simp] theorem modAon_mems (f : AonSt → AonSt) (s : State) : (modAon f s).mems = s.mems := rfl
@[simp] theorem modAon_tagMismatch (f : AonSt → AonSt) (s : State) : (modAon f s).tagMismatch = s.tagMismatch := rfl
@[simp] theorem modAon_softRepairs (f : AonSt → AonSt) (s : State) : (modAon f s).softRepairs = s.softRepairs := rfl
@[simp] theorem modAon_repairQueue (f : AonSt → AonSt) (s : State) : (modAon f s).repairQueue = s.repairQueue := rfl
@[simp] theorem modAon_nv (f : AonSt → AonSt) (s : State) : (modAon f s).nv = s.nv := rfl
@[simp] theorem modAon_fuses (f : AonSt → AonSt) (s : State) : (modAon f s).fuses = s.fuses := rfl
@[simp] theorem modAon_fuseShadow (f : AonSt → AonSt) (s : State) : (modAon f s).fuseShadow = s.fuseShadow := rfl
@[simp] theorem modAon_aon (f : AonSt → AonSt) (s : State) : (modAon f s).aon = f s.aon := rfl
@[simp] theorem modAon_diag (f : AonSt → AonSt) (s : State) : (modAon f s).diag = s.diag := rfl
@[simp] theorem modAon_out (f : AonSt → AonSt) (s : State) : (modAon f s).out = s.out := rfl

end Sys2Proof.Machine
end

