-- ==== Sys2Proof/Laws/Ops.lean ====
section
/-! SUPPORT. Each shared operation of Machine/Ops.lean, said once: what it can change, when a request is executed, and what
its mailbox and its journal entry then show. -/

set_option maxRecDepth 4000

namespace Sys2Proof.Machine

/-! ### What stays the same -/

theorem Unchanged.trans {a : List Part} {s t u : State} (h1 : Unchanged a s t) (h2 : Unchanged a t u) : Unchanged a s u := by
  intro p hp
  have e1 := h1 p hp
  have e2 := h2 p hp
  cases p
  case host =>
    have e := congrArg (fun h : HostSt => { h with
      mbox := s.host.mbox, evq := s.host.evq, intStatus := s.host.intStatus, msixPending := s.host.msixPending }) e2
    exact e.trans e1
  case mgmt =>
    have e := congrArg (fun h : MgmtSt => { h with
      running := s.mgmt.running, waiting := s.mgmt.waiting, fabricQueue := s.mgmt.fabricQueue }) e2
    exact e.trans e1
  case fab =>
    have e := congrArg (fun h : FabSt => { h with
      seq := s.fab.seq, orig := s.fab.orig, extended := s.fab.extended, waiting := s.fab.waiting
      discards := s.fab.discards, egress := s.fab.egress }) e2
    exact e.trans e1
  case nv =>
    have e := congrArg (fun h : NvSt => { h with
      journal := s.nv.journal, writesSince := s.nv.writesSince }) e2
    exact e.trans e1
  case interrupts => exact ⟨e2.1.trans e1.1, e2.2.trans e1.2⟩
  case journal => exact ⟨e2.1.trans e1.1, e2.2.trans e1.2⟩
  case commands => exact ⟨e2.1.trans e1.1, e2.2.1.trans e1.2.1, e2.2.2.trans e1.2.2⟩
  case frames =>
    exact ⟨e2.1.trans e1.1, e2.2.1.trans e1.2.1, e2.2.2.1.trans e1.2.2.1, e2.2.2.2.1.trans e1.2.2.2.1,
      e2.2.2.2.2.1.trans e1.2.2.2.2.1, e2.2.2.2.2.2.trans e1.2.2.2.2.2⟩
  all_goals exact e2.trans e1

theorem Unchanged.mono {a b : List Part} {s t : State} (h : Unchanged a s t) (hab : ∀ p ∈ a, p ∈ b) : Unchanged b s t :=
  fun p hp => h p (fun hq => hp (hab p hq))

theorem Unchanged.refl (a : List Part) (s : State) : Unchanged a s s := by
  intro p _
  cases p <;> simp [Part.same]

theorem countDiscard_same (s : State) (i : Island) : Unchanged [.discards] s (countDiscard s i) := by
  intro p hp
  cases p
  case discards => simp at hp
  case islands =>
    show ((s.islands.modify _ _).map _) = _
    apply List.ext_getElem?
    intro k
    simp only [List.getElem?_map, List.getElem?_modify]
    cases s.islands[k]? with
    | none => rfl
    | some x =>
      simp only [Option.map_some]
      split <;> rfl
  all_goals first | rfl | exact ⟨rfl, rfl⟩ | exact ⟨rfl, rfl, rfl⟩ | exact ⟨rfl, rfl, rfl, rfl, rfl, rfl⟩

theorem msix_same (v : Nat) (s : State) : Unchanged [.interrupts, .out] s (msix v s) := by
  unfold msix
  split <;> (intro p hp; cases p <;> simp [Part.same, modHost, emitOut] at hp ⊢)

theorem msixIf_same (k v : Nat) (s : State) : Unchanged [.interrupts, .out] s (msixIf k v s) := by
  unfold msixIf
  split
  · exact msix_same v s
  · exact Unchanged.refl _ s

/-- A change of the event queue. -/
theorem evq_same (e : EvqSt) (s : State) : Unchanged [.events] s (modHost (fun h => { h with evq := e }) s) := by
  intro p hp
  cases p <;> simp [Part.same, modHost] at hp ⊢

theorem setInt_same (k : Nat) (s : State) : Unchanged [.interrupts] s (setInt k s) := by
  intro p hp
  cases p <;> simp [Part.same, modHost, setInt] at hp ⊢

theorem evqSignal_same (s : State) : Unchanged [.events, .interrupts, .out] s (evqSignal s) := by
  unfold evqSignal
  split
  · exact Unchanged.trans ((evq_same _ s).mono (by simp)) ((msixIf_same 16 33 _).mono (by simp))
  · exact Unchanged.refl _ s

theorem out_same (o : List Out) (s : State) : Unchanged [.out] s { s with out := o } := by
  intro p hp
  cases p <;> simp [Part.same] at hp ⊢

theorem evqDrain_same (s : State) : Unchanged [.events, .interrupts, .out] s (evqDrain s) := by
  unfold evqDrain
  split
  · exact Unchanged.refl _ s
  · simp only []
    have h1 : Unchanged [.events, .interrupts, .out] s
        { modHost (fun h => { h with evq := (flushEvents s.now s.host.evq.held s.host.evq).1 }) s with
          out := s.out ++ (flushEvents s.now s.host.evq.held s.host.evq).2 } :=
      Unchanged.trans ((evq_same _ s).mono (by simp)) ((out_same _ _).mono (by simp))
    split
    · exact h1
    · exact (h1.trans ((setInt_same 16 _).mono (by simp))).trans (evqSignal_same _)

/-- Raising an event changes the event queue, the interrupt bits, the outputs and the discard counts only. -/
theorem emit_same (code argB arg : Nat) (extra : List Word) (tb : Nat) (s : State) :
    Unchanged signalling s (emit code argB arg extra tb s) := by
  unfold emit
  simp only []
  split
  · exact (countDiscard_same s _).mono (by simp [signalling])
  · split
    · exact Unchanged.trans ((evq_same _ s).mono (by simp [signalling])) ((evqDrain_same _).mono (by simp [signalling]))
    · exact (evq_same _ s).mono (by simp [signalling])

theorem emitNow_same (code argB arg : Nat) (extra : List Word) (s : State) :
    Unchanged signalling s (emitNow code argB arg extra s) := emit_same code argB arg extra (tbNow s) s

theorem completionEvent_same (a : Agent) (op : Nat) (seq : BitVec 32) (st : BitVec 16) (s : State) :
    Unchanged signalling s (completionEvent a op seq st s) := by
  unfold completionEvent
  split
  · exact emitNow_same _ _ _ _ s
  · exact Unchanged.refl _ s

/-! ### Outputs, interrupts and events change HOSTIF, the outputs and the discard counts only -/

theorem msix_form (v : Nat) (s : State) : ∃ h o, msix v s = { s with host := h, out := o } := by
  unfold msix
  split
  · exact ⟨_, s.out, rfl⟩
  · exact ⟨s.host, _, rfl⟩

theorem msixIf_form (k v : Nat) (s : State) : ∃ h o, msixIf k v s = { s with host := h, out := o } := by
  unfold msixIf
  split
  · exact msix_form v s
  · exact ⟨s.host, s.out, rfl⟩

theorem raiseNmi_form (k : Nat) (s : State) : ∃ h o, raiseNmi k s = { s with host := h, out := o } := by
  unfold raiseNmi
  split
  · exact ⟨s.host, s.out, rfl⟩
  · obtain ⟨h, o, e⟩ := msix_form 0 (modHost (fun h => { h with nmiCause := setBit h.nmiCause k true }) s)
    exact ⟨h, o, by rw [e]; rfl⟩

theorem evqSignal_form (s : State) : ∃ h o, evqSignal s = { s with host := h, out := o } := by
  unfold evqSignal
  split
  · obtain ⟨h, o, e⟩ := msixIf_form 16 33
      (modHost (fun h => { h with evq := { h.evq with unsignalled := 0, firstUnsignalled := none } }) s)
    exact ⟨h, o, by rw [e]; rfl⟩
  · exact ⟨s.host, s.out, rfl⟩

theorem evqDrain_form (s : State) : ∃ h o, evqDrain s = { s with host := h, out := o } := by
  unfold evqDrain
  split
  · exact ⟨s.host, s.out, rfl⟩
  · simp only []
    split
    · exact ⟨_, _, rfl⟩
    · obtain ⟨h, o, e⟩ := evqSignal_form (setInt 16 { modHost (fun h => { h with
        evq := (flushEvents s.now s.host.evq.held s.host.evq).1 }) s with
          out := s.out ++ (flushEvents s.now s.host.evq.held s.host.evq).2 })
      exact ⟨h, o, by rw [e]; rfl⟩

theorem emit_form (code argB arg : Nat) (extra : List Word) (tb : Nat) (s : State) :
    ∃ is h o, emit code argB arg extra tb s = { s with islands := is, host := h, out := o } := by
  unfold emit
  simp only []
  split
  · exact ⟨_, s.host, s.out, rfl⟩
  · split
    · obtain ⟨h, o, e⟩ := evqDrain_form (modHost (fun h => { h with
        evq := { h.evq with held := h.evq.held ++ [eventWord0 code argB arg extra.length tb :: extra] } }) s)
      exact ⟨s.islands, h, o, by rw [e]; rfl⟩
    · exact ⟨s.islands, _, s.out, rfl⟩

theorem emitNow_form (code argB arg : Nat) (extra : List Word) (s : State) :
    ∃ is h o, emitNow code argB arg extra s = { s with islands := is, host := h, out := o } :=
  emit_form code argB arg extra (tbNow s) s

theorem completionEvent_form (a : Agent) (op : Nat) (seq : BitVec 32) (st : BitVec 16) (s : State) :
    ∃ is h o, completionEvent a op seq st s = { s with islands := is, host := h, out := o } := by
  unfold completionEvent
  split
  · exact emitNow_form _ _ _ _ s
  · exact ⟨s.islands, s.host, s.out, rfl⟩

/-! ### Frames that the node originates change the fabric, the outputs and the discard counts only -/

/-- A frame that a port takes, or does not: only the buffers, the discard counts and the outputs change. -/
theorem toPort_form (p c len : Nat) (up : Bool) (leave : Nat → Out) (s : State) :
    ∃ is f o, toPort p c len up leave s = { s with islands := is, fab := f, out := o } := by
  unfold toPort
  split
  · exact ⟨_, s.fab, s.out, rfl⟩
  · split
    · exact ⟨s.islands, s.fab, s.out, rfl⟩
    · simp only []
      split
      · exact ⟨s.islands, _, s.out, rfl⟩
      · exact ⟨s.islands, _, _, rfl⟩

theorem sendDual_form (h : Hdr) (ws : List Word) (s : State) :
    ∃ is f o, sendDual h ws s = { s with islands := is, fab := f, out := o } := by
  unfold sendDual
  extract_lets go
  generalize (if crosses s h.dest then [0, 1, 2] else [0, 1]) = l
  induction l generalizing s with
  | nil => exact ⟨s.islands, s.fab, s.out, rfl⟩
  | cons p l ih =>
    obtain ⟨is, f, o, e⟩ := toPort_form p h.tc (flitsOf ws) (portUp s p) (fun wait =>
      .frame p (containersOf h.tc (mkFrame { h with westward := p == 1, xring := p == 2 } (if p = 2 then 0 else p)
        s.fab.ring (if h.tc = 0 then wait else 0) ws))) s
    obtain ⟨is2, f2, o2, e2⟩ := ih { s with islands := is, fab := f, out := o }
    refine ⟨is2, f2, o2, ?_⟩
    rw [List.foldl_cons, show go s p = { s with islands := is, fab := f, out := o } from e, e2]

theorem admitFrame_form (w : WaitFrame) (s : State) :
    ∃ is f o, admitFrame w s = { s with islands := is, fab := f, out := o } := by
  have key : ∀ (h : Hdr) (x : State), (∃ f, x = { s with fab := f }) →
      ∃ is f o, sendDual h w.words x = { s with islands := is, fab := f, out := o } := by
    intro h x ⟨f, e⟩
    obtain ⟨is, f2, o, e2⟩ := sendDual_form h w.words x
    exact ⟨is, f2, o, by rw [e2, e]⟩
  unfold admitFrame
  simp only []
  split
  · exact key _ _ ⟨_, rfl⟩
  · exact key _ _ ⟨_, rfl⟩

theorem originate_form (w : WaitFrame) (s : State) :
    ∃ is f o, originate w s = { s with islands := is, fab := f, out := o } := by
  unfold originate
  repeat' split
  all_goals first
    | exact admitFrame_form w s
    | exact ⟨_, s.fab, s.out, rfl⟩
    | exact ⟨s.islands, _, s.out, rfl⟩

/-! ### Answers -/

theorem mboxDone_form (n : Nat) (seq : BitVec 32) (noMsix : Bool) (st : BitVec 16) (ws : List Word) (dup : Bool) (s : State) :
    ∃ h o, mboxDone n seq noMsix st ws dup s = { s with host := h, out := o } := by
  unfold mboxDone
  simp only []
  split
  · exact ⟨_, s.out, rfl⟩
  · exact (msixIf_form n (1 + n) _).imp (fun h => Exists.imp (fun o e => by rw [e]; rfl))

theorem answer_form (rq : Request) (seq : BitVec 32) (st : BitVec 16) (ws : List Word) (dup : Bool) (s : State) :
    ∃ is h f o, answer rq seq st ws dup s = { s with islands := is, host := h, fab := f, out := o } := by
  unfold answer
  split
  · obtain ⟨is, f, o, e⟩ := originate_form
      (frameFor 3 3 rq.srcNode s.cfg.activeGen (mboxHeader seq 0 0 st ws.length true dup :: ws)) s
    exact ⟨is, s.host, f, o, e⟩
  · exact ⟨s.islands, _, s.fab, s.out, rfl⟩
  · obtain ⟨h, o, e⟩ := mboxDone_form rq.mailbox.val seq rq.noMsix st ws dup s
    exact ⟨s.islands, h, s.fab, o, e⟩

/-- Settling a command changes, besides what its own part has changed: the mailboxes and the event queue, the running
commands, the journal, the fabric's frames, the discard counts and the outputs. -/
theorem settle_form (op : Nat) (rq : Request) (r : Reply) : ∃ is h m f n o, settle op rq r =
    { r.st with islands := is, host := h, mgmt := m, fab := f, nv := n, out := o } := by
  unfold settle
  simp only []
  have go : ∀ x : State, ∃ is h f o, (if (rq.eventOnDone && !r.long) = true then
      completionEvent rq.agent op rq.seq r.status (answer rq rq.seq r.status r.words false x)
      else answer rq rq.seq r.status r.words false x) = { x with islands := is, host := h, fab := f, out := o } := by
    intro x
    obtain ⟨is, h, f, o, e⟩ := answer_form rq rq.seq r.status r.words false x
    split
    · rw [e]
      obtain ⟨is2, h2, o2, e2⟩ := completionEvent_form rq.agent op rq.seq r.status
        { x with islands := is, host := h, fab := f, out := o }
      exact ⟨is2, h2, f, o2, e2⟩
    · exact ⟨is, h, f, o, e⟩
  by_cases hl : r.long = true
  · rw [if_pos hl]
    split
    · exact ⟨r.st.islands, r.st.host, _, r.st.fab, _, r.st.out, rfl⟩
    · obtain ⟨is, h, f, o, e⟩ := go _
      exact ⟨is, h, _, f, _, o, e⟩
  · rw [if_neg hl]
    split
    · exact ⟨r.st.islands, r.st.host, r.st.mgmt, r.st.fab, _, r.st.out, rfl⟩
    · obtain ⟨is, h, f, o, e⟩ := go _
      exact ⟨is, h, _, f, _, o, e⟩

/-! ### Answering leaves the rest of the state alone -/

/-- A change of what the node keeps about the frames that it originates and sends. -/
theorem frames_same (sq : Nat) (og : List Time) (ex : Bool) (wt : List WaitFrame) (ds : List Nat) (eg : List Egress)
    (s : State) : Unchanged [.frames] s
      { s with fab := { s.fab with
        seq := sq, orig := og, extended := ex, waiting := wt, discards := ds, egress := eg } } := by
  intro p hp
  cases p <;> simp [Part.same] at hp ⊢

/-- A frame that a port takes, or does not, changes its buffers, the discard counts and the outputs. -/
theorem toPort_same (p c len : Nat) (up : Bool) (leave : Nat → Out) (s : State) :
    Unchanged [.discards, .frames, .out] s (toPort p c len up leave s) := by
  have keep := frames_same s.fab.seq s.fab.orig s.fab.extended s.fab.waiting
  unfold toPort
  split
  · exact (countDiscard_same s _).mono (by simp)
  · split
    · exact Unchanged.refl _ s
    · simp only []
      split
      · exact (keep _ _ s).mono (by simp)
      · exact Unchanged.trans ((keep s.fab.discards _ s).mono (by simp)) ((out_same _ _).mono (by simp))

theorem sendDual_same (h : Hdr) (ws : List Word) (s : State) : Unchanged [.discards, .frames, .out] s (sendDual h ws s) := by
  unfold sendDual
  extract_lets go
  generalize (if crosses s h.dest then [0, 1, 2] else [0, 1]) = l
  induction l generalizing s with
  | nil => exact Unchanged.refl _ s
  | cons p l ih => exact Unchanged.trans (toPort_same p h.tc _ _ _ s) (ih (go s p))

theorem admitFrame_same (w : WaitFrame) (s : State) : Unchanged [.discards, .frames, .out] s (admitFrame w s) := by
  unfold admitFrame
  simp only []
  split
  · exact Unchanged.trans ((frames_same _ _ true _ _ s.fab.egress s).mono (by simp)) (sendDual_same _ _ _)
  · exact Unchanged.trans ((frames_same _ _ s.fab.extended s.fab.waiting s.fab.discards s.fab.egress s).mono (by simp))
      (sendDual_same _ _ _)

theorem originate_same (w : WaitFrame) (s : State) : Unchanged [.discards, .frames, .out] s (originate w s) := by
  have keep := fun wt ds => (frames_same s.fab.seq s.fab.orig s.fab.extended wt ds s.fab.egress s).mono
    (b := [.discards, .frames, .out]) (by simp)
  unfold originate
  repeat' split
  all_goals first
    | exact (countDiscard_same s _).mono (by simp)
    | exact admitFrame_same w s
    | exact keep _ _

theorem modMbox_same (n : Nat) (f : Mailbox → Mailbox) (s : State) : Unchanged [.mailboxes] s (modMbox n f s) := by
  intro p hp
  cases p <;> simp [Part.same, modMbox, modHost] at hp ⊢

theorem mboxDone_same (n : Nat) (seq : BitVec 32) (noMsix : Bool) (st : BitVec 16) (ws : List Word) (dup : Bool) (s : State) :
    Unchanged [.mailboxes, .interrupts, .out] s (mboxDone n seq noMsix st ws dup s) := by
  unfold mboxDone
  simp only []
  have h := Unchanged.trans (((modMbox_same n (fun m => { m with
    payload := overlay m.payload ws, rspLen := ws.length, status := st, seq := seq, done := true, pending := false,
    duplicate := dup }) s).mono (by simp)))
    ((setInt_same n _).mono (b := [.mailboxes, .interrupts, .out]) (by simp))
  split
  · exact h
  · exact h.trans ((msixIf_same _ _ _).mono (by simp))

theorem answer_same (rq : Request) (seq : BitVec 32) (st : BitVec 16) (ws : List Word) (dup : Bool) (s : State) :
    Unchanged (signalling ++ [.mailboxes, .frames]) s (answer rq seq st ws dup s) := by
  unfold answer
  split
  · exact (originate_same _ s).mono (by simp [signalling])
  · exact (modMbox_same _ _ s).mono (by simp [signalling])
  · exact (mboxDone_same _ _ _ _ _ _ s).mono (by simp [signalling])

theorem journalAdd_same (e : JEntry) (s : State) : Unchanged [.journal] s (journalAdd e s) := by
  intro p hp
  cases p <;> simp [Part.same, journalAdd] at hp ⊢

/-- Settling a command changes what answering changes, besides what its own part has changed. -/
theorem settle_same (op : Nat) (rq : Request) (r : Reply) : Unchanged answering r.st (settle op rq r) := by
  have go : ∀ x : State, Unchanged answering x (if (rq.eventOnDone && !r.long) = true then
      completionEvent rq.agent op rq.seq r.status (answer rq rq.seq r.status r.words false x)
      else answer rq rq.seq r.status r.words false x) := by
    intro x
    have h := (answer_same rq rq.seq r.status r.words false x).mono (b := answering) (by simp [answering, signalling])
    split
    · exact h.trans ((completionEvent_same _ _ _ _ _).mono (by simp [answering, signalling]))
    · exact h
  have hj := fun e => (journalAdd_same e r.st).mono (b := answering) (by simp [answering])
  have hr : ∀ (x : State) (l : List Running), Unchanged answering x { x with mgmt := { x.mgmt with running := l } } := by
    intro x l p hp
    cases p <;> simp [Part.same, answering] at hp ⊢
  unfold settle
  simp only []
  by_cases hl : r.long = true
  · rw [if_pos hl]
    split
    · exact (hj _).trans (hr _ _)
    · exact ((hj _).trans (hr _ _)).trans (go _)
  · rw [if_neg hl]
    split
    · exact hj _
    · exact (hj _).trans (go _)

/-! ### The fields that settling a command leaves alone -/

@[simp] theorem settle_pending (op : Nat) (rq : Request) (r : Reply) : (settle op rq r).pending = r.st.pending := by
  obtain ⟨is, h, m, f, n, o, e⟩ := settle_form op rq r
  rw [e]

@[simp] theorem settle_now (op : Nat) (rq : Request) (r : Reply) : (settle op rq r).now = r.st.now := by
  obtain ⟨is, h, m, f, n, o, e⟩ := settle_form op rq r
  rw [e]

@[simp] theorem settle_free (op : Nat) (rq : Request) (r : Reply) : (settle op rq r).free = r.st.free := by
  obtain ⟨is, h, m, f, n, o, e⟩ := settle_form op rq r
  rw [e]

@[simp] theorem settle_time (op : Nat) (rq : Request) (r : Reply) : (settle op rq r).time = r.st.time := by
  obtain ⟨is, h, m, f, n, o, e⟩ := settle_form op rq r
  rw [e]

@[simp] theorem settle_tact (op : Nat) (rq : Request) (r : Reply) : (settle op rq r).tact = r.st.tact := by
  obtain ⟨is, h, m, f, n, o, e⟩ := settle_form op rq r
  rw [e]

@[simp] theorem settle_daq (op : Nat) (rq : Request) (r : Reply) : (settle op rq r).daq = r.st.daq := by
  obtain ⟨is, h, m, f, n, o, e⟩ := settle_form op rq r
  rw [e]

@[simp] theorem settle_pwr (op : Nat) (rq : Request) (r : Reply) : (settle op rq r).pwr = r.st.pwr := by
  obtain ⟨is, h, m, f, n, o, e⟩ := settle_form op rq r
  rw [e]

@[simp] theorem settle_clk (op : Nat) (rq : Request) (r : Reply) : (settle op rq r).clk = r.st.clk := by
  obtain ⟨is, h, m, f, n, o, e⟩ := settle_form op rq r
  rw [e]

@[simp] theorem settle_therm (op : Nat) (rq : Request) (r : Reply) : (settle op rq r).therm = r.st.therm := by
  obtain ⟨is, h, m, f, n, o, e⟩ := settle_form op rq r
  rw [e]

@[simp] theorem settle_cfg (op : Nat) (rq : Request) (r : Reply) : (settle op rq r).cfg = r.st.cfg := by
  obtain ⟨is, h, m, f, n, o, e⟩ := settle_form op rq r
  rw [e]

@[simp] theorem settle_line (op : Nat) (rq : Request) (r : Reply) : (settle op rq r).line = r.st.line := by
  obtain ⟨is, h, m, f, n, o, e⟩ := settle_form op rq r
  rw [e]

@[simp] theorem settle_eth (op : Nat) (rq : Request) (r : Reply) : (settle op rq r).eth = r.st.eth := by
  obtain ⟨is, h, m, f, n, o, e⟩ := settle_form op rq r
  rw [e]

@[simp] theorem settle_basin (op : Nat) (rq : Request) (r : Reply) : (settle op rq r).basin = r.st.basin := by
  obtain ⟨is, h, m, f, n, o, e⟩ := settle_form op rq r
  rw [e]

@[simp] theorem settle_oper (op : Nat) (rq : Request) (r : Reply) : (settle op rq r).oper = r.st.oper := by
  obtain ⟨is, h, m, f, n, o, e⟩ := settle_form op rq r
  rw [e]

@[simp] theorem settle_mems (op : Nat) (rq : Request) (r : Reply) : (settle op rq r).mems = r.st.mems := by
  obtain ⟨is, h, m, f, n, o, e⟩ := settle_form op rq r
  rw [e]

@[simp] theorem settle_tagMismatch (op : Nat) (rq : Request) (r : Reply) : (settle op rq r).tagMismatch = r.st.tagMismatch := by
  obtain ⟨is, h, m, f, n, o, e⟩ := settle_form op rq r
  rw [e]

@[simp] theorem settle_softRepairs (op : Nat) (rq : Request) (r : Reply) : (settle op rq r).softRepairs = r.st.softRepairs := by
  obtain ⟨is, h, m, f, n, o, e⟩ := settle_form op rq r
  rw [e]

@[simp] theorem settle_repairQueue (op : Nat) (rq : Request) (r : Reply) : (settle op rq r).repairQueue = r.st.repairQueue := by
  obtain ⟨is, h, m, f, n, o, e⟩ := settle_form op rq r
  rw [e]

@[simp] theorem settle_fuses (op : Nat) (rq : Request) (r : Reply) : (settle op rq r).fuses = r.st.fuses := by
  obtain ⟨is, h, m, f, n, o, e⟩ := settle_form op rq r
  rw [e]

@[simp] theorem settle_fuseShadow (op : Nat) (rq : Request) (r : Reply) : (settle op rq r).fuseShadow = r.st.fuseShadow := by
  obtain ⟨is, h, m, f, n, o, e⟩ := settle_form op rq r
  rw [e]

@[simp] theorem settle_aon (op : Nat) (rq : Request) (r : Reply) : (settle op rq r).aon = r.st.aon := by
  obtain ⟨is, h, m, f, n, o, e⟩ := settle_form op rq r
  rw [e]

@[simp] theorem settle_diag (op : Nat) (rq : Request) (r : Reply) : (settle op rq r).diag = r.st.diag := by
  obtain ⟨is, h, m, f, n, o, e⟩ := settle_form op rq r
  rw [e]

/-! ### When a request is executed -/

/-- A request that `accepts` lets through, of a length in range, is settled with what its own part answers. -/
theorem serve_accepted {op : Nat} {lenOk : Nat → Bool} {ownSupply : Bool} {routed : BitVec 16 → State → Bool}
    {own : State → Reply} {t : Time} {rq : Request} {s : State} (h : accepts op t rq s = true) (hl : lenOk rq.len = true) :
    serve op true lenOk ownSupply routed own t rq s = settle op rq (own (taken op t rq s)) := by
  simp only [accepts, arrives, Bool.and_eq_true, decide_eq_true_eq, Bool.not_eq_true', Option.isNone_iff_eq_none] at h
  obtain ⟨⟨⟨⟨⟨⟨⟨⟨⟨h1, h2⟩, h3⟩, h4⟩, h5⟩, h6⟩, h7⟩, h8⟩, h9⟩, h10⟩ := h
  have ej : journalFind (unpark rq (loadRequest op rq (tick t s))) rq.agent rq.srcNode rq.seq = none := by
    rw [← h5]
    unfold journalFind unpark loadRequest
    split <;> rfl
  have er : (unpark rq (loadRequest op rq (tick t s))).mgmt.recovery = false := by
    rw [← h8]
    unfold unpark loadRequest
    split <;> rfl
  have ea : allowed (unpark rq (loadRequest op rq (tick t s))) op rq.agent = true := by
    rw [← h9]
    unfold unpark loadRequest
    split <;> rfl
  have ep : (unpark rq (loadRequest op rq (tick t s))).pwr.sagWarn = false := by
    rw [← h10]
    unfold unpark loadRequest
    split <;> rfl
  have hn : ¬(255 < rq.len) := by omega
  have hb : ¬(rq.seq = 0 ∨ rq.bell ≠ rq.seq) := by
    rintro (hz | hz)
    · exact h3 hz
    · exact hz h4
  unfold serve taken
  simp only [h1, h2, Bool.not_true, Bool.false_eq_true, if_false, if_neg hb, ej, if_neg hn, h7, er, ea, hl, ep,
    Bool.false_and, Bool.or_self]

/-- What a request's own part sees differs from the state before by the clock, the request's mailbox and the waiting
requests. -/
theorem taken_form (op : Nat) (t : Time) (rq : Request) (s : State) : ∃ mb w q, taken op t rq s =
    { s with now := max s.now t, host := { s.host with mbox := mb }
             mgmt := { s.mgmt with waiting := w, fabricQueue := q } } := by
  unfold taken unpark loadRequest
  split
  · exact ⟨_, _, _, rfl⟩
  · exact ⟨_, _, _, rfl⟩
  · exact ⟨s.host.mbox, _, _, rfl⟩

theorem hasMailbox_taken (op : Nat) (t : Time) (rq : Request) (s : State) :
    hasMailbox rq (taken op t rq s) = hasMailbox rq s := by
  have h : (taken op t rq s).host.mbox.length = s.host.mbox.length := by
    unfold taken unpark loadRequest
    split
    · exact List.length_modify ..
    · exact List.length_modify ..
    · rfl
  unfold hasMailbox
  rw [h]

theorem taken_same (op : Nat) (t : Time) (rq : Request) (s : State) : Unchanged [.now, .mailboxes, .commands] s (taken op t rq s) := by
  obtain ⟨mb, w, q, e⟩ := taken_form op t rq s
  rw [e]
  intro p hp
  cases p <;> first | rfl | exact ⟨rfl, rfl⟩ | exact ⟨rfl, rfl, rfl⟩ |
    exact ⟨rfl, rfl, rfl, rfl, rfl, rfl⟩ | (exfalso; apply hp; decide)

/-- An island's registers are reached. -/
theorem reaching_up {op : Nat} {own : Request → State → Reply} {rq : Request} {s : State}
    (hp : (op / 256 == 0x33 && s.clk.gated.getLsbD (10 + fld (qword rq 1) 0 1)) = false)
    (hi : (targets op (qword rq 1)).all (isUp s) = true) : reaching op own rq s = own rq s := by
  unfold reaching
  simp only [hp, hi]
  simp

/-- A command that no check refuses is settled with its own part's answer. -/
theorem command_accepted {op : Nat} {lenOk : Nat → Bool} {own : Request → State → Reply} {t : Time} {rq : Request} {s : State}
    (h : accepts op t rq s = true) (hl : lenOk rq.len = true)
    (hr : reaching op own rq (taken op t rq s) = own rq (taken op t rq s)) :
    command op lenOk own t rq s = .next (settle op rq (own rq (taken op t rq s))) := by
  unfold command
  rw [serve_accepted h hl, hr]

theorem commandSupply_accepted {op : Nat} {lenOk : Nat → Bool} {own : Request → State → Reply} {t : Time} {rq : Request}
    {s : State} (h : accepts op t rq s = true) (hl : lenOk rq.len = true)
    (hr : reaching op own rq (taken op t rq s) = own rq (taken op t rq s)) :
    commandSupply op lenOk own t rq s = .next (settle op rq (own rq (taken op t rq s))) := by
  unfold commandSupply
  rw [serve_accepted h hl, hr]

/-- A command under `runs` is settled with its own part's answer on the state as taken. -/
theorem runs_command {op lo hi : Nat} {lenOk : Nat → Bool} {own : Request → State → Reply} {t : Time} {rq : Request}
    {s : State} (h : runs op lo hi t rq s = true) (hl : ∀ n, lo ≤ n → n ≤ hi → lenOk n = true) :
    command op lenOk own t rq s = .next (settle op rq (own rq (taken op t rq s))) := by
  simp only [runs, Bool.and_eq_true, decide_eq_true_eq, Bool.not_eq_true'] at h
  obtain ⟨⟨⟨⟨h1, h2⟩, h3⟩, h4⟩, h5⟩ := h
  obtain ⟨mb, w, q, e⟩ := taken_form op t rq s
  exact command_accepted h1 (hl _ h2 h3) (reaching_up (by rw [e]; exact h5) (by rw [e]; exact h4))

theorem runs_commandSupply {op lo hi : Nat} {lenOk : Nat → Bool} {own : Request → State → Reply} {t : Time} {rq : Request}
    {s : State} (h : runs op lo hi t rq s = true) (hl : ∀ n, lo ≤ n → n ≤ hi → lenOk n = true) :
    commandSupply op lenOk own t rq s = .next (settle op rq (own rq (taken op t rq s))) := by
  simp only [runs, Bool.and_eq_true, decide_eq_true_eq, Bool.not_eq_true'] at h
  obtain ⟨⟨⟨⟨h1, h2⟩, h3⟩, h4⟩, h5⟩ := h
  obtain ⟨mb, w, q, e⟩ := taken_form op t rq s
  exact commandSupply_accepted h1 (hl _ h2 h3) (reaching_up (by rw [e]; exact h5) (by rw [e]; exact h4))

/-! ### What the mailbox and the journal show -/

theorem overlay_take (old new : List Word) : (overlay old new).take new.length = new := by
  simp [overlay]

theorem evq_keeps_mbox (f : EvqSt → EvqSt) (s : State) :
    (modHost (fun h => { h with evq := f h.evq }) s).host.mbox = s.host.mbox := rfl

theorem msix_mbox (v : Nat) (s : State) : (msix v s).host.mbox = s.host.mbox := by
  unfold msix
  split <;> rfl

theorem msixIf_mbox (k v : Nat) (s : State) : (msixIf k v s).host.mbox = s.host.mbox := by
  unfold msixIf
  split
  · exact msix_mbox v s
  · rfl

theorem evqDrain_mbox (s : State) : (evqDrain s).host.mbox = s.host.mbox := by
  unfold evqDrain
  split
  · rfl
  · simp only []
    split
    · rfl
    · unfold evqSignal
      split
      · rw [msixIf_mbox]; rfl
      · rfl

theorem emit_mbox (code argB arg : Nat) (extra : List Word) (tb : Nat) (s : State) :
    (emit code argB arg extra tb s).host.mbox = s.host.mbox := by
  unfold emit
  simp only []
  split
  · rfl
  · split
    · rw [evqDrain_mbox]; rfl
    · rfl

theorem completionEvent_mbox (a : Agent) (op : Nat) (seq : BitVec 32) (st : BitVec 16) (s : State) :
    (completionEvent a op seq st s).host.mbox = s.host.mbox := by
  unfold completionEvent emitNow
  split
  · exact emit_mbox _ _ _ _ _ s
  · rfl

/-- The mailbox shows the response of a HOST or SPI request (R334 step 4). -/
theorem mboxDone_answered (rq : Request) (st : BitVec 16) (ws : List Word) (noMsix dup : Bool) (s : State)
    (hm : hasMailbox rq s = true) : answered rq st ws (mboxDone rq.mailbox.val rq.seq noMsix st ws dup s) := by
  have hlt : rq.mailbox.val < s.host.mbox.length := by simpa [hasMailbox] using hm
  have key : (mboxDone rq.mailbox.val rq.seq noMsix st ws dup s).host.mbox =
      s.host.mbox.modify rq.mailbox.val (fun m => { m with
        payload := overlay m.payload ws, rspLen := ws.length, status := st, seq := rq.seq, done := true, pending := false,
        duplicate := dup }) := by
    unfold mboxDone
    simp only []
    split
    · rfl
    · rw [msixIf_mbox]; rfl
  unfold answered
  rw [key]
  have hg : (s.host.mbox.modify rq.mailbox.val (fun m => { m with
      payload := overlay m.payload ws, rspLen := ws.length, status := st, seq := rq.seq, done := true, pending := false,
      duplicate := dup })).getD rq.mailbox.val default = { s.host.mbox[rq.mailbox.val] with
        payload := overlay s.host.mbox[rq.mailbox.val].payload ws, rspLen := ws.length, status := st, seq := rq.seq
        done := true, pending := false, duplicate := dup } := by
    rw [List.getD_eq_getElem?_getD, List.getElem?_modify]
    simp [List.getElem?_eq_getElem hlt]
  rw [hg]
  exact ⟨rfl, rfl, rfl, rfl, rfl, overlay_take _ _⟩

theorem answer_byMailbox {rq : Request} (hb : byMailbox rq = true) (seq : BitVec 32) (st : BitVec 16) (ws : List Word)
    (dup : Bool) (s : State) : answer rq seq st ws dup s = mboxDone rq.mailbox.val seq rq.noMsix st ws dup s := by
  unfold answer
  unfold byMailbox at hb
  split
  · rename_i h; rw [h] at hb; exact absurd hb (by decide)
  · rename_i h; rw [h] at hb; exact absurd hb (by decide)
  · rfl

/-- A settled command that does not answer late shows its response in its mailbox. -/
theorem settle_answered (op : Nat) (rq : Request) (r : Reply) (hb : byMailbox rq = true) (hm : hasMailbox rq r.st = true)
    (hl : r.late = false) : answered rq r.status r.words (settle op rq r) := by
  have key : ∀ x : State, hasMailbox rq x = true → answered rq r.status r.words
      (if (rq.eventOnDone && !r.long) = true then
        completionEvent rq.agent op rq.seq r.status (answer rq rq.seq r.status r.words false x)
        else answer rq rq.seq r.status r.words false x) := by
    intro x hx
    rw [answer_byMailbox hb]
    have h := mboxDone_answered rq r.status r.words rq.noMsix false x hx
    split
    · unfold answered at h ⊢
      rw [completionEvent_mbox]
      exact h
    · exact h
  unfold settle
  simp only [hl]
  by_cases hg : r.long = true
  · rw [if_pos hg]; exact key _ hm
  · rw [if_neg hg]; exact key _ hm

theorem answer_nv (rq : Request) (seq : BitVec 32) (st : BitVec 16) (ws : List Word) (dup : Bool) (s : State) :
    (answer rq seq st ws dup s).nv = s.nv := by
  obtain ⟨is, h, f, o, e⟩ := answer_form rq seq st ws dup s
  rw [e]

theorem completionEvent_nv (a : Agent) (op : Nat) (seq : BitVec 32) (st : BitVec 16) (s : State) :
    (completionEvent a op seq st s).nv = s.nv := by
  obtain ⟨is, h, o, e⟩ := completionEvent_form a op seq st s
  rw [e]

/-- The journal after a command is settled (R353). -/
theorem settle_journal (op : Nat) (rq : Request) (r : Reply) : (settle op rq r).nv =
    { r.st.nv with
      journal := ({ entryOf r.st op rq with
        steps := r.steps, stepsDone := r.done, state := outcomeState r, status := r.status
        durationUs := durationUs r.st rq.arrival } :: r.st.nv.journal).take 1024
      writesSince := r.st.nv.writesSince + 1 } := by
  unfold settle
  simp only []
  by_cases hg : r.long = true
  · rw [if_pos hg]
    repeat' split
    all_goals first | rfl | (rw [completionEvent_nv, answer_nv]; rfl) | (rw [answer_nv]; rfl)
  · rw [if_neg hg]
    repeat' split
    all_goals first | rfl | (rw [completionEvent_nv, answer_nv]; rfl) | (rw [answer_nv]; rfl)

theorem settle_journalled (op : Nat) (rq : Request) (r : Reply) :
    journalled op rq r.status (outcomeState r) (settle op rq r) := by
  unfold journalled
  rw [settle_journal]
  exact ⟨_, _, List.take_succ_cons, rfl, rfl, rfl, rfl, rfl⟩

theorem settle_running (op : Nat) (rq : Request) (r : Reply) : (settle op rq r).mgmt.running =
    if r.long then r.st.mgmt.running ++ [{
      agent := rq.agent, srcNode := rq.srcNode, seq := rq.seq, opcode := BitVec.ofNat 16 op, steps := r.steps
      holds := r.holds, ask := (if r.late then some rq else none), mute := false }]
    else r.st.mgmt.running := by
  have ha : ∀ x : State, (answer rq rq.seq r.status r.words false x).mgmt = x.mgmt := by
    intro x
    obtain ⟨is, h, f, o, e⟩ := answer_form rq rq.seq r.status r.words false x
    rw [e]
  have hc : ∀ x : State, (completionEvent rq.agent op rq.seq r.status x).mgmt = x.mgmt := by
    intro x
    obtain ⟨is, h, o, e⟩ := completionEvent_form rq.agent op rq.seq r.status x
    rw [e]
  obtain ⟨status, words, st, steps, done, long, holds, late⟩ := r
  unfold settle
  cases long <;> cases late <;> simp only [if_true, Bool.false_eq_true, if_false] <;> (repeat' split) <;>
    first | rfl | (rw [hc, ha]; done) | (rw [ha]; done) | (rw [hc, ha]; rfl) | (rw [ha]; rfl)

theorem settle_unchanged {parts : List Part} {s : State} (op : Nat) (rq : Request) (r : Reply)
    (h : Unchanged (parts ++ answering) s r.st) : Unchanged (parts ++ answering) s (settle op rq r) := by
  exact h.trans ((settle_same op rq r).mono (fun p hp => List.mem_append_right parts hp))

/-- How a command that is executed at once ends. -/
theorem completes_of {i : Instr} {op : Nat} {rq : Request} {words : List Word} {parts : List Part} {s : State}
    {post : State → Prop} {own : Request → State → Reply} {x u : State} {n : Nat}
    (he : exec i s = .next (settle op rq (own rq x))) (ho : own rq x = okaySteps (n + 1) words u)
    (hs : Unchanged (parts ++ answering) s u) (hm : hasMailbox rq u = hasMailbox rq s)
    (hp : post (settle op rq (okaySteps (n + 1) words u))) : completes i op rq words parts s post := by
  rw [ho] at he
  refine ⟨_, he, hp, settle_unchanged op rq _ hs, ?_, ?_⟩
  · have hj := settle_journalled op rq (okaySteps (n + 1) words u)
    have e : outcomeState (okaySteps (n + 1) words u) = .done := by simp [outcomeState, okaySteps]
    rw [e] at hj
    exact hj
  · intro hb hx
    exact settle_answered op rq (okaySteps (n + 1) words u) hb (hm.trans hx) rfl

/-- How a long command begins. -/
theorem begins_of {i : Instr} {op : Nat} {rq : Request} {holds : List Resource} {parts : List Part} {s : State}
    {post : State → Prop} {own : Request → State → Reply} {x u : State} {n : Nat}
    (he : exec i s = .next (settle op rq (own rq x))) (ho : own rq x = accepted n holds [] u)
    (hs : Unchanged (parts ++ answering) s u) (hm : hasMailbox rq u = hasMailbox rq s)
    (hp : post (settle op rq (accepted n holds [] u))) : begins i op rq holds parts s post := by
  rw [ho] at he
  refine ⟨_, he, hp, settle_unchanged op rq _ hs, ?_, ?_, ?_⟩
  · have hj := settle_journalled op rq (accepted n holds [] u)
    have e : outcomeState (accepted n holds [] u) = .running := by simp [outcomeState, accepted]
    rw [e] at hj
    exact hj
  · rw [settle_running, if_pos (show (accepted n holds [] u).long = true from rfl)]
    exact ⟨_, List.mem_append_right _ (List.mem_singleton.mpr rfl), rfl, rfl, rfl⟩
  · intro hb hx
    exact settle_answered op rq (accepted n holds [] u) hb (hm.trans hx) rfl

theorem checks_pass {cs : List (Bool × BitVec 16)} (h : ∀ c ∈ cs, c.1 = false) : checks cs = none := by
  induction cs with
  | nil => rfl
  | cons c cs ih =>
    unfold checks
    rw [if_neg (by rw [h c (by simp)]; simp)]
    exact ih (fun d hd => h d (List.mem_cons_of_mem _ hd))

/-- Own checks that all pass let the command go on (R358). -/
theorem guarded_pass {cs : List (Bool × BitVec 16)} {s : State} {go : Unit → Reply} (h : ∀ c ∈ cs, c.1 = false) :
    guarded cs s go = go () := by
  unfold guarded
  rw [checks_pass h]

theorem guardedIn_pass {img : Bool} {cs : List (Bool × BitVec 16)} {s : State} {go : Unit → Reply}
    (h : ∀ c ∈ cs, c.1 = false) : guardedIn img cs s go = go () := by
  unfold guardedIn checksIn
  rw [checks_pass]
  intro c hc
  cases img
  · exact h c hc
  · exact h c (List.mem_filter.mp hc).1

/-- What a request's own part leaves alone on the state as taken, it leaves alone on the state before. -/
theorem unchanged_taken {parts : List Part} {op : Nat} {t : Time} {rq : Request} {s u : State}
    (h : Unchanged (parts ++ answering) (taken op t rq s) u) : Unchanged (parts ++ answering) s u := by
  refine Unchanged.trans ((taken_same op t rq s).mono ?_) h
  intro p hp
  refine List.mem_append_right parts ?_
  revert p
  decide

/-- A command under `runs` whose own part answers `OK` completes. -/
theorem completes_command {i : Instr} {op lo hi : Nat} {lenOk : Nat → Bool} {rq : Request} {words : List Word}
    {parts : List Part} {t : Time} {s : State} {post : State → Prop} {own : Request → State → Reply} {u : State} {n : Nat}
    (he : exec i s = command op lenOk own t rq s) (h : runs op lo hi t rq s = true)
    (hl : ∀ n, lo ≤ n → n ≤ hi → lenOk n = true) (ho : own rq (taken op t rq s) = okaySteps (n + 1) words u)
    (hs : Unchanged (parts ++ answering) (taken op t rq s) u)
    (hm : u.host.mbox.length = (taken op t rq s).host.mbox.length)
    (hp : post (settle op rq (okaySteps (n + 1) words u))) : completes i op rq words parts s post := by
  refine completes_of (he.trans (runs_command h hl)) ho (unchanged_taken hs) ?_ hp
  rw [← hasMailbox_taken op t rq s]
  unfold hasMailbox
  rw [hm]

/-- A long command under `runs` whose own part answers `ACCEPTED` begins. -/
theorem begins_command {i : Instr} {op lo hi : Nat} {lenOk : Nat → Bool} {rq : Request} {holds : List Resource}
    {parts : List Part} {t : Time} {s : State} {post : State → Prop} {own : Request → State → Reply} {u : State} {n : Nat}
    (he : exec i s = command op lenOk own t rq s) (h : runs op lo hi t rq s = true)
    (hl : ∀ n, lo ≤ n → n ≤ hi → lenOk n = true) (ho : own rq (taken op t rq s) = accepted n holds [] u)
    (hs : Unchanged (parts ++ answering) (taken op t rq s) u)
    (hm : u.host.mbox.length = (taken op t rq s).host.mbox.length)
    (hp : post (settle op rq (accepted n holds [] u))) : begins i op rq holds parts s post := by
  refine begins_of (he.trans (runs_command h hl)) ho (unchanged_taken hs) ?_ hp
  rw [← hasMailbox_taken op t rq s]
  unfold hasMailbox
  rw [hm]

end Sys2Proof.Machine
end

