-- ==== Sys2Proof/Laws/Memory.lean ====
section
/-! SUPPORT. The basin's memory: every write keeps the canonical form, and reads after a write (R304, R424). A record of the
NV store that is written whole is valid (R440, R441). -/

namespace Sys2Proof.Machine

/-- An address below every listed one reads 0. -/
theorem readByte_below {m : List Host.Cell} {lo a : Nat} (h : memWfFrom lo m = true) (ha : a < lo) : readByte m a = 0#8 := by
  induction m generalizing lo with
  | nil => rfl
  | cons c cs ih =>
    simp only [memWfFrom, Bool.and_eq_true, decide_eq_true_eq] at h
    have hne : ¬(c.1 = a) := by omega
    simp only [readByte, if_neg hne]
    exact ih h.2 (by omega)

theorem memWfFrom_mono {m : List Host.Cell} {lo hi : Nat} (h : memWfFrom hi m = true) (hl : lo ≤ hi) :
    memWfFrom lo m = true := by
  cases m with
  | nil => rfl
  | cons c cs =>
    simp only [memWfFrom, Bool.and_eq_true, decide_eq_true_eq] at h ⊢
    exact ⟨⟨by omega, h.1.2⟩, h.2⟩

/-- A write of a byte keeps the canonical form. -/
theorem writeByte_wf {m : List Host.Cell} {lo a : Nat} (b : Byte) (h : memWfFrom lo m = true) (ha : lo ≤ a) :
    memWfFrom lo (writeByte m a b) = true := by
  induction m generalizing lo with
  | nil =>
    simp only [writeByte]
    split
    · rfl
    · rename_i hb
      simp [memWfFrom, ha, hb]
  | cons c cs ih =>
    simp only [memWfFrom, Bool.and_eq_true, decide_eq_true_eq] at h
    simp only [writeByte]
    split
    · rename_i hlt
      simp only [memWfFrom, Bool.and_eq_true, decide_eq_true_eq]
      exact ⟨h.1, ih h.2 (by omega)⟩
    · rename_i hge
      split
      · rename_i heq
        split
        · exact memWfFrom_mono h.2 (by omega)
        · rename_i hb
          simp only [memWfFrom, Bool.and_eq_true, decide_eq_true_eq]
          exact ⟨⟨ha, by simp [hb]⟩, by rw [← heq]; exact h.2⟩
      · split
        · simp only [memWfFrom, Bool.and_eq_true, decide_eq_true_eq]
          exact ⟨⟨by omega, h.1.2⟩, h.2⟩
        · rename_i hb
          simp only [memWfFrom, Bool.and_eq_true, decide_eq_true_eq]
          exact ⟨⟨ha, by simp [hb]⟩, ⟨by omega, h.1.2⟩, h.2⟩

/-- A read after a write of a byte gives the byte at its address and what stood before everywhere else. -/
theorem readByte_writeByte {m : List Host.Cell} {lo : Nat} (a x : Nat) (b : Byte) (h : memWfFrom lo m = true) :
    readByte (writeByte m a b) x = if x = a then b else readByte m x := by
  induction m generalizing lo with
  | nil =>
    simp only [writeByte]
    split
    · rename_i hb
      simp [readByte, hb]
    · simp only [readByte]
      by_cases hx : a = x
      · simp [hx]
      · simp [hx, Ne.symm hx]
  | cons c cs ih =>
    simp only [memWfFrom, Bool.and_eq_true, decide_eq_true_eq] at h
    simp only [writeByte]
    split
    · rename_i hlt
      simp only [readByte]
      by_cases hx : c.1 = x
      · have : ¬(x = a) := by omega
        simp [hx, this]
      · simp only [if_neg hx]
        exact ih h.2
    · split
      · rename_i heq
        by_cases hx : x = a
        · have hr : readByte cs a = 0#8 := readByte_below h.2 (by omega)
          split
          · rename_i hb
            simp [hx, hb, hr]
          · simp [readByte, hx]
        · have hc : ¬(c.1 = x) := by omega
          have hax : ¬(a = x) := fun e => hx e.symm
          split
          · simp [readByte, hc]
          · simp [readByte, hc, hax]
      · rename_i hge hne
        by_cases hx : x = a
        · have hr : readByte (c :: cs) a = 0#8 := by
            have hca : ¬(c.1 = a) := hne
            simp only [readByte, if_neg hca]
            exact readByte_below h.2 (by omega)
          split
          · rename_i hb
            rw [hx, hr, hb]
          · simp [readByte, hx]
        · have hax : ¬(a = x) := fun e => hx e.symm
          split
          · simp [hx]
          · rw [readByte, if_neg hax]

/-- A write of a word keeps the canonical form. -/
theorem writeWord_wf {m : List Host.Cell} (n : Nat) (w : Word) (h : memWf m = true) : memWf (writeWord m n w) = true := by
  unfold writeWord
  generalize List.range 16 = l
  induction l generalizing m with
  | nil => exact h
  | cons i l ih => exact ih (writeByte_wf _ h (by omega))

/-- A write of a word leaves every byte outside its 16 alone. -/
theorem readByte_writeWord {m : List Host.Cell} (n x : Nat) (w : Word) (h : memWf m = true)
    (hx : x < 16 * n ∨ 16 * n + 16 ≤ x) : readByte (writeWord m n w) x = readByte m x := by
  unfold writeWord
  have hl : ∀ i ∈ List.range 16, i < 16 := by simp
  generalize List.range 16 = l at hl
  induction l generalizing m with
  | nil => rfl
  | cons i l ih =>
    have hi : i < 16 := hl i (by simp)
    simp only [List.foldl_cons]
    rw [ih (writeByte_wf _ h (by omega)) (fun j hj => hl j (by simp [hj])), readByte_writeByte _ _ _ h]
    have : ¬(x = 16 * n + i) := by omega
    simp [this]

/-- Reset lists nothing. -/
theorem reset_memWf : memWf State.reset.basin.cells = true := rfl

/-! ### Records of the NV store -/

/-- Three 32-bit fields of a word stand side by side. -/
theorem or_fields {a b c : Nat} (ha : a < 2 ^ 32) (hb : b < 2 ^ 32) :
    0 ||| a <<< 0 ||| b <<< 32 ||| c <<< 64 = a + b * 2 ^ 32 + c * 2 ^ 64 := by
  have h1 : a ||| b <<< 32 = b <<< 32 + a := by rw [Nat.or_comm, Nat.shiftLeft_add_eq_or_of_lt ha]
  have h2 : b <<< 32 + a < 2 ^ 64 := by rw [Nat.shiftLeft_eq]; omega
  have h3 : (b <<< 32 + a) ||| c <<< 64 = c <<< 64 + (b <<< 32 + a) := by
    rw [Nat.or_comm, Nat.shiftLeft_add_eq_or_of_lt h2]
  rw [Nat.zero_or, Nat.shiftLeft_zero, h1, h3, Nat.shiftLeft_eq, Nat.shiftLeft_eq]
  omega

/-- A record that is written whole is valid (R440, R441). -/
theorem nvValid_nvCommit (header : Word) (payload : List Word) : nvValid header payload (nvCommit header payload) = true := by
  have ha : fld header 32 32 < 2 ^ 32 := by unfold fld; exact Nat.mod_lt _ (by decide)
  have hb := (nvCrc header payload).isLt
  have hw : (nvCommit header payload).toNat =
      fld header 32 32 + (nvCrc header payload).toNat * 2 ^ 32 + nvMark * 2 ^ 64 := by
    simp only [nvCommit, mkWord, List.foldl_cons, List.foldl_nil, BitVec.toNat_ofNat, Nat.mod_eq_of_lt ha,
      Nat.mod_eq_of_lt hb, show nvMark % 2 ^ 32 = nvMark from rfl, or_fields ha hb]
    unfold nvMark
    omega
  unfold nvValid
  generalize hc : nvCommit header payload = w at hw
  simp only [Bool.and_eq_true, beq_iff_eq]
  generalize fld header 32 32 = a at ha hw ⊢
  generalize (nvCrc header payload).toNat = b at hb hw ⊢
  simp only [fld, hw, nvMark, Nat.shiftRight_eq_div_pow]
  omega

end Sys2Proof.Machine
end

