-- ==== Sys2Proof/WellFormed.lean ====
section
/-! DEFINITION. Which commands are well formed: operands within the ranges that the manual's formats give them. The meanings
do not rest on it; what lies outside is no access, frame or reading that the hardware could bring. -/

namespace Sys2Proof

/-- A request as a mailbox can hold it (R331): at most 255 payload words; a doorbell that no later instant rings. -/
def Request.wf (t : Time) (rq : Request) : Bool := decide (rq.payload.length ≤ 255) && decide (rq.arrival ≤ t) &&
  decide (rq.len < 65536)

/-- A frame as a link carries it (R271): 1 to 512 flits, by one of three ports or of this node. -/
def Frame.wf (f : Frame) : Bool := decide (f.port ≤ 3) && decide (1 ≤ f.flits.length) && decide (f.flits.length ≤ 512)

/-- A TIME frame's fields (R203). -/
def TimeFrame.wf (f : TimeFrame) : Bool := decide (f.port ≤ 2) && decide (f.hops < 1024) && decide (f.rootState < 4)

/-- Bad bits of the bytes of a word: 16 bytes of 13 bits each (R424). -/
def badBitsWf (l : List Nat) : Bool := decide (l.length = 16) && l.all (fun n => decide (n ≤ 13))

/-- An access to BAR0 that is an aligned 32-bit register (R327, R328). -/
def offsetWf (o : Nat) : Bool := o % 4 == 0 && decide (o < 0x20000)

/-- The check of one command. -/
def Instr.wf (i : Instr) : Bool :=
  match i with
  | .powerOnReset _ => true
  | .coldStartRelease _ _ => true
  | .bootImageVerify _ _ _ => true
  | .basinInitDone _ => true
  | .resetNAssert _ _ => true
  | .resetNRelease _ _ => true
  | .sagWarning _ _ => true
  | .sagWarningClear _ => true
  | .sagCommandTimeout _ => true
  | .sagReset _ _ => true
  | .supplyRelease _ => true
  | .warmReset _ _ => true
  | .hostReset _ => true
  | .hibernateEntry _ => true
  | .mgmtFault _ _ _ => true
  | .watchdogExpiry _ _ => true
  | .mgmtTakeover _ _ => true
  | .standbyReady _ _ _ => true
  | .mgmtRestartAttempt _ _ => true
  | .aonThermalTrip _ => true
  | .thermalRestart _ => true
  | .doorbell _ _ _ _ => true
  | .longCommandComplete _ _ _ _ _ => true
  | .registerWrite _ o _ => offsetWf o
  | .bar0InvalidAccess _ => true
  | .protoErrRead _ => true
  | .evqLostRead _ => true
  | .dmaDroppedRead _ _ => true
  | .intStatusClear _ _ => true
  | .nmiCauseClear _ _ => true
  | .sagSeenClear _ _ => true
  | .evqHeadWrite _ _ _ => true
  | .dmaProdWrite _ _ _ => true
  | .dmaStart _ _ => true
  | .dmaStop _ _ => true
  | .dmaResume _ _ _ => true
  | .dmaResumeSkip _ _ => true
  | .bar2Read _ _ => true
  | .bar2Write _ => true
  | .spiTransaction _ _ data => decide (1 ≤ data.length) && decide (data.length ≤ 128)
  | .dmaWrite _ _ _ _ => true
  | .recBufferFlush _ _ => true
  | .evqModTimer _ => true
  | .chanConfig t rq => rq.wf t
  | .chanSetInput t rq => rq.wf t
  | .chanStatus t rq => rq.wf t
  | .chanSubstitute t rq => rq.wf t
  | .chanConfigBlank t rq => rq.wf t
  | .excConfig t rq => rq.wf t
  | .excStatus t rq => rq.wf t
  | .excLoopback t rq => rq.wf t
  | .filtConfig t rq => rq.wf t
  | .filtLoadBank t rq => rq.wf t
  | .filtSelectMode t rq => rq.wf t
  | .filtStart t rq => rq.wf t
  | .filtStop t rq => rq.wf t
  | .filtCrossfade t rq => rq.wf t
  | .filtSync t rq => rq.wf t
  | .filtStatus t rq => rq.wf t
  | .weaveLoad t rq => rq.wf t
  | .weaveStart t rq => rq.wf t
  | .weaveStop t rq => rq.wf t
  | .weaveStatus t rq => rq.wf t
  | .calConfig t rq => rq.wf t
  | .calStart t rq => rq.wf t
  | .calStop t rq => rq.wf t
  | .calRead t rq _ => rq.wf t
  | .calWrite t rq => rq.wf t
  | .calRestoreFactory t rq => rq.wf t
  | .recSubscribe t rq => rq.wf t
  | .recStatus t rq => rq.wf t
  | .timeGetTime t rq => rq.wf t
  | .timeStatus t rq => rq.wf t
  | .timeConfigDomain t rq => rq.wf t
  | .timeConfigServo t rq => rq.wf t
  | .timeSelectDomain t rq => rq.wf t
  | .timeClearFault t rq => rq.wf t
  | .timeSetAsym t rq => rq.wf t
  | .timeConfigRoot t rq => rq.wf t
  | .timeConfigHoldover t rq => rq.wf t
  | .timeConfigTod t rq => rq.wf t
  | .timeSetUtcOffset t rq => rq.wf t
  | .timeSet t rq => rq.wf t
  | .timeStepAccept t rq => rq.wf t
  | .timeStepLog t rq => rq.wf t
  | .tactArm t rq => rq.wf t
  | .tactCancel t rq => rq.wf t
  | .tactStatus t rq => rq.wf t
  | .tactConfigPin t rq => rq.wf t
  | .tactConfigPps t rq => rq.wf t
  | .tactConfigCapture t rq => rq.wf t
  | .tactReadCapture t rq => rq.wf t
  | .sysIdentify t rq => rq.wf t
  | .sysCmdStatus t rq => rq.wf t
  | .sysReset t rq => rq.wf t
  | .sysIslandReset t rq => rq.wf t
  | .sysLoadFirmware t rq _ => rq.wf t
  | .cfgStage t rq _ _ => rq.wf t
  | .cfgCommitAt t rq _ => rq.wf t
  | .cfgCancelCommit t rq _ => rq.wf t
  | .cfgReport t rq _ => rq.wf t
  | .cfgConfig t rq => rq.wf t
  | .laneConfig t rq => rq.wf t
  | .laneRetrain t rq => rq.wf t
  | .laneStatus t rq => rq.wf t
  | .slotStatus t rq => rq.wf t
  | .fabStatus t rq => rq.wf t
  | .fabProbe t rq _ => rq.wf t
  | .ethmConfig t rq => rq.wf t
  | .ethmPtpConfig t rq => rq.wf t
  | .ethmStatus t rq => rq.wf t
  | .basinConfigSegment t rq => rq.wf t
  | .basinClear t rq => rq.wf t
  | .basinFreeze t rq => rq.wf t
  | .basinRelease t rq => rq.wf t
  | .basinExtract t rq => rq.wf t
  | .basinSetWindow t rq => rq.wf t
  | .basinExport t rq => rq.wf t
  | .basinStatus t rq => rq.wf t
  | .operConfig t rq => rq.wf t
  | .operStart t rq => rq.wf t
  | .operStop t rq => rq.wf t
  | .operStatus t rq => rq.wf t
  | .clkStatus t rq => rq.wf t
  | .clkCounter t rq => rq.wf t
  | .clkGate t rq => rq.wf t
  | .clkSetPriority t rq => rq.wf t
  | .pwrSetOp t rq => rq.wf t
  | .pwrStatus t rq _ => rq.wf t
  | .pwrSetState t rq _ => rq.wf t
  | .thermConfig t rq => rq.wf t
  | .thermStatus t rq => rq.wf t
  | .memStatus t rq => rq.wf t
  | .memCommitRepair t rq _ => rq.wf t
  | .nvsStatus t rq => rq.wf t
  | .nvsRefresh t rq => rq.wf t
  | .fuseRead t rq => rq.wf t
  | .fuseProgram t rq _ _ => rq.wf t
  | .fuseLock t rq => rq.wf t
  | .logConfig t rq => rq.wf t
  | .logRead t rq => rq.wf t
  | .diagLoopback t rq => rq.wf t
  | .diagSelftest t rq _ => rq.wf t
  | .diagCapture t rq _ => rq.wf t
  | .unknownCommand t rq _ => rq.wf t
  | .filterOutput _ _ _ => true
  | .recordDispatch _ _ => true
  | .pendingSettingApply _ _ => true
  | .settlingDelayEnd _ _ => true
  | .blankAssert _ _ _ => true
  | .blankRelease _ _ => true
  | .blankStuck _ _ => true
  | .tblkWindowEnd _ _ => true
  | .syncNEdge _ _ => true
  | .groupSync _ _ => true
  | .channelFailureDetect _ _ _ _ _ => true
  | .spareConnect _ _ => true
  | .spareSettleEnd _ _ => true
  | .substituteBistDone _ _ _ => true
  | .refValidityChange _ _ _ => true
  | .pathMismatchCheck _ _ _ _ => true
  | .excComplianceChange _ _ _ => true
  | .excTrip _ _ _ => true
  | .excOverload _ _ _ _ => true
  | .leadDropMeasure _ _ _ _ => true
  | .acPolaritySwap _ _ => true
  | .acDeadTimeEnd _ _ => true
  | .loopbackEnd _ _ _ _ _ => true
  | .weaveArmedStart _ _ => true
  | .strokeBoundary _ _ => true
  | .roundStart _ _ => true
  | .calSlotStart _ _ _ => true
  | .calSpareCheckDone _ _ => true
  | .calOverlapClose _ _ => true
  | .calHandoverSwitch _ _ => true
  | .calMeasurementDone _ _ _ _ => true
  | .spareRecheckDone _ _ _ => true
  | .calOverlapLimit _ _ => true
  | .calHandbackDelayed _ _ => true
  | .tempCompUpdate _ _ => true
  | .timeFrameRx _ f => f.wf
  | .ptpMessageRx _ _ _ _ _ _ => true
  | .ptpMessageTimer _ _ _ => true
  | .ppsInEdge _ => true
  | .todMessageRx _ _ => true
  | .domainSignalLoss _ _ => true
  | .timeCopySwitch _ _ => true
  | .timebaseStep _ => true
  | .slewComplete _ => true
  | .revertiveSwitch _ => true
  | .faultRecovery _ _ => true
  | .holdoverLearn _ => true
  | .holdoverTableWrite _ => true
  | .holdoverBoundExpiry _ => true
  | .leapEvent _ => true
  | .timeFrameTx _ => true
  | .ppsOutPulse _ => true
  | .ppsPulseEnd _ => true
  | .todTxMessage _ => true
  | .linkDelayUpdate _ _ _ => true
  | .linkDelayEventTimer _ _ _ => true
  | .aonSecondsLoad _ => true
  | .actionFire _ _ => true
  | .tevPulseEnd _ _ => true
  | .tcapEdge _ _ _ _ => true
  | .clockSourceFailure _ _ _ => true
  | .clockForcedSwitch _ _ => true
  | .refQualified _ _ => true
  | .clockQualifyTimeout _ => true
  | .tbRefSwitchUp _ _ => true
  | .pllLocked _ _ => true
  | .pllHoldExpiry _ => true
  | .counterGateClose _ _ _ => true
  | .vctlVerify _ _ => true
  | .avsTimeout _ => true
  | .pmbusPoll _ currents _ => decide (currents.length = 8)
  | .sensorRead _ readings _ => decide (readings.length = 17)
  | .sensorBrokenChange _ _ => true
  | .zoneThresholdCrossing _ _ => true
  | .zoneRisingFastChange _ _ => true
  | .graceTimeExpiry _ => true
  | .l2HotTimer _ => true
  | .zoneAllBrokenTimer _ _ => true
  | .laneSignalDetect _ _ _ => true
  | .laneRxConverged _ _ _ => true
  | .laneNegotiationDone _ _ _ _ => true
  | .laneAligned _ _ _ _ => true
  | .laneTrainingTimeout _ _ _ => true
  | .laneRetryTimer _ _ _ => true
  | .laneFailure _ _ _ => true
  | .framingCodewordRx _ _ _ _ _ => true
  | .laneJustification _ _ _ _ _ => true
  | .ctleReevaluate _ _ _ _ => true
  | .firTapRequest _ _ _ _ _ _ => true
  | .laneDegradedChange _ _ _ _ => true
  | .laneShedPowerdown _ _ _ => true
  | .expressCodeword _ _ _ _ _ _ => true
  | .circuitAdd _ _ _ => true
  | .circuitDrop _ _ _ _ _ _ => true
  | .circuitRegen _ _ _ _ => true
  | .frameForward _ f _ => f.wf
  | .helloRx _ _ _ _ _ => true
  | .helloTx _ _ => true
  | .adjacencyTimeout _ _ => true
  | .tokenRx _ _ _ _ => true
  | .tokenTx _ => true
  | .secondaryAnchorTakeover _ => true
  | .linkStateRx _ _ _ _ _ => true
  | .beaconTx _ => true
  | .beaconRx _ _ => true
  | .configFrameRx _ _ _ _ _ _ => true
  | .mgmtReqRx t _ _ _ rq => rq.wf t
  | .mgmtRspRx _ _ _ _ _ => true
  | .remoteCommandTimeout _ _ => true
  | .recordsFrameRx _ f _ => f.wf
  | .dataFrameRx _ f => f.wf
  | .reorderHoldExpiry _ _ => true
  | .sourceForget _ _ => true
  | .originationHoldEnd _ => true
  | .exportFrameClose _ _ => true
  | .limiterExtensionEnd _ => true
  | .catchupTrigger _ _ => true
  | .catchupCommit _ => true
  | .ethmFrameRx _ _ _ _ _ _ _ => true
  | .ethmLinkChange _ _ _ => true
  | .macAgeing _ _ _ => true
  | .basinRecordWrite _ _ => true
  | .segmentIdleFreeze _ _ => true
  | .mirrorOriginLost _ _ => true
  | .operatorInput _ _ => true
  | .operatorHoldExpiry _ _ => true
  | .scrubWord _ _ bad _ => badBitsWf bad
  | .softRepairComplete _ _ _ => true
  | .nvWriteCountStore _ => true
  | .nvRefreshCheck _ => true
  | .rollbackAdvance _ => true
  | .islandResetDrainEnd _ _ => true
  | .gateCloseDrainEnd _ _ => true
  | .gateOpenDone _ => true
  | .pcieLinkChange _ _ => true
  | .spareRecalibrationDone _ _ _ => true
  | .originationLimitRelease _ => true

end Sys2Proof
end

