-- ==== Sys2Proof/Tests/Slice0.lean ====
section
/-! SUPPORT. The model's own tests: terms that the checks of WellFormed.lean refuse, small steps of commands with results
taken from the spec, and, for each statement with premises, a state and operands that meet them. -/

namespace Sys2Proof.Tests
open Sys2Proof Sys2Proof.Machine

set_option maxRecDepth 100000
set_option Elab.async false

/-! ### Small states and requests -/

/-- A device that runs: every island, a management pair with its standby, the host's link, the basin, locked PLLs. -/
def live : State :=
  { State.reset with
    islands := State.reset.islands.map (fun x => { x with phase := .run })
    mgmt := { State.reset.mgmt with
      run := true, starting := false, pairA := { Reset.pair with state := .active }
      pairB := { Reset.pair with state := .standby } }
    host := { State.reset.host with linkUp := true }
    basin := { State.reset.basin with ready := true }
    clk := { State.reset.clk with plls := List.replicate 14 .locked, tbRef := 0 }
    aon := { State.reset.aon with startDue := false, fromPor := false }
    pwr := { State.reset.pwr with supplyHold := false, vctlConfirmed := true }
    fuses := { State.reset.fuses with uid := 1, keyHash0 := 2 }
    fuseShadow := { State.reset.fuseShadow with uid := 1, keyHash0 := 2 }
    daq := { State.reset.daq with coef := List.replicate 72 (List.replicate 9 { (default : CoefSet) with dfe := 200000 }) }
    free := 3 }

/-- A request of the host in mailbox 0, with these payload words. -/
def ask (ws : List Word) : Request :=
  { agent := .host, mailbox := 0, srcNode := 0, seq := 7, bell := 7, arrival := 1, len := ws.length, eventOnDone := false
    noMsix := false, remote := none, payload := ws, readable := true }

/-- `live` with its channel 3 changed. -/
def chan3 (f : Chan → Chan) : State := modChan 3 f live

/-- `live` with the cycle of group 1 changed. -/
def cal1 (f : CalSt → CalSt) : State := modCal 1 f live

/-- `live` with its generator 0 changed. -/
def gen0 (f : Gen → Gen) : State := modGen 0 f live

/-- The instant of output 10 of channel 3. -/
def out10 : Time := ((instOut live 3 (Reset.inst .running) 1000).out).toNat

def qw (fs : List (Nat × Nat × Nat)) : Request := ask [mkWord fs]

def imgWs : List Word :=
  [mkWord [(0, 16, 1), (16, 8, 1), (34, 10, 999)], mkWord [(0, 16, 5), (16, 17, 3)], mkWord [(0, 16, 65535), (34,
    10, 999)]]

def imgDigest : BitVec 256 := sha256 (imageBytes imgWs)

def lo128 (d : BitVec 256) : Word := d.setWidth 128

def hi128 (d : BitVec 256) : Word := (d >>> 128).setWidth 128

def entry9 : JEntry := { (default : JEntry) with seq := 9, agent := .spi }

def arm9 : SlotArm :=

    { target := 5, period := 0, count := 0, kind := .hostEvent 1, late := 0, reportEach := false, tag := 0, agent := .host, next := 0, fired := 0, skipped := 0, skippedSinceEvent := 0, lastIndex := none, lateAt := none }

def armRq : Request := ask [mkWord [(48, 48, 5)], mkWord [(0, 56, 256000), (88, 4, 7)], mkWord [(0, 64, 9)]]

def armRqArm : SlotArm := { arm9 with target := 5 * secU, period := 256000, kind := .hostEvent 9 }

def mod1 (f : Domain → Domain) : State := modDom 1 f live

def seg7 (f : Segment → Segment) : State := modSeg 7 f live

def full7 : State := seg7 (fun x => { x with sizeMib := 1, state := .recording, serial := 9, held := 9 })

def opRq : Request :=
  ask [mkWord [(0, 5, 31), (8, 4, 1), (12, 10, 1020), (27, 17, 100000)], mkWord [(0, 10, 24)], 0, mkWord [(0, 16,
    2)]]

def tfr : TimeFrame :=

    { port := 1, root := 77, origin := 5, acc := 0, hops := 1023, rootState := 0, leap61 := false, leap59 := false, utcValid := true, utcOffset := 37, leapTime := 0, good := true }

def psy : PtpSync := { src := 9, seq := 3, origin := 5, corr := -5, logInterval := -3, twoStep := true }

def cop : TimeCopy := { hops := 3, last := 0, alive := true }

def role1 (r : Nat) : State := modPtp 1 (fun x => { x with role := r }) live

def tod1 (f : TodSt → TodSt) : State := modTod f live

def todB : List Byte := todMessage 1700000000 live.time.utc 0 5

def noRef : State :=

    { live with clk := { live.clk with refA := { live.clk.refA with qualified := false }, refB := { live.clk.refB with qualified := false } } }

def pw (f : PwrSt → PwrSt) : State := modPwr f live

def chg1 (tries : Nat) : AvsChange :=
  { target := 1, fromOp := 0, fromMv := 900, toMv := 820, tries := tries, since := 0 }

def sen (i : Nat) (f : Sensor → Sensor) : State := modSensor i f live

def zon (z : Nat) (f : Zone → Zone) : State := modZone z f live

def lan (f : Lane → Lane) : State := modLane 1 7 f live

def upLane (p i : Nat) (s : State) : State :=
  modLane p (i / 8) (fun l => { l with state := .up, half := false, laneRx := some (i / 8) }) s

def expr (u : SlotUse) : State :=

    upLane 0 63 (upLane 1 5 (modLineSlot 1 5 (fun y => { y with use := u, other := 63 }) (modLineSlot 0 63 (fun y => { y with use := u, other := 5 }) live)))

def circ9 (prot : Bool) : Circuit :=
  { (default : Circuit) with id := 9, slots := 1, prot := prot, aligned := true, declaredUs := 50 }

def drp (prot : Bool) : State :=

    upLane 0 5 (upLane 1 63 (modLineSlot 0 5 (fun y => { y with use := .terminate, circuit := 9 }) (modLineSlot 1 63 (fun y => { y with use := .terminate, circuit := 9 }) { live with line := { live.line with drop := 1, circuits := [circ9 prot] } })))

def vPart : State := { live with fuseShadow := { live.fuseShadow with variantV := true } }

def fl (s : State) : State := upLane 0 0 (upLane 1 0 { s with line := { s.line with drop := 8 } })

def prt (p : Nat) (f : FabPort → FabPort) : State := modPort p f (fl live)

def fb (f : FabSt → FabSt) : State := modFab f (fl live)

def hd (tc kind : Nat) (link : Bool) : Hdr :=

    { dest := 0xFC05, src := 7, tc := tc, kind := kind, seq := 3, gen := 0, lenM1 := 0, hop := 1022, westward := false, link := link, xring := false, last := true }

def frm (p tc kind : Nat) (link : Bool) : Frame :=
  { port := p, flits := mkFrame (hd tc kind link) 0 0 0 [mkWord [(16, 10, 24)]] }

def badF (p tc kind : Nat) : Frame :=
  { port := p, flits := (mkFrame (hd tc kind false) 0 0 0 [5]).dropLast ++ [(0 : Word)] }

def badH : Frame := { port := 2, flits := [0] }

def far : Frame := { port := 1, flits := mkFrame { hd 2 1 false with dest := 0xFFFE } 0 0 0 [mkWord [(16, 10, 24)]] }

def ord7 : SrcOrder :=
  { src := 7, next := 4, held := [], arrivals := [], diffs := [], gapAll := false, gapDone := [] }

def win7 : DupWin := { src := 7, gate := false, h := 3, seen := [], last := 0 }

def win9 : DupWin := { src := 7, gate := false, h := 3, seen := [], last := 999990 * msU }

def bcn (n : BitVec 16) : Beacon :=

    { node := n, activeGen := 5, stagedGen := 0, staged := false, armed := false, lastResult := 0, activeDigest := 0, stagedDigest := 0, word2 := 0, commitTime := 0, commitGen := 0 }

def img5 : Image := { gen := 5, digest := 0, words := imgWs }

def cmt (c : Bool) : Commit := { time := 9, gen := 5, digest := 0, catchup := c }

def rem9 : RemotePending :=
  { rq := { ask [] with seq := 9, bell := 9 }, opcode := 0x2001, dest := 0xFC05, sentAt := 0 }

def pend9 : State := { live with mgmt := { live.mgmt with remotes := [rem9] } }

def eth1 (f : EthPort → EthPort) : State :=

    modEth 1 (fun e => f { e with enable := true, link := true, bridge := true, group := 15 }) { live with eth := { live.eth with groups := live.eth.groups.set 15 (some true) } }

def role2 (r : Nat) (s : State) : State := modPtp 1 (fun x => { x with role := r }) s

def qr : QRec := { word := mkWord [(16, 10, 24)], gen := 0, readable := true, node := none, at_ := 5 }

def dq : DestQueue := { group := 0, dest := .basin 1023, recs := [qr], dropped := 0 }

def osl (f : OpSlot → OpSlot) : State := modOper 31 f live

def orec : OpRec := { input := 0, value := -3, time := 9, flags := 0, arrived := 0 }

def ocfg : OpCfg :=

    { kind := .combine [1] 0, inputs := [{ addr := 24, node := none }, { addr := 32, node := none }], outBase := 512, prio := 0, keepL2 := false, incl := false, holdUs := 5, sub := default }

def rep5 : Repair := { (default : Repair) with row := 5, spare := 1 }

def cpy (m : Nat) : State := modMem m (fun x => { x with copying := [rep5] }) live

def run1 (op : BitVec 16) (n : Nat) : Running :=
  { (default : Running) with seq := 9, opcode := op, holds := [.island n] }

def runs1 (op : BitVec 16) (n : Nat) : State := { live with mgmt := { live.mgmt with running := [run1 op n] } }

def hst (f : HostSt → HostSt) : State := modHost f live

def dm (c : Nat) (f : DmaCh → DmaCh) : State := hst (fun h => { h with dma := h.dma.modify c f })

def bufX : DmaBuf := { (default : DmaBuf) with first := 0 }

def runX (op : BitVec 16) : Running := { (default : Running) with seq := 9, opcode := op }

def ext9 : Extract := { (default : Extract) with seq := 9 }

def env0 : StartEnv := { straps := 0, refA := true, refB := true, agree := true, vctlOk := true }

def mg (f : MgmtSt → MgmtSt) : State := { live with mgmt := f live.mgmt }

def offM : State := mg (fun m => { m with run := false, starting := true })

def fw9 : FwSlot := { valid := true, release := 9, sv := 0, keyHash := 2, signatureOk := true }

def sagS : State := { live with pwr := { live.pwr with sagWarn := true } }

def mgdown : State := { live with mgmt := { live.mgmt with run := false } }

def jent : JEntry := { (default : JEntry) with seq := 7, agent := .host, status := 5 }

def jlive : State := { live with nv := { live.nv with journal := [jent] } }

def denyAll : State :=

    { live with fuses := { live.fuses with protDeny := BitVec.allOnes 96 }, fuseShadow := { live.fuseShadow with protDeny := BitVec.allOnes 96 } }

def mbp (n : Nat) : State :=
  modHost (fun h => { h with mbox := h.mbox.modify n (fun m => { m with pending := true }) }) live

/-! ### Ill-formed commands are refused by the checks -/

theorem test_wf_refuses_long_payload :
    (Instr.chanStatus 9 { ask (List.replicate 256 0) with arrival := 1 }).wf = false := by decide +kernel

theorem test_wf_refuses_later_arrival : (Instr.chanStatus 9 { ask [0] with arrival := 10 }).wf = false := by
  decide +kernel

theorem test_wf_refuses_long_length : (Instr.timeStatus 9 { ask [] with len := 65536 }).wf = false := by decide +kernel

theorem test_wf_refuses_frame_port : (Instr.frameForward 9 { port := 4, flits := [0] } 0).wf = false := by decide +kernel

theorem test_wf_refuses_empty_frame : (Instr.recordsFrameRx 9 { port := 0, flits := [] } none).wf = false := by decide +kernel

theorem test_wf_refuses_long_frame :
    (Instr.dataFrameRx 9 { port := 0, flits := List.replicate 513 0 }).wf = false := by decide +kernel

theorem test_wf_refuses_time_frame_hops : (Instr.timeFrameRx 9 { tfr with hops := 1024 }).wf = false := by decide +kernel

theorem test_wf_refuses_time_frame_port : (Instr.timeFrameRx 9 { tfr with port := 3 }).wf = false := by decide +kernel

theorem test_wf_refuses_time_frame_state : (Instr.timeFrameRx 9 { tfr with rootState := 4 }).wf = false := by
  decide +kernel

theorem test_wf_refuses_odd_offset : (Instr.registerWrite 9 0x202 0).wf = false := by decide +kernel

theorem test_wf_refuses_high_offset : (Instr.registerWrite 9 0x20000 0).wf = false := by decide +kernel

theorem test_wf_refuses_empty_spi : (Instr.spiTransaction 9 0 []).wf = false := by decide +kernel

theorem test_wf_refuses_seven_currents : (Instr.pmbusPoll 9 (List.replicate 7 none) 0).wf = false := by decide +kernel

theorem test_wf_refuses_sixteen_readings : (Instr.sensorRead 9 (List.replicate 16 0) 0).wf = false := by decide +kernel

theorem test_wf_refuses_short_word : (Instr.scrubWord 9 0 [1] true).wf = false := by decide +kernel

theorem test_wf_refuses_wide_byte : (Instr.scrubWord 9 0 (14 :: List.replicate 15 0) true).wf = false := by
  decide +kernel

theorem test_wf_takes_request : (Instr.chanStatus 9 (qw [(0, 6, 63)])).wf = true := by decide +kernel

/-! ### Worked examples of the manual -/

/-- Worked derivations (spec/08): RILL, output 25 of a sync at T_sync, in 1/256 ns relative to it. -/
theorem test_rill_output :
    (gridOut 0 0 2 2048 99067 (208000 * 256) 25).ts = 640000000 * 256 ∧
      (gridOut 0 0 2 2048 99067 (208000 * 256) 25).out = 1259387500 * 256 := by decide +kernel

/-- Worked derivation (spec/05): CASCADE, output 33 of a sync. -/
theorem test_cascade_output :
    (gridOut 0 0 1 256 16571 (204800 * 256) 33).ts = 105600000 * 256 ∧
      (gridOut 0 0 1 256 16571 (204800 * 256) 33).out = 209375000 * 256 := by decide +kernel

/-- Worked derivations (spec/08): the word of that record. -/
theorem test_record_word :
    recordWord 2097152 (0x6A18A500 * secU + 2500000 * nsU) 0x1A1 3 0 = 0x002000006A18A5000098968001A13000 := by
  decide +kernel

/-- Settling delays of 37, 5 and 25 us in modulator cycles (spec/08, R38). -/
theorem test_settle_cycles : settleCycles 37 = 758 ∧ settleCycles 5 = 103 ∧ settleCycles 25 = 512 := by decide +kernel

/-- *Slots across a forward step at Orlen Gate* (spec/10): ALIGN skips occurrences 0 to 2. -/
theorem test_align_skips :
    (armPlan { arm9 with target := 10 * secU, period := 50000000 * 256, late := 3 } (10137412 * usU)).map
      (fun p => p.skipped) = some 3 := by decide +kernel

/-- The wheel detector of spec/10: D_cap = +112 ns. -/
theorem test_capture_time :
    trunc256ns (41803116250 * nsU - 112 * nsU) = 41803116138 * nsU := by decide +kernel

/-- FIPS 180-4: the digest of `abc` begins with byte 0xBA. -/
theorem test_sha256_abc : (sha256 [0x61, 0x62, 0x63]).setWidth 32 = (0xBF1678BA : BitVec 32) := by decide +kernel

/-! ### Small steps -/

theorem test_step_idles : step live = .next live := rfl

/-- R334: the doorbell clears DONE and sets PENDING. -/
theorem test_doorbell_rings :
    (match exec (.doorbell 9 3 7 false) live with
      | .next u => (u.host.mbox.getD 3 default).pending && !(u.host.mbox.getD 3 default).done
      | _ => false) = true := by decide +kernel

/-- R358: an opcode that does not exist is answered `UNKNOWN_OPCODE`, 0x0001. -/
theorem test_unknown_opcode :
    (match exec (.unknownCommand 9 (ask []) 0x7777) live with
      | .next u => (u.host.mbox.getD 0 default).status == stUnknownOpcode && (u.host.mbox.getD 0 default).done
      | _ => false) = true := by decide +kernel

/-- R363: `FILT.START` leaves the primary starting at its next boundary. -/
theorem test_filt_start :
    (match exec (.filtStart 9 (qw [(0, 6, 3)])) (chan3 (fun c => { c with primary := { c.primary with run := .stopped } })) with
      | .next u => (chanOf u 3).primary.run == .starting
      | _ => false) = true := by decide +kernel

/-- R465: a blown fuse stays blown, and blows once. -/
theorem test_fuse_program :
    (match exec (.fuseProgram 9 (ask [mkWord [(0, 8, 7), (96, 32, 0x5128C0DE)], 4]) 0 none) live with
      | .next u => u.fuses.keyRevoke == 4 && u.fuseShadow.keyRevoke == 4
      | _ => false) = true := by decide +kernel

/-- R4: no lane 4 to 7 on SL-5128-V. -/
theorem test_absent_lane : exec (.laneFailure 9 1 4) vPart = .fault .absentPart := rfl

/-- R447: nothing but AON runs while RESET_N is low. -/
theorem test_reset_n :
    (match exec (.resetNAssert 9 1000) live with
      | .next u => isUp u .aon && !isUp u .hostif && !isUp u .time && u.pwr.resetNLow
      | _ => false) = true := by decide +kernel

/-- The table gives no command bits: no word spells one. -/
theorem test_no_word_spells_a_command : decodeTableWord 32 0 = none := rfl


/-! ### Premises are met -/

theorem optAll {α : Type} {o : Option α} {p : α → Prop} [DecidablePred p] (h : o.all (fun x => decide (p x)) = true) :
    ∀ x, o = some x → p x := by
  intro x e; subst e; simpa using h

theorem listAll {α : Type} {l : List α} {p : α → Prop} [DecidablePred p] (h : l.all (fun x => decide (p x)) = true) :
    ∀ x ∈ l, p x := by
  intro x e; simpa using List.all_eq_true.mp h x e

/-- What `Obligations.StepRunsFrontCommand` assumes is met, clause by clause. -/
theorem test_stepRunsFrontCommand_met :
    (∃ c : Instr, ∃ rest : List Instr, ∃ s : State, (s.pending = c :: rest)) ∧
    (∃ s : State, (s.pending = [])) :=
  ⟨⟨.sagWarning 5 3, [.hostReset 9], { live with pending := [.sagWarning 5 3, .hostReset 9] }, by decide +kernel⟩,
  ⟨live, by decide +kernel⟩⟩

/-- What `Obligations.EveryStepKeepsTheParts` assumes is met, clause by clause. -/
theorem test_everyStepKeepsTheParts_met :
    (∃ s : State, ∃ u : State, (Whole s) ∧ (step s = .next u)) :=
  ⟨{ live with pending := [.bar2Write 9] }, modHost (fun h => { h with bar2Discards := 1 }) (tick 9 live),
    by unfold Whole; decide +kernel, rfl⟩

/-- What `Obligations.FusesOnlyBlow` assumes is met, clause by clause. -/
theorem test_fusesOnlyBlow_met :
    (∃ s : State, ∃ u : State, (step s = .next u)) :=
  ⟨{ live with pending := [.bar2Write 9] }, modHost (fun h => { h with bar2Discards := 1 }) (tick 9 live), rfl⟩

/-- What `Obligations.BasinStaysCanonical` assumes is met, clause by clause. -/
theorem test_basinStaysCanonical_met :
    (∃ s : State, ∃ u : State, (memWf s.basin.cells = true) ∧ (step s = .next u)) :=
  ⟨{ live with pending := [.bar2Write 9] }, modHost (fun h => { h with bar2Discards := 1 }) (tick 9 live),
    by decide +kernel, rfl⟩

/-- What `Obligations.EveryStepTakesOneCommand` assumes is met, clause by clause. -/
theorem test_everyStepTakesOneCommand_met :
    (∃ c : Instr, ∃ rest : List Instr, ∃ s : State, ∃ u : State, (s.pending = c :: rest) ∧ (step s = .next u)) :=
  ⟨.bar2Write 9, [], { live with pending := [.bar2Write 9] },
    modHost (fun h => { h with bar2Discards := 1 }) (tick 9 live), by decide +kernel, rfl⟩

/-- What `Obligations.RequestsAreJudgedInOrder` assumes is met, clause by clause. -/
theorem test_requestsAreJudgedInOrder_met :
    (∃ i : Instr, ∃ op : Nat, ∃ t : Time, ∃ rq : Request, ∃ s : State, (asks i = some (op, t, rq)) ∧
      (serves (tick t s) rq = false)) ∧
    (∃ i : Instr, ∃ op : Nat, ∃ t : Time, ∃ rq : Request, ∃ s : State, (asks i = some (op, t, rq)) ∧
      (serves (tick t s) rq) ∧ (rq.readable) ∧ (rq.seq = 0 ∨ rq.bell ≠ rq.seq)) ∧
    (∃ i : Instr, ∃ op : Nat, ∃ t : Time, ∃ rq : Request, ∃ s : State, (asks i = some (op, t, rq)) ∧
      (arrives t rq s) ∧ (journalFind s rq.agent rq.srcNode rq.seq = none) ∧ (255 < rq.len)) :=
  ⟨⟨.chanStatus 1000 (qw [(0, 6, 63)]), 0x1003, 1000, qw [(0, 6, 63)], mgdown, by decide +kernel,
    by decide +kernel⟩,
  ⟨.chanStatus 1000 { ask [] with bell := 8 }, 0x1003, 1000, ({ ask [] with bell := 8 } : Request), live,
    by decide +kernel, by decide +kernel, by decide +kernel, by decide +kernel⟩,
  ⟨.chanStatus 1000 { ask [] with len := 256 }, 0x1003, 1000, ({ ask [] with len := 256 } : Request), live,
    by decide +kernel, by decide +kernel, by decide +kernel, by decide +kernel⟩⟩

/-- What `Obligations.DuplicatesAreNotExecuted` assumes is met, clause by clause. -/
theorem test_duplicatesAreNotExecuted_met :
    (∃ i : Instr, ∃ op : Nat, ∃ t : Time, ∃ rq : Request, ∃ e : JEntry, ∃ s : State, (asks i = some (op, t, rq)) ∧
      (arrives t rq s) ∧ (e ∈ s.nv.journal) ∧ (e.agent = rq.agent) ∧ (e.seq = rq.seq) ∧
      (rq.agent = .fabric → e.srcNode = rq.srcNode) ∧
      (∀ x ∈ s.nv.journal, x.agent = rq.agent → x.seq = rq.seq → (rq.agent = .fabric → x.srcNode = rq.srcNode) → x = e)) :=
  ⟨.chanStatus 1000 (qw [(0, 6, 63)]), 0x1003, 1000, qw [(0, 6, 63)], jent, jlive, by decide +kernel,
    by decide +kernel, by decide +kernel, by decide +kernel, by decide +kernel, by decide +kernel,
    by decide +kernel⟩

/-- What `Obligations.ProtectionMapDenies` assumes is met, clause by clause. -/
theorem test_protectionMapDenies_met :
    (∃ op, (op ∈ [0x0101, 0x0102]) ∧ ∃ a, (a ∈ [Agent.host, .spi])) ∧
    (∃ i : Instr, ∃ op : Nat, ∃ t : Time, ∃ rq : Request, ∃ s : State, (asks i = some (op, t, rq)) ∧
      (arrives t rq s) ∧ (journalFind s rq.agent rq.srcNode rq.seq = none) ∧ (rq.len ≤ 255) ∧ (rq.remote = none) ∧
      (s.mgmt.recovery = false) ∧ (allowed s op rq.agent = false)) ∧
    (∃ i : Instr, ∃ op : Nat, ∃ t : Time, ∃ rq : Request, ∃ s : State, (asks i = some (op, t, rq)) ∧
      (arrives t rq s) ∧ (journalFind s rq.agent rq.srcNode rq.seq = none) ∧ (rq.len ≤ 255) ∧ ∃ dest,
      (rq.remote = some dest)) ∧
    (∃ t : Time, ∃ src : BitVec 16, ∃ rq : Request, ∃ s : State,
      let rq1 : Request := { rq with agent := .fabric, srcNode := src, bell := rq.seq, arrival := max s.now t, remote := none }
      (isUp s .xbar) ∧ (s.mgmt.run) ∧ (s.mgmt.recovery = false) ∧ (arrives t rq1 s) ∧
      (journalFind s .fabric src rq.seq = none) ∧ (rq.len ≤ 255) ∧ (allowed s 0x2001 .fabric = false)) :=
  ⟨⟨0x0101, by decide +kernel, .spi, by decide +kernel⟩,
  ⟨.chanStatus 1000 (qw [(0, 6, 63)]), 0x1003, 1000, qw [(0, 6, 63)], denyAll, by decide +kernel,
    by decide +kernel, by decide +kernel, by decide +kernel, by decide +kernel, by decide +kernel,
    by decide +kernel⟩,
  ⟨.chanStatus 1000 { ask [] with remote := some 0xFC05 }, 0x1003, 1000,
    ({ ask [] with remote := some 0xFC05 } : Request), denyAll, by decide +kernel, by decide +kernel,
    by decide +kernel, by decide +kernel, 0xFC05, by decide +kernel⟩,
  ⟨1000, 0xFC05, ask [], denyAll, by decide +kernel, by decide +kernel, by decide +kernel, by decide +kernel,
    by decide +kernel, by decide +kernel, by decide +kernel⟩⟩

/-- What `Obligations.SagWarningHoldsRequests` assumes is met, clause by clause. -/
theorem test_sagWarningHoldsRequests_met :
    (∃ i : Instr, ∃ op : Nat, ∃ t : Time, ∃ rq : Request, ∃ s : State, (asks i = some (op, t, rq)) ∧
      (arrives t rq s) ∧ (journalFind s rq.agent rq.srcNode rq.seq = none) ∧ (rq.len ≤ 255) ∧ (rq.remote = none) ∧
      (s.mgmt.recovery = false) ∧ (allowed s op rq.agent) ∧ (s.pwr.sagWarn) ∧ (judgesSupply.contains op = false)) :=
  ⟨.chanStatus 1000 (qw [(0, 6, 63)]), 0x1003, 1000, qw [(0, 6, 63)], sagS, by decide +kernel, by decide +kernel,
    by decide +kernel, by decide +kernel, by decide +kernel, by decide +kernel, by decide +kernel,
    by decide +kernel, by decide +kernel⟩

/-- What `Obligations.ConfirmationIsRequired` assumes is met, clause by clause. -/
theorem test_confirmationIsRequired_met :
    (∃ t : Time, ∃ rq : Request, ∃ s : State, (fld (qword rq 1) 96 32 ≠ 0x5128C0DE) ∧ (runs 0x0103 1 1 t rq s)) ∧
    (∃ t : Time, ∃ rq : Request, ∃ s : State, (fld (qword rq 1) 96 32 ≠ 0x5128C0DE) ∧ (runs 0x5103 1 1 t rq s) ∧
      (fld (qword rq 1) 0 2 = 2)) ∧
    (∃ t : Time, ∃ rq : Request, ∃ s : State, (fld (qword rq 1) 96 32 ≠ 0x5128C0DE) ∧ (runs 0x5502 2 5 t rq s)) ∧
    (∃ t : Time, ∃ rq : Request, ∃ s : State, (fld (qword rq 1) 96 32 ≠ 0x5128C0DE) ∧ (runs 0x5503 1 1 t rq s)) :=
  ⟨⟨1000, qw [(96, 32, 0x5128C0DF)], live, by decide +kernel, by decide +kernel⟩,
  ⟨1000, qw [(0, 2, 2), (96, 32, 0x5128C0DF)], live, by decide +kernel, by decide +kernel, by decide +kernel⟩,
  ⟨1000, ask [mkWord [(0, 8, 1), (96, 32, 0x5128C0DF)], 1], live, by decide +kernel, by decide +kernel⟩,
  ⟨1000, qw [(96, 32, 0x5128C0DF)], live, by decide +kernel, by decide +kernel⟩⟩

/-- What `Obligations.FuseGroupStaysReachable` assumes is met, clause by clause. -/
theorem test_fuseGroupStaysReachable_met :
    (∃ t : Time, ∃ rq : Request, ∃ s : State, (runs 0x5502 2 5 t rq s) ∧ (fuseCode rq = 1) ∧
      (s.fuses.sealed = false) ∧
      (∀ a ∈ [Agent.host, .spi], (s.fuses.protDeny ||| (fuseBits rq).setWidth 96).getLsbD (4 * groupIx 0x55 + agentIx a) = true)) :=
  ⟨1000, ask [mkWord [(0, 8, 1), (96, 32, 0x5128C0DE)], mkWord [(84, 2, 3)]], live, by decide +kernel,
    by decide +kernel, by decide +kernel, by decide +kernel⟩

/-- What `Obligations.PendingMailboxIsClosed` assumes is met, clause by clause. -/
theorem test_pendingMailboxIsClosed_met :
    (∃ n : Fin 16, ∃ s : State, (isUp s .hostif) ∧ ((s.host.mbox.getD n.val default).pending = true) ∧ ∃ off,
      (0x10000 + 0x1000 * n.val ≤ off) ∧ (off < 0x11000 + 0x1000 * n.val) ∧ (off % 4 = 0)) ∧
    (∃ n : Fin 16, ∃ s : State, (isUp s .hostif) ∧ ((s.host.mbox.getD n.val default).pending = true)) ∧
    (∃ n : Fin 16, ∃ s : State, (isUp s .hostif) ∧ ((s.host.mbox.getD n.val default).pending = true) ∧ (n.val = 15)) ∧
    (∃ n : Fin 16, ∃ s : State, (isUp s .hostif) ∧ ((s.host.mbox.getD n.val default).pending = true) ∧ (n.val = 15) ∧
      ∃ off, (0x1F000 ≤ off) ∧ (off < 0x20000) ∧ (off % 4 = 0)) :=
  ⟨⟨15, mbp 15, by decide +kernel, by decide +kernel, 0x1FFFC, by decide +kernel, by decide +kernel,
    by decide +kernel⟩,
  ⟨15, mbp 15, by decide +kernel, by decide +kernel⟩,
  ⟨15, mbp 15, by decide +kernel, by decide +kernel, by decide +kernel⟩,
  ⟨15, mbp 15, by decide +kernel, by decide +kernel, by decide +kernel, 0x1FFFC, by decide +kernel,
    by decide +kernel, by decide +kernel⟩⟩

/-- What `Obligations.InterruptPinsFollow` assumes is met, clause by clause. -/
theorem test_interruptPinsFollow_met :
    (∃ s : State, ∃ off, (off % 4 = 0) ∧ (off ≠ 0x100) ∧ (isUp s .hostif)) ∧
    (∃ s : State, (isUp s .hostif) ∧ ∃ m : BitVec 32,
      (∀ i < 20, s.host.intStatus.getLsbD i = true → s.host.intEnable.getLsbD i = true → m.getLsbD i = true)) ∧
    (∃ s : State, (isUp s .hostif) ∧ ∃ m : BitVec 32, (∀ i < 5, s.host.nmiCause.getLsbD i = true → m.getLsbD i = true)) :=
  ⟨⟨live, 0x204, by decide +kernel, by decide +kernel, by decide +kernel⟩,
  ⟨live, by decide +kernel, 0, by decide +kernel⟩,
  ⟨live, by decide +kernel, 0, by decide +kernel⟩⟩

/-- What `Obligations.BasinWordsReadBack` assumes is met, clause by clause. -/
theorem test_basinWordsReadBack_met :
    (∃ m : List Host.Cell, (memWf m = true)) ∧
    (∃ m : List Host.Cell, ∃ n : Nat, (memWf m = true) ∧ ∃ a, (a < 16 * n ∨ 16 * n + 16 ≤ a)) ∧
    (∃ m : List Host.Cell, ∃ n : Nat, (memWf m = true) ∧ ∃ k, (k ≠ n)) :=
  ⟨⟨[], by decide +kernel⟩,
  ⟨[], 3, by decide +kernel, 15, by decide +kernel⟩,
  ⟨[], 3, by decide +kernel, 4, by decide +kernel⟩⟩

/-- What `Obligations.DmaActionsFit` assumes is met, clause by clause. -/
theorem test_dmaActionsFit_met :
    (∃ c : Fin 16, ∃ s : State, (isUp s .hostif) ∧
      let d := dmaOf s c.val
      (ringChannel c.val = false ∨ (d.state ≠ .idle ∧ d.state ≠ .stopped ∧ d.state ≠ .aborted))) ∧
    (∃ c : Fin 16, ∃ s : State, (isUp s .hostif) ∧
      let d := dmaOf s c.val
      (d.state ≠ .running) ∧ (d.state ≠ .starved) ∧ (d.state ≠ .haltedUe)) ∧
    (∃ c : Fin 16, ∃ s : State, (isUp s .hostif) ∧
      let d := dmaOf s c.val
      (d.state ≠ .haltedUe)) ∧
    (∃ c : Fin 16, ∃ s : State, (isUp s .hostif) ∧
      let d := dmaOf s c.val
      ∃ b, (d.buf = some b) ∧ (d.state = .running ∨ d.state = .starved ∨ d.state = .haltedUe)) :=
  ⟨⟨15, live, by decide +kernel, by decide +kernel⟩,
  ⟨12, dm 12 (fun d => { d with state := .idle }), by decide +kernel, by decide +kernel, by decide +kernel,
    by decide +kernel⟩,
  ⟨12, live, by decide +kernel, by decide +kernel⟩,
  ⟨12, dm 12 (fun d => { d with state := .haltedUe, buf := some bufX }), by decide +kernel, bufX,
    by decide +kernel, by decide +kernel⟩⟩

/-- What `Obligations.ChannelCommandsComplete` assumes is met, clause by clause. -/
theorem test_channelCommandsComplete_met :
    (∃ t : Time, ∃ rq : Request, ∃ s : State,
      let q := qword rq 1
      let c := fld q 0 6
      let up := fun i => fbit q (64 + i)
      let wants := chanAccept (chanUpdate q) (chanGiven q)
      (runs 0x1001 1 1 t rq s) ∧ (onlyBits q [(0, 57), (64, 10)]) ∧ (unusedZero q chanFields up) ∧ (fld q 8 4 ≤ 8) ∧
      (fld q 14 2 ≠ 3) ∧ (fld q 16 2 ≠ 3) ∧ (fld q 27 14 ≤ 10000) ∧ (up 0 → ¬breaksAc (modChan c wants s) (c / 4)) ∧
      (∀ i < 10, up i → chanRefused (chanOf s c) q i = false) ∧ (heldChans s [c] = false)) ∧
    (∃ t : Time, ∃ rq : Request, ∃ s : State,
      let q := qword rq 1
      let c := fld q 0 6
      (runs 0x1002 1 1 t rq s) ∧ (onlyBits q [(0, 9)]) ∧ (woven s c = false) ∧ (heldChans s [c] = false)) ∧
    (∃ t : Time, ∃ rq : Request, ∃ s : State,
      let q := qword rq 1
      (runs 0x1003 1 1 t rq s) ∧ (onlyBits q [(0, 6)])) ∧
    (∃ t : Time, ∃ rq : Request, ∃ s : State,
      let q := qword rq 1
      let c := fld q 0 6
      (runs 0x1004 1 1 t rq s) ∧ (onlyBits q [(0, 7)]) ∧ (fbit q 6 = true) ∧
      ((chanOf s c).subst = .failure ∨ (chanOf s c).subst = .softFault) ∧ (heldChans s (chansOf (c / 8)) = false)) ∧
    (∃ t : Time, ∃ rq : Request, ∃ s : State,
      let q := qword rq 1
      let c := fld q 0 6
      (runs 0x1004 1 1 t rq s) ∧ (onlyBits q [(0, 7)]) ∧ (fbit q 6 = false) ∧ ((chanOf s c).failed) ∧
      ((groupOf s (c / 8)).spare ≠ .failed) ∧ (heldChans s (chansOf (c / 8)) = false)) ∧
    (∃ t : Time, ∃ rq : Request, ∃ s : State,
      let q := qword rq 1
      (runs 0x1005 1 1 t rq s) ∧ (onlyBits q [(0, 23)]) ∧ (fld q 3 20 ≠ 0) ∧ (fld q 3 20 ≤ 600000)) ∧
    (∃ t : Time, ∃ rq : Request, ∃ s : State,
      let q := qword rq 1
      let c := fld q 0 6
      (runs 0x1103 1 1 t rq s) ∧ (onlyBits q [(0, 20)]) ∧ (fld q 6 14 ≠ 0) ∧ (fld q 6 14 ≤ 10000) ∧
      (woven s c = false) ∧ (calHolds s c = false) ∧ (heldChans s [c] = false) ∧ ((chanOf s c).loopback = none)) :=
  ⟨⟨1000, qw [(0, 6, 3), (8, 4, 8), (65, 1, 0), (66, 1, 1)], live, by decide +kernel, by decide +kernel,
    by decide +kernel, by decide +kernel, by decide +kernel, by decide +kernel, by decide +kernel,
    by decide +kernel, by decide +kernel, by decide +kernel⟩,
  ⟨1000, qw [(0, 6, 63), (6, 3, 5)], live, by decide +kernel, by decide +kernel, by decide +kernel,
    by decide +kernel⟩,
  ⟨1000, qw [(0, 6, 63)], live, by decide +kernel, by decide +kernel⟩,
  ⟨1000, qw [(0, 6, 9), (6, 1, 1)], modChan 9 (fun c => { c with subst := .failure }) live, by decide +kernel,
    by decide +kernel, by decide +kernel, by decide +kernel, by decide +kernel⟩,
  ⟨1000, qw [(0, 6, 9)], modChan 9 (fun c => { c with failed := true }) live, by decide +kernel,
    by decide +kernel, by decide +kernel, by decide +kernel, by decide +kernel, by decide +kernel⟩,
  ⟨1000, qw [(0, 3, 7), (3, 20, 600000)], live, by decide +kernel, by decide +kernel, by decide +kernel,
    by decide +kernel⟩,
  ⟨1000, qw [(0, 6, 3), (6, 14, 10000)], live, by decide +kernel, by decide +kernel, by decide +kernel,
    by decide +kernel, by decide +kernel, by decide +kernel, by decide +kernel, by decide +kernel⟩⟩

/-- What `Obligations.FilterCommandsComplete` assumes is met, clause by clause. -/
theorem test_filterCommandsComplete_met :
    (∃ t : Time, ∃ rq : Request, ∃ s : State,
      let q := qword rq 1
      let c := fld q 0 6
      let up := fun i => fbit q (17 + i)
      let free := woven s c = false
      let unheld := heldChans s [c] = false
      (runs 0x1201 1 1 t rq s) ∧ (onlyBits q [(0, 21)]) ∧ (unusedZero q [(6, 1), (7, 8), (15, 1), (16, 1)] up) ∧
      (up 0 → free ∧ unheld)) ∧
    (∃ t : Time, ∃ rq : Request, ∃ s : State,
      let q := qword rq 1
      let c := fld q 0 6
      let sh := fbit q 6
      let x := chanOf s c
      let free := woven s c = false
      let unheld := heldChans s [c] = false
      (runs 0x1202 3 79 t rq s) ∧ (free) ∧ (unheld) ∧ (x.fade = .normal) ∧ (running (instOf x sh) = false) ∧
      (onlyBits q [(0, 8)]) ∧ (bankCheck (rq.payload.drop 1) = none)) ∧
    (∃ t : Time, ∃ rq : Request, ∃ s : State,
      let q := qword rq 1
      let c := fld q 0 6
      let sh := fbit q 6
      let x := chanOf s c
      let free := woven s c = false
      let unheld := heldChans s [c] = false
      (runs 0x1203 1 1 t rq s) ∧ (free) ∧ (unheld) ∧ (x.fade = .normal) ∧ (running (instOf x sh) = false) ∧
      (onlyBits q [(0, 11)]) ∧ (modeValid (fld q 7 4)) ∧
      (14 ≤ fld q 7 4 → (bankSel { instOf x sh with mode := fld q 7 4 }).isSome) ∧
      (sh = false → 3 ≤ s.therm.level → fastMode { instOf x sh with mode := fld q 7 4 } = false)) ∧
    (∃ t : Time, ∃ rq : Request, ∃ s : State,
      let q := qword rq 1
      let c := fld q 0 6
      let sh := fbit q 6
      let x := chanOf s c
      let free := woven s c = false
      let unheld := heldChans s [c] = false
      (runs 0x1204 1 1 t rq s) ∧ (free) ∧ (unheld) ∧ (x.fade = .normal) ∧ (onlyBits q [(0, 7)]) ∧
      (running (instOf x sh) = false) ∧ (acBroken s c (instOf x sh) = false) ∧
      (sh = false → 3 ≤ s.therm.level → fastMode (instOf x sh) = false)) ∧
    (∃ t : Time, ∃ rq : Request, ∃ s : State,
      let q := qword rq 1
      let c := fld q 0 6
      let x := chanOf s c
      let free := woven s c = false
      let unheld := heldChans s [c] = false
      (runs 0x1205 1 1 t rq s) ∧ (free) ∧ (unheld) ∧ (x.fade = .normal) ∧ (onlyBits q [(0, 7)])) ∧
    (∃ t : Time, ∃ rq : Request, ∃ s : State,
      let q := qword rq 1
      let c := fld q 0 6
      let x := chanOf s c
      let free := woven s c = false
      let unheld := heldChans s [c] = false
      (runs 0x1206 1 1 t rq s) ∧ (free) ∧ (unheld) ∧ (x.fade = .normal) ∧ (onlyBits q [(0, 19)]) ∧ (1 ≤ fld q 6 13) ∧
      (fld q 6 13 ≤ 4096) ∧ (running x.shadow) ∧
      (cyclesPer x.primary.mode (bankSel x.primary) = cyclesPer x.shadow.mode (bankSel x.shadow) ∨ fld q 6 13 = 1) ∧
      (acBroken s c x.shadow = false)) ∧
    (∃ t : Time, ∃ rq : Request, ∃ s : State,
      let q := qword rq 1
      (runs 0x1207 1 1 t rq s) ∧ (onlyBits q [(0, 11)]) ∧ (fbit q 8 = false)) ∧
    (∃ t : Time, ∃ rq : Request, ∃ s : State,
      let q := qword rq 1
      (runs 0x1208 1 1 t rq s) ∧ (onlyBits q [(0, 6)])) ∧
    (∃ t : Time, ∃ rq : Request, ∃ s : State,
      let q := qword rq 1
      (runs 0x1501 1 1 t rq s) ∧ (onlyBits q [(0, 69)]) ∧ (fld q 0 10 ≤ 0x1FF) ∧ (fbit q 52 = false) ∧
      (unusedZero q [(10, 8), (18, 11), (29, 20)] (fun i => fbit q (49 + i))) ∧
      (fbit q 50 → fbit q 18 → (s.basin.segs.getD (fld q 19 10) default).state ≠ .unconfigured) ∧
      (fbit q 51 → fbit q 29 → exportClass (fld q 46 3))) ∧
    (∃ t : Time, ∃ rq : Request, ∃ s : State,
      let q := qword rq 1
      (runs 0x1502 1 1 t rq s) ∧ (onlyBits q [(0, 27)]) ∧ (fld q 0 10 ≤ 0x1FF)) :=
  ⟨⟨1000, qw [(0, 6, 3), (6, 1, 1), (7, 8, 255), (17, 4, 3)], live, by decide +kernel, by decide +kernel,
    by decide +kernel, by decide +kernel⟩,
  ⟨1000, ask [mkWord [(0, 6, 3)], mkWord [(0, 4, 0), (8, 8, 64)], mkWord [(0, 24, 8388600)]],
    chan3 (fun c => { c with primary := { c.primary with run := .stopped } }), by decide +kernel,
    by decide +kernel, by decide +kernel, by decide +kernel, by decide +kernel, by decide +kernel,
    by decide +kernel⟩,
  ⟨1000, qw [(0, 6, 3), (6, 1, 1), (7, 4, 4)], live, by decide +kernel, by decide +kernel, by decide +kernel,
    by decide +kernel, by decide +kernel, by decide +kernel, by decide +kernel, by decide +kernel,
    by decide +kernel⟩,
  ⟨1000, qw [(0, 6, 3)], chan3 (fun c => { c with primary := { c.primary with run := .stopped } }),
    by decide +kernel, by decide +kernel, by decide +kernel, by decide +kernel, by decide +kernel,
    by decide +kernel, by decide +kernel, by decide +kernel⟩,
  ⟨1000, qw [(0, 6, 3)], chan3 (fun c => { c with primary := { c.primary with run := .running } }),
    by decide +kernel, by decide +kernel, by decide +kernel, by decide +kernel, by decide +kernel⟩,
  ⟨1000, qw [(0, 6, 3), (6, 13, 4096)],
    chan3 (fun c => { c with primary := { c.primary with run := .running }, shadow := { c.shadow with run := .running } }),
    by decide +kernel, by decide +kernel, by decide +kernel, by decide +kernel, by decide +kernel,
    by decide +kernel, by decide +kernel, by decide +kernel, by decide +kernel, by decide +kernel⟩,
  ⟨1000, qw [(0, 8, 5)], live, by decide +kernel, by decide +kernel, by decide +kernel⟩,
  ⟨1000, qw [(0, 6, 3)], live, by decide +kernel, by decide +kernel⟩,
  ⟨1000, qw [(0, 10, 511), (49, 1, 1), (10, 8, 200)], live, by decide +kernel, by decide +kernel,
    by decide +kernel, by decide +kernel, by decide +kernel, by decide +kernel, by decide +kernel⟩,
  ⟨1000, qw [(0, 10, 511), (10, 1, 1), (11, 16, 77)], live, by decide +kernel, by decide +kernel,
    by decide +kernel⟩⟩

/-- What `Obligations.WeaveCommandsComplete` assumes is met, clause by clause. -/
theorem test_weaveCommandsComplete_met :
    (∃ t : Time, ∃ rq : Request, ∃ s : State,
      let q := qword rq 1
      let c := fld q 0 6
      let w := (chanOf s c).weave
      (runs 0x1301 2 66 t rq s) ∧ (w.state ≠ .running) ∧ (w.state ≠ .armed) ∧ (heldChans s [c] = false) ∧
      (onlyBits q [(0, 6)]) ∧
      (weaveCheck (rq.payload.drop 1) (c % 4 == 0 && (effGen (genOf s (c / 4))).follow) (effCfg (chanOf s c)).burnout = none)) ∧
    (∃ t : Time, ∃ rq : Request, ∃ s : State,
      let q := qword rq 1
      let cs := bitsOf (BitVec.ofNat 64 (fld q 0 64))
      let startable := onlyBits q [(0, 68)] ∧ startBad s cs = false ∧ startBusy s cs = false ∧ heldChans s cs = false
      (runs 0x1302 1 1 t rq s) ∧ (startable) ∧ (fld q 64 2 = 0)) ∧
    (∃ t : Time, ∃ rq : Request, ∃ s : State,
      let q := qword rq 1
      let cs := bitsOf (BitVec.ofNat 64 (fld q 0 64))
      let startable := onlyBits q [(0, 68)] ∧ startBad s cs = false ∧ startBusy s cs = false ∧ heldChans s cs = false
      (runs 0x1302 1 1 t rq s) ∧ (startable) ∧ (fld q 64 2 = 2)) ∧
    (∃ t : Time, ∃ rq : Request, ∃ s : State,
      let q := qword rq 1
      let cs := bitsOf (BitVec.ofNat 64 (fld q 0 64))
      (runs 0x1303 1 1 t rq s) ∧ (onlyBits q [(0, 66)]) ∧ (fld q 64 2 ≠ 3) ∧
      (∀ c ∈ cs, (chanOf s c).weave.armedSlot = false) ∧ (heldChans s cs = false)) ∧
    (∃ t : Time, ∃ rq : Request, ∃ s : State,
      let q := qword rq 1
      (runs 0x1304 1 1 t rq s) ∧ (onlyBits q [(0, 6)])) :=
  ⟨⟨1000, ask [mkWord [(0, 6, 3)], mkWord [(0, 7, 1)], mkWord [(4, 4, 8), (32, 16, 1)]], live, by decide +kernel,
    by decide +kernel, by decide +kernel, by decide +kernel, by decide +kernel, by decide +kernel⟩,
  ⟨1000, qw [(3, 1, 1)],
    chan3 (fun c => { c with cfg := { c.cfg with enable := true }, weave := { c.weave with state := .loaded, image := some default } }),
    by decide +kernel, by decide +kernel, by decide +kernel⟩,
  ⟨1000, qw [(3, 1, 1), (64, 2, 2)],
    chan3 (fun c => { c with cfg := { c.cfg with enable := true }, weave := { c.weave with state := .loaded, image := some default } }),
    by decide +kernel, by decide +kernel, by decide +kernel⟩,
  ⟨1000, qw [(3, 1, 1), (64, 2, 2)],
    chan3 (fun c => { c with cfg := { c.cfg with enable := true }, weave := { c.weave with state := .running, image := some { (default : WeaveImg) with strokes := [default] } } }),
    by decide +kernel, by decide +kernel, by decide +kernel, by decide +kernel, by decide +kernel⟩,
  ⟨1000, qw [(0, 6, 3)], live, by decide +kernel, by decide +kernel⟩⟩

/-- What `Obligations.GeneratorCommandsComplete` assumes is met, clause by clause. -/
theorem test_generatorCommandsComplete_met :
    (∃ t : Time, ∃ rq : Request, ∃ s : State,
      let q := qword rq 1
      let n := fld q 0 4
      let up := fun i => fbit q (89 + i)
      let new := excMerge q up (effGen (genOf s n))
      let s1 := modGen n (fun g => { g with pending := some new }) s
      (runs 0x1101 1 1 t rq s) ∧ (onlyBits q [(0, 97)]) ∧ (unusedZero q excFields up) ∧ (excRangeBad q up = false) ∧
      (new.mode = .ac → acCond s1 n ∧ ∀ c ∈ fedBy n, woven s c = false) ∧ (weaveOwned s n = false) ∧
      (isHeld s (.generator n) = false) ∧ (fld q 89 8 ≠ 0) ∧ ((leadChan s n).isSome)) ∧
    (∃ t : Time, ∃ rq : Request, ∃ s : State,
      let q := qword rq 1
      (runs 0x1102 1 1 t rq s) ∧ (onlyBits q [(0, 4)])) :=
  ⟨⟨1000, qw [(0, 4, 0), (9, 12, 2500), (90, 1, 1)],
    chan3 (fun c => { c with cfg := { c.cfg with enable := true } }), by decide +kernel, by decide +kernel,
    by decide +kernel, by decide +kernel, by decide +kernel, by decide +kernel, by decide +kernel,
    by decide +kernel, by decide +kernel⟩,
  ⟨1000, qw [(0, 4, 15)], live, by decide +kernel, by decide +kernel⟩⟩

/-- What `Obligations.CalibrationCommandsComplete` assumes is met, clause by clause. -/
theorem test_calibrationCommandsComplete_met :
    (∃ t : Time, ∃ rq : Request, ∃ s : State,
      let q := qword rq 1
      let c := fld q 0 6
      let up := fun i => fbit q (36 + i)
      (runs 0x1401 1 1 t rq s) ∧ (onlyBits q [(0, 40)]) ∧ (up 0 = false → fbit q 6 = false) ∧
      (if up 1 then 80 ≤ fld q 7 12 ∧ fld q 7 12 ≤ 3600 else fld q 7 12 = 0) ∧ (up 2 = false → fbit q 19 = false) ∧
      (if up 3 then 100 ≤ fld q 20 16 else fld q 20 16 = 0) ∧ (heldChans s [c] = false)) ∧
    (∃ t : Time, ∃ rq : Request, ∃ s : State,
      let q := qword rq 1
      let cs := bitsOf (BitVec.ofNat 64 (fld q 0 64))
      (runs 0x1402 1 1 t rq s) ∧ (onlyBits q [(0, 64)]) ∧ (∀ c ∈ cs, spareServes s (c / 8)) ∧ (heldChans s cs = false)) ∧
    (∃ t : Time, ∃ rq : Request, ∃ s : State,
      let q := qword rq 1
      (runs 0x1403 1 1 t rq s) ∧ (onlyBits q [(0, 9)])) ∧
    (∃ t : Time, ∃ rq : Request, ∃ s : State, ∃ readable : Bool,
      let q := qword rq 1
      let conv := fld q 0 7
      let g := fld q 7 4
      (runs 0x1404 1 1 t rq s) ∧ (onlyBits q [(0, 17)]) ∧ (conv ≤ 71) ∧ (g ≤ 8) ∧ (fld q 11 2 ≠ 3) ∧
      (fld q 11 2 = 2 → fld q 13 4 < (historyOf s conv g).length) ∧ (readable)) ∧
    (∃ t : Time, ∃ rq : Request, ∃ s : State,
      let q := qword rq 1
      let conv := fld q 0 7
      let g := fld q 7 4
      let k : CoefSet := { coefOf (qword rq 2) (qword rq 3) with source := 3 }
      (runs 0x1405 3 3 t rq s) ∧ (onlyBits q [(0, 11)]) ∧ (conv ≤ 71) ∧ (g ≤ 8) ∧ (153600 ≤ k.dfe) ∧
      (k.dfe ≤ 256000) ∧ (fld (qword rq 3) 24 8 = 0) ∧ (fld (qword rq 3) 120 8 = 0) ∧ (inSlot s conv = false) ∧
      (heldChans s [conv] = false)) ∧
    (∃ t : Time, ∃ rq : Request, ∃ s : State,
      let q := qword rq 1
      let convs := bitsOf (BitVec.ofNat 72 (fld q 0 72))
      (runs 0x1406 1 1 t rq s) ∧ (onlyBits q [(0, 72)]) ∧ (∀ c ∈ convs, inSlot s c = false) ∧
      (heldChans s convs = false)) :=
  ⟨⟨1000, qw [(0, 6, 9), (6, 1, 1), (7, 12, 80), (36, 2, 3)], live, by decide +kernel, by decide +kernel,
    by decide +kernel, by decide +kernel, by decide +kernel, by decide +kernel, by decide +kernel⟩,
  ⟨1000, qw [(9, 1, 1), (63, 1, 1)], live, by decide +kernel, by decide +kernel, by decide +kernel,
    by decide +kernel⟩,
  ⟨1000, qw [(0, 8, 2), (8, 1, 1)], cal1 (fun k => { k with cycleEnable := true }), by decide +kernel,
    by decide +kernel⟩,
  ⟨1000, qw [(0, 7, 71), (7, 4, 8)], live, true, by decide +kernel, by decide +kernel, by decide +kernel,
    by decide +kernel, by decide +kernel, by decide +kernel, by decide +kernel⟩,
  ⟨1000, ask [mkWord [(0, 7, 71), (7, 4, 8)], mkWord [(0, 32, 5)], mkWord [(0, 24, 256000)]], live,
    by decide +kernel, by decide +kernel, by decide +kernel, by decide +kernel, by decide +kernel,
    by decide +kernel, by decide +kernel, by decide +kernel, by decide +kernel, by decide +kernel⟩,
  ⟨1000, qw [(0, 1, 1), (71, 1, 1)], live, by decide +kernel, by decide +kernel, by decide +kernel,
    by decide +kernel⟩⟩

/-- What `Obligations.TimeSettingsComplete` assumes is met, clause by clause. -/
theorem test_timeSettingsComplete_met :
    (∃ t : Time, ∃ rq : Request, ∃ s : State, (runs 0x2001 0 0 t rq s)) ∧
    (∃ t : Time, ∃ rq : Request, ∃ s : State, (runs 0x2002 0 0 t rq s)) ∧
    (∃ t : Time, ∃ rq : Request, ∃ s : State, (runs 0x200E 0 0 t rq s)) ∧
    (∃ t : Time, ∃ rq : Request, ∃ s : State,
      let q := qword rq 1
      let d := fld q 0 1
      (runs 0x2003 1 1 t rq s) ∧ (onlyBits q [(0, 5), (32, 32), (64, 64)]) ∧
      (sourceClash (sourceOf q) (domOf s (otherDom d)).source = false) ∧ (fld q 1 2 = 1 → fbit q 4 → fld q 64 64 = 0)) ∧
    (∃ t : Time, ∃ rq : Request, ∃ s : State,
      let q := qword rq 1
      (runs 0x2004 2 2 t rq s) ∧ (onlyBits q [(0, 1), (32, 64)]) ∧ (onlyBits (qword rq 2) [(0, 118)]) ∧
      (servoOk (servoOf q (qword rq 2)))) ∧
    (∃ t : Time, ∃ rq : Request, ∃ s : State,
      let q := qword rq 1
      (runs 0x2005 1 1 t rq s) ∧ (onlyBits q [(0, 14)]) ∧ (fld q 4 10 ≠ 0) ∧ (fld q 4 10 ≤ 1000) ∧ (fbit q 2 = false)) ∧
    (∃ t : Time, ∃ rq : Request, ∃ s : State,
      let q := qword rq 1
      let d := fld q 0 1
      (runs 0x2006 1 1 t rq s) ∧ (onlyBits q [(0, 1)]) ∧ ((domOf s d).state ≠ .faulty)) ∧
    (∃ t : Time, ∃ rq : Request, ∃ s : State,
      let q := qword rq 1
      let d := fld q 0 1
      (runs 0x2006 1 1 t rq s) ∧ (onlyBits q [(0, 1)]) ∧ ((domOf s d).state = .faulty)) ∧
    (∃ t : Time, ∃ rq : Request, ∃ s : State,
      let q := qword rq 1
      (runs 0x2007 1 1 t rq s) ∧ (onlyBits q [(0, 3), (32, 64)]) ∧ (fld q 0 3 ≤ 4)) ∧
    (∃ t : Time, ∃ rq : Request, ∃ s : State,
      let q := qword rq 1
      (runs 0x2008 1 1 t rq s) ∧ (onlyBits q [(0, 6)]) ∧ (fld q 2 4 ≤ 8)) ∧
    (∃ t : Time, ∃ rq : Request, ∃ s : State,
      let q := qword rq 1
      (runs 0x2009 1 1 t rq s) ∧ (onlyBits q [(0, 25)]) ∧ (fld q 0 5 ≤ 16) ∧ (fld q 5 20 ≤ 604800)) ∧
    (∃ t : Time, ∃ rq : Request, ∃ s : State,
      let q := qword rq 1
      (runs 0x200A 1 1 t rq s) ∧ (onlyBits q [(0, 21)]) ∧ (9600 ≤ fld q 1 20) ∧ (fld q 1 20 ≤ 921600)) ∧
    (∃ t : Time, ∃ rq : Request, ∃ s : State,
      let q := qword rq 1
      let now := tick t s
      (runs 0x200B 1 1 t rq s) ∧ (onlyBits q [(0, 18), (32, 48)]) ∧ (fbit q 16 = false ∨ fbit q 17 = false) ∧
      (fld q 32 48 = 0 ∨ t96Near now (BitVec.ofNat 128 (fld q 32 48 * 2 ^ 48))) ∧ (s.time.utc.supplied = false)) :=
  ⟨⟨1000, ask [], live, by decide +kernel⟩,
  ⟨1000, ask [], live, by decide +kernel⟩,
  ⟨1000, ask [],
    { live with time := { live.time with stepLog := [{ epoch := 1, before := 2, after := 3, cause := .hostSet }] } },
    by decide +kernel⟩,
  ⟨1000, qw [(0, 1, 1), (1, 2, 1), (64, 64, 77)], live, by decide +kernel, by decide +kernel, by decide +kernel,
    by decide +kernel⟩,
  ⟨1000, ask [mkWord [(0, 1, 1), (32, 32, 5)], mkWord [(0, 20, 1000000), (20, 16, 1), (36, 20, 1), (56, 30,
    1000), (86, 20, 1000000), (106, 12, 3600)]], live, by decide +kernel, by decide +kernel, by decide +kernel,
    by decide +kernel⟩,
  ⟨1000, qw [(0, 2, 3), (4, 10, 1000)], live, by decide +kernel, by decide +kernel, by decide +kernel,
    by decide +kernel, by decide +kernel⟩,
  ⟨1000, qw [(0, 1, 1)], live, by decide +kernel, by decide +kernel, by decide +kernel⟩,
  ⟨1000, qw [(0, 1, 1)], mod1 (fun d => { d with state := .faulty }), by decide +kernel, by decide +kernel,
    by decide +kernel⟩,
  ⟨1000, qw [(0, 3, 4), (32, 32, 4294967295)], live, by decide +kernel, by decide +kernel, by decide +kernel⟩,
  ⟨1000, qw [(0, 2, 3), (2, 4, 8)], live, by decide +kernel, by decide +kernel, by decide +kernel⟩,
  ⟨1000, qw [(0, 5, 16), (5, 20, 604800)], live, by decide +kernel, by decide +kernel, by decide +kernel,
    by decide +kernel⟩,
  ⟨1000, qw [(0, 1, 1), (1, 20, 9600)], live, by decide +kernel, by decide +kernel, by decide +kernel,
    by decide +kernel⟩,
  ⟨1000, qw [(0, 16, 37), (16, 1, 1), (32, 48, 1)], live, by decide +kernel, by decide +kernel,
    by decide +kernel, by decide +kernel, by decide +kernel⟩⟩

/-- What `Obligations.TimeStepsComplete` assumes is met, clause by clause. -/
theorem test_timeStepsComplete_met :
    (∃ t : Time, ∃ rq : Request, ∃ s : State,
      let q := qword rq 1
      (s.time.stepDue = none) ∧ (∀ i < 64, slotAt s i = none) ∧ (followsLocked s = false) ∧
      (0 ≤ ((max s.now t : Nat) : Int) + s.time.stepSum) ∧ (runs 0x200C 1 1 t rq s) ∧ (t96Form q)) ∧
    (∃ t : Time, ∃ rq : Request, ∃ s : State,
      let q := qword rq 1
      let d := fld q 0 1
      (s.time.stepDue = none) ∧ (∀ i < 64, slotAt s i = none) ∧ (followsLocked s = false) ∧
      (0 ≤ ((max s.now t : Nat) : Int) + s.time.stepSum) ∧ ∃ delta, (runs 0x200D 1 1 t rq s) ∧
      (onlyBits q [(0, 1)]) ∧ ((domOf s d).state = .faulty) ∧ ((domOf s d).pendingDelta = some delta) ∧
      ((((domOf s d).thetaTb + delta * 2 ^ 32).natAbs : Int) ≤ nsOff (domOf s d).servo.agreeNs) ∧
      (0 ≤ ((max s.now t : Nat) : Int) + s.time.stepSum + delta)) :=
  ⟨⟨1000, qw [(48, 48, 1700000000)], live, by decide +kernel, by decide +kernel, by decide +kernel,
    by decide +kernel, by decide +kernel, by decide +kernel⟩,
  ⟨1000, qw [(0, 1, 1)],
    mod1 (fun d => { d with state := .faulty, pendingDelta := some 500, thetaTb := -500 * 4294967296, servo := { d.servo with agreeNs := 1000 } }),
    by decide +kernel, by decide +kernel, by decide +kernel, by decide +kernel, 500, by decide +kernel,
    by decide +kernel, by decide +kernel, by decide +kernel, by decide +kernel, by decide +kernel⟩⟩

/-- What `Obligations.ActionCommandsComplete` assumes is met, clause by clause. -/
theorem test_actionCommandsComplete_met :
    (∃ t : Time, ∃ rq : Request, ∃ s : State,
      let q := qword rq 1
      let now := tick t s
      ∃ a, ∃ i, ∃ p, (runs 0x2101 3 3 t rq s) ∧ (slotOf q (qword rq 2) (qword rq 3) rq.agent = some a) ∧
      (t96Near now q) ∧ (freeSlot s = some i) ∧ (armPlan a (tbNow now) = some p)) ∧
    (∃ t : Time, ∃ rq : Request, ∃ s : State,
      let q := qword rq 1
      let now := tick t s
      let quiet := ∀ j, nextDue now = some j → ∀ a, slotAt now j = some a → tickOf now.now ≤ dueTick now a
      (runs 0x2102 1 1 t rq s) ∧ (onlyBits q [(0, 6)]) ∧ (fld q 0 6 ≠ 63) ∧ (quiet) ∧ (slotAt s (fld q 0 6) = none)) ∧
    (∃ t : Time, ∃ rq : Request, ∃ s : State,
      let q := qword rq 1
      let now := tick t s
      let quiet := ∀ j, nextDue now = some j → ∀ a, slotAt now j = some a → tickOf now.now ≤ dueTick now a
      ∃ a, (runs 0x2102 1 1 t rq s) ∧ (onlyBits q [(0, 6)]) ∧ (fld q 0 6 ≠ 63) ∧ (quiet) ∧
      (slotAt s (fld q 0 6) = some a)) ∧
    (∃ t : Time, ∃ rq : Request, ∃ s : State,
      let q := qword rq 1
      let now := tick t s
      let quiet := ∀ j, nextDue now = some j → ∀ a, slotAt now j = some a → tickOf now.now ≤ dueTick now a
      (runs 0x2103 1 1 t rq s) ∧ (onlyBits q [(0, 13)]) ∧ (fld q 6 7 ≠ 0) ∧ (fld q 0 6 + fld q 6 7 ≤ 64) ∧ (quiet)) ∧
    (∃ t : Time, ∃ rq : Request, ∃ s : State,
      let q := qword rq 1
      (runs 0x2102 1 1 t rq s) ∧ (onlyBits q [(0, 6)]) ∧ (fld q 0 6 ≠ 63)) ∧
    (∃ t : Time, ∃ rq : Request, ∃ s : State,
      let q := qword rq 1
      (runs 0x2103 1 1 t rq s) ∧ (onlyBits q [(0, 13)]) ∧ (fld q 6 7 ≠ 0) ∧ (fld q 0 6 + fld q 6 7 ≤ 64)) ∧
    (∃ t : Time, ∃ rq : Request, ∃ s : State,
      let q := qword rq 1
      (runs 0x2104 1 1 t rq s) ∧ (onlyBits q [(0, 8), (32, 32)]) ∧ (fld q 5 2 = 3 → fld q 0 4 = 15) ∧
      ((sfld q 32 32).natAbs ≤ 256000)) ∧
    (∃ t : Time, ∃ rq : Request, ∃ s : State,
      let q := qword rq 1
      (runs 0x2105 1 1 t rq s) ∧ (onlyBits q [(0, 38), (64, 33)]) ∧ (2048 ≤ fld q 0 38) ∧
      (fld q 0 38 ≤ 230400000000) ∧ ((sfld q 64 32).natAbs ≤ 256000000)) ∧
    (∃ t : Time, ∃ rq : Request, ∃ s : State,
      let q := qword rq 1
      (runs 0x2106 1 1 t rq s) ∧ (onlyBits q [(0, 6), (32, 32)]) ∧ ((sfld q 32 32).natAbs ≤ 256000)) ∧
    (∃ t : Time, ∃ rq : Request, ∃ s : State,
      let q := qword rq 1
      (runs 0x2107 1 1 t rq s) ∧ (onlyBits q [(0, 10)]) ∧ (fld q 3 7 ≠ 0) ∧ (fld q 3 7 ≤ 64)) :=
  ⟨⟨1000, armRq, live, armRqArm, 0, { arm := armRqArm, skipped := 0, lateness := 0 }, by decide +kernel,
    by decide +kernel, by decide +kernel, by decide +kernel, by decide +kernel⟩,
  ⟨1000, qw [(0, 6, 62)], live, by decide +kernel, by decide +kernel, by decide +kernel, by decide +kernel,
    by decide +kernel⟩,
  ⟨1000, qw [(0, 6, 62)], { live with tact := { live.tact with slots := live.tact.slots.set 62 (some arm9) } },
    arm9, by decide +kernel, by decide +kernel, by decide +kernel, by decide +kernel, by decide +kernel⟩,
  ⟨1000, qw [(0, 6, 0), (6, 7, 64)], live, by decide +kernel, by decide +kernel, by decide +kernel,
    by decide +kernel, by decide +kernel⟩,
  ⟨1000, qw [(0, 6, 62)], live, by decide +kernel, by decide +kernel, by decide +kernel⟩,
  ⟨1000, qw [(0, 6, 0), (6, 7, 64)], live, by decide +kernel, by decide +kernel, by decide +kernel,
    by decide +kernel⟩,
  ⟨1000, qw [(0, 4, 15), (5, 2, 3), (32, 32, 4294711296)], live, by decide +kernel, by decide +kernel,
    by decide +kernel, by decide +kernel⟩,
  ⟨1000, qw [(0, 38, 230400000000), (64, 32, 256000000)], live, by decide +kernel, by decide +kernel,
    by decide +kernel, by decide +kernel, by decide +kernel⟩,
  ⟨1000, qw [(0, 3, 7), (3, 2, 3), (32, 32, 256000)], live, by decide +kernel, by decide +kernel,
    by decide +kernel⟩,
  ⟨1000, qw [(0, 3, 7), (3, 7, 64)], live, by decide +kernel, by decide +kernel, by decide +kernel,
    by decide +kernel⟩⟩

/-- What `Obligations.SystemAndConfigurationCommandsComplete` assumes is met, clause by clause. -/
theorem test_systemAndConfigurationCommandsComplete_met :
    (∃ t : Time, ∃ rq : Request, ∃ s : State, (runs 0x0101 0 0 t rq s)) ∧
    (∃ t : Time, ∃ rq : Request, ∃ s : State,
      let q := qword rq 1
      let seq := BitVec.ofNat 32 (fld q 0 32)
      let agent := agentOf (fld q 32 2)
      let src := BitVec.ofNat 16 (fld q 34 16)
      ∃ e, (runs 0x0102 1 1 t rq s) ∧ (onlyBits q [(0, 50)]) ∧ (seq ≠ 0) ∧ (agent = .fabric ∨ src = 0) ∧
      (agent = rq.agent → seq ≠ rq.seq) ∧ (journalFind s agent src seq = some e)) ∧
    (∃ t : Time, ∃ rq : Request, ∃ s : State,
      let q := qword rq 1
      let seq := BitVec.ofNat 32 (fld q 0 32)
      let agent := agentOf (fld q 32 2)
      let src := BitVec.ofNat 16 (fld q 34 16)
      (runs 0x0102 1 1 t rq s) ∧ (onlyBits q [(0, 50)]) ∧ (seq ≠ 0) ∧ (agent = .fabric ∨ src = 0) ∧
      (agent = rq.agent → seq ≠ rq.seq) ∧ (journalFind s agent src seq = none)) ∧
    (∃ t : Time, ∃ rq : Request, ∃ s : State, ∃ op : BitVec 16, (knownOp op.toNat = false) ∧ (arrives t rq s) ∧
      (journalFind s rq.agent rq.srcNode rq.seq = none) ∧ (rq.len ≤ 255) ∧ (rq.remote = none)) ∧
    (∃ t : Time, ∃ rq : Request, ∃ s : State,
      let q := qword rq 1
      let gen := fld q 1 16
      let n := fld (qword rq 2) 0 17
      let begun := settle 0x0201 rq (accepted 3 [.config] [] (taken 0x0201 t rq s))
      ∃ img : ImageFetch, ∃ rs : List ImgRec, (runs 0x0201 4 4 t rq s) ∧ (onlyBits q [(0, 17), (64, 64)]) ∧
      (onlyBits (qword rq 2) [(0, 17)]) ∧ (1 ≤ n) ∧ (n ≤ 65536) ∧ (cfgBusy s = false) ∧ (fbit q 0 = false) ∧
      (idle rq s) ∧
      let ws := (img.words ++ List.replicate n 0).take n
      (img.ok) ∧ (sha256 (imageBytes ws) = rqDigest rq) ∧ (headerGen ws = some gen) ∧ (recordsOf ws = some rs) ∧
      (imageRules begun rs) ∧ (nodeCheck ws begun = none)) ∧
    (∃ t : Time, ∃ rq : Request, ∃ s : State,
      let q := qword rq 1
      let now := tick t s
      let gen := fld q 1 16
      ∃ i : Image, (runs 0x0202 4 4 t rq s) ∧ (onlyBits q [(0, 17)]) ∧ (t96Form (qword rq 2)) ∧
      (t96Near now (qword rq 2)) ∧ (tbNow now ≤ ofT96 (qword rq 2)) ∧ (cfgBusy s = false) ∧ (s.cfg.staged = some i) ∧
      (i.gen = gen) ∧ (i.digest = rqDigest rq) ∧ (fbit q 0 = false) ∧ (idle rq s)) ∧
    (∃ t : Time, ∃ rq : Request, ∃ s : State,
      let q := qword rq 1
      let gen := fld q 1 16
      ∃ a : Commit, (runs 0x0203 1 1 t rq s) ∧ (onlyBits q [(0, 17)]) ∧ (s.cfg.armed = some a) ∧ (a.gen = gen) ∧
      (a.catchup = false) ∧ (fbit q 0 = false) ∧ (idle rq s)) ∧
    (∃ t : Time, ∃ rq : Request, ∃ s : State,
      let q := qword rq 1
      (runs 0x0204 1 1 t rq s) ∧ (onlyBits q [(0, 12)]) ∧ (fld q 0 2 = 0) ∧ (idle rq s)) ∧
    (∃ t : Time, ∃ rq : Request, ∃ s : State,
      let q := qword rq 1
      (runs 0x0204 1 1 t rq s) ∧ (onlyBits q [(0, 12)]) ∧ (fld q 0 2 = 1) ∧ (idle rq s)) ∧
    (∃ t : Time, ∃ rq : Request, ∃ s : State,
      let q := qword rq 1
      (runs 0x0205 1 1 t rq s) ∧ (onlyBits q [(0, 4)])) :=
  ⟨⟨1000, ask [], live, by decide +kernel⟩,
  ⟨1000, qw [(0, 32, 9), (32, 2, 1)], { live with nv := { live.nv with journal := [entry9] } }, entry9,
    by decide +kernel, by decide +kernel, by decide +kernel, by decide +kernel, by decide +kernel,
    by decide +kernel⟩,
  ⟨1000, qw [(0, 32, 9), (32, 2, 1)], live, by decide +kernel, by decide +kernel, by decide +kernel,
    by decide +kernel, by decide +kernel, by decide +kernel⟩,
  ⟨1000, ask [], live, 0x7777#16, by decide +kernel, by decide +kernel, by decide +kernel, by decide +kernel,
    by decide +kernel⟩,
  ⟨1000, ask [mkWord [(1, 16, 5), (64, 64, 0)], mkWord [(0, 17, 3)], lo128 imgDigest, hi128 imgDigest], live,
    ({ words := imgWs, ok := true } : ImageFetch), (recordsOf imgWs).getD [], by decide +kernel,
    by decide +kernel, by decide +kernel, by decide +kernel, by decide +kernel, by decide +kernel,
    by decide +kernel, by decide +kernel, by decide +kernel, by decide +kernel, by decide +kernel,
    by decide +kernel, by decide +kernel, by decide +kernel⟩,
  ⟨1000, ask [mkWord [(1, 16, 5)], mkWord [(48, 48, 6)], 3, 4],
    { live with cfg := { live.cfg with staged := some { gen := 5, digest := (4 : BitVec 128) ++ (3 : BitVec 128), words := [] } } },
    { gen := 5, digest := (4 : BitVec 128) ++ (3 : BitVec 128), words := [] }, by decide +kernel,
    by decide +kernel, by decide +kernel, by decide +kernel, by decide +kernel, by decide +kernel,
    by decide +kernel, by decide +kernel, by decide +kernel, by decide +kernel, by decide +kernel⟩,
  ⟨1000, qw [(1, 16, 5)],
    { live with cfg := { live.cfg with armed := some { time := 9, gen := 5, digest := 0, catchup := false } } },
    ({ time := 9, gen := 5, digest := 0, catchup := false } : Commit), by decide +kernel, by decide +kernel,
    by decide +kernel, by decide +kernel, by decide +kernel, by decide +kernel, by decide +kernel⟩,
  ⟨1000, qw [(2, 10, 0)], live, by decide +kernel, by decide +kernel, by decide +kernel, by decide +kernel⟩,
  ⟨1000, qw [(0, 2, 1)], live, by decide +kernel, by decide +kernel, by decide +kernel, by decide +kernel⟩,
  ⟨1000, qw [(0, 4, 15)], live, by decide +kernel, by decide +kernel⟩⟩

/-- What `Obligations.LineAndFabricCommandsComplete` assumes is met, clause by clause. -/
theorem test_lineAndFabricCommandsComplete_met :
    (∃ t : Time, ∃ rq : Request, ∃ s : State,
      let q := qword rq 1
      let p := fld q 0 1
      let l := fld q 1 3
      let up := fun i => fbit q (64 + i)
      let new := laneMerge q up (laneOf s p l).set
      (runs 0x3001 1 1 t rq s) ∧ (onlyBits q [(0, 62), (64, 11)]) ∧ (lanePresent s l) ∧ (up 2 → 64 ≤ fld q 6 8) ∧
      (up 4 → new.firHost) ∧ (up 6 → new.ctleHost = false → fld q 50 4 = 0) ∧ (up 8 → fld q 55 2 ≠ 3) ∧
      (up 1 → fbit q 5 = false → s.fuseShadow.laneCap = false)) ∧
    (∃ t : Time, ∃ rq : Request, ∃ s : State,
      let q := qword rq 1
      let lanes := bitsOf (BitVec.ofNat 8 (fld q 1 8))
      (runs 0x3002 1 1 t rq s) ∧ (onlyBits q [(0, 9)]) ∧ (∀ l ∈ lanes, lanePresent s l)) ∧
    (∃ t : Time, ∃ rq : Request, ∃ s : State,
      let q := qword rq 1
      (runs 0x3003 1 1 t rq s) ∧ (onlyBits q [(0, 2)])) ∧
    (∃ t : Time, ∃ rq : Request, ∃ s : State,
      let q := qword rq 1
      (runs 0x3101 1 1 t rq s) ∧ (onlyBits q [(0, 1)])) ∧
    (∃ t : Time, ∃ rq : Request, ∃ s : State, (runs 0x3201 0 0 t rq s)) ∧
    (∃ t : Time, ∃ rq : Request, ∃ s : State,
      let q := qword rq 1
      let now := tick t s
      let dest := BitVec.ofNat 16 (fld q 0 16)
      (runs 0x3202 1 1 t rq s) ∧ (onlyBits q [(0, 16)]) ∧ (addrPos dest < 1000) ∧ (routedTo dest now)) ∧
    (∃ t : Time, ∃ rq : Request, ∃ s : State,
      let q := qword rq 1
      (runs 0x3301 1 1 t rq s) ∧ (onlyBits q [(0, 5)])) ∧
    (∃ t : Time, ∃ rq : Request, ∃ s : State,
      let q := qword rq 1
      (runs 0x3302 1 1 t rq s) ∧ (ptpWordOk q)) ∧
    (∃ t : Time, ∃ rq : Request, ∃ s : State,
      let q := qword rq 1
      (runs 0x3303 1 1 t rq s) ∧ (onlyBits q [(0, 1)])) :=
  ⟨⟨1000, qw [(0, 1, 1), (1, 3, 7), (5, 1, 0), (65, 1, 1), (6, 8, 64), (66, 1, 1)], live, by decide +kernel,
    by decide +kernel, by decide +kernel, by decide +kernel, by decide +kernel, by decide +kernel,
    by decide +kernel, by decide +kernel⟩,
  ⟨1000, qw [(0, 1, 1), (1, 8, 129)],
    modLane 1 7 (fun y => { y with state := .failed }) (modLane 1 0 (fun y => { y with state := .signal }) live),
    by decide +kernel, by decide +kernel, by decide +kernel⟩,
  ⟨1000, qw [(0, 1, 1), (1, 1, 1)], live, by decide +kernel, by decide +kernel⟩,
  ⟨1000, qw [(0, 1, 1)], live, by decide +kernel, by decide +kernel⟩,
  ⟨1000, ask [], live, by decide +kernel⟩,
  ⟨1000, qw [(0, 16, 0xFC05)], { live with fab := { live.fab with pos := some 5, n := some 9 } },
    by decide +kernel, by decide +kernel, by decide +kernel, by decide +kernel⟩,
  ⟨1000, qw [(0, 1, 1), (1, 1, 1), (3, 1, 1)], live, by decide +kernel, by decide +kernel⟩,
  ⟨1000, qw [], live, by decide +kernel, by decide +kernel⟩,
  ⟨1000, qw [(0, 1, 1)], live, by decide +kernel, by decide +kernel⟩⟩

/-- What `Obligations.BasinAndOperatorCommandsComplete` assumes is met, clause by clause. -/
theorem test_basinAndOperatorCommandsComplete_met :
    (∃ t : Time, ∃ rq : Request, ∃ s : State,
      let q := qword rq 1
      let g := fld q 0 10
      let x := segOf s g
      let up := fun i => fbit q (108 + i)
      (runs 0x4001 1 1 t rq s) ∧ (onlyBits q [(0, 116)]) ∧ (unusedZero q segFields up) ∧ (fld q 25 22 ≤ 3600000) ∧
      (fld q 47 22 ≤ 3600000) ∧ (fld q 103 2 ≠ 3) ∧ (fld q 105 2 ≠ 3) ∧ (up 0 → totalMib s g (fld q 10 14) ≤ 16128) ∧
      (∀ i < 8, up i → segActive x = false ∨ segBusyField q x i = false) ∧ (isHeld s (.segment g) = false)) ∧
    (∃ t : Time, ∃ rq : Request, ∃ s : State,
      let q := qword rq 1
      let g := fld q 0 10
      let there := segOff s g = false ∧ isHeld s (.segment g) = false
      (runs 0x4002 1 1 t rq s) ∧ (onlyBits q [(0, 10)]) ∧ (there)) ∧
    (∃ t : Time, ∃ rq : Request, ∃ s : State,
      let q := qword rq 1
      let g := fld q 0 10
      let there := segOff s g = false ∧ isHeld s (.segment g) = false
      (runs 0x4003 1 1 t rq s) ∧ (onlyBits q [(0, 11)]) ∧ (fbit q 10 = false) ∧ (there)) ∧
    (∃ t : Time, ∃ rq : Request, ∃ s : State,
      let q := qword rq 1
      let now := tick t s
      let g := fld q 0 10
      let there := segOff s g = false ∧ isHeld s (.segment g) = false
      (runs 0x4003 2 2 t rq s) ∧ (onlyBits q [(0, 11)]) ∧ (fbit q 10) ∧ (t96Form (qword rq 2)) ∧
      (t96Near now (qword rq 2)) ∧ (ofT96 (qword rq 2) ≤ tbNow now + 3600 * secU) ∧ (there)) ∧
    (∃ t : Time, ∃ rq : Request, ∃ s : State,
      let q := qword rq 1
      let g := fld q 0 10
      let there := segOff s g = false ∧ isHeld s (.segment g) = false
      (runs 0x4004 1 1 t rq s) ∧ (onlyBits q [(0, 10), (32, 32)]) ∧ (fld q 32 32 = 0) ∧ (there)) ∧
    (∃ t : Time, ∃ rq : Request, ∃ s : State,
      let q := qword rq 1
      let g := fld q 0 10
      let there := segOff s g = false ∧ isHeld s (.segment g) = false
      (runs 0x4004 1 1 t rq s) ∧ (onlyBits q [(0, 10), (32, 32)]) ∧ (fld q 32 32 ≠ 0) ∧ (there)) ∧
    (∃ t : Time, ∃ rq : Request, ∃ s : State,
      let q := qword rq 1
      let g := fld q 0 10
      let x := segOf s g
      let there := segOff s g = false ∧ isHeld s (.segment g) = false
      ∃ r, (runs 0x4005 1 1 t rq s) ∧ (onlyBits q [(0, 15), (32, 64)]) ∧ (there) ∧
      (isHeld s (.basinDma (fld q 10 2)) = false) ∧ (extractRange x (fld q 12 2) (fld q 32 32) (fld q 64 32) = some r)) ∧
    (∃ t : Time, ∃ rq : Request, ∃ s : State,
      let q := qword rq 1
      (runs 0x4006 1 1 t rq s) ∧ (onlyBits q [(0, 4)])) ∧
    (∃ t : Time, ∃ rq : Request, ∃ s : State,
      let q := qword rq 1
      let g := fld q 0 10
      let x := segOf s g
      let there := segOff s g = false ∧ isHeld s (.segment g) = false
      ∃ r, (runs 0x4007 1 1 t rq s) ∧ (onlyBits q [(0, 10), (12, 2), (32, 64), (96, 18)]) ∧ (there) ∧
      (fld q 112 2 ≠ 3) ∧ (extractRange x (fld q 12 2) (fld q 32 32) (fld q 64 32) = some r)) ∧
    (∃ t : Time, ∃ rq : Request, ∃ s : State,
      let q := qword rq 1
      let g := fld q 0 10
      (runs 0x4008 1 1 t rq s) ∧ (onlyBits q [(0, 17)]) ∧ (1 ≤ fld q 10 7) ∧ (fld q 10 7 ≤ 126) ∧
      (g + fld q 10 7 ≤ 1024)) ∧
    (∃ t : Time, ∃ rq : Request, ∃ s : State,
      let q := qword rq 1
      ∃ kind, (runs 0x4101 4 81 t rq s) ∧
      let n := fld q 0 5
      let kc := fld q 5 3
      let k := opCfgOf rq kind
      let nIn := fld q 8 4
      let opers := s.oper.modify n (fun o => { o with cfg := some k })
      (opKindOf rq kc = some kind) ∧ (opWanted (operOf s n) = false) ∧ (opWords rq kc ≤ rq.len) ∧
      (onlyBits q [(0, 83)]) ∧ (1 ≤ nIn) ∧ (nIn ≤ 8) ∧ (opRangeOk kind nIn) ∧ (k.holdUs ≤ 100000) ∧
      (512 ≤ k.outBase) ∧ (k.outBase + opOutputs kind ≤ 1024) ∧ (∀ w ∈ rq.payload.drop (opWords rq kc), w = 0) ∧
      (∀ i < 8, nIn ≤ i → fld (qword rq (2 + i / 4)) (27 * (i % 4)) 27 = 0) ∧ (onlyBits (qword rq 2) [(0, 108)]) ∧
      (onlyBits (qword rq 3) [(0, 108)]) ∧ (onlyBits (qword rq 4) (opParamBits kc)) ∧ (opRestOk rq kc) ∧
      (fbit q 63 → exportClass (fld q 80 3)) ∧ (opOverlap opers n k = false) ∧
      (inCycle opers n 32 (feeders opers n) = false) ∧ (combineRateOk s k)) ∧
    (∃ t : Time, ∃ rq : Request, ∃ s : State,
      let q := qword rq 1
      (runs 0x4102 1 1 t rq s) ∧ (onlyBits q [(0, 32)]) ∧
      (∀ n ∈ bitsOf (BitVec.ofNat 32 (fld q 0 32)), (operOf s n).cfg.isSome)) ∧
    (∃ t : Time, ∃ rq : Request, ∃ s : State,
      let q := qword rq 1
      (runs 0x4103 1 1 t rq s) ∧ (onlyBits q [(0, 32)])) ∧
    (∃ t : Time, ∃ rq : Request, ∃ s : State,
      let q := qword rq 1
      (runs 0x4104 1 1 t rq s) ∧ (onlyBits q [(0, 5)])) :=
  ⟨⟨1000, qw [(0, 10, 7), (25, 22, 3600000), (110, 1, 1)], live, by decide +kernel, by decide +kernel,
    by decide +kernel, by decide +kernel, by decide +kernel, by decide +kernel, by decide +kernel,
    by decide +kernel, by decide +kernel, by decide +kernel⟩,
  ⟨1000, qw [(0, 10, 7)], full7, by decide +kernel, by decide +kernel, by decide +kernel⟩,
  ⟨1000, qw [(0, 10, 7)], full7, by decide +kernel, by decide +kernel, by decide +kernel, by decide +kernel⟩,
  ⟨1000, ask [mkWord [(0, 10, 7), (10, 1, 1)], mkWord [(48, 48, 3600)]], full7, by decide +kernel,
    by decide +kernel, by decide +kernel, by decide +kernel, by decide +kernel, by decide +kernel,
    by decide +kernel⟩,
  ⟨1000, qw [(0, 10, 7)], full7, by decide +kernel, by decide +kernel, by decide +kernel, by decide +kernel⟩,
  ⟨1000, qw [(0, 10, 7), (32, 32, 4)], full7, by decide +kernel, by decide +kernel, by decide +kernel,
    by decide +kernel⟩,
  ⟨1000, qw [(0, 10, 7), (10, 2, 3), (12, 2, 2), (64, 32, 5)], full7, (4, 9), by decide +kernel,
    by decide +kernel, by decide +kernel, by decide +kernel, by decide +kernel⟩,
  ⟨1000, qw [(0, 4, 15)], full7, by decide +kernel, by decide +kernel⟩,
  ⟨1000, qw [(0, 10, 7), (12, 2, 0), (96, 16, 0xFC05), (112, 2, 2)], full7, (0, 9), by decide +kernel,
    by decide +kernel, by decide +kernel, by decide +kernel, by decide +kernel⟩,
  ⟨1000, qw [(0, 10, 898), (10, 7, 126)], full7, by decide +kernel, by decide +kernel, by decide +kernel,
    by decide +kernel, by decide +kernel⟩,
  ⟨1000, opRq, full7, .stats 2, by decide +kernel, by decide +kernel, by decide +kernel, by decide +kernel,
    by decide +kernel, by decide +kernel, by decide +kernel, by decide +kernel, by decide +kernel,
    by decide +kernel, by decide +kernel, listAll (by decide +kernel), by decide +kernel, by decide +kernel,
    by decide +kernel, by decide +kernel, by decide +kernel, by decide +kernel, by decide +kernel,
    by decide +kernel, by decide +kernel⟩,
  ⟨1000, qw [(31, 1, 1)],
    { live with oper := live.oper.modify 31 (fun o => { o with cfg := some (opCfgOf opRq (.stats 2)) }) },
    by decide +kernel, by decide +kernel, by decide +kernel⟩,
  ⟨1000, qw [(31, 1, 1)], full7, by decide +kernel, by decide +kernel⟩,
  ⟨1000, qw [(0, 5, 31)], full7, by decide +kernel, by decide +kernel⟩⟩

/-- What `Obligations.ClockAndPowerCommandsComplete` assumes is met, clause by clause. -/
theorem test_clockAndPowerCommandsComplete_met :
    (∃ t : Time, ∃ rq : Request, ∃ s : State, (runs 0x5001 0 0 t rq s)) ∧
    (∃ t : Time, ∃ rq : Request, ∃ s : State,
      let q := qword rq 1
      let code := fld q 0 2
      (runs 0x5002 1 1 t rq s) ∧ (onlyBits q [(0, 29)]) ∧ (fld q 2 5 ≠ fld q 7 5) ∧ (fld q 15 14 ≠ 0) ∧
      (fld q 15 14 ≤ 10000) ∧ (lanePresent s (fld q 12 3)) ∧ ((s.clk.counters.getD code default).running = false)) ∧
    (∃ t : Time, ∃ rq : Request, ∃ s : State,
      let q := qword rq 1
      let n := fld q 0 4
      let i := gateIsland n
      let gate := onlyBits q [(0, 5)] ∧ n ≤ 11 ∧ isHeld s (.island n) = false ∧ isHeld s (.island (16 + n)) = false ∧
          (islandHolds i).any (isHeld s) = false
      (runs 0x5003 1 1 t rq s) ∧ (gate) ∧ (s.clk.gated.getLsbD n = !fbit q 4) ∧ (fbit q 4 ∨ mayClose s n)) ∧
    (∃ t : Time, ∃ rq : Request, ∃ s : State,
      let q := qword rq 1
      let n := fld q 0 4
      let i := gateIsland n
      let gate := onlyBits q [(0, 5)] ∧ n ≤ 11 ∧ isHeld s (.island n) = false ∧ isHeld s (.island (16 + n)) = false ∧
          (islandHolds i).any (isHeld s) = false
      (runs 0x5003 1 1 t rq s) ∧ (gate) ∧ (fbit q 4) ∧ (s.clk.gated.getLsbD n)) ∧
    (∃ t : Time, ∃ rq : Request, ∃ s : State,
      let q := qword rq 1
      let n := fld q 0 4
      let i := gateIsland n
      let gate := onlyBits q [(0, 5)] ∧ n ≤ 11 ∧ isHeld s (.island n) = false ∧ isHeld s (.island (16 + n)) = false ∧
          (islandHolds i).any (isHeld s) = false
      (runs 0x5003 1 1 t rq s) ∧ (gate) ∧ (fbit q 4 = false) ∧ (mayClose s n) ∧ (s.clk.gated.getLsbD n = false)) ∧
    (∃ t : Time, ∃ rq : Request, ∃ s : State,
      let q := qword rq 1
      (runs 0x5004 1 1 t rq s) ∧ (onlyBits q [(0, 6)]) ∧ (fld q 1 2 ≠ 3) ∧ (lanePresent s (fld q 3 3))) ∧
    (∃ t : Time, ∃ rq : Request, ∃ s : State,
      let q := qword rq 1
      let code := fld q 0 2
      (runs 0x5101 1 1 t rq s) ∧ (onlyBits q [(0, 2)]) ∧ (isHeld s .op = false) ∧ (s.pwr.change = none) ∧
      (code < 2 → s.therm.level = 0) ∧
      let p := if 1 ≤ s.therm.level then { s.pwr with opBeforeL1 := some code } else s.pwr
      (opInForce code { s with pwr := p })) ∧
    (∃ t : Time, ∃ rq : Request, ∃ s : State,
      let q := qword rq 1
      let code := fld q 0 2
      (runs 0x5101 1 1 t rq s) ∧ (onlyBits q [(0, 2)]) ∧ (isHeld s .op = false) ∧ (s.pwr.change = none) ∧
      (code < 2 → s.therm.level = 0) ∧
      let p := if 1 ≤ s.therm.level then { s.pwr with opBeforeL1 := some code } else s.pwr
      (opInForce code { s with pwr := p } = false)) ∧
    (∃ t : Time, ∃ rq : Request, ∃ s : State, (runs 0x5102 0 0 t rq s)) ∧
    (∃ t : Time, ∃ rq : Request, ∃ s : State,
      let q := qword rq 1
      let code := fld q 0 2
      (runs 0x5103 1 1 t rq s) ∧ (onlyBits q [(0, 2), (96, 32)]) ∧ (isHeld s .power = false) ∧
      (s.islands.length = 21) ∧ (code = 0) ∧ (s.pwr.state ≠ .quiet)) ∧
    (∃ t : Time, ∃ rq : Request, ∃ s : State,
      let q := qword rq 1
      let code := fld q 0 2
      (runs 0x5103 1 1 t rq s) ∧ (onlyBits q [(0, 2), (96, 32)]) ∧ (isHeld s .power = false) ∧
      (s.islands.length = 21) ∧ (code = 0) ∧ (s.pwr.state = .quiet)) ∧
    (∃ t : Time, ∃ rq : Request, ∃ s : State,
      let q := qword rq 1
      let code := fld q 0 2
      ∃ idle, (runs 0x5103 1 1 t rq s) ∧ (onlyBits q [(0, 2), (96, 32)]) ∧ (isHeld s .power = false) ∧
      (s.islands.length = 21) ∧ (code = 1) ∧ (s.pwr.state ≠ .quiet) ∧ (idle)) ∧
    (∃ t : Time, ∃ rq : Request, ∃ s : State,
      let q := qword rq 1
      let code := fld q 0 2
      (runs 0x5103 1 1 t rq s) ∧ (onlyBits q [(0, 2), (96, 32)]) ∧ (isHeld s .power = false) ∧
      (s.islands.length = 21) ∧ (code = 2) ∧ (fld q 96 32 = 0x5128C0DE)) ∧
    (∃ t : Time, ∃ rq : Request, ∃ s : State,
      let q := qword rq 1
      (runs 0x5201 1 1 t rq s) ∧ (onlyBits q [(0, 16)]) ∧ (fld q 0 16 ≤ 60000)) ∧
    (∃ t : Time, ∃ rq : Request, ∃ s : State, (runs 0x5202 0 0 t rq s)) ∧
    (∃ t : Time, ∃ rq : Request, ∃ s : State,
      let q := qword rq 1
      let n := fld q 0 4
      (runs 0x0104 1 1 t rq s) ∧ (onlyBits q [(0, 4)]) ∧ (n ≤ 10) ∧ (isUp s (resetIsland n)) ∧
      ((islandHolds (resetIsland n)).any (isHeld s) = false) ∧ (isHeld s (.island (32 + n)) = false)) :=
  ⟨⟨1000, ask [], live, by decide +kernel⟩,
  ⟨1000, qw [(0, 2, 3), (2, 5, 3), (7, 5, 4), (12, 3, 7), (15, 14, 10000)], live, by decide +kernel,
    by decide +kernel, by decide +kernel, by decide +kernel, by decide +kernel, by decide +kernel,
    by decide +kernel⟩,
  ⟨1000, qw [(0, 4, 11), (4, 1, 1)], live, by decide +kernel, by decide +kernel, by decide +kernel,
    by decide +kernel⟩,
  ⟨1000, qw [(0, 4, 8), (4, 1, 1)], { live with clk := { live.clk with gated := 0x100 } }, by decide +kernel,
    by decide +kernel, by decide +kernel, by decide +kernel⟩,
  ⟨1000, qw [(0, 4, 7)], live, by decide +kernel, by decide +kernel, by decide +kernel, by decide +kernel,
    by decide +kernel⟩,
  ⟨1000, qw [(0, 6, 63 - 4)], live, by decide +kernel, by decide +kernel, by decide +kernel, by decide +kernel⟩,
  ⟨1000, qw [(0, 2, 0)], live, by decide +kernel, by decide +kernel, by decide +kernel, by decide +kernel,
    by decide +kernel, by decide +kernel⟩,
  ⟨1000, qw [(0, 2, 3)], live, by decide +kernel, by decide +kernel, by decide +kernel, by decide +kernel,
    by decide +kernel, by decide +kernel⟩,
  ⟨1000, ask [], live, by decide +kernel⟩,
  ⟨1000, qw [(0, 2, 0)], live, by decide +kernel, by decide +kernel, by decide +kernel, by decide +kernel,
    by decide +kernel, by decide +kernel⟩,
  ⟨1000, qw [(0, 2, 0)], { live with pwr := { live.pwr with state := .quiet } }, by decide +kernel,
    by decide +kernel, by decide +kernel, by decide +kernel, by decide +kernel, by decide +kernel⟩,
  ⟨1000, qw [(0, 2, 1)], live, true, by decide +kernel, by decide +kernel, by decide +kernel, by decide +kernel,
    by decide +kernel, by decide +kernel, by decide +kernel⟩,
  ⟨1000, qw [(0, 2, 2), (96, 32, 0x5128C0DE)], live, by decide +kernel, by decide +kernel, by decide +kernel,
    by decide +kernel, by decide +kernel, by decide +kernel⟩,
  ⟨1000, qw [(0, 16, 60000)], live, by decide +kernel, by decide +kernel, by decide +kernel⟩,
  ⟨1000, ask [], live, by decide +kernel⟩,
  ⟨1000, qw [(0, 4, 10)], live, by decide +kernel, by decide +kernel, by decide +kernel, by decide +kernel,
    by decide +kernel, by decide +kernel⟩⟩

/-- What `Obligations.StoreAndDiagnosisCommandsComplete` assumes is met, clause by clause. -/
theorem test_storeAndDiagnosisCommandsComplete_met :
    (∃ t : Time, ∃ rq : Request, ∃ s : State, (runs 0x5301 0 0 t rq s)) ∧
    (∃ t : Time, ∃ rq : Request, ∃ s : State,
      let q := qword rq 1
      (runs 0x5302 1 1 t rq s) ∧ (onlyBits q [(0, 8)]) ∧ (fld q 0 8 < s.repairQueue.length) ∧
      (isHeld s .fuses = false) ∧ (s.fuses.repairs.length < 64)) ∧
    (∃ t : Time, ∃ rq : Request, ∃ s : State, (runs 0x5401 0 0 t rq s)) ∧
    (∃ t : Time, ∃ rq : Request, ∃ s : State,
      let q := qword rq 1
      (runs 0x5402 1 1 t rq s) ∧ (onlyBits q [(0, 7)]) ∧ (refreshMask rq ≠ []) ∧ (idle rq s) ∧
      (∀ i ∈ refreshMask rq, isHeld s (.nvRegion i) = false)) ∧
    (∃ t : Time, ∃ rq : Request, ∃ s : State,
      let q := qword rq 1
      (runs 0x5501 1 1 t rq s) ∧ (onlyBits q [(0, 2)]) ∧ (fld q 0 2 ≠ 3)) ∧
    (∃ t : Time, ∃ rq : Request, ∃ s : State,
      let q := qword rq 1
      ∃ unblown : BitVec 384, ∃ cut : Option (BitVec 384), (runs 0x5502 2 5 t rq s) ∧
      (onlyBits q [(0, 8), (96, 32)]) ∧ (fld q 96 32 = 0x5128C0DE) ∧ (fieldWidth (fuseCode rq) ≠ 0) ∧
      ((fuseValue rq).toNat < 2 ^ fieldWidth (fuseCode rq)) ∧
      (fuseCode rq = 1 → locksOut (blow 1 (fuseBits rq) s.fuses) = false) ∧
      (fuseCode rq = 7 → noKeyLeft (blow 7 (fuseBits rq) s.fuses) = false) ∧ (isHeld s .fuses = false) ∧
      (s.fuses.sealed = false) ∧ (cut = none) ∧ ((fuseBits rq &&& unblown).toNat = 0)) ∧
    (∃ t : Time, ∃ rq : Request, ∃ s : State,
      let q := qword rq 1
      ∃ cut : Option (BitVec 384), (runs 0x5502 2 5 t rq s) ∧ (onlyBits q [(0, 8), (96, 32)]) ∧
      (fld q 96 32 = 0x5128C0DE) ∧ (fieldWidth (fuseCode rq) ≠ 0) ∧
      ((fuseValue rq).toNat < 2 ^ fieldWidth (fuseCode rq)) ∧
      (fuseCode rq = 1 → locksOut (blow 1 (fuseBits rq) s.fuses) = false) ∧
      (fuseCode rq = 7 → noKeyLeft (blow 7 (fuseBits rq) s.fuses) = false) ∧ (isHeld s .fuses = false) ∧
      (s.fuses.sealed = false) ∧ ∃ held : BitVec 384, (cut = some held)) ∧
    (∃ t : Time, ∃ rq : Request, ∃ s : State,
      let q := qword rq 1
      (runs 0x5503 1 1 t rq s) ∧ (onlyBits q [(96, 32)]) ∧ (fld q 96 32 = 0x5128C0DE) ∧ (isHeld s .fuses = false) ∧
      (s.fuses.sealed = false)) ∧
    (∃ t : Time, ∃ rq : Request, ∃ s : State,
      let q := qword rq 1
      (runs 0x5601 1 1 t rq s) ∧ (onlyBits q [(0, 3)])) ∧
    (∃ t : Time, ∃ rq : Request, ∃ s : State,
      let q := qword rq 1
      (runs 0x5602 1 1 t rq s) ∧ (onlyBits q [(0, 64)]) ∧ (isHeld s .log = false)) ∧
    (∃ t : Time, ∃ rq : Request, ∃ s : State,
      let q := qword rq 1
      let p := fld q 0 3
      (runs 0x5F01 1 1 t rq s) ∧ (onlyBits q [(0, 6)]) ∧ (p ≤ 4) ∧ (fld q 3 2 ≠ 3) ∧
      (fld q 3 2 = 0 ∨ portCarries s p = false ∨ fbit q 5)) ∧
    (∃ t : Time, ∃ rq : Request, ∃ s : State,
      let q := qword rq 1
      (runs 0x5F02 1 1 t rq s) ∧ (onlyBits q [(0, 4)]) ∧ (fld q 0 4 ≤ 3) ∧ (isHeld s .selftest = false) ∧ (idle rq s)) ∧
    (∃ t : Time, ∃ rq : Request, ∃ s : State,
      let q := qword rq 1
      (runs 0x5F03 1 1 t rq s) ∧ (onlyBits q [(0, 22)]) ∧ (lanePresent s (fld q 1 3)) ∧ (1024 ≤ fld q 5 17) ∧
      (fld q 5 17 ≤ 65536) ∧ (isHeld s .capture = false)) :=
  ⟨⟨1000, ask [], live, by decide +kernel⟩,
  ⟨1000, qw [(0, 8, 0)], { live with repairQueue := [default] }, by decide +kernel, by decide +kernel,
    by decide +kernel, by decide +kernel, by decide +kernel⟩,
  ⟨1000, ask [], live, by decide +kernel⟩,
  ⟨1000, qw [(0, 7, 65)], live, by decide +kernel, by decide +kernel, by decide +kernel, by decide +kernel,
    by decide +kernel⟩,
  ⟨1000, qw [(0, 2, 2)], live, by decide +kernel, by decide +kernel, by decide +kernel⟩,
  ⟨1000, ask [mkWord [(0, 8, 7), (96, 32, 0x5128C0DE)], 4], live, 8, (none : Option (BitVec 384)),
    by decide +kernel, by decide +kernel, by decide +kernel, by decide +kernel, by decide +kernel,
    by decide +kernel, by decide +kernel, by decide +kernel, by decide +kernel, by decide +kernel,
    by decide +kernel⟩,
  ⟨1000, ask [mkWord [(0, 8, 7), (96, 32, 0x5128C0DE)], 4], live, some 4, by decide +kernel, by decide +kernel,
    by decide +kernel, by decide +kernel, by decide +kernel, by decide +kernel, by decide +kernel,
    by decide +kernel, by decide +kernel, 4, by decide +kernel⟩,
  ⟨1000, qw [(96, 32, 0x5128C0DE)], live, by decide +kernel, by decide +kernel, by decide +kernel,
    by decide +kernel, by decide +kernel⟩,
  ⟨1000, qw [(0, 3, 6)], live, by decide +kernel, by decide +kernel⟩,
  ⟨1000, qw [(0, 32, 0), (32, 32, 9)], live, by decide +kernel, by decide +kernel, by decide +kernel⟩,
  ⟨1000, qw [(0, 3, 4), (3, 2, 2), (5, 1, 1)], live, by decide +kernel, by decide +kernel, by decide +kernel,
    by decide +kernel, by decide +kernel⟩,
  ⟨1000, qw [(0, 4, 3)], live, by decide +kernel, by decide +kernel, by decide +kernel, by decide +kernel,
    by decide +kernel⟩,
  ⟨1000, qw [(1, 3, 7), (5, 17, 65536)], live, by decide +kernel, by decide +kernel, by decide +kernel,
    by decide +kernel, by decide +kernel, by decide +kernel⟩⟩

/-- What `Obligations.OutputsBecomeRecords` assumes is met, clause by clause. -/
theorem test_outputsBecomeRecords_met :
    (∃ t : Time, ∃ ch : Fin 64, ∃ s : State, (Whole s) ∧
      let c := ch.val
      let now := tick t s
      let x := chanOf s c
      ∃ o : Sample,
      let ot := instOut now c x.primary o.k
      (o.shadow = false) ∧ (groupEmits now (c / 8)) ∧ (x.weave.state ≠ .running) ∧ (x.weave.tail = none) ∧
      (x.cfg.enable) ∧ (x.unsubstituted = false) ∧ (x.loopback = none) ∧ (x.settleEnd = none) ∧ (running x.primary) ∧
      (∀ l, x.primary.lastOut = some l → l < ot.out) ∧ (ot.out ≤ (now.now : Int)) ∧
      (fillOf x.primary x.markMode o.k ot = .full) ∧ ((rawStart x.blanks ot).2 = false) ∧
      (inBlank x.blanks ot.out = false) ∧ (x.fade = .normal) ∧ (x.changeover = none) ∧ (x.cfg.openDet = false) ∧
      (combining now c = false) ∧ (o.other = none)) ∧
    (∃ t : Time, ∃ ch : Fin 64, ∃ s : State, (Whole s) ∧
      let c := ch.val
      let now := tick t s
      let x := chanOf s c
      ∃ r, ∃ rest, ∃ d,
      let a := recAddr r.word
      let q := queueOf s (c / 8) d
      (x.formed = r :: rest) ∧ (∀ k ∈ chansOf (c / 8), (chanOf s k).formed.head?.all (fun y => !leavesBefore y r)) ∧
      (r.out + (judgeFu : Int) ≤ (now.now : Int)) ∧ (subDests (subFor (addrOf s a) r.out) = [d]) ∧ (destUp now d) ∧
      (q.recs.length < 256) ∧ (∀ n < 32, inputsOf (s.oper.getD n default) none a = [])) ∧
    (∃ t : Time, ∃ ch : Fin 64, ∃ s : State, (Whole s) ∧
      let c := ch.val
      let now := tick t s
      (isBoundary now c now.now)) ∧
    (∃ t : Time, ∃ ch : Fin 64, ∃ s : State, (Whole s) ∧
      let c := ch.val
      let now := tick t s
      let x := chanOf s c
      ∃ e, (x.settleEnd = some e) ∧ (e ≤ now.now)) :=
  ⟨⟨out10, 3, chan3 (fun c => { c with cfg := { c.cfg with enable := true, openDet := false } }),
    by unfold Whole; decide +kernel, { k := 1000, shadow := false, xs := [], other := none, inBand := false },
    by decide +kernel, by decide +kernel, by decide +kernel, by decide +kernel, by decide +kernel,
    by decide +kernel, by decide +kernel, by decide +kernel, by decide +kernel, optAll (by decide +kernel),
    by decide +kernel, by decide +kernel, by decide +kernel, by decide +kernel, by decide +kernel,
    by decide +kernel, by decide +kernel, by decide +kernel, by decide +kernel⟩,
  ⟨out10, 3,
    chan3 (fun c => { c with formed := [{ word := mkWord [(16, 10, 24)], gen := 0, out := -1000000000, gap := true }] }),
    by unfold Whole; decide +kernel,
    ({ word := mkWord [(16, 10, 24)], gen := 0, out := -1000000000, gap := true } : FormedRec),
    ([] : List FormedRec), Dest.ring 0, by decide +kernel, by decide +kernel, by decide +kernel,
    by decide +kernel, by decide +kernel, by decide +kernel, by decide +kernel⟩,
  ⟨out10, 3, chan3 (fun c => { c with cfg := { c.cfg with enable := true, openDet := false } }),
    by unfold Whole; decide +kernel, by decide +kernel⟩,
  ⟨out10, 3, chan3 (fun c => { c with settleEnd := some out10 }), by unfold Whole; decide +kernel, out10,
    by decide +kernel, by decide +kernel⟩⟩

/-- What `Obligations.BlanksAndSyncs` assumes is met, clause by clause. -/
theorem test_blanksAndSyncs_met :
    (∃ w : Nat, (100 ≤ w)) ∧
    (∃ t : Time, ∃ s : State,
      let now := tick t s
      let src := fun (i : Nat) => s.daq.blank.getD i default
      ∃ i : Fin 8, ((src i.val).asserted) ∧ ((src i.val).stuckRaised = false) ∧
      ((src i.val).riseAt + (src i.val).stuckMs * msU ≤ now.now)) ∧
    (∃ t : Time, ∃ s : State,
      let now := tick t s
      let src := fun (i : Nat) => s.daq.blank.getD i default
      ∃ n : Fin 4, ∃ e : Time, ((src (4 + n.val)).windowEnd = some e) ∧ (e ≤ now.now)) ∧
    (∃ t : Time, ∃ s : State,
      let now := tick t s
      ∃ w : Nat, (100 ≤ w) ∧ (∀ a, s.daq.lastSyncN = some a → a + 10 * usU ≤ now.now)) ∧
    (∃ t : Time, ∃ s : State,
      let now := tick t s
      ∃ g : Fin 8, ∃ a : Time, ∃ rest : List Time, ((groupOf s g.val).syncs = a :: rest) ∧
      (rest.foldl min a ≤ now.now) ∧ (isUp s (daqIsland g.val)) ∧
      (actedAlready (groupOf s g.val) (rest.foldl min a) = false)) :=
  ⟨⟨100, by decide +kernel⟩,
  ⟨10000 * msU, modBlank 5 (fun b => { b with asserted := true }) live, 5, by decide +kernel, by decide +kernel,
    by decide +kernel⟩,
  ⟨1000, modBlank 5 (fun b => { b with windowEnd := some 1000 }) live, 1, 1000, by decide +kernel,
    by decide +kernel⟩,
  ⟨5 + 10 * usU, modDaq (fun d => { d with lastSyncN := some 5 }) live, 100, by decide +kernel,
    optAll (by decide +kernel)⟩,
  ⟨1000, modGroup 2 (fun g => { g with syncs := [900, 1000, 950] }) live, 2, 900, [1000, 950], by decide +kernel,
    by decide +kernel, by decide +kernel, by decide +kernel⟩⟩

/-- What `Obligations.GeneratorsAndReferences` assumes is met, clause by clause. -/
theorem test_generatorsAndReferences_met :
    (∃ s : State, ∃ v, (s.daq.refinValid ≠ v)) ∧
    (∃ s : State, ∃ n : Fin 16, ∃ entry : Bool, ((genOf s n.val).compliance ≠ entry)) ∧
    (∃ s : State, ∃ n : Fin 16, ((genOf s n.val).tripped = false) ∧ (n.val < s.daq.gens.length)) ∧
    (∃ s : State, ∃ n : Fin 16, ∃ ma : Nat, ∃ below : Nat, (60 < ma) ∧
      ((genOf s n.val).overload = false ∨ secU ≤ below)) ∧
    (∃ s : State, ∃ n : Fin 16, (s.mgmt.run) ∧ ((genOf s n.val).tripped = false) ∧ ((genOf s n.val).cfg.mode ≠ .off) ∧
      ((genOf s n.val).cfg.window = none)) ∧
    (∃ t : Time, ∃ s : State,
      let now := tick t s
      ∃ n : Fin 16, (inAc (genOf s n.val)) ∧ ((genOf s n.val).acRestart = false) ∧
      (swapAt now n.val ≤ (now.now : Int))) ∧
    (∃ t : Time, ∃ s : State,
      let now := tick t s
      ∃ n : Fin 16, (inAc (genOf s n.val)) ∧ ((genOf s n.val).acRestart) ∧
      let lead := (leadChan s n.val).getD (4 * n.val)
      (isBoundary now lead now.now) ∧ ((groupOf s (lead / 8)).tSync < now.now)) ∧
    (∃ t : Time, ∃ s : State,
      let now := tick t s
      ∃ n : Fin 16, ∃ e : Time, ((genOf s n.val).acDeadEnd = some e) ∧ (e ≤ now.now)) ∧
    (∃ t : Time, ∃ s : State,
      let now := tick t s
      ∃ c : Fin 64, ∃ e : Time, ((chanOf s c.val).loopback = some e) ∧ (e ≤ now.now) ∧ (s.mgmt.run) ∧
      ((holderOf s (.channel c.val)).isSome) ∧ (c.val / 4 < s.daq.gens.length)) :=
  ⟨⟨live, false, by decide +kernel⟩,
  ⟨live, 0, true, by decide +kernel⟩,
  ⟨live, 0, by decide +kernel, by decide +kernel⟩,
  ⟨live, 0, 61, 0, by decide +kernel, by decide +kernel⟩,
  ⟨gen0 (fun g => { g with cfg := { g.cfg with mode := .dcPlus } }), 0, by decide +kernel, by decide +kernel,
    by decide +kernel, by decide +kernel⟩,
  ⟨100 * secU, gen0 (fun g => { g with cfg := { g.cfg with mode := .ac } }), 0, by decide +kernel,
    by decide +kernel, by decide +kernel⟩,
  ⟨out10, gen0 (fun g => { g with cfg := { g.cfg with mode := .ac }, acRestart := true }), 0, by decide +kernel,
    by decide +kernel, by decide +kernel, by decide +kernel⟩,
  ⟨1000, gen0 (fun g => { g with acDeadEnd := some 1000 }), 0, 1000, by decide +kernel, by decide +kernel⟩,
  ⟨1000,
    { chan3 (fun c => { c with loopback := some 1000 }) with mgmt := { live.mgmt with running := [{ (default : Running) with holds := [.channel 3] }] } },
    3, 1000, by decide +kernel, by decide +kernel, by decide +kernel, by decide +kernel, by decide +kernel⟩⟩

/-- What `Obligations.WeavesRun` assumes is met, clause by clause. -/
theorem test_weavesRun_met :
    (∃ t : Time, ∃ ch : Fin 64, ∃ s : State, (Whole s) ∧
      let c := ch.val
      let now := tick t s
      let w := (chanOf s c).weave
      ∃ a, ∃ img, (w.state = .armed) ∧ (w.armedAt = some a) ∧ (w.image = some img) ∧ (a ≤ now.now)) ∧
    (∃ t : Time, ∃ ch : Fin 64, ∃ s : State, (Whole s) ∧
      let c := ch.val
      let now := tick t s
      let w := (chanOf s c).weave
      ∃ r, ∃ img, (w.state = .running) ∧ (w.cur = some r) ∧ (w.image = some img) ∧ (strokeEnd r ≤ now.now)) ∧
    (∃ t : Time, ∃ ch : Fin 64, ∃ s : State, (Whole s) ∧
      let c := ch.val
      let now := tick t s
      let w := (chanOf s c).weave
      ∃ img, (w.state = .running) ∧ (w.cur = none) ∧ (w.image = some img) ∧
      (w.roundStart + img.periodUs * usU ≤ now.now)) :=
  ⟨⟨1000, 3,
    modChan 3 (fun c => { c with weave := { c.weave with state := .armed, armedAt := some 1000, image := some { (default : WeaveImg) with strokes := [default, default] } } }) live,
    by unfold Whole; decide +kernel, 1000, { (default : WeaveImg) with strokes := [default, default] },
    by decide +kernel, by decide +kernel, by decide +kernel, by decide +kernel⟩,
  ⟨1000000000000, 3,
    modChan 3 (fun c => { c with weave := { c.weave with state := .running, cur := some { (default : StrokeRun) with index := 0 }, image := some { (default : WeaveImg) with strokes := [default, default] } } }) live,
    by unfold Whole; decide +kernel, { (default : StrokeRun) with index := 0 },
    { (default : WeaveImg) with strokes := [default, default] }, by decide +kernel, by decide +kernel,
    by decide +kernel, by decide +kernel⟩,
  ⟨1000, 3,
    modChan 3 (fun c => { c with weave := { c.weave with state := .running, image := some { (default : WeaveImg) with periodUs := 0 } } }) live,
    by unfold Whole; decide +kernel, { (default : WeaveImg) with periodUs := 0 }, by decide +kernel,
    by decide +kernel, by decide +kernel, by decide +kernel⟩⟩

/-- What `Obligations.FailuresAndSpares` assumes is met, clause by clause. -/
theorem test_failuresAndSpares_met :
    (∃ g : Fin 8, ∃ s : State,
      let q := groupOf s g.val
      let k := q.cal
      ∃ i : Fin 8, ∃ d : Fin 5,
      let c := 8 * g.val + i.val
      let x := chanOf s c
      (x.failed = false) ∧ (isUp s (daqIsland g.val)) ∧ (k.phase = .idle) ∧ (x.subst = .none) ∧
      (d.val = 4 → 4 ≤ x.disagree) ∧ (q.spare = .free)) ∧
    (∃ g : Fin 8, ∃ s : State,
      let q := groupOf s g.val
      let k := q.cal
      ∃ i : Fin 8, ∃ d : Fin 5,
      let c := 8 * g.val + i.val
      let x := chanOf s c
      (x.failed = false) ∧ (isUp s (daqIsland g.val)) ∧ (k.phase = .idle) ∧ (x.subst = .none) ∧
      (d.val = 4 → 4 ≤ x.disagree) ∧ (q.spare = .failed)) ∧
    (∃ g : Fin 8, ∃ s : State,
      let q := groupOf s g.val
      ∃ c : Nat, ∃ d : Fin 5, (q.spare = .substituting c) ∧ (d.val = 4 → 4 ≤ (chanOf s c).disagree)) ∧
    (∃ t : Time, ∃ g : Fin 8, ∃ s : State,
      let now := tick t s
      let q := groupOf s g.val
      ∃ c : Nat, ∃ a : Time, (q.spare = .connecting c a) ∧ (a ≤ now.now)) ∧
    (∃ t : Time, ∃ g : Fin 8, ∃ s : State,
      let now := tick t s
      let q := groupOf s g.val
      ∃ c : Nat, ∃ a : Time, (q.spare = .settling c a) ∧ (a ≤ now.now)) ∧
    (∃ g : Fin 8, ∃ s : State,
      let q := groupOf s g.val
      let k := q.cal
      (k.phase = .bist) ∧ (s.mgmt.run)) ∧
    (∃ s : State, ∃ hg : Int, ∃ lg : Int, (67108864 * 256 < (hg - lg).natAbs * 100000) ∧ (s.mgmt.run)) ∧
    (∃ hg : Int, ∃ lg : Int, ((hg - lg).natAbs * 100000 ≤ 67108864 * 256)) ∧
    (∃ g : Fin 8, ∃ s : State,
      let q := groupOf s g.val
      ∃ v : Int, ∃ a : Int, (s.mgmt.run) ∧ (groupTemp s g.val = some v) ∧ (q.tApplied = some a)) ∧
    (∃ g : Fin 8, ∃ s : State,
      let q := groupOf s g.val
      (s.mgmt.run) ∧ (groupTemp s g.val = none) ∧ (q.compFrozen = false)) :=
  ⟨⟨1, live, 0, 0, by decide +kernel, by decide +kernel, by decide +kernel, by decide +kernel, by decide +kernel,
    by decide +kernel⟩,
  ⟨1, modGroup 1 (fun q => { q with spare := .failed }) live, 0, 3, by decide +kernel, by decide +kernel,
    by decide +kernel, by decide +kernel, by decide +kernel, by decide +kernel⟩,
  ⟨1, modGroup 1 (fun q => { q with spare := .substituting 9 }) live, 9, 0, by decide +kernel, by decide +kernel⟩,
  ⟨1000, 1, modGroup 1 (fun q => { q with spare := .connecting 9 1000 }) live, 9, 1000, by decide +kernel,
    by decide +kernel⟩,
  ⟨1000, 1, modGroup 1 (fun q => { q with spare := .settling 9 1000 }) live, 9, 1000, by decide +kernel,
    by decide +kernel⟩,
  ⟨1, cal1 (fun k => { k with phase := .bist, chan := 9 }), by decide +kernel, by decide +kernel⟩,
  ⟨chan3 (fun c => { c with mismatchCount := 2 }), 171799, -1, by decide +kernel, by decide +kernel⟩,
  ⟨171798, 0, by decide +kernel⟩,
  ⟨1,
    { modGroup 1 (fun x => { x with tApplied := some 287 }) live with therm := { live.therm with sensors := List.replicate 17 { Reset.sensor with reading := 150 } } },
    300, 287, by decide +kernel, by decide +kernel, by decide +kernel⟩,
  ⟨1,
    { live with therm := { live.therm with sensors := List.replicate 17 { Reset.sensor with broken := true } } },
    by decide +kernel, by decide +kernel, by decide +kernel⟩⟩

/-- What `Obligations.CalibrationSlots` assumes is met, clause by clause. -/
theorem test_calibrationSlots_met :
    (∃ t : Time, ∃ g : Fin 8, ∃ s : State,
      let now := tick t s
      let k := (groupOf s g.val).cal
      let ready := isUp s (daqIsland g.val) = true ∧ k.running = true ∧ k.phase = .idle ∧ calBlock s g.val = none
      ∃ c, ∃ rest, ∃ dT, (ready) ∧ (k.outOfTurn = c :: rest) ∧ (∀ a, k.retryAt = some a → a ≤ now.now) ∧ (dT ≤ 128)) ∧
    (∃ t : Time, ∃ g : Fin 8, ∃ s : State,
      let now := tick t s
      let k := (groupOf s g.val).cal
      let ready := isUp s (daqIsland g.val) = true ∧ k.running = true ∧ k.phase = .idle ∧ calBlock s g.val = none
      ∃ a, ∃ c, ∃ dT, (ready) ∧ (k.outOfTurn = []) ∧ (slotDue now g.val = some a) ∧ (a ≤ now.now) ∧
      (nextIncluded now g.val = some c) ∧ (dT ≤ 128)) ∧
    (∃ t : Time, ∃ g : Fin 8, ∃ s : State,
      let now := tick t s
      let k := (groupOf s g.val).cal
      let ready := isUp s (daqIsland g.val) = true ∧ k.running = true ∧ k.phase = .idle ∧ calBlock s g.val = none
      ∃ c, ∃ rest, ∃ dT, (ready) ∧ (k.outOfTurn = c :: rest) ∧ (∀ a, k.retryAt = some a → a ≤ now.now) ∧ (128 < dT)) ∧
    (∃ g : Fin 8, ∃ s : State,
      let k := (groupOf s g.val).cal
      (k.phase = .spareCheck) ∧ (s.mgmt.run)) ∧
    (∃ t : Time, ∃ g : Fin 8, ∃ s : State,
      let now := tick t s
      let k := (groupOf s g.val).cal
      let boundary := isBoundary now k.chan now.now = true ∧ s.mgmt.run = true
      (boundary) ∧ (k.chan / 8 = g.val) ∧ (k.due = some .connect)) ∧
    (∃ t : Time, ∃ g : Fin 8, ∃ s : State,
      let now := tick t s
      let k := (groupOf s g.val).cal
      let full := (∃ a, k.firstPair = some a ∧ a + secU ≤ now.now) ∧ 32 ≤ k.pairs ∧ k.due = none ∧ s.mgmt.run = true
      (full) ∧ (k.phase = .connect)) ∧
    (∃ t : Time, ∃ g : Fin 8, ∃ s : State,
      let now := tick t s
      let k := (groupOf s g.val).cal
      let full := (∃ a, k.firstPair = some a ∧ a + secU ≤ now.now) ∧ 32 ≤ k.pairs ∧ k.due = none ∧ s.mgmt.run = true
      (full) ∧ (k.phase = .overlapOut) ∧ (k.newSets ≠ []) ∧ (meanOk k.sumNew k.pairs)) ∧
    (∃ t : Time, ∃ g : Fin 8, ∃ s : State,
      let now := tick t s
      let k := (groupOf s g.val).cal
      let full := (∃ a, k.firstPair = some a ∧ a + secU ≤ now.now) ∧ 32 ≤ k.pairs ∧ k.due = none ∧ s.mgmt.run = true
      (full) ∧ (k.phase = .overlapOut) ∧ (k.newSets ≠ []) ∧ (meanOk k.sumNew k.pairs = false) ∧
      (meanOk k.sumOld k.pairs)) ∧
    (∃ t : Time, ∃ g : Fin 8, ∃ s : State,
      let now := tick t s
      let k := (groupOf s g.val).cal
      let boundary := isBoundary now k.chan now.now = true ∧ s.mgmt.run = true
      (boundary) ∧ (k.due = some .toSpare)) ∧
    (∃ t : Time, ∃ g : Fin 8, ∃ s : State,
      let now := tick t s
      let k := (groupOf s g.val).cal
      let boundary := isBoundary now k.chan now.now = true ∧ s.mgmt.run = true
      (boundary) ∧ (k.due = some .backNew)) ∧
    (∃ g : Fin 8, ∃ s : State,
      let k := (groupOf s g.val).cal
      (k.phase = .calibrating) ∧ (k.due = none) ∧ (s.mgmt.run) ∧ ((chanOf s k.chan).subst ≠ .none)) ∧
    (∃ t : Time, ∃ g : Fin 8, ∃ s : State,
      let now := tick t s
      let k := (groupOf s g.val).cal
      let boundary := isBoundary now k.chan now.now = true ∧ s.mgmt.run = true
      (boundary) ∧ (k.chan / 8 = g.val) ∧ (k.due = some .reconnect)) :=
  ⟨⟨1000, 1, cal1 (fun k => { k with outOfTurn := [9] }), 9, [], 128, by decide +kernel, by decide +kernel,
    optAll (by decide +kernel), by decide +kernel⟩,
  ⟨1000, 1, cal1 (fun k => { k with nextSlotAt := some 0 }), 0, 8, 0, by decide +kernel, by decide +kernel,
    by decide +kernel, by decide +kernel, by decide +kernel, by decide +kernel⟩,
  ⟨1000, 1, cal1 (fun k => { k with outOfTurn := [9] }), 9, [], 129, by decide +kernel, by decide +kernel,
    optAll (by decide +kernel), by decide +kernel⟩,
  ⟨1, cal1 (fun k => { k with phase := .spareCheck, chan := 9 }), by decide +kernel, by decide +kernel⟩,
  ⟨out10, 0, modCal 0 (fun k => { k with chan := 3, due := some .connect }) live, by decide +kernel,
    by decide +kernel, by decide +kernel⟩,
  ⟨secU, 1, cal1 (fun k => { k with phase := .connect, chan := 9, firstPair := some 0, pairs := 32 }),
    by decide +kernel, by decide +kernel⟩,
  ⟨secU, 1,
    cal1 (fun k => { k with phase := .overlapOut, chan := 9, firstPair := some 0, pairs := 32, newSets := [default] }),
    by decide +kernel, by decide +kernel, by decide +kernel, by decide +kernel⟩,
  ⟨secU, 1,
    cal1 (fun k => { k with phase := .overlapOut, chan := 9, firstPair := some 0, pairs := 32, sumNew := 100000000000, newSets := [default] }),
    by decide +kernel, by decide +kernel, by decide +kernel, by decide +kernel, by decide +kernel⟩,
  ⟨out10, 0, modCal 0 (fun k => { k with chan := 3, due := some .toSpare }) live, by decide +kernel,
    by decide +kernel⟩,
  ⟨out10, 0, modCal 0 (fun k => { k with chan := 3, due := some .backNew }) live, by decide +kernel,
    by decide +kernel⟩,
  ⟨1,
    modChan 9 (fun c => { c with subst := .calibration }) (cal1 (fun k => { k with phase := .calibrating, chan := 9 })),
    by decide +kernel, by decide +kernel, by decide +kernel, by decide +kernel⟩,
  ⟨out10, 0, modCal 0 (fun k => { k with chan := 3, due := some .reconnect, newSets := [default] }) live,
    by decide +kernel, by decide +kernel, by decide +kernel⟩⟩

/-- What `Obligations.CalibrationTroubles` assumes is met, clause by clause. -/
theorem test_calibrationTroubles_met :
    (∃ t : Time, ∃ g : Fin 8, ∃ s : State,
      let now := tick t s
      let k := (groupOf s g.val).cal
      (k.overlapStart + max (10 * secU) (intervals64 now k.chan) ≤ now.now) ∧ (k.pairs < 32) ∧ (s.mgmt.run) ∧
      (k.phase = .connect)) ∧
    (∃ t : Time, ∃ g : Fin 8, ∃ s : State,
      let now := tick t s
      let k := (groupOf s g.val).cal
      (k.overlapStart + max (10 * secU) (intervals64 now k.chan) ≤ now.now) ∧ (k.pairs < 32) ∧ (s.mgmt.run) ∧
      (k.phase = .overlapOut)) ∧
    (∃ t : Time, ∃ g : Fin 8, ∃ s : State,
      let now := tick t s
      let k := (groupOf s g.val).cal
      (k.phase = .overlapOut) ∧ (k.outSince + 60 * secU ≤ now.now) ∧ (k.delayedRaised = false)) ∧
    (∃ g : Fin 8, ∃ s : State,
      let k := (groupOf s g.val).cal
      (k.phase = .recheckIn)) ∧
    (∃ g : Fin 8, ∃ s : State,
      let k := (groupOf s g.val).cal
      (k.phase = .recheckIn) ∧ (k.secondTry = false)) ∧
    (∃ g : Fin 8, ∃ s : State,
      let k := (groupOf s g.val).cal
      (k.phase = .recheckIn) ∧ (k.secondTry = true)) ∧
    (∃ g : Fin 8, ∃ s : State,
      let k := (groupOf s g.val).cal
      (k.phase = .recheckOut)) ∧
    (∃ g : Fin 8, ∃ s : State,
      let k := (groupOf s g.val).cal
      (k.phase = .spareRecal) ∧ (s.mgmt.run)) :=
  ⟨⟨1000 * secU, 1, cal1 (fun k => { k with phase := .connect, chan := 9, pairs := 31 }), by decide +kernel,
    by decide +kernel, by decide +kernel, by decide +kernel⟩,
  ⟨1000 * secU, 1, cal1 (fun k => { k with phase := .overlapOut, chan := 9, pairs := 31 }), by decide +kernel,
    by decide +kernel, by decide +kernel, by decide +kernel⟩,
  ⟨60 * secU, 1, cal1 (fun k => { k with phase := .overlapOut, chan := 9 }), by decide +kernel,
    by decide +kernel, by decide +kernel⟩,
  ⟨1, cal1 (fun k => { k with phase := .recheckIn, chan := 9 }), by decide +kernel⟩,
  ⟨1, cal1 (fun k => { k with phase := .recheckIn, chan := 9 }), by decide +kernel, by decide +kernel⟩,
  ⟨1, cal1 (fun k => { k with phase := .recheckIn, chan := 9, secondTry := true }), by decide +kernel,
    by decide +kernel⟩,
  ⟨1, cal1 (fun k => { k with phase := .recheckOut, chan := 9 }), by decide +kernel⟩,
  ⟨1, cal1 (fun k => { k with phase := .spareRecal, chan := 9 }), by decide +kernel, by decide +kernel⟩⟩

/-- What `Obligations.TimeInputsArrive` assumes is met, clause by clause. -/
theorem test_timeInputsArrive_met :
    (∃ s : State, ∃ f : TimeFrame, (isUp s .time) ∧ (isUp s .xbar) ∧ (f.good) ∧ (f.rootState ≠ 3) ∧ (f.hops ≤ 1023)) ∧
    (∃ t : Time, ∃ s : State,
      let now := tick t s
      ∃ d : Fin 2, ∃ c : TimeCopy,
      let x := domOf s d.val
      (x.copies.getD x.copyPort none = some c) ∧ (c.alive) ∧ (c.last + 4 * interval x ≤ now.now)) ∧
    (∃ t : Time, ∃ s : State,
      let now := tick t s
      ∃ d : Fin 2, ∃ l : Time, (lastValid (domOf s d.val) = some l) ∧ (l + 4 * interval (domOf s d.val) ≤ now.now) ∧
      ((domOf s d.val).state = .acquiring ∨ (domOf s d.val).state = .locked)) ∧
    (∃ s : State,
      let listens := fun (p : Fin 2) (udp : Bool) (tags : Nat) =>
          let x := s.time.ptp.getD p.val default
          s.mgmt.run = true ∧ isUp s .ethm = true ∧ x.role ≠ 0 ∧ loopFree s (3 + p.val) = true ∧
            (udp = true ↔ x.transport = 1) ∧ tags ≤ 1
      ∃ p : Fin 2, ∃ g : BitVec 64, ∃ udp : Bool, ∃ tags : Nat, ∃ y : PtpSync,
      let x := s.time.ptp.getD p.val default
      (listens p udp tags) ∧ (x.role = 1) ∧ (x.gm = some g) ∧ (x.master = y.src)) ∧
    (∃ s : State,
      let listens := fun (p : Fin 2) (udp : Bool) (tags : Nat) =>
          let x := s.time.ptp.getD p.val default
          s.mgmt.run = true ∧ isUp s .ethm = true ∧ x.role ≠ 0 ∧ loopFree s (3 + p.val) = true ∧
            (udp = true ↔ x.transport = 1) ∧ tags ≤ 1
      ∃ p : Fin 2, ∃ udp : Bool, ∃ tags : Nat, ∃ rx : Nat, ∃ y : PtpSync,
      let x := s.time.ptp.getD p.val default
      (listens p udp tags) ∧ (x.syncWaits = some (y, rx))) ∧
    (∃ s : State,
      let listens := fun (p : Fin 2) (udp : Bool) (tags : Nat) =>
          let x := s.time.ptp.getD p.val default
          s.mgmt.run = true ∧ isUp s .ethm = true ∧ x.role ≠ 0 ∧ loopFree s (3 + p.val) = true ∧
            (udp = true ↔ x.transport = 1) ∧ tags ≤ 1
      ∃ p : Fin 2, ∃ d : Nat, ∃ udp : Bool, ∃ tags : Nat,
      let x := s.time.ptp.getD p.val default
      (listens p udp tags) ∧ (d ≠ x.domainNumber)) ∧
    (∃ s : State, ∃ p : Fin 2,
      let x := s.time.ptp.getD p.val default
      (s.mgmt.run) ∧ (isUp s .ethm) ∧ (x.role = 2) ∧ (x.slaveOnly = false) ∧ (loopFree s (3 + p.val))) ∧
    (∃ s : State,
      let tod := s.time.tod
      (isUp s .time) ∧ (tod.message = none) ∧ (tod.lastEdge = none)) ∧
    (∃ t : Time, ∃ s : State,
      let now := tick t s
      let tod := s.time.tod
      ∃ m : Nat × Int × Nat, ∃ d : Nat, ∃ l : Nat × Time,
      let e := tbNow now / 256 * 256
      (isUp s .time) ∧ (tod.message = some m) ∧ (ppsDom s = some d) ∧ (tod.lastEdge = some l) ∧
      (l.1 + secU ≤ e + 100 * usU) ∧ (e ≤ l.1 + secU + 100 * usU) ∧ (l.1 = tod.messageEdge)) ∧
    (∃ t : Time, ∃ s : State,
      let now := tick t s
      let tod := s.time.tod
      ∃ bytes : List Byte, ∃ l : Nat × Time, (isUp s .time) ∧ (tod.lastEdge = some l) ∧ (l.2 + 100 * msU ≤ now.now) ∧
      (now.now ≤ l.2 + 900 * msU) ∧ (todOk bytes) ∧ (ppsDom s = none)) ∧
    (∃ s : State,
      let tod := s.time.tod
      ∃ bytes : List Byte, (isUp s .time) ∧ (tod.lastEdge = none ∨ todOk bytes = false)) :=
  ⟨⟨live, tfr, by decide +kernel, by decide +kernel, by decide +kernel, by decide +kernel, by decide +kernel⟩,
  ⟨1000 * secU, mod1 (fun d => { d with copies := [some cop, none, none], copyPort := 0 }), 1, cop,
    by decide +kernel, by decide +kernel, by decide +kernel⟩,
  ⟨1000 * secU, mod1 (fun d => { d with state := .locked, lastMeas := some 0 }), 1, 0, by decide +kernel,
    by decide +kernel, by decide +kernel⟩,
  ⟨modPtp 1 (fun x => { x with role := 1, gm := some 77, master := 9, transport := 0 }) live, 1, 77, false, 1,
    psy, by decide +kernel, by decide +kernel, by decide +kernel, by decide +kernel⟩,
  ⟨modPtp 1 (fun x => { x with role := 1, transport := 1, syncWaits := some (psy, 8) }) live, 1, true, 0, 8, psy,
    by decide +kernel, by decide +kernel⟩,
  ⟨modPtp 1 (fun x => { x with role := 3, transport := 0, domainNumber := 8 }) live, 1, 9, false, 0,
    by decide +kernel, by decide +kernel⟩,
  ⟨role1 2, 1, by decide +kernel, by decide +kernel, by decide +kernel, by decide +kernel, by decide +kernel⟩,
  ⟨live, by decide +kernel, by decide +kernel, by decide +kernel⟩,
  ⟨1000 * secU,
    modDom 1 (fun d => { d with source := .pps }) (tod1 (fun x => { x with message := some (1000, 5, 0), lastEdge := some (999 * secU, 999 * secU), messageEdge := 999 * secU })),
    (1000, 5, 0), 1, (999 * secU, 999 * secU), by decide +kernel, by decide +kernel, by decide +kernel,
    by decide +kernel, by decide +kernel, by decide +kernel, by decide +kernel⟩,
  ⟨1000 * secU, tod1 (fun x => { x with lastEdge := some (5, 1000 * secU - 100 * msU) }), todB, (5,
    1000 * secU - 100 * msU), by decide +kernel, by decide +kernel, by decide +kernel, by decide +kernel,
    by decide +kernel, by decide +kernel⟩,
  ⟨live, [1], by decide +kernel, by decide +kernel⟩⟩

/-- What `Obligations.TimebaseRuns` assumes is met, clause by clause. -/
theorem test_timebaseRuns_met :
    (∃ t : Time, ∃ s : State, ∃ d : StepDue, (s.time.stepDue = some d) ∧ (∀ i < 64, slotAt s i = none) ∧
      (0 ≤ ((max s.now t : Nat) : Int) + s.time.stepSum) ∧
      (0 ≤ ((max s.now t : Nat) : Int) + s.time.stepSum + d.delta)) ∧
    (∃ t : Time, ∃ s : State,
      let now := tick t s
      ∃ p, (p = s.time.preferred) ∧ (s.time.revertive) ∧ (s.time.mode = .follow) ∧ (s.time.active ≠ p) ∧
      ((domOf s p).state = .locked) ∧ (max (domOf s p).lockedSince s.time.activeSince + 60 * secU ≤ now.now)) ∧
    (∃ t : Time, ∃ s : State,
      let now := tick t s
      ∃ d : Fin 2, ∃ w : Time, ((domOf s d.val).state = .faulty) ∧ ((domOf s d.val).withinSince = some w) ∧
      (w + (domOf s d.val).servo.recoveryS * secU ≤ now.now)) ∧
    (∃ t : Time, ∃ s : State,
      let now := tick t s
      let n := noteBin now
      let c := n.time.binNow
      (s.time.mode = .follow) ∧ ((domOf s s.time.active).state = .locked) ∧ (-40 ≤ c) ∧ (c ≤ 125) ∧
      (max (max n.time.binSince n.time.binLearned) (max (domOf s s.time.active).lockedSince s.time.activeSince) + 60 * secU ≤ now.now)) ∧
    (∃ s : State, (s.mgmt.run) ∧ (s.pwr.sagWarn = false) ∧ (s.time.tableDirty)) ∧
    (∃ t : Time, ∃ s : State,
      let now := tick t s
      (s.time.mode = .holdover) ∧ (s.time.holdoverSince + s.time.boundS * secU ≤ now.now)) ∧
    (∃ t : Time, ∃ s : State,
      let now := tick t s
      (s.time.utc.leap61 ∨ s.time.utc.leap59) ∧ (s.time.utc.leapTime ≠ 0) ∧ (s.time.utc.leapTime * secU ≤ tbNow now)) ∧
    (∃ t : Time, ∃ s : State,
      let now := tick t s
      (tbState now = 0) ∧ (isUp s .time)) :=
  ⟨⟨1000 * secU,
    { live with time := { live.time with stepDue := some { delta := -5, cause := .agreedStep, origin := none } } },
    { delta := -5, cause := .agreedStep, origin := none }, by decide +kernel, by decide +kernel,
    by decide +kernel, by decide +kernel⟩,
  ⟨1000 * secU,
    modDom 0 (fun d => { d with state := .locked }) { live with time := { live.time with active := 1, mode := .follow, revertive := true } },
    0, by decide +kernel, by decide +kernel, by decide +kernel, by decide +kernel, by decide +kernel,
    by decide +kernel⟩,
  ⟨1000 * secU, mod1 (fun d => { d with state := .faulty, withinSince := some 0 }), 1, 0, by decide +kernel,
    by decide +kernel, by decide +kernel⟩,
  ⟨1000 * secU,
    modDom 0 (fun d => { d with state := .locked }) { live with time := { live.time with mode := .follow } },
    by decide +kernel, by decide +kernel, by decide +kernel, by decide +kernel, by decide +kernel⟩,
  ⟨{ live with time := { live.time with tableDirty := true, table := [(3, 4)] } }, by decide +kernel,
    by decide +kernel, by decide +kernel⟩,
  ⟨1000 * secU, { live with time := { live.time with mode := .holdover, boundS := 1000 } }, by decide +kernel,
    by decide +kernel⟩,
  ⟨1000 * secU,
    { live with time := { live.time with utc := { live.time.utc with leap59 := true, leapTime := 1000 } } },
    by decide +kernel, by decide +kernel, by decide +kernel⟩,
  ⟨1000 * secU,
    modDom 0 (fun d => { d with state := .locked }) { live with time := { live.time with mode := .follow, everLocked := true } },
    by decide +kernel, by decide +kernel⟩⟩

/-- What `Obligations.TimedOutputsAndCaptures` assumes is met, clause by clause. -/
theorem test_timedOutputsAndCaptures_met :
    (∃ s : State, (advertises s) ∧ (isUp s .time)) ∧
    (∃ t : Time, ∃ s : State,
      let now := tick t s
      let pps := s.tact.pps
      ∃ sec : Nat, (isUp s .time) ∧ ((tbNow now : Int) = (sec * secU : Nat) + pps.offset * 256) ∧
      (pps.last ≠ some (sec, s.time.epoch)) ∧ (pps.squelch = false ∨ uncertain now = false) ∧ (pps.pulseEnd = none) ∧
      ((tevAt s 15).mode ≠ 3)) ∧
    (∃ t : Time, ∃ s : State,
      let now := tick t s
      let pps := s.tact.pps
      ∃ e, (pps.pulseEnd = some e) ∧ (e ≤ now.now)) ∧
    (∃ t : Time, ∃ s : State,
      let now := tick t s
      ∃ due, ∃ ring, ∃ root, (s.time.tod.txDue = some due) ∧ (due ≤ now.now) ∧ (s.time.tod.txEnable) ∧
      (s.time.mode = .follow) ∧ ((domOf s s.time.active).source = .fabric ring root)) ∧
    (∃ t : Time, ∃ s : State,
      let now := tick t s
      ∃ i : Fin 64, ∃ a : SlotArm, (isUp s .time) ∧ (slotAt s i.val = some a) ∧ (slotIsDue now a)) ∧
    (∃ t : Time, ∃ s : State,
      let now := tick t s
      ∃ n : Fin 16, ∃ q : TevPulse, ((tevAt s n.val).pulse = some q) ∧ (q.until_ ≤ now.now)) ∧
    (∃ t : Time, ∃ s : State,
      let now := tick t s
      ∃ i : Fin 8, ∃ fall : Bool, ∃ wide : Nat, (2 * nsU ≤ wide) ∧
      let x := tcapAt s i.val
      let wanted := x.edge = 3 ∨ x.edge = (if fall then 2 else 1)
      (isUp s .time) ∧ (wanted) ∧ (∀ l, x.lastCapture = some l → l + 20 * nsU ≤ now.now) ∧ (x.queue.length < 64) ∧
      (x.event = false)) ∧
    (∃ t : Time, ∃ s : State,
      let now := tick t s
      ∃ i : Fin 8, ∃ fall : Bool, ∃ wide : Nat, (2 * nsU ≤ wide) ∧
      let x := tcapAt s i.val
      let wanted := x.edge = 3 ∨ x.edge = (if fall then 2 else 1)
      ∃ l, (isUp s .time) ∧ (wanted) ∧ (x.lastCapture = some l) ∧ (now.now < l + 20 * nsU)) :=
  ⟨⟨{ live with time := { live.time with rootFollowAnchor := false, rootAdvertise := true } }, by decide +kernel,
    by decide +kernel⟩,
  ⟨1000 * secU, live, 1000, by decide +kernel, by decide +kernel, by decide +kernel, by decide +kernel,
    by decide +kernel, by decide +kernel⟩,
  ⟨1000 * secU, { live with tact := { live.tact with pps := { live.tact.pps with pulseEnd := some 5 } } }, 5,
    by decide +kernel, by decide +kernel⟩,
  ⟨1000 * secU,
    modDom 0 (fun d => { d with source := .fabric true 7 }) (modTod (fun x => { x with txDue := some (900 * secU), txEnable := true }) { live with time := { live.time with mode := .follow } }),
    900 * secU, true, 7, by decide +kernel, by decide +kernel, by decide +kernel, by decide +kernel,
    by decide +kernel⟩,
  ⟨1000 * secU, { live with tact := { live.tact with slots := live.tact.slots.set 62 (some arm9) } }, 62, arm9,
    by decide +kernel, by decide +kernel, by decide +kernel⟩,
  ⟨1000 * secU,
    modTev 15 (fun p => { p with pulse := some { until_ := 5, drive := true, activeLow := true, dTev := -3 } }) live,
    15, { until_ := 5, drive := true, activeLow := true, dTev := -3 }, by decide +kernel, by decide +kernel⟩,
  ⟨1000 * secU, modTcap 7 (fun x => { x with edge := 2, event := false }) live, 7, true, 131072,
    by decide +kernel, by decide +kernel, by decide +kernel, optAll (by decide +kernel), by decide +kernel,
    by decide +kernel⟩,
  ⟨1000 * secU, modTcap 7 (fun x => { x with edge := 3, lastCapture := some (1000 * secU) }) live, 7, false,
    131072, by decide +kernel, 1000 * secU, by decide +kernel, by decide +kernel, by decide +kernel,
    by decide +kernel⟩⟩

/-- What `Obligations.LinkDelaysAreWatched` assumes is met, clause by clause. -/
theorem test_linkDelaysAreWatched_met :
    (∃ lane : Fin 8, ∃ s : State, (isV s) ∧ (4 ≤ lane.val)) ∧
    (∃ p : Fin 3, ∃ lane : Fin 8, ∃ s : State,
      let l := (s.time.links.getD p.val []).getD lane.val default
      (isV s = false ∨ lane.val < 4) ∧ ∃ t0 : Nat, ∃ t1 : Nat, ∃ t2 : Nat, ∃ t3 : Nat, ∃ rt : Int,
      (l.stamps = some (t0, t1, t2, t3)) ∧ (t1 ≤ t2) ∧ (t0 ≤ t3) ∧ (t2 < 2 ^ 40) ∧ (t3 < 2 ^ 40) ∧
      (rt = (t3 : Int) - t0 - (t2 - t1)) ∧ (-(2 ^ 39) ≤ rt) ∧ (rt < 2 ^ 39) ∧
      (∀ r, l.raw = some r → (rt - r).natAbs ≤ 2560)) ∧
    (∃ p : Fin 3, ∃ lane : Fin 8, ∃ s : State,
      let l := (s.time.links.getD p.val []).getD lane.val default
      (isV s = false ∨ lane.val < 4) ∧ ∃ t0 : Nat, ∃ t1 : Nat, ∃ t2 : Nat, ∃ t3 : Nat, ∃ rt : Int,
      (l.stamps = some (t0, t1, t2, t3)) ∧ (t1 ≤ t2) ∧ (t0 ≤ t3) ∧ (t2 < 2 ^ 40) ∧ (t3 < 2 ^ 40) ∧
      (rt = (t3 : Int) - t0 - (t2 - t1)) ∧ (-(2 ^ 39) ≤ rt) ∧ (rt < 2 ^ 39) ∧ ∃ r : Int, (l.raw = some r) ∧
      (2560 < (rt - r).natAbs) ∧ (l.holdUntil = none)) ∧
    (∃ p : Fin 3, ∃ lane : Fin 8, ∃ s : State,
      let l := (s.time.links.getD p.val []).getD lane.val default
      (isV s = false ∨ lane.val < 4) ∧ ∃ t0 : Nat, ∃ t1 : Nat, ∃ t2 : Nat, ∃ t3 : Nat, ∃ rt : Int,
      (l.stamps = some (t0, t1, t2, t3)) ∧ (t1 ≤ t2) ∧ (t0 ≤ t3) ∧ (t2 < 2 ^ 40) ∧ (t3 < 2 ^ 40) ∧
      (rt = (t3 : Int) - t0 - (t2 - t1)) ∧ (-(2 ^ 39) ≤ rt) ∧ (rt < 2 ^ 39) ∧ ∃ r : Int, (l.raw = some r) ∧
      (2560 < (rt - r).natAbs) ∧ (l.holdUntil.isSome) ∧ (∀ b, l.largest = some b → b.natAbs < (rt - r).natAbs)) ∧
    (∃ t : Time, ∃ p : Fin 3, ∃ lane : Fin 8, ∃ s : State,
      let now := tick t s
      let l := (s.time.links.getD p.val []).getD lane.val default
      (isV s = false ∨ lane.val < 4) ∧ ∃ e, ∃ ch, (l.holdUntil = some e) ∧ (e ≤ now.now) ∧ (l.largest = some ch)) :=
  ⟨⟨4, { live with fuseShadow := { live.fuseShadow with variantV := true } }, by decide +kernel, by decide +kernel⟩,
  ⟨2, 7, modLink 2 7 (fun l => { l with raw := some 0, stamps := some (0, 0, 0, 2560) }) live, by decide +kernel,
    0, 0, 0, 2560, 2560, by decide +kernel, by decide +kernel, by decide +kernel, by decide +kernel,
    by decide +kernel, by decide +kernel, by decide +kernel, by decide +kernel, optAll (by decide +kernel)⟩,
  ⟨2, 7, modLink 2 7 (fun l => { l with raw := some 0, stamps := some (0, 0, 2561, 0) }) live, by decide +kernel,
    0, 0, 2561, 0, -2561, by decide +kernel, by decide +kernel, by decide +kernel, by decide +kernel,
    by decide +kernel, by decide +kernel, by decide +kernel, by decide +kernel, 0, by decide +kernel,
    by decide +kernel, by decide +kernel⟩,
  ⟨2, 7,
    modLink 2 7 (fun l => { l with raw := some 0, stamps := some (0, 0, 2561, 0), holdUntil := some 5, largest := some 2560 }) live,
    by decide +kernel, 0, 0, 2561, 0, -2561, by decide +kernel, by decide +kernel, by decide +kernel,
    by decide +kernel, by decide +kernel, by decide +kernel, by decide +kernel, by decide +kernel, 0,
    by decide +kernel, by decide +kernel, by decide +kernel, optAll (by decide +kernel)⟩,
  ⟨1000, 2, 7, modLink 2 7 (fun l => { l with holdUntil := some 5, largest := some (-7) }) live,
    by decide +kernel, 5, -7, by decide +kernel, by decide +kernel, by decide +kernel⟩⟩

/-- What `Obligations.ClocksFailAndReturn` assumes is met, clause by clause. -/
theorem test_clocksFailAndReturn_met :
    (∃ t : Time, ∃ s : State,
      let now := tick t s
      ∃ n : Fin 32, (monitored now n.val) ∧ (s.clk.failed.getLsbD n.val = false)) ∧
    (∃ t : Time, ∃ s : State,
      let now := tick t s
      ∃ b : Bool, ((refInOf s b).qualified = false) ∧ (isUp s .time) ∧
      ((refInOf s b).failed → (refInOf s b).qualSince + 10 * secU ≤ now.now)) ∧
    (∃ t : Time, ∃ s : State,
      let now := tick t s
      (isUp s .time) ∧ (activeRef s = none) ∧ (pllOf s 4 = .unlocked) ∧ (s.clk.tbHoldSince = none) ∧
      (s.aon.coarseAt + 101 * msU ≤ now.now)) ∧
    (∃ t : Time, ∃ s : State,
      let now := tick t s
      ∃ b : Bool, (activeRef s = some b) ∧ ((refInOf s b).qualSince + 10 * secU ≤ now.now) ∧ (0 < s.clk.tbRef)) ∧
    (∃ s : State, ∃ n : Fin 32, (n.val = 6 ∨ n.val = 7 ∨ n.val = 8) ∧ (pllOf s n.val ≠ .locked)) ∧
    (∃ t : Time, ∃ s : State,
      let now := tick t s
      ∃ a, (s.clk.tbHoldSince = some a) ∧ (a + 10 * secU ≤ now.now) ∧ (s.clk.tbHoldExpired = false)) ∧
    (∃ t : Time, ∃ s : State,
      let now := tick t s
      ∃ c : Fin 4,
      let k := s.clk.counters.getD c.val default
      let n := refEdges (nominal now k.ref k.lane) k.gateMs % 2 ^ 64
      let expect := n * nominal now k.meas k.lane / nominal now k.ref k.lane
      (k.running) ∧ (nominal now k.ref k.lane ≠ 0) ∧ (nominal now k.meas k.lane ≠ 0) ∧ (expect ≠ 0)) :=
  ⟨⟨1000 * secU, { live with clk := { live.clk with tbRef := 2, laneSource := 1 } }, 19, by decide +kernel,
    by decide +kernel⟩,
  ⟨1000 * secU, noRef, true, by decide +kernel, by decide +kernel, by decide +kernel⟩,
  ⟨1000 * secU,
    { noRef with clk := { noRef.clk with plls := List.replicate 14 .unlocked, tbHoldSince := none } },
    by decide +kernel, by decide +kernel, by decide +kernel, by decide +kernel, by decide +kernel⟩,
  ⟨1000 * secU,
    { live with clk := { live.clk with refA := { live.clk.refA with qualified := true, qualSince := 0 }, tbRef := 3, preferB := false } },
    false, by decide +kernel, by decide +kernel, by decide +kernel⟩,
  ⟨{ live with clk := { live.clk with plls := List.replicate 14 .unlocked } }, 8, by decide +kernel,
    by decide +kernel⟩,
  ⟨1000 * secU, { live with clk := { live.clk with tbHoldSince := some 0, tbHoldExpired := false } }, 0,
    by decide +kernel, by decide +kernel, by decide +kernel⟩,
  ⟨1000 * secU,
    { live with clk := { live.clk with counters := live.clk.counters.modify 3 (fun k => { k with running := true, meas := 4, ref := 0, gateMs := 10 }) } },
    3, by decide +kernel, by decide +kernel, by decide +kernel, by decide +kernel⟩⟩

/-- What `Obligations.VoltageStepsEnd` assumes is met, clause by clause. -/
theorem test_voltageStepsEnd_met :
    (∃ s : State, ∃ c : AvsChange, ∃ mv : Nat, (s.pwr.change = some c) ∧ (vctlPasses c.toMv mv)) ∧
    (∃ t : Time, ∃ s : State,
      let now := tick t s
      ∃ c : AvsChange, (s.pwr.change = some c) ∧ (c.since + msU ≤ now.now) ∧ (c.tries = 0)) ∧
    (∃ t : Time, ∃ s : State,
      let now := tick t s
      ∃ c : AvsChange, (s.pwr.change = some c) ∧ (c.since + msU ≤ now.now) ∧ (c.tries ≠ 0)) ∧
    (∃ s : State, (s.mgmt.run)) :=
  ⟨⟨pw (fun p => { p with change := some (chg1 0) }), chg1 0, 820, by decide +kernel, by decide +kernel⟩,
  ⟨1000 * secU, pw (fun p => { p with change := some (chg1 0) }), chg1 0, by decide +kernel, by decide +kernel,
    by decide +kernel⟩,
  ⟨1000 * secU, pw (fun p => { p with change := some (chg1 1) }), chg1 1, by decide +kernel, by decide +kernel,
    by decide +kernel⟩,
  ⟨live, by decide +kernel⟩⟩

/-- What `Obligations.TemperaturesAreJudged` assumes is met, clause by clause. -/
theorem test_temperaturesAreJudged_met :
    (∃ s : State, (Whole s)) ∧
    (∃ s : State, (Whole s) ∧ ∃ i : Fin 17, ((sensorOf s i.val).broken = false) ∧ (8 ≤ (sensorOf s i.val).badRun)) ∧
    (∃ s : State, (Whole s) ∧ ∃ i : Fin 17, ((sensorOf s i.val).broken) ∧ (1000 ≤ (sensorOf s i.val).goodRun)) ∧
    (∃ s : State, (Whole s) ∧ ∃ z : Fin 7,
      let x := zoneOf s z.val
      (x.warm = false) ∧ (8 ≤ x.warmUp) ∧ (x.hot = false) ∧ (x.hotUp < 8) ∧ (x.l3 = false) ∧ (x.l3Up < 8) ∧
      (x.critUp < 8)) ∧
    (∃ s : State, (Whole s) ∧ ∃ z : Fin 7,
      let x := zoneOf s z.val
      (x.crit = false) ∧ (8 ≤ x.critUp)) ∧
    (∃ s : State, (Whole s) ∧ ∃ z : Fin 7,
      let x := zoneOf s z.val
      (x.rising = false) ∧ (8 ≤ x.riseUp)) ∧
    (∃ t : Time, ∃ s : State, (Whole s) ∧
      let now := tick t s
      ∃ z : Fin 7,
      let x := zoneOf s z.val
      ∃ a, (x.crit = false) ∧ (allBroken s z.val) ∧ (x.allBrokenSince = some a) ∧
      (a + s.therm.graceMs * msU ≤ now.now)) ∧
    (∃ s : State, (Whole s) ∧ (s.mgmt.run)) ∧
    (∃ s : State, (Whole s) ∧ (s.aon.thermalOff = false)) ∧
    (∃ s : State, (Whole s) ∧ (s.aon.thermalOff) ∧ (shutdownLimit s.aon.shutdowns = false)) :=
  ⟨⟨live, by unfold Whole; decide +kernel⟩,
  ⟨sen 16 (fun x => { x with badRun := 8 }), by unfold Whole; decide +kernel, 16, by decide +kernel,
    by decide +kernel⟩,
  ⟨sen 0 (fun x => { x with broken := true, goodRun := 1000 }), by unfold Whole; decide +kernel, 0,
    by decide +kernel, by decide +kernel⟩,
  ⟨zon 6 (fun x => { x with warmUp := 8 }), by unfold Whole; decide +kernel, 6, by decide +kernel,
    by decide +kernel, by decide +kernel, by decide +kernel, by decide +kernel, by decide +kernel,
    by decide +kernel⟩,
  ⟨zon 6 (fun x => { x with critUp := 8 }), by unfold Whole; decide +kernel, 6, by decide +kernel,
    by decide +kernel⟩,
  ⟨zon 0 (fun x => { x with riseUp := 8 }), by unfold Whole; decide +kernel, 0, by decide +kernel,
    by decide +kernel⟩,
  ⟨1000 * secU,
    { modZone 6 (fun x => { x with allBrokenSince := some 0 }) live with therm := { (modZone 6 (fun x => { x with allBrokenSince := some 0 }) live).therm with sensors := List.replicate 17 { Reset.sensor with broken := true } } },
    by unfold Whole; decide +kernel, 6, 0, by decide +kernel, by decide +kernel, by decide +kernel,
    by decide +kernel⟩,
  ⟨live, by unfold Whole; decide +kernel, by decide +kernel⟩,
  ⟨live, by unfold Whole; decide +kernel, by decide +kernel⟩,
  ⟨{ live with aon := { live.aon with thermalOff := true, shutdowns := [7200 * secU, 5000 * secU, 0] } },
    by unfold Whole; decide +kernel, by decide +kernel, by decide +kernel⟩⟩

/-- What `Obligations.LanesTrain` assumes is met, clause by clause. -/
theorem test_lanesTrain_met :
    (∃ t : Time, ∃ p : Fin 2, ∃ lane : Fin 8, ∃ s : State, (lanePresent s lane.val) ∧
      let now := tick t s
      let l := lane.val
      let x := laneOf s p.val l
      (portRuns s p.val) ∧ (x.set.enable) ∧ (∀ r, x.retryAt = some r → r ≤ now.now) ∧
      (x.state = .down ∨ x.state = .shed ∧ s.therm.level < 2)) ∧
    (∃ p : Fin 2, ∃ lane : Fin 8, ∃ s : State, (lanePresent s lane.val) ∧
      let l := lane.val
      let x := laneOf s p.val l
      (x.state = .signal)) ∧
    (∃ p : Fin 2, ∃ lane : Fin 8, ∃ s : State, (lanePresent s lane.val) ∧
      let l := lane.val
      let x := laneOf s p.val l
      (x.state = .negotiate)) ∧
    (∃ p : Fin 2, ∃ lane : Fin 8, ∃ s : State, (lanePresent s lane.val) ∧
      let l := lane.val
      let x := laneOf s p.val l
      ∃ f : Fin 8, (x.state = .align) ∧ (laneOrderBad s p.val l f.val = false)) ∧
    (∃ p : Fin 2, ∃ lane : Fin 8, ∃ s : State, (lanePresent s lane.val) ∧
      let l := lane.val
      let x := laneOf s p.val l
      ∃ f : Fin 8, (x.state = .align) ∧ (laneOrderBad s p.val l f.val)) ∧
    (∃ t : Time, ∃ p : Fin 2, ∃ lane : Fin 8, ∃ s : State, (lanePresent s lane.val) ∧
      let now := tick t s
      let l := lane.val
      let x := laneOf s p.val l
      (x.state = .signal ∨ x.state = .negotiate ∨ x.state = .align) ∧ (x.signalAt + 200 * msU ≤ now.now)) ∧
    (∃ t : Time, ∃ p : Fin 2, ∃ lane : Fin 8, ∃ s : State, (lanePresent s lane.val) ∧
      let now := tick t s
      let l := lane.val
      let x := laneOf s p.val l
      ∃ r, (x.retryAt = some r) ∧ (r ≤ now.now) ∧ (x.set.enable) ∧ (portRuns s p.val) ∧
      (x.state = .down ∨ x.state = .failed)) :=
  ⟨⟨1000 * secU, 1, 7, live, by decide +kernel, by decide +kernel, by decide +kernel, optAll (by decide +kernel),
    by decide +kernel⟩,
  ⟨1, 7, lan (fun y => { y with state := .signal, set := { y.set with ctleHost := true, ctleDb := 15 } }),
    by decide +kernel, by decide +kernel⟩,
  ⟨1, 7, lan (fun y => { y with state := .negotiate, set := { y.set with firHost := true } }), by decide +kernel,
    by decide +kernel⟩,
  ⟨1, 7, lan (fun y => { y with state := .align }), by decide +kernel, 7, by decide +kernel, by decide +kernel⟩,
  ⟨1, 7, modLane 1 0 (fun y => { y with laneRx := some 6 }) (lan (fun y => { y with state := .align })),
    by decide +kernel, 6, by decide +kernel, by decide +kernel⟩,
  ⟨1000 * secU, 1, 7, lan (fun y => { y with state := .signal, signalAt := 0, failRun := 2 }), by decide +kernel,
    by decide +kernel, by decide +kernel⟩,
  ⟨1000 * secU, 1, 7, lan (fun y => { y with state := .failed, retryAt := some (1000 * secU) }),
    by decide +kernel, 1000 * secU, by decide +kernel, by decide +kernel, by decide +kernel, by decide +kernel,
    by decide +kernel⟩⟩

/-- What `Obligations.LanesRun` assumes is met, clause by clause. -/
theorem test_lanesRun_met :
    (∃ p : Fin 2, ∃ lane : Fin 8, ∃ s : State, (lanePresent s lane.val) ∧
      let l := lane.val
      let x := laneOf s p.val l
      (x.state = .up)) ∧
    (∃ p : Fin 2, ∃ lane : Fin 8, ∃ s : State, (lanePresent s lane.val) ∧
      let l := lane.val
      let x := laneOf s p.val l
      (x.state = .up) ∧ ∃ cw : Word,
      let f := fld cw 16 3
      (laneOrderBad s p.val l f = false)) ∧
    (∃ p : Fin 2, ∃ lane : Fin 8, ∃ s : State, (lanePresent s lane.val) ∧
      let l := lane.val
      let x := laneOf s p.val l
      (x.state = .up) ∧ ∃ cw : Word,
      let f := fld cw 16 3
      (laneOrderBad s p.val l f)) ∧
    (∃ t : Time, ∃ p : Fin 2, ∃ lane : Fin 8, ∃ s : State, (lanePresent s lane.val) ∧
      let now := tick t s
      let l := lane.val
      let x := laneOf s p.val l
      (x.state = .up) ∧ (∀ j, x.lastJust = some j → 10 * j + 32 * cycle10 x.half ≤ 10 * now.now)) ∧
    (∃ t : Time, ∃ p : Fin 2, ∃ lane : Fin 8, ∃ s : State, (lanePresent s lane.val) ∧
      let now := tick t s
      let l := lane.val
      let x := laneOf s p.val l
      (x.state = .up) ∧ ((laneCur x now.now).ctleHost = false) ∧
      (∀ c, x.lastCtle = some c → c + 10 * msU ≤ now.now) ∧ (x.ctle ≤ 15)) ∧
    (∃ t : Time, ∃ p : Fin 2, ∃ lane : Fin 8, ∃ s : State, (lanePresent s lane.val) ∧
      let now := tick t s
      let l := lane.val
      let x := laneOf s p.val l
      (x.state = .up) ∧ ∃ gain : Nat, (∀ c, x.lastFir = some c → c + secU ≤ now.now) ∧ (10 ≤ gain)) ∧
    (∃ p : Fin 2, ∃ lane : Fin 8, ∃ s : State, (lanePresent s lane.val) ∧
      let l := lane.val
      let x := laneOf s p.val l
      (x.state = .up) ∧ ∃ ber : Nat, (2000000000000 < ber) ∧ (x.degraded = false) ∧ (x.berHigh = 2)) ∧
    (∃ p : Fin 2, ∃ lane : Fin 8, ∃ s : State, (lanePresent s lane.val) ∧
      let l := lane.val
      let x := laneOf s p.val l
      (x.state = .up) ∧ ∃ ber : Nat, (ber ≤ 2000000000000) ∧ (x.degraded) ∧ (x.berLow = 9)) ∧
    (∃ t : Time, ∃ p : Fin 2, ∃ lane : Fin 8, ∃ s : State, (lanePresent s lane.val) ∧
      let now := tick t s
      let l := lane.val
      let x := laneOf s p.val l
      (x.state = .up) ∧ ∃ a, (laneSheddable now p.val l) ∧ (x.shedAt = some a) ∧
      (10 * a + 4096 * cycle10 x.half ≤ 10 * now.now)) :=
  ⟨⟨1, 7, lan (fun y => { y with state := .up }), by decide +kernel, by decide +kernel⟩,
  ⟨1, 7, lan (fun y => { y with state := .up }), by decide +kernel, by decide +kernel, mkWord [(0, 8, 7), (16, 3,
    7), (99, 7, 65)], by decide +kernel⟩,
  ⟨1, 7, modLane 1 0 (fun y => { y with laneRx := some 6 }) (lan (fun y => { y with state := .up })),
    by decide +kernel, by decide +kernel, mkWord [(0, 8, 7), (16, 3, 6), (99, 7, 65)], by decide +kernel⟩,
  ⟨1000 * secU, 1, 7, lan (fun y => { y with state := .up }), by decide +kernel, by decide +kernel,
    optAll (by decide +kernel)⟩,
  ⟨1000 * secU, 1, 7, lan (fun y => { y with state := .up }), by decide +kernel, by decide +kernel,
    by decide +kernel, optAll (by decide +kernel), by decide +kernel⟩,
  ⟨1000 * secU, 1, 7, lan (fun y => { y with state := .up }), by decide +kernel, by decide +kernel, 10,
    optAll (by decide +kernel), by decide +kernel⟩,
  ⟨1, 7, lan (fun y => { y with state := .up, berHigh := 2 }), by decide +kernel, by decide +kernel,
    2000000000001, by decide +kernel, by decide +kernel, by decide +kernel⟩,
  ⟨1, 7, lan (fun y => { y with state := .up, degraded := true, berLow := 9 }), by decide +kernel,
    by decide +kernel, 2000000000000, by decide +kernel, by decide +kernel, by decide +kernel⟩,
  ⟨1000 * secU, 1, 7, lan (fun y => { y with state := .up, shedAt := some 5 }), by decide +kernel,
    by decide +kernel, 5, by decide +kernel, by decide +kernel, by decide +kernel⟩⟩

/-- What `Obligations.AbsentLanesStop` assumes is met, clause by clause. -/
theorem test_absentLanesStop_met :
    (∃ t : Time, ∃ p : Fin 2, ∃ lane : Fin 8, ∃ s : State, (lanePresent s lane.val = false) ∧ ∃ i,
      (i ∈ [Instr.laneSignalDetect t p lane, .laneRxConverged t p lane, .laneTrainingTimeout t p lane, .laneRetryTimer t p lane, .laneFailure t p lane, .laneShedPowerdown t p lane])) ∧
    (∃ lane : Fin 8, ∃ s : State, (lanePresent s lane.val = false)) ∧
    (∃ lane : Fin 8, ∃ s : State, (lanePresent s lane.val = false) ∧ ∃ slot : Fin 64, (slot.val / 8 = lane.val)) :=
  ⟨⟨5, 1, 4, vPart, by decide +kernel, .laneFailure 5 1 4, by decide +kernel⟩,
  ⟨4, vPart, by decide +kernel⟩,
  ⟨4, vPart, by decide +kernel, 39, by decide +kernel⟩⟩

/-- What `Obligations.CircuitsRun` assumes is met, clause by clause. -/
theorem test_circuitsRun_met :
    (∃ t : Time, ∃ s : State,
      let now := tick t s
      ∃ p : Fin 2, ∃ lane : Fin 8, ∃ j : Fin 1088, ∃ f : Nat,
      let y := laneOf s p.val lane.val
      let i := 8 * f + (if y.half then j.val % 4 else j.val % 8)
      let x := lineSlot now p.val i
      (lanePresent s lane.val) ∧ (y.state = .up) ∧ (y.laneRx = some f) ∧ (slotIn now p.val i) ∧ (x.use = .express)) ∧
    (∃ t : Time, ∃ s : State,
      let now := tick t s
      ∃ p : Fin 2, ∃ i : Fin 64,
      let x := lineSlot now p.val i.val
      (lanePresent s (i.val / 8)) ∧ (slotIn now p.val i.val) ∧ (x.use = .regen)) ∧
    (∃ t : Time, ∃ s : State,
      let now := tick t s
      ∃ p : Nat, ∃ i : Nat, (slotOut now p i) ∧ ((laneOf now p (i / 8)).slipUntil ≤ now.now) ∧
      ((slotSet now p i).was = none)) ∧
    (∃ t : Time, ∃ s : State,
      let now := tick t s
      ∃ p : Nat, ∃ i : Nat, ∃ h : Nat, (slotOut now p i) ∧ ((laneOf now p (i / 8)).slipUntil ≤ now.now) ∧
      ((slotSet now p i).was = none) ∧ ((lineSlot now p i).use = .express) ∧
      (isShed now (lineSlot now p i).circuit = false) ∧ ((slotSet now (1 - p) (lineSlot now p i).other).hopsIn = h) ∧
      (h < 127)) ∧
    (∃ s : State, ∃ id : BitVec 16, ∃ c : Circuit, (circuitOf s id = some c) ∧ (dropServes s) ∧ (c.shed = false)) ∧
    (∃ t : Time, ∃ s : State,
      let now := tick t s
      ∃ id : BitVec 16, ∃ c : Circuit, (circuitOf s id = some c) ∧ (dropServes s) ∧ (c.shed = false) ∧
      let w := b2n c.workWest
      ∃ skew : Nat, (c.prot = false) ∧ (c.degraded = false) ∧ (copyUp now w id) ∧ (skew ≤ 4096)) ∧
    (∃ t : Time, ∃ s : State,
      let now := tick t s
      ∃ id : BitVec 16, ∃ c : Circuit, (circuitOf s id = some c) ∧ (dropServes s) ∧ (c.shed = false) ∧
      let w := b2n c.workWest
      ∃ skew : Nat, ∃ dd : Nat, (c.prot) ∧ (c.degraded = false) ∧ (dd ≤ c.declaredUs) ∧ (copyUp now (1 - w) id) ∧
      (skew ≤ 4096)) ∧
    (∃ s : State, ∃ id : BitVec 16, ∃ c : Circuit, (circuitOf s id = some c) ∧ (dropServes s) ∧ (c.shed = false) ∧
      (c.prot = false) ∧ (c.aligned) ∧ (c.degraded = false)) :=
  ⟨⟨1000, expr .express, 1, 0, 5, 0, by decide +kernel, by decide +kernel, by decide +kernel, by decide +kernel,
    by decide +kernel⟩,
  ⟨1000, expr .regen, 1, 5, by decide +kernel, by decide +kernel, by decide +kernel⟩,
  ⟨1000, expr .regen, 1, 5, by decide +kernel, by decide +kernel, by decide +kernel⟩,
  ⟨1000, modLineSlot 0 63 (fun y => { y with hopsIn := 126 }) (expr .express), 1, 5, 126, by decide +kernel,
    by decide +kernel, by decide +kernel, by decide +kernel, by decide +kernel, by decide +kernel,
    by decide +kernel⟩,
  ⟨drp true, 9, circ9 true, by decide +kernel, by decide +kernel, by decide +kernel⟩,
  ⟨1000, drp false, 9, circ9 false, by decide +kernel, by decide +kernel, by decide +kernel, 4096,
    by decide +kernel, by decide +kernel, by decide +kernel, by decide +kernel⟩,
  ⟨1000, drp true, 9, circ9 true, by decide +kernel, by decide +kernel, by decide +kernel, 4096, 50,
    by decide +kernel, by decide +kernel, by decide +kernel, by decide +kernel, by decide +kernel⟩,
  ⟨drp false, 9, circ9 false, by decide +kernel, by decide +kernel, by decide +kernel, by decide +kernel,
    by decide +kernel, by decide +kernel⟩⟩

/-- What `Obligations.NeighboursAreFound` assumes is met, clause by clause. -/
theorem test_neighboursAreFound_met :
    (∃ t : Time, ∃ s : State,
      let now := tick t s
      let me := s.fuseShadow.uid
      ∃ p : Fin 3, ∃ uid : BitVec 64, ∃ heard : BitVec 64,
      let x := portOf s p.val
      (fabricLink now p.val) ∧ (uid ≠ me) ∧ (∀ u, x.neigh = some u → u = uid) ∧ (heard = me) ∧ (x.adjacent = false)) ∧
    (∃ t : Time, ∃ s : State,
      let now := tick t s
      let me := s.fuseShadow.uid
      ∃ p : Fin 3, ∃ uid : BitVec 64,
      let x := portOf s p.val
      (fabricLink now p.val) ∧ (uid = me) ∧ (x.adjacent = false) ∧ (x.looped = false)) ∧
    (∃ t : Time, ∃ s : State,
      let now := tick t s
      let me := s.fuseShadow.uid
      ∃ p : Fin 3, ∃ uid : BitVec 64,
      let x := portOf s p.val
      (p.val = 2) ∧ (fabricLink now 2) ∧ (uid ≠ me) ∧ (x.adjacent = false) ∧ (x.refused = false)) ∧
    (∃ t : Time, ∃ s : State,
      let now := tick t s
      ∃ p : Fin 3, (fabricLink now p.val) ∧ (∀ l, (portOf s p.val).lastSent = some l → l + msU ≤ now.now)) ∧
    (∃ t : Time, ∃ s : State,
      let now := tick t s
      ∃ p : Fin 3, ∃ l, (fabricLink now p.val) ∧ ((portOf s p.val).adjacent) ∧
      ((portOf s p.val).lastHello = some l) ∧ (l + 3 * msU ≤ now.now)) ∧
    (∃ s : State,
      let me := s.fuseShadow.uid
      ∃ w1 : Word,
      let uid := BitVec.ofNat 64 (fld w1 64 64)
      (portUp s 1) ∧ (fld w1 0 4 = 1) ∧ (fld w1 49 15 = 0) ∧ (fld w1 25 6 ≤ 62) ∧ (uid ≠ me) ∧
      (s.fab.anchorActive = false)) ∧
    (∃ t : Time, ∃ s : State,
      let now := tick t s
      (s.fab.anchorActive) ∧ (isUp s .xbar) ∧ (∀ l, s.fab.lastTokenTx = some l → l + msU ≤ now.now)) ∧
    (∃ t : Time, ∃ s : State,
      let now := tick t s
      ∃ l, ∃ q, (s.fab.role = .secondary) ∧ (s.fab.anchorActive = false) ∧ (isUp s .xbar) ∧
      (s.fab.lastPrimary = some l) ∧ (l + 10 * msU ≤ now.now) ∧ (s.fab.pos = some q)) ∧
    (∃ s : State, ∃ p : Fin 2, ∃ pos : Fin 1024, ∃ q : Fin 3, ∃ b : Break, (portUp s p.val) ∧
      (breakAt s.fab.n pos.val q.val = some b) ∧ (s.fab.pos ≠ some pos.val)) ∧
    (∃ t : Time, ∃ s : State,
      let now := tick t s
      (isUp s .xbar) ∧ (∀ l, s.cfg.lastBeacon = some l → l + 100 * msU ≤ now.now)) ∧
    (∃ s : State, ∃ b : Beacon, (b.node ≠ myAddr s)) :=
  ⟨⟨1000 * secU, fl live, 2, 5, 1, by decide +kernel, by decide +kernel, optAll (by decide +kernel),
    by decide +kernel, by decide +kernel⟩,
  ⟨1000 * secU, fl live, 0, 1, by decide +kernel, by decide +kernel, by decide +kernel, by decide +kernel⟩,
  ⟨1000 * secU, fl live, 2, 5, by decide +kernel, by decide +kernel, by decide +kernel, by decide +kernel,
    by decide +kernel⟩,
  ⟨1000 * secU, fl live, 1, by decide +kernel, optAll (by decide +kernel)⟩,
  ⟨1000 * secU, prt 1 (fun x => { x with adjacent := true, lastHello := some 0 }), 1, 0, by decide +kernel,
    by decide +kernel, by decide +kernel, by decide +kernel⟩,
  ⟨modFab (fun x => { x with eastRun := { pos := 9, run := 2 } }) (prt 1 (fun x => { x with adjacent := true })),
    mkWord [(0, 4, 1), (5, 10, 8), (15, 10, 20), (25, 6, 62), (64, 64, 77)], by decide +kernel,
    by decide +kernel, by decide +kernel, by decide +kernel, by decide +kernel, by decide +kernel⟩,
  ⟨1000 * secU,
    modFab (fun x => { x with anchorActive := true, role := .primary, pos := some 0, n := some 9 }) (prt 1 (fun x => { x with adjacent := true })),
    by decide +kernel, by decide +kernel, optAll (by decide +kernel)⟩,
  ⟨1000 * secU, fb (fun x => { x with role := .secondary, lastPrimary := some 0, pos := some 4 }), 0, 4,
    by decide +kernel, by decide +kernel, by decide +kernel, by decide +kernel, by decide +kernel,
    by decide +kernel⟩,
  ⟨modFab (fun x => { x with n := some 20, pos := some 3 }) (prt 1 (fun x => { x with adjacent := true })), 1,
    19, 0, { west := 19, east := 0 }, by decide +kernel, by decide +kernel, by decide +kernel⟩,
  ⟨1000 * secU, prt 0 (fun x => { x with adjacent := true }), by decide +kernel, optAll (by decide +kernel)⟩,
  ⟨fl live, bcn 5, by decide +kernel⟩⟩

/-- What `Obligations.FramesAreCarried` assumes is met, clause by clause. -/
theorem test_framesAreCarried_met :
    (∃ s : State, ∃ f : Frame, (isUp s .xbar) ∧
      let h := hdrOf (f.flits.getD 0 0)
      (f.port = 3) ∧ (h.tc ≤ 3)) ∧
    (∃ s : State, ∃ f : Frame, (isUp s .xbar) ∧
      let h := hdrOf (f.flits.getD 0 0)
      (f.port = 3) ∧ (3 < h.tc)) ∧
    (∃ t : Time, ∃ s : State,
      let now := tick t s
      ∃ f : Frame, (isUp s .xbar) ∧
      let h := hdrOf (f.flits.getD 0 0)
      let comes := f.port ≤ 2 ∧ fabricLink now f.port = true ∧ (portOf s f.port).looped = false ∧
            (portOf s f.port).refused = false
      (comes) ∧ (headerBad f h)) ∧
    (∃ t : Time, ∃ s : State,
      let now := tick t s
      ∃ f : Frame, (isUp s .xbar) ∧
      let h := hdrOf (f.flits.getD 0 0)
      let comes := f.port ≤ 2 ∧ fabricLink now f.port = true ∧ (portOf s f.port).looped = false ∧
            (portOf s f.port).refused = false
      let goes := headerBad f h = false ∧ h.link = false ∧ (h.tc ≠ 4 ∨ h.kind = 5)
      (comes) ∧ (goes) ∧ (s.fab.noAddress) ∧ (h.tc < 4)) ∧
    (∃ t : Time, ∃ s : State,
      let now := tick t s
      ∃ f : Frame, (isUp s .xbar) ∧
      let h := hdrOf (f.flits.getD 0 0)
      let comes := f.port ≤ 2 ∧ fabricLink now f.port = true ∧ (portOf s f.port).looped = false ∧
            (portOf s f.port).refused = false
      let goes := headerBad f h = false ∧ h.link = false ∧ (h.tc ≠ 4 ∨ h.kind = 5)
      let whole := headerBad f h = false ∧ trailerBad f = false ∧ payloadBad f = false
      (comes) ∧ (goes) ∧ (whole) ∧ (s.fab.noAddress = false) ∧ (h.tc ≤ 7) ∧ (1000 ≤ addrPos h.dest) ∧
      (addrPos h.dest < 1023)) ∧
    (∃ t : Time, ∃ s : State,
      let now := tick t s
      ∃ f : Frame, (isUp s .xbar) ∧
      let h := hdrOf (f.flits.getD 0 0)
      let comes := f.port ≤ 2 ∧ fabricLink now f.port = true ∧ (portOf s f.port).looped = false ∧
            (portOf s f.port).refused = false
      let goes := headerBad f h = false ∧ h.link = false ∧ (h.tc ≠ 4 ∨ h.kind = 5)
      (comes) ∧ (goes) ∧ (s.fab.noAddress = false ∨ h.tc = 4)) ∧
    (∃ s : State, ∃ f : Frame, (isUp s .xbar) ∧
      let h := hdrOf (f.flits.getD 0 0)
      let whole := headerBad f h = false ∧ trailerBad f = false ∧ payloadBad f = false
      (whole) ∧ (h.kind = 1) ∧ (h.link = false) ∧ (h.tc = 2)) ∧
    (∃ s : State, ∃ f : Frame, (isUp s .xbar) ∧
      let h := hdrOf (f.flits.getD 0 0)
      let whole := headerBad f h = false ∧ trailerBad f = false ∧ payloadBad f = false
      (whole) ∧ (h.kind = 1) ∧ (h.link = false) ∧ (h.tc ≠ 2)) ∧
    (∃ s : State, ∃ f : Frame, (isUp s .xbar) ∧
      let h := hdrOf (f.flits.getD 0 0)
      let whole := headerBad f h = false ∧ trailerBad f = false ∧ payloadBad f = false
      ∃ g, (whole) ∧ (h.kind = 1) ∧ (h.link = true) ∧ (mirrorTarget s h.tc = some g)) ∧
    (∃ t : Time, ∃ s : State,
      let now := tick t s
      ∃ f : Frame, (isUp s .xbar) ∧
      let h := hdrOf (f.flits.getD 0 0)
      let whole := headerBad f h = false ∧ trailerBad f = false ∧ payloadBad f = false
      ∃ w, (whole) ∧ (h.kind = 1) ∧ (h.link = false) ∧ (h.tc = 2) ∧ (winOf now false h.src = some w) ∧ (w.h = h.seq)) ∧
    (∃ s : State, ∃ f : Frame, (isUp s .xbar) ∧
      let h := hdrOf (f.flits.getD 0 0)
      (headerBad f h = false) ∧ (h.kind = 1) ∧ (trailerBad f ∨ payloadBad f)) ∧
    (∃ s : State, ∃ f : Frame, (isUp s .xbar) ∧
      let h := hdrOf (f.flits.getD 0 0)
      let whole := headerBad f h = false ∧ trailerBad f = false ∧ payloadBad f = false
      (whole) ∧ (h.kind = 0) ∧ (h.tc = 1)) ∧
    (∃ t : Time, ∃ s : State,
      let now := tick t s
      ∃ f : Frame, (isUp s .xbar) ∧
      let h := hdrOf (f.flits.getD 0 0)
      let whole := headerBad f h = false ∧ trailerBad f = false ∧ payloadBad f = false
      ∃ w, (whole) ∧ (h.kind = 0) ∧ (h.tc = 1) ∧ (winOf now false h.src = some w) ∧ (w.h = h.seq)) ∧
    (∃ s : State, ∃ src : BitVec 16, ∃ o : SrcOrder, (orderOf s src = some o)) ∧
    (∃ t : Time, ∃ s : State,
      let now := tick t s
      (s.fab.holdUntil ≤ now.now)) ∧
    (∃ t : Time, ∃ s : State,
      let now := tick t s
      (∀ a, now.now ≤ a + msU → origCount s a < 300)) :=
  ⟨⟨fl live, frm 3 3 2 false, by decide +kernel, by decide +kernel, by decide +kernel⟩,
  ⟨fl live, frm 3 5 1 false, by decide +kernel, by decide +kernel, by decide +kernel⟩,
  ⟨1000 * secU, fl live, badH, by decide +kernel, by decide +kernel, by decide +kernel⟩,
  ⟨1000 * secU, fb (fun x => { x with noAddress := true }), frm 1 2 1 false, by decide +kernel,
    by decide +kernel, by decide +kernel, by decide +kernel, by decide +kernel⟩,
  ⟨1000 * secU, fl live, far, by decide +kernel, by decide +kernel, by decide +kernel, by decide +kernel,
    by decide +kernel, by decide +kernel, by decide +kernel, by decide +kernel⟩,
  ⟨1000 * secU, fl live, frm 1 2 1 false, by decide +kernel, by decide +kernel, by decide +kernel,
    by decide +kernel⟩,
  ⟨fl live, frm 1 2 1 false, by decide +kernel, by decide +kernel, by decide +kernel, by decide +kernel,
    by decide +kernel⟩,
  ⟨fl live, frm 1 6 1 false, by decide +kernel, by decide +kernel, by decide +kernel, by decide +kernel,
    by decide +kernel⟩,
  ⟨modSeg 9 (fun x => { x with target := true, state := .empty, sizeMib := 1, mirrorTc := 2 }) (fl live),
    frm 1 7 1 true, by decide +kernel, 9, by decide +kernel, by decide +kernel, by decide +kernel,
    by decide +kernel⟩,
  ⟨1000 * secU, fb (fun x => { x with wins := [win9] }), frm 1 2 1 false, by decide +kernel, win9,
    by decide +kernel, by decide +kernel, by decide +kernel, by decide +kernel, by decide +kernel,
    by decide +kernel⟩,
  ⟨fl live, badF 1 2 1, by decide +kernel, by decide +kernel, by decide +kernel, by decide +kernel⟩,
  ⟨fl live, frm 1 1 0 false, by decide +kernel, by decide +kernel, by decide +kernel, by decide +kernel⟩,
  ⟨1000 * secU, fb (fun x => { x with wins := [win9] }), frm 1 1 0 false, by decide +kernel, win9,
    by decide +kernel, by decide +kernel, by decide +kernel, by decide +kernel, by decide +kernel⟩,
  ⟨fb (fun x => { x with order := [ord7] }), 7, ord7, by decide +kernel⟩,
  ⟨1000 * secU, fl live, by decide +kernel⟩,
  ⟨1000 * secU, fl live, fun a _ => (by decide : (0 : Nat) < 300)⟩⟩

/-- What `Obligations.NodesServeEachOther` assumes is met, clause by clause. -/
theorem test_nodesServeEachOther_met :
    (∃ s : State, ∃ gen : BitVec 16, ∃ off : Nat, ∃ dig : BitVec 64, (s.mgmt.run) ∧ (isUp s .xbar) ∧
      (allowed s 0x0201 .fabric) ∧ (off ≠ 0 ∨ isRingImage s gen.toNat dig = false)) ∧
    (∃ s : State, (isUp s .xbar) ∧ (s.mgmt.run)) ∧
    (∃ t : Time, ∃ s : State,
      let now := tick t s
      ∃ src : BitVec 16, ∃ rq : Request,
      let rq1 : Request := { rq with agent := .fabric, srcNode := src, bell := rq.seq, arrival := now.now, remote := none }
      (isUp s .xbar) ∧ (s.mgmt.run) ∧ ∃ c,
      (c ∈ [((0x1003 : BitVec 16), Instr.chanStatus t rq1), (0x2001, .timeGetTime t rq1), (0x2002, .timeStatus t rq1), (0x2005, .timeSelectDomain t rq1), (0x5201, .thermConfig t rq1), (0x4008, .basinStatus t rq1)])) ∧
    (∃ t : Time, ∃ s : State,
      let now := tick t s
      ∃ src : BitVec 16, ∃ rq : Request,
      let rq1 : Request := { rq with agent := .fabric, srcNode := src, bell := rq.seq, arrival := now.now, remote := none }
      (isUp s .xbar) ∧ (s.mgmt.run) ∧ (runs 0x2001 0 0 t rq1 s)) ∧
    (∃ s : State, ∃ m : Fin 16, ∃ seq : BitVec 32, ∃ p : RemotePending, (s.mgmt.run) ∧ (isUp s .xbar) ∧
      (remoteOn s m.val (some seq) = some p)) ∧
    (∃ t : Time, ∃ s : State,
      let now := tick t s
      ∃ m : Fin 16, ∃ p : RemotePending, (s.mgmt.run) ∧ (remoteOn s m.val none = some p) ∧ (p.sentAt + secU ≤ now.now)) ∧
    (∃ t : Time, ∃ s : State,
      let now := tick t s
      ∃ node : BitVec 16, ∃ img : Image, ∃ h : HeardBeacon, (s.cfg.active = some img) ∧ (h ∈ s.cfg.beacons) ∧
      (h.beacon.node = node) ∧ (now.now ≤ h.at_ + 300 * msU) ∧ (activeDiff (ringHere now) h.beacon) ∧ (s.mgmt.run) ∧
      (unanchored now = false) ∧ (ownRing s node) ∧ (isCatchupNeighbour now (addrPos node)) ∧
      (ownGen s = ringHere now)) ∧
    (∃ t : Time, ∃ s : State,
      let now := tick t s
      ∃ a : Commit, ∃ img : Image, (s.cfg.armed = some a) ∧ (a.catchup) ∧ (a.time ≤ tbNow now) ∧ (s.mgmt.run) ∧
      (s.pwr.sagWarn = false) ∧ (s.cfg.staged = some img)) ∧
    (∃ t : Time, ∃ s : State,
      let now := tick t s
      ∃ a : Commit, (s.cfg.armed = some a) ∧ (a.catchup) ∧ (a.time ≤ tbNow now) ∧ (s.mgmt.run) ∧ (s.pwr.sagWarn)) :=
  ⟨⟨fl live, 5, 2, 9, by decide +kernel, by decide +kernel, by decide +kernel, by decide +kernel⟩,
  ⟨fl live, by decide +kernel, by decide +kernel⟩,
  ⟨1000 * secU, fl live, 0xFC05, ask [], by decide +kernel, by decide +kernel, (((0x2001 : BitVec 16),
    Instr.timeGetTime (1000 * secU) { ask [] with agent := .fabric, srcNode := 0xFC05, arrival := 1000 * secU }) : BitVec 16 × Instr),
    by decide +kernel⟩,
  ⟨1000 * secU, fl live, 0xFC05, ask [], by decide +kernel, by decide +kernel, by decide +kernel⟩,
  ⟨pend9, 0, 9, rem9, by decide +kernel, by decide +kernel, by decide +kernel⟩,
  ⟨1000 * secU, pend9, 0, rem9, by decide +kernel, by decide +kernel, by decide +kernel⟩,
  ⟨1000 * secU,
    modFab (fun x => { x with pos := some 4, n := some 9, lastToken := some (1000 * secU), anchorPos := 3, ringGen := some (7, 0) }) { fl live with cfg := { live.cfg with active := some img5, activeGen := 7, beacons := [{ beacon := bcn 0xFC05, at_ := 1000 * secU }] } },
    0xFC05, img5, { beacon := bcn 0xFC05, at_ := 1000 * secU }, by decide +kernel, by decide +kernel,
    by decide +kernel, by decide +kernel, by decide +kernel, by decide +kernel, by decide +kernel,
    by decide +kernel, by decide +kernel, by decide +kernel⟩,
  ⟨1000 * secU, { live with cfg := { live.cfg with armed := some (cmt true), staged := some img5 } }, cmt true,
    img5, by decide +kernel, by decide +kernel, by decide +kernel, by decide +kernel, by decide +kernel,
    by decide +kernel⟩,
  ⟨1000 * secU,
    { live with cfg := { live.cfg with armed := some (cmt true) }, pwr := { live.pwr with sagWarn := true } },
    cmt true, by decide +kernel, by decide +kernel, by decide +kernel, by decide +kernel, by decide +kernel⟩⟩

/-- What `Obligations.EthernetPortsBridge` assumes is met, clause by clause. -/
theorem test_ethernetPortsBridge_met :
    (∃ p : Fin 2, ∃ s : State,
      let e := ethOf s p.val
      let serves := isUp s .ethm = true ∧ e.enable = true ∧ e.link = true ∧ loopFree s (3 + p.val) = true ∧ e.bridge = true
      let role := (s.time.ptp.getD p.val default).role
      ∃ n : Nat, ∃ ptp : Bool, ∃ fabric : Bool, (serves) ∧ (64 ≤ n) ∧ (n ≤ 8144) ∧
      (ptp = false ∨ (role ≠ 1 ∧ role ≠ 2)) ∧ (s.eth.groups.getD e.group none = some fabric)) ∧
    (∃ p : Fin 2, ∃ s : State,
      let e := ethOf s p.val
      let serves := isUp s .ethm = true ∧ e.enable = true ∧ e.link = true ∧ loopFree s (3 + p.val) = true ∧ e.bridge = true
      let role := (s.time.ptp.getD p.val default).role
      ∃ n : Nat, (serves) ∧ (64 ≤ n) ∧ (n ≤ 8144) ∧ (role = 1 ∨ role = 2)) ∧
    (∃ p : Fin 2, ∃ s : State,
      let e := ethOf s p.val
      let serves := isUp s .ethm = true ∧ e.enable = true ∧ e.link = true ∧ loopFree s (3 + p.val) = true ∧ e.bridge = true
      ∃ n : Nat, ∃ ok : Bool, (serves) ∧ (ok = false ∨ n < 64 ∨ 8144 < n)) ∧
    (∃ p : Fin 2, ∃ s : State,
      let e := ethOf s p.val
      let serves := isUp s .ethm = true ∧ e.enable = true ∧ e.link = true ∧ loopFree s (3 + p.val) = true ∧ e.bridge = true
      ∃ n : Nat, (serves) ∧ (64 ≤ n) ∧ (n ≤ 8144)) ∧
    (∃ p : Fin 2, ∃ s : State,
      let e := ethOf s p.val
      ∃ up : Bool, (isUp s .ethm) ∧ (up → e.enable) ∧ (e.link ≠ up)) :=
  ⟨⟨1, role2 3 (eth1 id), 8144, true, true, by decide +kernel, by decide +kernel, by decide +kernel,
    by decide +kernel, by decide +kernel⟩,
  ⟨1, role2 2 (eth1 id), 64, by decide +kernel, by decide +kernel, by decide +kernel, by decide +kernel⟩,
  ⟨1, eth1 id, 63, true, by decide +kernel, by decide +kernel⟩,
  ⟨1, eth1 id, 64, by decide +kernel, by decide +kernel, by decide +kernel⟩,
  ⟨1, eth1 id, false, by decide +kernel, by decide +kernel, by decide +kernel⟩⟩

/-- What `Obligations.BasinAndOperatorsWork` assumes is met, clause by clause. -/
theorem test_basinAndOperatorsWork_met :
    (∃ s : State, ∃ g : Fin 1024, ∃ q : DestQueue, ∃ r : QRec, (isUp s .basin) ∧ (s.basin.ready) ∧
      (nextFor s (.basin g.val) = some (q, r))) ∧
    (∃ t : Time, ∃ s : State,
      let now := tick t s
      ∃ g : Fin 1024, ((segOf s g.val).state = .postTrigger) ∧ (postEnd (segOf s g.val) < tbNow now) ∧
      ((segOf s g.val).lastWrite + secU ≤ tbNow now)) ∧
    (∃ t : Time, ∃ s : State,
      let now := tick t s
      ∃ g : Fin 1024, ∃ l : Time, ((segOf s g.val).target) ∧
      ((segOf s g.val).state = .recording ∨ (segOf s g.val).state = .postTrigger) ∧
      ((segOf s g.val).lastMirror = some l) ∧ (l + 100 * msU ≤ now.now)) ∧
    (∃ s : State, ∃ n : Fin 32, ∃ i : Nat, ∃ r : QRec, ∃ rest : List (Nat × QRec), (isUp s .oper) ∧
      ((operOf s n.val).run = .running) ∧ ((operOf s n.val).inq = (i, r) :: rest)) ∧
    (∃ t : Time, ∃ s : State,
      let now := tick t s
      ∃ n : Fin 32, ∃ k : OpCfg, ∃ a : List Int, ∃ b : Int, ∃ r : OpRec,
      let o := operOf s n.val
      (o.cfg = some k) ∧ (k.kind = .combine a b) ∧
      (earliest (o.buf.filter (fun r => decide (r.arrived + k.holdUs * usU ≤ now.now))) = some r)) :=
  ⟨⟨{ full7 with daq := { live.daq with queues := [dq] } }, 1023, dq, qr, by decide +kernel, by decide +kernel,
    by decide +kernel⟩,
  ⟨1000 * secU,
    seg7 (fun x => { x with sizeMib := 1, state := .postTrigger, tTrig := 5, postMs := 7, lastWrite := 9 }), 7,
    by decide +kernel, by decide +kernel, by decide +kernel⟩,
  ⟨1000 * secU,
    seg7 (fun x => { x with sizeMib := 1, target := true, state := .recording, lastMirror := some 5, held := 1, serial := 1 }),
    7, 5, by decide +kernel, by decide +kernel, by decide +kernel, by decide +kernel⟩,
  ⟨osl (fun o => { o with run := .running, inq := [(0, qr)] }), 31, 0, qr, [], by decide +kernel,
    by decide +kernel, by decide +kernel⟩,
  ⟨1000 * secU, osl (fun o => { o with cfg := some ocfg, buf := [orec] }), 31, ocfg, [1], 0, orec,
    by decide +kernel, by decide +kernel, by decide +kernel⟩⟩

/-- What `Obligations.MemoriesAndStoreAge` assumes is met, clause by clause. -/
theorem test_memoriesAndStoreAge_met :
    (∃ m : Fin 3, (m.val ≠ 2)) ∧
    (∃ m : Fin 3, (m.val = 1)) ∧
    (∃ m : Fin 3, ∃ s : State, ∃ row : Nat, ∃ r : Repair,
      ((memOf s m.val).copying.find? (fun r => r.row == row) = some r)) ∧
    (∃ t : Time, ∃ s : State,
      let now := tick t s
      (s.mgmt.run) ∧ (s.pwr.sagWarn = false) ∧ (s.nv.lastCountStore + 3600 * secU ≤ now.now)) ∧
    (∃ t : Time, ∃ s : State,
      let now := tick t s
      (s.mgmt.run) ∧ (s.pwr.sagWarn = false) ∧ (s.time.everLocked) ∧
      (∀ a, s.nv.lastRefreshCheck = some a → a + 86400 * secU ≤ now.now)) ∧
    (∃ t : Time, ∃ s : State,
      let now := tick t s
      (s.mgmt.run) ∧ (standbyUp s) ∧ (s.pwr.sagWarn = false) ∧ (s.mgmt.since + 600 * secU ≤ now.now) ∧
      (rollbackCount now < s.mgmt.sv)) :=
  ⟨⟨1, by decide +kernel⟩,
  ⟨1, by decide +kernel⟩,
  ⟨1, cpy 1, 5, rep5, by decide +kernel⟩,
  ⟨3600 * secU, live, by decide +kernel, by decide +kernel, by decide +kernel⟩,
  ⟨86400 * secU,
    { live with time := { live.time with everLocked := true }, nv := { live.nv with lastRefreshCheck := some 0 } },
    by decide +kernel, by decide +kernel, by decide +kernel, optAll (by decide +kernel)⟩,
  ⟨1000 * secU, { live with mgmt := { live.mgmt with sv := 5 } }, by decide +kernel, by decide +kernel,
    by decide +kernel, by decide +kernel, by decide +kernel⟩⟩

/-- What `Obligations.IslandsReturn` assumes is met, clause by clause. -/
theorem test_islandsReturn_met :
    (∃ s : State, (s.islands.length = 21) ∧ ∃ n : Nat, ∃ r : Running, (runningIsland s 0x0104 = some (r, n))) ∧
    (∃ s : State, (s.islands.length = 21) ∧
      let names := fun (p : Nat → Bool) (r : Running) => r.opcode.toNat == 0x5003 && r.holds.any (fun h =>
          match h with | .island n => p n | _ => false)
      ∃ r : Running, (s.mgmt.running.find? (names (fun n => decide (n < 16))) = some r)) ∧
    (∃ s : State, (s.islands.length = 21) ∧
      let names := fun (p : Nat → Bool) (r : Running) => r.opcode.toNat == 0x5003 && r.holds.any (fun h =>
          match h with | .island n => p n | _ => false)
      ∃ r : Running, (s.mgmt.running.find? (names (fun n => decide (16 ≤ n))) = some r)) :=
  ⟨⟨runs1 0x0104 42, by decide +kernel, 42, run1 0x0104 42, by decide +kernel⟩,
  ⟨runs1 0x5003 8, by decide +kernel, run1 0x5003 8, by decide +kernel⟩,
  ⟨runs1 0x5003 24, by decide +kernel, run1 0x5003 24, by decide +kernel⟩⟩

/-- What `Obligations.HostAccessesActAtOnce` assumes is met, clause by clause. -/
theorem test_hostAccessesActAtOnce_met :
    (∃ s : State, (isUp s .hostif) ∧
      let h := s.host
      ∃ n : Fin 16, ∃ spi : Bool, (spi → n.val = 15) ∧ ((h.mbox.getD n.val default).pending = false)) ∧
    (∃ s : State, (isUp s .hostif) ∧
      let h := s.host
      ∃ n : Fin 16, ∃ spi : Bool, (spi → n.val = 15) ∧ ((h.mbox.getD n.val default).pending)) ∧
    (∃ s : State, (isUp s .hostif) ∧ ∃ off : Nat, (off % 4 = 0)) ∧
    (∃ s : State, (isUp s .hostif) ∧ ∃ off : Nat, (off % 4 ≠ 0)) ∧
    (∃ s : State, (isUp s .hostif)) ∧
    (∃ t : Time, ∃ s : State, (isUp s .hostif) ∧
      let now := tick t s
      let h := s.host
      ∃ a, (h.evq.firstUnsignalled = some a) ∧ (h.evq.modTime ≠ 0) ∧ (a + h.evq.modTime * usU ≤ now.now)) ∧
    (∃ s : State, (isUp s .hostif) ∧
      let h := s.host
      (h.linkUp = false)) ∧
    (∃ s : State, (isUp s .hostif) ∧
      let h := s.host
      (h.linkUp)) :=
  ⟨⟨live, by decide +kernel, 15, true, by decide +kernel, by decide +kernel⟩,
  ⟨hst (fun h => { h with mbox := h.mbox.modify 0 (fun m => { m with pending := true }) }), by decide +kernel, 0,
    false, by decide +kernel, by decide +kernel⟩,
  ⟨live, by decide +kernel, 0x380, by decide +kernel⟩,
  ⟨live, by decide +kernel, 0x381, by decide +kernel⟩,
  ⟨live, by decide +kernel⟩,
  ⟨1000 * secU, hst (fun h => { h with evq := { h.evq with firstUnsignalled := some 0, modTime := 5 } }),
    by decide +kernel, 0, by decide +kernel, by decide +kernel, by decide +kernel⟩,
  ⟨hst (fun h => { h with linkUp := false }), by decide +kernel, by decide +kernel⟩,
  ⟨live, by decide +kernel, by decide +kernel⟩⟩

/-- What `Obligations.DmaChannelsMove` assumes is met, clause by clause. -/
theorem test_dmaChannelsMove_met :
    (∃ s : State, (isUp s .hostif)) ∧
    (∃ s : State, (isUp s .hostif) ∧ ∃ c : Fin 16,
      let d := dmaOf s c.val
      (ringChannel c.val) ∧ (d.state = .idle ∨ d.state = .stopped ∨ d.state = .aborted)) ∧
    (∃ s : State, (isUp s .hostif) ∧ ∃ c : Fin 16,
      let d := dmaOf s c.val
      (d.state ≠ .idle) ∧ (d.state ≠ .stopped) ∧ (d.state ≠ .aborted)) ∧
    (∃ s : State, (isUp s .hostif) ∧ ∃ c : Fin 16,
      let d := dmaOf s c.val
      (d.state = .running ∨ d.state = .starved ∨ d.state = .haltedUe) ∧ (d.buf = none)) ∧
    (∃ s : State, (isUp s .hostif) ∧ ∃ c : Fin 16,
      let d := dmaOf s c.val
      ∃ w, (d.state = .haltedUe) ∧ (d.badWord = some w)) ∧
    (∃ s : State, (isUp s .hostif) ∧ ∃ c : Fin 16,
      let d := dmaOf s c.val
      ∃ w, (d.state = .haltedUe) ∧ (d.badWord = some w) ∧ (8 ≤ c.val)) ∧
    (∃ s : State, (isUp s .hostif) ∧ ∃ c : Fin 16,
      let d := dmaOf s c.val
      ∃ w, (d.state = .haltedUe) ∧ (d.badWord = some w) ∧ (c.val < 8)) ∧
    (∃ s : State, (isUp s .hostif) ∧ ∃ c : Fin 16,
      let d := dmaOf s c.val
      (ringChannel c.val) ∧ (d.state = .running) ∧ (s.host.linkUp)) ∧
    (∃ t : Time, ∃ s : State, (isUp s .hostif) ∧
      let now := tick t s
      ∃ c : Fin 8, ∃ b : DmaBuf, ((dmaOf s c.val).buf = some b) ∧ ((dmaOf s c.val).state = .running) ∧
      (s.host.linkUp) ∧ (b.first + max 1 (dmaOf s c.val).flushUs * usU ≤ now.now)) ∧
    (∃ s : State, (isUp s .hostif) ∧ ∃ a : Agent, ∃ seq : BitVec 32, ∃ r : Running, (s.mgmt.run) ∧
      (s.mgmt.running.find? (fun r => r.agent == a && r.seq == seq) = some r) ∧ ∃ e,
      (r.opcode = 0x4005 ∨ r.opcode = 0x4007) ∧
      (s.basin.extracts.find? (fun e => e.seq == seq && e.agent == a && e.srcNode == r.srcNode) = some e)) ∧
    (∃ s : State, (isUp s .hostif) ∧ ∃ a : Agent, ∃ seq : BitVec 32, ∃ r : Running, (s.mgmt.run) ∧
      (s.mgmt.running.find? (fun r => r.agent == a && r.seq == seq) = some r) ∧ ∃ c,
      ((r.opcode = 0x5602 ∧ c = 13) ∨ (r.opcode = 0x5F03 ∧ c = 14)) ∧ ((dmaOf s c).feed = []) ∧
      ((dmaOf s c).badWord = none)) :=
  ⟨⟨live, by decide +kernel⟩,
  ⟨dm 12 (fun d => { d with state := .stopped }), by decide +kernel, 12, by decide +kernel, by decide +kernel⟩,
  ⟨dm 12 (fun d => { d with state := .starved }), by decide +kernel, 12, by decide +kernel, by decide +kernel,
    by decide +kernel⟩,
  ⟨dm 12 (fun d => { d with state := .haltedUe, buf := none, badWord := some 3 }), by decide +kernel, 12,
    by decide +kernel, by decide +kernel⟩,
  ⟨dm 13 (fun d => { d with state := .haltedUe, badWord := some 3, buf := some bufX }), by decide +kernel, 13, 3,
    by decide +kernel, by decide +kernel⟩,
  ⟨dm 8 (fun d => { d with state := .haltedUe, badWord := some 3, buf := some bufX }), by decide +kernel, 8, 3,
    by decide +kernel, by decide +kernel, by decide +kernel⟩,
  ⟨dm 7 (fun d => { d with state := .haltedUe, badWord := some 3, buf := some bufX }), by decide +kernel, 7, 3,
    by decide +kernel, by decide +kernel, by decide +kernel⟩,
  ⟨dm 12 (fun d => { d with state := .running }), by decide +kernel, 12, by decide +kernel, by decide +kernel,
    by decide +kernel⟩,
  ⟨1000 * secU, dm 7 (fun d => { d with state := .running, buf := some bufX }), by decide +kernel, 7, bufX,
    by decide +kernel, by decide +kernel, by decide +kernel, by decide +kernel⟩,
  ⟨{ live with mgmt := { live.mgmt with running := [runX 0x4005] }, basin := { live.basin with extracts := [ext9] } },
    by decide +kernel, .host, 9, runX 0x4005, by decide +kernel, by decide +kernel, ext9, by decide +kernel,
    by decide +kernel⟩,
  ⟨{ live with mgmt := { live.mgmt with running := [runX 0x5602] } }, by decide +kernel, .host, 9, runX 0x5602,
    by decide +kernel, by decide +kernel, 13, by decide +kernel, by decide +kernel, by decide +kernel⟩⟩

/-- What `Obligations.ResetsAndStarts` assumes is met, clause by clause. -/
theorem test_resetsAndStarts_met :
    (∃ s : State, (Whole s)) ∧
    (∃ s : State, (Whole s) ∧ ∃ ns : Nat, (1000 ≤ ns)) ∧
    (∃ s : State, (Whole s) ∧ ∃ ns : Nat, (ns < 100)) ∧
    (∃ s : State, (Whole s) ∧ ∃ ns : Nat, (100 ≤ ns) ∧ (ns < 1000)) ∧
    (∃ s : State, (Whole s) ∧ (s.pwr.resetNLow)) ∧
    (∃ s : State, (Whole s) ∧ (s.aon.startDue) ∧ (s.aon.thermalOff = false) ∧ (s.pwr.resetNLow = false) ∧
      (s.pwr.supplyHold = false)) ∧
    (∃ t : Time, ∃ s : State, (Whole s) ∧
      let now := tick t s
      ∃ d : Time, (s.mgmt.warmDue = some d) ∧ (d ≤ now.now)) ∧
    (∃ t : Time, ∃ s : State, (Whole s) ∧
      let now := tick t s
      ∃ d : Time, (s.mgmt.hibernateDue = some d) ∧ (d ≤ now.now)) ∧
    (∃ s : State, (Whole s) ∧ (isUp s .basin) ∧ (s.basin.ready = false)) ∧
    (∃ s : State, (Whole s) ∧ (isUp s .hostif)) :=
  ⟨⟨live, by unfold Whole; decide +kernel⟩,
  ⟨pw (fun p => { p with state := .hibernate }), by unfold Whole; decide +kernel, 1000, by decide +kernel⟩,
  ⟨live, by unfold Whole; decide +kernel, 99, by decide +kernel⟩,
  ⟨live, by unfold Whole; decide +kernel, 100, by decide +kernel, by decide +kernel⟩,
  ⟨pw (fun p => { p with resetNLow := true }), by unfold Whole; decide +kernel, by decide +kernel⟩,
  ⟨{ live with aon := { live.aon with startDue := true } }, by unfold Whole; decide +kernel, by decide +kernel,
    by decide +kernel, by decide +kernel, by decide +kernel⟩,
  ⟨1000 * secU, mg (fun m => { m with warmDue := some 5 }), by unfold Whole; decide +kernel, 5,
    by decide +kernel, by decide +kernel⟩,
  ⟨1000 * secU, mg (fun m => { m with hibernateDue := some 5 }), by unfold Whole; decide +kernel, 5,
    by decide +kernel, by decide +kernel⟩,
  ⟨{ live with basin := { live.basin with ready := false } }, by unfold Whole; decide +kernel, by decide +kernel,
    by decide +kernel⟩,
  ⟨live, by unfold Whole; decide +kernel, by decide +kernel⟩⟩

/-- What `Obligations.SagsAreAnswered` assumes is met, clause by clause. -/
theorem test_sagsAreAnswered_met :
    (∃ s : State, ∃ rail : Fin 8, (isUp s .hostif) ∧ (s.mgmt.run) ∧ (s.pwr.sagNow.getLsbD rail.val = false) ∧
      (s.pwr.sagWarn)) ∧
    (∃ s : State, ∃ rail : Fin 8, (isUp s .hostif) ∧ (s.mgmt.run) ∧ (s.pwr.sagNow.getLsbD rail.val = false) ∧
      (s.pwr.sagWarn = false) ∧ (s.pwr.change = none)) ∧
    (∃ s : State, (s.pwr.sagWarn) ∧ (s.mgmt.run = false) ∧ (s.pwr.opWanted = none)) ∧
    (∃ s : State, (s.pwr.sagWarn) ∧ (s.mgmt.run)) ∧
    (∃ t : Time, ∃ s : State,
      let now := tick t s
      (s.pwr.sagWarn) ∧ (s.mgmt.run) ∧ (s.pwr.sagSince + 100 * msU ≤ now.now)) ∧
    (∃ s : State, ∃ rails : BitVec 8,
      let seen := if s.pwr.state = .hibernate then rails &&& 0x10#8 else rails
      (seen ≠ 0) ∧ (s.pwr.supplyHold = false) ∧ (s.aon.thermalOff = false)) :=
  ⟨⟨pw (fun p => { p with sagWarn := true, sagNow := 1 }), 7, by decide +kernel, by decide +kernel,
    by decide +kernel, by decide +kernel⟩,
  ⟨live, 7, by decide +kernel, by decide +kernel, by decide +kernel, by decide +kernel, by decide +kernel⟩,
  ⟨{ mg (fun m => { m with run := false }) with pwr := { live.pwr with sagWarn := true } }, by decide +kernel,
    by decide +kernel, by decide +kernel⟩,
  ⟨pw (fun p => { p with sagWarn := true, sagNow := 1 }), by decide +kernel, by decide +kernel⟩,
  ⟨1000 * secU,
    { mg (fun m => { m with waiting := [{ opcode := 0x2001, rq := ask [] }] }) with pwr := { live.pwr with sagWarn := true } },
    by decide +kernel, by decide +kernel, by decide +kernel⟩,
  ⟨pw (fun p => { p with state := .hibernate }), 0x10, by decide +kernel, by decide +kernel, by decide +kernel⟩⟩

/-- What `Obligations.ManagementRestarts` assumes is met, clause by clause. -/
theorem test_managementRestarts_met :
    (∃ t : Time, ∃ s : State,
      let m := s.mgmt
      ∃ i, (i ∈ [(Instr.mgmtFault t true false, 0), (.mgmtFault t true true, 1), (.watchdogExpiry t true, 2)]) ∧
      ((pairOf s (1 - m.active)).state = .standby)) ∧
    (∃ t : Time, ∃ s : State,
      let m := s.mgmt
      ∃ i, (i ∈ [(Instr.mgmtFault t false false, 0), (.mgmtFault t false true, 1), (.watchdogExpiry t false, 2)]) ∧
      ((pairOf s m.active).state = .active) ∧ ((pairOf s (1 - m.active)).state = .standby)) ∧
    (∃ s : State,
      let m := s.mgmt
      ((pairOf s m.active).state = .active) ∧ ((pairOf s (1 - m.active)).state ≠ .standby)) ∧
    (∃ s : State,
      let m := s.mgmt
      (m.takeoverDue)) ∧
    (∃ s : State,
      let m := s.mgmt
      ∃ b : Bool, ((pairOf s (b2n b)).state = .reloading) ∧ (m.run)) ∧
    (∃ t : Time, ∃ s : State,
      let now := tick t s
      let m := s.mgmt
      ∃ b : Bool, (m.lost) ∧ ((pairOf s (b2n b)).attempts < 3) ∧ ((pairOf s (b2n b)).lastAttempt + secU ≤ now.now)) ∧
    (∃ s : State,
      let m := s.mgmt
      ∃ a : Bool, ∃ b : Bool, (m.run = false) ∧ (m.recovery = false) ∧ (m.lost = false) ∧ (m.takeoverDue = false) ∧
      (isUp s .hostif) ∧ (bootable s s.nv.fwA a = false) ∧ (bootable s s.nv.fwB b = false)) ∧
    (∃ s : State,
      let m := s.mgmt
      ∃ a : Bool, (m.run = false) ∧ (m.recovery = false) ∧ (m.lost = false) ∧ (m.takeoverDue = false) ∧
      (isUp s .hostif) ∧ (s.nv.preferred ≠ 1) ∧ (bootable s s.nv.fwA a) ∧ (s.pwr.vctlConfirmed)) ∧
    (∃ t : Time, ∃ s : State, ∃ rq : Request, (runs 0x0103 1 1 t rq s) ∧ (onlyBits (qword rq 1) [(96, 32)]) ∧
      (fld (qword rq 1) 96 32 = 0x5128C0DE)) ∧
    (∃ t : Time, ∃ s : State, ∃ rq : Request, ∃ img : FwImage, (runs 0x0105 1 1 t rq s) ∧ (idle rq s) ∧
      (onlyBits (qword rq 1) [(0, 82)]) ∧ (fld (qword rq 1) 64 17 ≠ 0) ∧ (fld (qword rq 1) 64 17 ≤ 98304) ∧
      (fbit (qword rq 1) 81 = false) ∧ (img.fetchOk) ∧ (imageTrusted s img.keyHash img.signatureOk img.sv)) :=
  ⟨⟨1000 * secU, live, ((Instr.watchdogExpiry (1000 * secU) true, 2) : Instr × Nat), by decide +kernel,
    by decide +kernel⟩,
  ⟨1000 * secU, live, ((Instr.mgmtFault (1000 * secU) false true, 1) : Instr × Nat), by decide +kernel,
    by decide +kernel, by decide +kernel⟩,
  ⟨mg (fun m => { m with pairB := { m.pairB with state := .out } }), by decide +kernel, by decide +kernel⟩,
  ⟨mg (fun m => { m with takeoverDue := true, run := false }), by decide +kernel⟩,
  ⟨mg (fun m => { m with pairB := { m.pairB with state := .reloading } }), true, by decide +kernel,
    by decide +kernel⟩,
  ⟨1000 * secU,
    mg (fun m => { m with lost := true, run := false, pairB := { m.pairB with state := .out, attempts := 2, lastAttempt := 5 } }),
    true, by decide +kernel, by decide +kernel, by decide +kernel⟩,
  ⟨{ offM with nv := { live.nv with fwA := { fw9 with valid := false }, fwB := { fw9 with signatureOk := false } } },
    true, false, by decide +kernel, by decide +kernel, by decide +kernel, by decide +kernel, by decide +kernel,
    by decide +kernel, by decide +kernel⟩,
  ⟨{ offM with nv := { live.nv with preferred := 0, fwA := fw9 } }, true, by decide +kernel, by decide +kernel,
    by decide +kernel, by decide +kernel, by decide +kernel, by decide +kernel, by decide +kernel,
    by decide +kernel⟩,
  ⟨1000 * secU, live, qw [(96, 32, 0x5128C0DE)], by decide +kernel, by decide +kernel, by decide +kernel⟩,
  ⟨1000 * secU, live, qw [(64, 17, 98304)],
    { release := 9, sv := 0, keyHash := 2, signatureOk := true, fetchOk := true }, by decide +kernel,
    by decide +kernel, by decide +kernel, by decide +kernel, by decide +kernel, by decide +kernel,
    by decide +kernel, by decide +kernel⟩⟩

end Sys2Proof.Tests
end

section
/-! A duplicate request (R337): every mailbox command is served in one way, and a request whose journal entry is found is
answered from it. -/

namespace Sys2Proof.Machine

/-! ### The journal entry of a request (R337) -/

theorem sameCommand_iff {a : Agent} {src : BitVec 16} {seq : BitVec 32} {e : JEntry} :
    sameCommand a src seq e = true ↔ e.agent = a ∧ e.seq = seq ∧ (a = .fabric → e.srcNode = src) := by
  simp only [sameCommand, Bool.and_eq_true, beq_iff_eq, Bool.or_eq_true, bne_iff_ne, and_assoc, ← imp_iff_not_or]

/-- The journal's only entry of a command is the one that a search finds. -/
theorem journalFind_eq_some {s : State} {a : Agent} {src : BitVec 16} {seq : BitVec 32} {e : JEntry}
    (hmem : e ∈ s.nv.journal) (hsame : sameCommand a src seq e = true)
    (honly : ∀ x ∈ s.nv.journal, sameCommand a src seq x = true → x = e) : journalFind s a src seq = some e := by
  unfold journalFind
  cases hfind : s.nv.journal.find? (sameCommand a src seq) with
  | none => exact absurd hsame (List.find?_eq_none.mp hfind e hmem)
  | some x => rw [honly x (List.mem_of_find?_eq_some hfind) (List.find?_some hfind)]

/-! ### What taking up a request leaves alone -/

@[simp] theorem taken_nv (op : Nat) (t : Time) (rq : Request) (s : State) : (taken op t rq s).nv = s.nv := by
  obtain ⟨mb, w, q, e⟩ := taken_form op t rq s
  rw [e]

@[simp] theorem taken_running (op : Nat) (t : Time) (rq : Request) (s : State) :
    (taken op t rq s).mgmt.running = s.mgmt.running := by
  obtain ⟨mb, w, q, e⟩ := taken_form op t rq s
  rw [e]

@[simp] theorem journalFind_taken (op : Nat) (t : Time) (rq : Request) (s : State) (a : Agent) (src : BitVec 16)
    (seq : BitVec 32) : journalFind (taken op t rq s) a src seq = journalFind s a src seq := by
  rw [journalFind, taken_nv, journalFind]

/-! ### A duplicate is answered from the journal (R335, R337) -/

/-- The search of the journal comes before every check that depends on the command: whatever it is, a duplicate is answered
from the journal, and the command's own part has no say. -/
theorem serve_duplicate {op : Nat} {known : Bool} {lenOk : Nat → Bool} {ownSupply : Bool}
    {routed : BitVec 16 → State → Bool} {own : State → Reply} {t : Time} {rq : Request} {e : JEntry} {s : State}
    (ha : arrives t rq s = true) (hj : journalFind s rq.agent rq.srcNode rq.seq = some e) :
    serve op known lenOk ownSupply routed own t rq s = answerDuplicate rq e (taken op t rq s) := by
  simp only [arrives, Bool.and_eq_true, decide_eq_true_eq] at ha
  obtain ⟨⟨⟨hserves, hreadable⟩, hseq⟩, hbell⟩ := ha
  have hfound : journalFind (unpark rq (loadRequest op rq (tick t s))) rq.agent rq.srcNode rq.seq = some e :=
    (journalFind_taken op t rq s ..).trans hj
  have hvalid : ¬(rq.seq = 0 ∨ rq.bell ≠ rq.seq) := not_or.mpr ⟨hseq, not_not.mpr hbell⟩
  simp only [serve, taken, hserves, hreadable, Bool.not_true, Bool.false_eq_true, if_false, if_neg hvalid, hfound]

theorem answer_running (rq : Request) (seq : BitVec 32) (st : BitVec 16) (ws : List Word) (dup : Bool) (s : State) :
    (answer rq seq st ws dup s).mgmt.running = s.mgmt.running := by
  obtain ⟨is, h, f, o, e⟩ := answer_form rq seq st ws dup s
  rw [e]

theorem answerDuplicate_same (op : Nat) (t : Time) (rq : Request) (e : JEntry) (s : State) :
    Unchanged answering s (answerDuplicate rq e (taken op t rq s)) :=
  ((taken_same op t rq s).mono (by decide)).trans ((answer_same rq rq.seq e.status [] true _).mono (by decide))

/-- The mailboxes after a response: the request's own one tells it, and whether it answers a duplicate. -/
theorem mboxDone_mbox (n : Nat) (seq : BitVec 32) (noMsix : Bool) (st : BitVec 16) (ws : List Word) (dup : Bool)
    (s : State) : (mboxDone n seq noMsix st ws dup s).host.mbox = s.host.mbox.modify n (fun m => { m with
      payload := overlay m.payload ws, rspLen := ws.length, status := st, seq := seq, done := true, pending := false,
      duplicate := dup }) := by
  unfold mboxDone
  simp only []
  split
  · rfl
  · rw [msixIf_mbox]; rfl

theorem mboxDone_duplicate {rq : Request} {s : State} (hm : hasMailbox rq s = true) (seq : BitVec 32) (noMsix : Bool)
    (st : BitVec 16) (ws : List Word) (dup : Bool) :
    ((mboxDone rq.mailbox.val seq noMsix st ws dup s).host.mbox.getD rq.mailbox.val default).duplicate = dup := by
  have hlt : rq.mailbox.val < s.host.mbox.length := by simpa [hasMailbox] using hm
  rw [mboxDone_mbox, List.getD_eq_getElem?_getD, List.getElem?_modify]
  simp [List.getElem?_eq_getElem hlt]

/-- A duplicate's mailbox shows the recorded status, no words and `DUPLICATE` (R334, R337). -/
theorem answerDuplicate_answered {rq : Request} {s : State} (hb : byMailbox rq = true) (hm : hasMailbox rq s = true)
    (e : JEntry) : answered rq e.status [] (answerDuplicate rq e s) ∧
      ((answerDuplicate rq e s).host.mbox.getD rq.mailbox.val default).duplicate = true := by
  rw [answerDuplicate, answer_byMailbox hb]
  exact ⟨mboxDone_answered rq e.status [] rq.noMsix true s hm, mboxDone_duplicate hm ..⟩

/-! ### Every mailbox command is served in one way -/

/-- The command is served under `op` (R335), and what follows `ACCEPTED` in its row, if anything does, is done where it has
begun. -/
def ServedAs (i : Instr) (op : Nat) (t : Time) (rq : Request) (s : State) : Prop :=
  ∃ (lenOk : Nat → Bool) (ownSupply : Bool) (own : State → Reply) (after : State → State),
    exec i s = .next (finishing rq s (serve op true lenOk ownSupply routedTo own t rq s) after)

/-- Nothing follows in the row of a command that has not begun a long command. -/
theorem finishing_of_running_eq {rq : Request} {s u : State} (f : State → State)
    (h : u.mgmt.running = s.mgmt.running) : finishing rq s u f = u := by
  simp [finishing, h]

theorem servedAs_serve {i : Instr} {op : Nat} {lenOk : Nat → Bool} {ownSupply : Bool} {own : State → Reply} {t : Time}
    {rq : Request} {s : State} (h : exec i s = .next (serve op true lenOk ownSupply routedTo own t rq s)) :
    ServedAs i op t rq s :=
  ⟨lenOk, ownSupply, own, id, by rw [h]; simp [finishing]⟩

theorem servedAs_command {i : Instr} {op : Nat} {lenOk : Nat → Bool} {own : Request → State → Reply} {t : Time}
    {rq : Request} {s : State} (h : exec i s = command op lenOk own t rq s) : ServedAs i op t rq s := servedAs_serve h

theorem servedAs_commandSupply {i : Instr} {op : Nat} {lenOk : Nat → Bool} {own : Request → State → Reply} {t : Time}
    {rq : Request} {s : State} (h : exec i s = commandSupply op lenOk own t rq s) : ServedAs i op t rq s :=
  servedAs_serve h

/-- Three forms of a row: a command whose fetch or end comes in the same row, one that judges a sag warning itself, and
the plain one; a row that is no mailbox command asks nothing. -/
theorem exec_servedAs {i : Instr} {op : Nat} {t : Time} {rq : Request} (h : asks i = some (op, t, rq)) (s : State) :
    ServedAs i op t rq s := by
  cases i
  case sysLoadFirmware | cfgStage | cfgCommitAt | cfgCancelCommit | cfgReport | nvsRefresh | diagSelftest =>
    cases h
    exact ⟨_, _, _, _, rfl⟩
  case sysReset | pwrSetOp | pwrSetState | memCommitRepair | fuseProgram | fuseLock =>
    cases h
    exact servedAs_commandSupply rfl
  all_goals cases h
  all_goals exact servedAs_command rfl

/-- A duplicate of any mailbox command is answered from the journal, and nothing is executed. -/
theorem exec_duplicate {i : Instr} {op : Nat} {t : Time} {rq : Request} {e : JEntry} {s : State}
    (hi : asks i = some (op, t, rq)) (ha : arrives t rq s = true)
    (hj : journalFind s rq.agent rq.srcNode rq.seq = some e) :
    exec i s = .next (answerDuplicate rq e (taken op t rq s)) := by
  obtain ⟨lenOk, ownSupply, own, after, he⟩ := exec_servedAs hi s
  rw [he, serve_duplicate ha hj, finishing_of_running_eq]
  rw [answerDuplicate, answer_running, taken_running]

/-- Settles O9: the journal's only entry of the request's command is the one found, and every mailbox command answers a
request that it finds there from the entry. -/
theorem duplicatesAreNotExecuted : Obligations.DuplicatesAreNotExecuted := by
  intro i op t rq e s hi ha hmem hagent hseq hsrc honly
  have hj : journalFind s rq.agent rq.srcNode rq.seq = some e := by
    refine journalFind_eq_some hmem (sameCommand_iff.mpr ⟨hagent, hseq, hsrc⟩) fun x hx hsame => ?_
    obtain ⟨hxa, hxs, hxn⟩ := sameCommand_iff.mp hsame
    exact honly x hx hxa hxs hxn
  refine ⟨_, exec_duplicate hi ha hj, answerDuplicate_same op t rq e s, ?_, ?_, fun hb hm => ?_⟩
  · rw [answerDuplicate, answer_nv, taken_nv]
  · rw [answerDuplicate, answer_running, taken_running]
  · exact answerDuplicate_answered hb ((hasMailbox_taken op t rq s).trans hm) e

end Sys2Proof.Machine
end

section
/-! The interrupt pins (R330): each is low while a bit that drives it is set; the writes of ones that clear those bits
release it, and no other register of BAR0 reaches `NMI_CAUSE`. -/

namespace Sys2Proof.Machine

/-! ### When a pin is low -/

theorem bne_zero_iff_exists_getLsbD {w : Nat} (v : BitVec w) :
    (v != 0) = true ↔ ∃ i < w, v.getLsbD i = true := by
  simp [BitVec.eq_of_getLsbD_eq_iff]

theorem irqLow_iff (s : State) : irqLow s = true ↔ s.host.irqPinEn = true ∧
    ∃ i < 20, s.host.intStatus.getLsbD i = true ∧ s.host.intEnable.getLsbD i = true := by
  rw [irqLow, Bool.and_eq_true, bne_zero_iff_exists_getLsbD]
  simp only [BitVec.getLsbD_and, Bool.and_eq_true]

theorem nmiLow_iff (s : State) : nmiLow s = true ↔ ∃ i < 5, s.host.nmiCause.getLsbD i = true :=
  bne_zero_iff_exists_getLsbD s.host.nmiCause

/-! ### Writes of ones release the pins -/

/-- What a write of ones leaves of a field of BAR0: the bits that the word written does not name. -/
theorem getLsbD_and_not_setWidth {w : Nat} (v : BitVec w) (m : BitVec 32) (i : Nat) :
    (v &&& ~~~(m.setWidth w)).getLsbD i = (v.getLsbD i && !m.getLsbD i) := by
  by_cases hi : i < w
  · simp [hi]
  · simp [BitVec.getLsbD_of_ge v i (by omega)]

/-- IRQ_N is released where the ones written cover the set bits that `INT_ENABLE` enables. -/
theorem irqLow_clearInt {m : BitVec 32} {s : State} (h : ∀ i < 20, s.host.intStatus.getLsbD i = true →
    s.host.intEnable.getLsbD i = true → m.getLsbD i = true) : irqLow (clearInt m s) = false := by
  rw [Bool.eq_false_iff, Ne, irqLow_iff]
  rintro ⟨-, i, hi, hstatus, henable⟩
  rw [clearInt, modHost_host, getLsbD_and_not_setWidth, Bool.and_eq_true, Bool.not_eq_true'] at hstatus
  obtain ⟨hset, hkept⟩ := hstatus
  exact absurd (h i hi hset henable) (by simp [hkept])

/-- NMI_N is released where the ones written cover the set bits of `NMI_CAUSE`. -/
theorem nmiLow_clearNmi {m : BitVec 32} {s : State} (h : ∀ i < 5, s.host.nmiCause.getLsbD i = true →
    m.getLsbD i = true) : nmiLow (clearNmi m s) = false := by
  rw [Bool.eq_false_iff, Ne, nmiLow_iff]
  rintro ⟨i, hi, hcause⟩
  rw [clearNmi, modHost_host, getLsbD_and_not_setWidth, Bool.and_eq_true, Bool.not_eq_true'] at hcause
  obtain ⟨hset, hkept⟩ := hcause
  exact absurd (h i hi hset) (by simp [hkept])

/-! ### What leaves `NMI_CAUSE` alone -/

/-- Whatever leaves the part `host` alone leaves `NMI_CAUSE` alone. -/
theorem Unchanged.nmiCause_eq {but : List Part} {s u : State} (h : Unchanged but s u) (hp : Part.host ∉ but) :
    u.host.nmiCause = s.host.nmiCause := by
  have hcause := congrArg HostSt.nmiCause (h .host hp)
  exact hcause

@[simp] theorem evqDrain_nmiCause (s : State) : (evqDrain s).host.nmiCause = s.host.nmiCause :=
  (evqDrain_same s).nmiCause_eq (by decide)

@[simp] theorem setInt_nmiCause (k : Nat) (s : State) : (setInt k s).host.nmiCause = s.host.nmiCause := rfl

@[simp] theorem msixIf_nmiCause (k v : Nat) (s : State) : (msixIf k v s).host.nmiCause = s.host.nmiCause :=
  (msixIf_same k v s).nmiCause_eq (by decide)

@[simp] theorem modMbox_nmiCause (n : Nat) (f : Mailbox → Mailbox) (s : State) :
    (modMbox n f s).host.nmiCause = s.host.nmiCause := rfl

@[simp] theorem protoErr_nmiCause (s : State) : (protoErr s).host.nmiCause = s.host.nmiCause := rfl

/-! ### The DMA engine's registers (R331, R350) -/

@[simp] theorem modDma_nmiCause (c : Nat) (f : DmaCh → DmaCh) (s : State) :
    (modDma c f s).host.nmiCause = s.host.nmiCause := rfl

@[simp] theorem dmaSignal_nmiCause (c : Nat) (s : State) : (dmaSignal c s).host.nmiCause = s.host.nmiCause := by
  simp [dmaSignal]

@[simp] theorem completeDesc_nmiCause (c : Nat) (b : DmaBuf) (why : Close) (s : State) :
    (completeDesc c b why s).host.nmiCause = s.host.nmiCause := by
  unfold completeDesc
  simp only []
  split <;> simp

@[simp] theorem closeBuf_nmiCause (c : Nat) (why : Close) (s : State) :
    (closeBuf c why s).host.nmiCause = s.host.nmiCause := by
  unfold closeBuf
  split <;> simp

@[simp] theorem putWord_nmiCause (c : Nat) (w : Word) (poisoned : Bool) (s : State) :
    (putWord c w poisoned s).host.nmiCause = s.host.nmiCause := by
  unfold putWord
  split
  · rfl
  · simp only []
    split <;> simp

@[simp] theorem haltDma_nmiCause (c : Nat) (w : Word) (s : State) :
    (haltDma c w s).host.nmiCause = s.host.nmiCause := by
  simp [haltDma]

@[simp] theorem resumeWith_nmiCause (c : Nat) (w : Word) (poisoned : Bool) (s : State) :
    (resumeWith c w poisoned s).host.nmiCause = s.host.nmiCause := by
  simp [resumeWith]

/-- `GAP_BEFORE` is kept with the record paths and the queues, not in HOSTIF (R186). -/
theorem gapAtRing_host (c : Nat) (s : State) (k : Option (BitVec 16) × Nat) : (gapAtRing c s k).host = s.host := by
  unfold gapAtRing
  simp only []
  split <;> (unfold modPath; split <;> rfl)

theorem foldl_gapAtRing_host (c : Nat) (ks : List (Option (BitVec 16) × Nat)) (s : State) :
    (ks.foldl (gapAtRing c) s).host = s.host := by
  induction ks generalizing s with
  | nil => rfl
  | cons k ks ih => rw [List.foldl_cons, ih, gapAtRing_host]

theorem skipGaps_host (c : Nat) (w : Word) (s : State) : (skipGaps c w s).host = s.host := by
  unfold skipGaps
  simp only []
  split
  · exact gapAtRing_host ..
  · exact foldl_gapAtRing_host ..

theorem resumeFit_nmiCause {c : Nat} {f : Word → State → State} {s : State}
    (h : ∀ w, (f w s).host.nmiCause = s.host.nmiCause) : (resumeFit c f s).host.nmiCause = s.host.nmiCause := by
  unfold resumeFit
  simp only []
  split
  · split
    · exact h _
    · rfl
  · rfl

@[simp] theorem resumeDma_nmiCause (c : Nat) (stillBad : Bool) (s : State) :
    (resumeDma c stillBad s).host.nmiCause = s.host.nmiCause :=
  resumeFit_nmiCause fun w => by split <;> simp

@[simp] theorem resumeSkipDma_nmiCause (c : Nat) (s : State) :
    (resumeSkipDma c s).host.nmiCause = s.host.nmiCause :=
  resumeFit_nmiCause fun w => by split <;> simp [skipGaps_host]

@[simp] theorem startDma_nmiCause (c : Nat) (s : State) : (startDma c s).host.nmiCause = s.host.nmiCause := by
  unfold startDma
  simp only []
  split <;> simp

@[simp] theorem stopDma_nmiCause (c : Nat) (s : State) : (stopDma c s).host.nmiCause = s.host.nmiCause := by
  unfold stopDma
  simp only []
  split <;> simp

@[simp] theorem dmaAction_nmiCause (c : Nat) (v : BitVec 32) (s : State) :
    (dmaAction c v s).host.nmiCause = s.host.nmiCause := by
  unfold dmaAction
  split <;> simp [drawBool]

/-! ### The registers of BAR0 (R331) -/

theorem writeEvq_nmiCause (off : Nat) (v : BitVec 32) (s : State) :
    (writeEvq off v s).host.nmiCause = s.host.nmiCause := by
  unfold writeEvq
  simp only []
  split
  case h_4 => simp [setHead]
  case h_5 => simp [setEvqCtrl]
  case h_6 => rfl
  all_goals split <;> rfl

theorem writeDma_nmiCause (c off : Nat) (v : BitVec 32) (s : State) :
    (writeDma c off v s).host.nmiCause = s.host.nmiCause := by
  unfold writeDma
  simp only []
  split
  · split <;> simp
  · split <;> simp
  · simp
  · simp [setProd]
  · simp
  · rfl

theorem writeMbox_nmiCause (n off : Nat) (v : BitVec 32) (s : State) :
    (writeMbox n off v s).host.nmiCause = s.host.nmiCause := by
  unfold writeMbox
  simp only []
  split
  · rfl
  · split
    case h_4 => split <;> rfl
    all_goals rfl

theorem ring_nmiCause (n : Nat) (v : BitVec 32) (viaSpi : Bool) (s : State) :
    (ring n v viaSpi s).host.nmiCause = s.host.nmiCause := by
  unfold ring
  split <;> rfl

/-- Only a write to offset 0x100 reaches `NMI_CAUSE`. -/
theorem writeReg_nmiCause (viaSpi : Bool) {off : Nat} (h : off ≠ 0x100) (v : BitVec 32) (s : State) :
    (writeReg viaSpi off v s).host.nmiCause = s.host.nmiCause := by
  unfold writeReg
  rw [if_neg h]
  split_ifs
  · rfl
  · rfl
  · rfl
  · rfl
  · exact ring_nmiCause ..
  · exact writeEvq_nmiCause ..
  · exact writeDma_nmiCause ..
  · exact writeMbox_nmiCause ..
  · rfl

/-! ### The pins and the accesses of the host -/

/-- An access of the host is done while HOSTIF runs. -/
theorem hostDo_up {t : Time} {s : State} (h : isUp s .hostif = true) (f : State → State) :
    hostDo t f s = .next (f (tick t s)) :=
  if_pos h

/-- Nothing masks NMI_N: writes to registers other than `NMI_CAUSE` leave the pin as it is. -/
theorem exec_registerWrite_nmiLow {t : Time} {off : Nat} {s : State} (hup : isUp s .hostif = true) (halign : off % 4 = 0)
    (h : off ≠ 0x100) (v : BitVec 32) : ∃ u, exec (.registerWrite t off v) s = .next u ∧ nmiLow u = nmiLow s := by
  have hdone : exec (.registerWrite t off v) s =
      hostDo t (fun x => if off % 4 = 0 then writeReg false off v x else protoErr x) s := rfl
  refine ⟨_, hdone.trans (hostDo_up hup _), ?_⟩
  rw [if_pos halign, nmiLow, writeReg_nmiCause false h, tick_host, nmiLow]

/-- Settles O15: the pins are low by the bits that drive them, which the writes of ones clear; of the registers of BAR0 only
`NMI_CAUSE` itself reaches NMI_N. -/
theorem interruptPinsFollow : Obligations.InterruptPinsFollow := by
  intro t s
  refine ⟨irqLow_iff s, nmiLow_iff s, ?_, ?_⟩
  · intro off v halign hoff hup
    exact exec_registerWrite_nmiLow hup halign hoff v
  · intro hup m
    constructor
    · intro hcover
      exact ⟨_, hostDo_up hup _, irqLow_clearInt hcover⟩
    · intro hcover
      exact ⟨_, hostDo_up hup _, nmiLow_clearNmi hcover⟩

end Sys2Proof.Machine
end

section
/-! `CONFIRM` (R373): a command that reaches its own checks and fails the first of them is refused, and each of the four
destructive commands puts `CONFIRM` into that first check. -/

namespace Sys2Proof.Machine

/-! ### A command that its own checks refuse (R335, R358) -/

/-- The first own check decides where it fails (R358). -/
theorem guarded_deny {bad : Bool} (h : bad = true) (st : BitVec 16) (cs : List (Bool × BitVec 16)) (s : State)
    (go : Unit → Reply) : guarded ((bad, st) :: cs) s go = deny st s := by
  rw [h]
  rfl

/-- How a refused command ends: its own part leaves the state as it was taken up, and only the answer is written. -/
theorem refuses_of {i : Instr} {op : Nat} {t : Time} {rq : Request} {st : BitVec 16} {s : State}
    (he : exec i s = .next (settle op rq (deny st (taken op t rq s)))) : refuses i op rq st s := by
  refine ⟨_, he, ?_, settle_journalled op rq (deny st _), fun hb hm => ?_⟩
  · have htaken : Unchanged ([] ++ answering) s (taken op t rq s) := (taken_same op t rq s).mono (by decide)
    exact settle_unchanged (parts := []) op rq _ htaken
  · exact settle_answered op rq _ hb ((hasMailbox_taken op t rq s).trans hm) rfl

/-- A command that judges a sag warning itself is refused where its own part denies the request. -/
theorem refuses_commandSupply {i : Instr} {op lo hi : Nat} {lenOk : Nat → Bool} {own : Request → State → Reply} {t : Time}
    {rq : Request} {st : BitVec 16} {s : State} (he : exec i s = commandSupply op lenOk own t rq s)
    (h : runs op lo hi t rq s = true) (hl : ∀ n, lo ≤ n → n ≤ hi → lenOk n = true)
    (ho : ∀ x, own rq x = deny st x) : refuses i op rq st s := by
  rw [runs_commandSupply h hl, ho] at he
  exact refuses_of he

theorem lenIs_of_between {m n : Nat} (hlo : m ≤ n) (hhi : n ≤ m) : lenIs m n = true :=
  beq_iff_eq.mpr (Nat.le_antisymm hhi hlo)

theorem lenIn_of_between {a b n : Nat} (hlo : a ≤ n) (hhi : n ≤ b) : lenIn a b n = true := by
  simp [lenIn, hlo, hhi]

/-! ### What the four commands answer without `CONFIRM` (R373) -/

section
variable {rq : Request} (hconfirm : fld (qword rq 1) 96 32 ≠ 0x5128C0DE)
include hconfirm

theorem ownSysReset_unconfirmed (s : State) : ownSysReset rq s = deny stBadParam s :=
  guarded_deny (by simp [hconfirm]) ..

/-- `PWR.SET_STATE` asks for `CONFIRM` into HIBERNATE only. -/
theorem ownPwrSetState_unconfirmed (hhibernate : fld (qword rq 1) 0 2 = 2) (idle : Bool) (s : State) :
    ownPwrSetState idle rq s = deny stBadParam s := by
  unfold ownPwrSetState
  exact guarded_deny (by simp [hconfirm, hhibernate]) ..

theorem ownFuseProgram_unconfirmed (unblown : BitVec 384) (cut : Option (BitVec 384)) (s : State) :
    ownFuseProgram unblown cut rq s = deny stBadParam s :=
  guarded_deny (by simp [hconfirm]) ..

theorem ownFuseLock_unconfirmed (s : State) : ownFuseLock rq s = deny stBadParam s := by
  unfold ownFuseLock
  exact guarded_deny (by simp [hconfirm]) ..

end

/-- Settles O12: without `CONFIRM` the first own check of each of the four commands fails, so its own part denies the request
and the state stays as it was taken up. -/
theorem confirmationIsRequired : Obligations.ConfirmationIsRequired := by
  intro t rq s hconfirm
  refine ⟨fun h => ?_, fun idle h hhibernate => ?_, fun unblown cut h => ?_, fun h => ?_⟩
  · exact refuses_commandSupply rfl h (fun _ => lenIs_of_between) (ownSysReset_unconfirmed hconfirm)
  · exact refuses_commandSupply rfl h (fun _ => lenIs_of_between) (ownPwrSetState_unconfirmed hconfirm hhibernate idle)
  · exact refuses_commandSupply rfl h (fun _ => lenIn_of_between) (ownFuseProgram_unconfirmed hconfirm unblown cut)
  · exact refuses_commandSupply rfl h (fun _ => lenIs_of_between) (ownFuseLock_unconfirmed hconfirm)

end Sys2Proof.Machine
end

section
/-! Group FUSE stays reachable (R469): a map that denies it to both HOST and SPI fails the first own check of `FUSE.PROGRAM`
while the bank is not sealed. -/

namespace Sys2Proof.Machine

/-! ### The map that `PROT_DENY` would hold (R466, R467) -/

/-- `locksOut` reads the two bits by which the map denies group FUSE to HOST and to SPI. -/
theorem locksOut_iff_denies (f : FuseBank) : locksOut f = true ↔
    ∀ a ∈ [Agent.host, .spi], f.protDeny.getLsbD (4 * groupIx 0x55 + agentIx a) = true := by
  have hhost : 4 * groupIx 0x55 + agentIx .host = 84 := by decide
  have hspi : 4 * groupIx 0x55 + agentIx .spi = 85 := by decide
  rw [locksOut, Bool.and_eq_true]
  simp [hhost, hspi]

theorem blow_protDeny (v : BitVec 384) (f : FuseBank) : (blow 1 v f).protDeny = f.protDeny ||| v.setWidth 96 := rfl

/-! ### `FUSE.PROGRAM` of such a map -/

/-- Taking up a request leaves the fuses as they are. -/
@[simp] theorem taken_fuses (op : Nat) (t : Time) (rq : Request) (s : State) : (taken op t rq s).fuses = s.fuses := by
  have hfuses := taken_same op t rq s .fuses (by decide)
  exact hfuses

/-- Its own part judges the bank as it would be after the blow. -/
theorem ownFuseProgram_locksOut {rq : Request} {s : State} (hcode : fuseCode rq = 1) (hopen : s.fuses.sealed = false)
    (hlocks : locksOut (blow 1 (fuseBits rq) s.fuses) = true) (unblown : BitVec 384) (cut : Option (BitVec 384)) :
    ownFuseProgram unblown cut rq s = deny stBadParam s :=
  guarded_deny (by simp [hcode, hopen, hlocks]) ..

/-- Settles O13: the map with the new bits locks group FUSE out, in the bank as the request is taken up too, so the own part
denies the request. -/
theorem fuseGroupStaysReachable : Obligations.FuseGroupStaysReachable := by
  intro t rq unblown cut s hruns hcode hopen hdenied
  have hlocks : locksOut (blow 1 (fuseBits rq) s.fuses) = true := by
    rw [locksOut_iff_denies, blow_protDeny]
    exact hdenied
  have hdeny : ownFuseProgram unblown cut rq (taken 0x5502 t rq s) = deny stBadParam (taken 0x5502 t rq s) := by
    apply ownFuseProgram_locksOut hcode
    · rw [taken_fuses, hopen]
    · rw [taken_fuses, hlocks]
  apply refuses_of (t := t)
  calc exec (.fuseProgram t rq unblown cut) s
      = commandSupply 0x5502 (lenIn 2 5) (ownFuseProgram unblown cut) t rq s := rfl
    _ = .next (settle 0x5502 rq (ownFuseProgram unblown cut rq (taken 0x5502 t rq s))) :=
      runs_commandSupply hruns fun _ => lenIn_of_between
    _ = .next (settle 0x5502 rq (deny stBadParam (taken 0x5502 t rq s))) := by rw [hdeny]

end Sys2Proof.Machine
end

section
/-! Every step: it takes the front command of the queue, moves the model's clock on at most, keeps every part of the device,
and takes back no blown fuse. Each is a case analysis over the commands, with the law of each command's own row. -/

set_option maxRecDepth 4000

namespace Sys2Proof.Machine

/-! ### What a step is (log entry 1) -/

theorem step_of_pending {c : Instr} {rest : List Instr} {s : State} (h : s.pending = c :: rest) :
    step s = exec c { s with pending := rest } := by
  rw [step, h]

theorem step_of_idle {s : State} (h : s.pending = []) : step s = .next s := by
  rw [step, h]

/-- A property that the idle step has and every command keeps, every step keeps. -/
theorem step_rec {R : State → State → Prop} (idle : ∀ s, R s s)
    (command : ∀ c rest s u, exec c { s with pending := rest } = .next u → R s u) {s u : State}
    (h : step s = .next u) : R s u := by
  cases hp : s.pending with
  | nil =>
    rw [step_of_idle hp] at h
    cases h
    exact idle s
  | cons c rest =>
    rw [step_of_pending hp] at h
    exact command c rest s u h

/-- Settles O1: by the two equations of `step`. -/
theorem stepRunsFrontCommand : Obligations.StepRunsFrontCommand :=
  ⟨fun _ _ _ => step_of_pending, fun _ => step_of_idle⟩

/-- Settles O3. -/
theorem resetIsWhole : Obligations.ResetIsWhole := reset_sizes

/-! ### The parts list (R2) -/

/-- A row that keeps the parts list of its own state keeps the whole device. -/
theorem osizes_whole {s x : State} {o : Outcome} (h : Whole s) (hx : x.sizes = s.sizes) (ho : osizes x.sizes o = x.sizes) :
    osizes partsList o = partsList := by
  rw [hx, h] at ho
  exact ho

/-- The rows that set parts to their reset values have the whole parts list as their premise; every other row keeps the list
that it finds. -/
theorem exec_whole (i : Instr) {s : State} (h : Whole s) : osizes partsList (exec i s) = partsList := by
  apply Instr.casesOn (motive := fun i => osizes partsList (exec i s) = partsList) i
  case powerOnReset => exact fun t => execPowerOnReset_sizes t s h
  case coldStartRelease => exact fun t env => execColdStartRelease_sizes t env s h
  case resetNAssert => exact fun t lowNs => execResetNAssert_sizes t lowNs s h
  case sagReset => exact fun t rails => execSagReset_sizes t rails s h
  case warmReset => exact fun t env => execWarmReset_sizes t env s h
  case hibernateEntry => exact fun t => execHibernateEntry_sizes t s h
  case aonThermalTrip => exact fun t => execAonThermalTrip_sizes t s h
  case pmbusPoll => exact fun t currents oscTemp => execPmbusPoll_sizes t currents oscTemp s h
  case zoneThresholdCrossing => exact fun t zone => execZoneThresholdCrossing_sizes t zone s h
  case zoneAllBrokenTimer => exact fun t zone => execZoneAllBrokenTimer_sizes t zone s h
  all_goals
    intro t
    intros
    exact osizes_whole (x := tick t s) h rfl (by simp [exec])

/-- Settles O4: an idle step changes nothing, and every command keeps the parts list. -/
theorem everyStepKeepsTheParts : Obligations.EveryStepKeepsTheParts := by
  intro s u hwhole hstep
  refine step_rec (R := fun s u => Whole s → Whole u) (fun _ h => h) (fun c rest s u he h => ?_) hstep hwhole
  have hc := exec_whole c (s := { s with pending := rest }) h
  rw [he] at hc
  exact hc

/-! ### The queue, the fuses and the clock (R465, log entries 1 and 2) -/

theorem grows_of_eq {k m : List Instr × FuseBank × Time} (h : m = k) : grows k m := h ▸ grows_refl k

/-- The clock moves to the row's instant at most; from there only the four rows that blow fuses change the queue, the fuses
or the clock, and they add bits to the fuses. -/
theorem exec_grows (i : Instr) (s : State) : ∃ t, grows (tick t s).kept (okept (tick t s).kept (exec i s)) := by
  apply Instr.casesOn (motive := fun i => ∃ t, grows (tick t s).kept (okept (tick t s).kept (exec i s))) i
  case fuseProgram => exact fun t rq unblown cut => ⟨t, execFuseProgram_grows t rq unblown cut s⟩
  case fuseLock => exact fun t rq => ⟨t, execFuseLock_grows t rq s⟩
  case memCommitRepair => exact fun t rq verified => ⟨t, execMemCommitRepair_grows t rq verified s⟩
  case rollbackAdvance => exact fun t => ⟨t, execRollbackAdvance_grows t s⟩
  all_goals
    intro t
    intros
    exact ⟨t, grows_of_eq (by simp [exec])⟩

/-- What a command that goes on does to the queue, the fuses and the clock. -/
theorem exec_next_kept {i : Instr} {s u : State} (h : exec i s = .next u) :
    u.pending = s.pending ∧ fusesBelow s.fuses u.fuses ∧ s.now ≤ u.now := by
  obtain ⟨t, hg⟩ := exec_grows i s
  rw [h] at hg
  obtain ⟨hpending, hfuses, hnow⟩ := hg
  exact ⟨hpending, hfuses, (Nat.le_max_left s.now t).trans hnow.ge⟩

/-- Settles O5. -/
theorem fusesOnlyBlow : Obligations.FusesOnlyBlow := by
  intro s u hstep
  refine step_rec (R := fun s u => fusesBelow s.fuses u.fuses) (fun s => fusesBelow_refl s.fuses) ?_ hstep
  intro c rest s u he
  obtain ⟨-, hfuses, -⟩ := exec_next_kept he
  exact hfuses

/-- Settles O7. -/
theorem everyStepTakesOneCommand : Obligations.EveryStepTakesOneCommand := by
  intro c rest s u hpending hstep
  rw [step_of_pending hpending] at hstep
  obtain ⟨hqueue, -, hnow⟩ := exec_next_kept hstep
  exact ⟨hqueue, hnow⟩

end Sys2Proof.Machine
end

section
/-! The checks of a request that come before its command's own ones, in the order of R335, and the protection map (R467, R468):
what `serve` does at each check, and that nothing follows in the row of a command that it refuses. -/

namespace Sys2Proof.Machine

/-! ### The checks in order (R335) -/

section
variable {op : Nat} {known : Bool} {lenOk : Nat → Bool} {ownSupply : Bool} {routed : BitVec 16 → State → Bool}
  {own : State → Reply} {t : Time} {rq : Request} {s : State}

theorem serve_unserved (h : serves (tick t s) rq = false) :
    serve op known lenOk ownSupply routed own t rq s = tick t s := by
  simp [serve, h]

theorem serve_badSeq (hserves : serves (tick t s) rq = true) (hreadable : rq.readable = true)
    (hseq : rq.seq = 0 ∨ rq.bell ≠ rq.seq) :
    serve op known lenOk ownSupply routed own t rq s = answer rq rq.bell stBadParam [] false (taken op t rq s) := by
  simp only [serve, taken, hserves, hreadable, Bool.not_true, Bool.false_eq_true, if_false, if_pos hseq]

/-- What follows for a request that arrives and that the journal does not know. -/
theorem serve_arrived (ha : arrives t rq s = true) (hj : journalFind s rq.agent rq.srcNode rq.seq = none) :
    serve op known lenOk ownSupply routed own t rq s =
      let x := taken op t rq s
      if 255 < rq.len then refuse op rq stBadLength x
      else match rq.remote with
        | some dest => sendRemote op rq dest (routed dest x) x
        | none =>
          if !known || (x.mgmt.recovery && !bootServes op) then refuse op rq stUnknownOpcode x
          else if !allowed x op rq.agent then refuse op rq stDenied x
          else if !lenOk rq.len then refuse op rq stBadLength x
          else if x.pwr.sagWarn && !ownSupply then park op rq x
          else settle op rq (own x) := by
  simp only [arrives, Bool.and_eq_true, decide_eq_true_eq] at ha
  obtain ⟨⟨⟨hserves, hreadable⟩, hseq⟩, hbell⟩ := ha
  have hnew : journalFind (unpark rq (loadRequest op rq (tick t s))) rq.agent rq.srcNode rq.seq = none :=
    (journalFind_taken op t rq s ..).trans hj
  have hvalid : ¬(rq.seq = 0 ∨ rq.bell ≠ rq.seq) := not_or.mpr ⟨hseq, not_not.mpr hbell⟩
  simp only [serve, taken, hserves, hreadable, Bool.not_true, Bool.false_eq_true, if_false, if_neg hvalid, hnew]
  rfl

theorem serve_tooLong (ha : arrives t rq s = true) (hj : journalFind s rq.agent rq.srcNode rq.seq = none)
    (hlen : 255 < rq.len) :
    serve op known lenOk ownSupply routed own t rq s = refuse op rq stBadLength (taken op t rq s) := by
  rw [serve_arrived ha hj]
  exact if_pos hlen

theorem serve_remote {dest : BitVec 16} (ha : arrives t rq s = true)
    (hj : journalFind s rq.agent rq.srcNode rq.seq = none) (hlen : rq.len ≤ 255) (hdest : rq.remote = some dest) :
    serve op known lenOk ownSupply routed own t rq s =
      sendRemote op rq dest (routed dest (taken op t rq s)) (taken op t rq s) := by
  simp only [serve_arrived ha hj, if_neg (Nat.not_lt.mpr hlen), hdest]

@[simp] theorem taken_recovery : (taken op t rq s).mgmt.recovery = s.mgmt.recovery := by
  obtain ⟨mb, w, q, e⟩ := taken_form op t rq s
  rw [e]

@[simp] theorem allowed_taken (o : Nat) (a : Agent) : allowed (taken op t rq s) o a = allowed s o a := by
  obtain ⟨mb, w, q, e⟩ := taken_form op t rq s
  rw [e]
  rfl

theorem serve_unknown (ha : arrives t rq s = true) (hj : journalFind s rq.agent rq.srcNode rq.seq = none)
    (hlen : rq.len ≤ 255) (hhere : rq.remote = none) :
    serve op false lenOk ownSupply routed own t rq s = refuse op rq stUnknownOpcode (taken op t rq s) := by
  simp [serve_arrived ha hj, Nat.not_lt.mpr hlen, hhere]

theorem serve_denied (ha : arrives t rq s = true) (hj : journalFind s rq.agent rq.srcNode rq.seq = none)
    (hlen : rq.len ≤ 255) (hhere : rq.remote = none) (hrecovery : s.mgmt.recovery = false)
    (hdenied : allowed s op rq.agent = false) :
    serve op true lenOk ownSupply routed own t rq s = refuse op rq stDenied (taken op t rq s) := by
  simp [serve_arrived ha hj, Nat.not_lt.mpr hlen, hhere, hrecovery, hdenied]

end

/-! ### Nothing begins (R338) -/

theorem refuse_running (op : Nat) (rq : Request) (st : BitVec 16) (s : State) :
    (refuse op rq st s).mgmt.running = s.mgmt.running := by
  rw [refuse, settle_running]
  rfl

theorem originate_mgmt (w : WaitFrame) (s : State) : (originate w s).mgmt = s.mgmt := by
  obtain ⟨is, f, o, e⟩ := originate_form w s
  rw [e]

theorem sendRemote_running (op : Nat) (rq : Request) (dest : BitVec 16) (routed : Bool) (s : State) :
    (sendRemote op rq dest routed s).mgmt.running = s.mgmt.running := by
  cases routed
  · exact refuse_running ..
  · simp [sendRemote, originate_mgmt, journalAdd]

/-- A mailbox command that begins no long command does what `serve` does, and nothing else. -/
theorem exec_of_serve {i : Instr} {op : Nat} {t : Time} {rq : Request} {s u : State} (h : asks i = some (op, t, rq))
    (hserve : ∀ lenOk ownSupply own, serve op true lenOk ownSupply routedTo own t rq s = u)
    (hrunning : u.mgmt.running = s.mgmt.running) : exec i s = .next u := by
  obtain ⟨lenOk, ownSupply, own, after, he⟩ := exec_servedAs h s
  rw [he, hserve, finishing_of_running_eq _ hrunning]

/-- A command refused before its own part changes what answering changes. -/
theorem refuses_of_refuse {i : Instr} {op : Nat} {t : Time} {rq : Request} {st : BitVec 16} {s : State}
    (h : asks i = some (op, t, rq)) (hserve : ∀ lenOk ownSupply own,
      serve op true lenOk ownSupply routedTo own t rq s = refuse op rq st (taken op t rq s)) : refuses i op rq st s := by
  refine refuses_of (t := t) (exec_of_serve h hserve ?_)
  exact (refuse_running op rq st _).trans (taken_running op t rq s)

/-! ### How a request is judged before its own checks -/

theorem mboxDone_getD {n : Nat} {s : State} (h : n < s.host.mbox.length) (seq : BitVec 32) (noMsix : Bool)
    (st : BitVec 16) (ws : List Word) (dup : Bool) :
    ∃ m : Mailbox, (mboxDone n seq noMsix st ws dup s).host.mbox.getD n default = { m with
      payload := overlay m.payload ws, rspLen := ws.length, status := st, seq := seq, done := true, pending := false,
      duplicate := dup } := by
  rw [mboxDone_mbox, List.getD_eq_getElem?_getD, List.getElem?_modify]
  exact ⟨s.host.mbox[n], by simp [List.getElem?_eq_getElem h]⟩

/-- An answer to a request as taken up changes what answering changes, and not the journal. -/
theorem answer_taken_same (op : Nat) (t : Time) (rq : Request) (seq : BitVec 32) (st : BitVec 16) (ws : List Word)
    (dup : Bool) (s : State) : Unchanged answering s (answer rq seq st ws dup (taken op t rq s)) :=
  ((taken_same op t rq s).mono (by decide)).trans ((answer_same rq seq st ws dup _).mono (by decide))

/-- Settles O8: at each check `serve` ends with its answer, and no own part has a say. -/
theorem requestsAreJudgedInOrder : Obligations.RequestsAreJudgedInOrder := by
  intro i op t rq s hi
  refine ⟨fun h => ?_, fun hserves hreadable hseq => ?_, fun ha hj hlen => ?_⟩
  · exact exec_of_serve hi (fun _ _ _ => serve_unserved h) rfl
  · have hbad : exec i s = .next (answer rq rq.bell stBadParam [] false (taken op t rq s)) := by
      refine exec_of_serve hi (fun _ _ _ => serve_badSeq hserves hreadable hseq) ?_
      rw [answer_running, taken_running]
    refine ⟨_, hbad, answer_taken_same op t rq rq.bell stBadParam [] false s, ?_, fun hb hm => ?_⟩
    · rw [answer_nv, taken_nv]
    · rw [← hasMailbox_taken op t rq s] at hm
      obtain ⟨m, e⟩ := mboxDone_getD (of_decide_eq_true hm) rq.bell rq.noMsix stBadParam [] false
      rw [answer_byMailbox hb, e]
      exact ⟨rfl, rfl, rfl, rfl, rfl⟩
  · exact refuses_of_refuse hi fun _ _ _ => serve_tooLong ha hj hlen

/-! ### The protection map (R467, R468) -/

theorem tick_tick (t : Time) (s : State) : tick t (tick t s) = tick t s := by
  simp [tick]

/-- A request of another node is executed as agent FABRIC's, here `TIME.GET_TIME` (R339). -/
theorem exec_mgmtReqRx_getTime {t : Time} {src : BitVec 16} {rq : Request} {s : State} (hup : isUp s .xbar = true)
    (hrun : s.mgmt.run = true) : exec (.mgmtReqRx t src false 0x2001 rq) s = exec (.timeGetTime t { rq with
      agent := .fabric, srcNode := src, bell := rq.seq, arrival := max s.now t, remote := none }) (tick t s) := by
  have hup' : isUp (tick t s) .xbar = true := hup
  have hknown : knownOp 0x2001 = true := by decide
  simp [exec, execMgmtReqRx, arriveAt, hup', hrun, hknown, remoteExec, remoteTime]

/-- Settles O10. -/
theorem protectionMapDenies : Obligations.ProtectionMapDenies := by
  refine ⟨fun s op hop a ha => ?_, fun i op t rq s hi ha hj hlen => ⟨fun hhere hrecovery hdenied => ?_,
    fun dest hdest => ?_⟩, fun t src rq s => ?_⟩
  · simp only [List.mem_cons, List.not_mem_nil, or_false] at hop ha
    unfold allowed
    exact if_pos (by rcases hop with rfl | rfl <;> rcases ha with rfl | rfl <;> rfl)
  · exact refuses_of_refuse hi fun _ _ _ => serve_denied ha hj hlen hhere hrecovery hdenied
  · refine exec_of_serve hi (fun _ _ _ => serve_remote ha hj hlen hdest) ?_
    rw [sendRemote_running, taken_running]
  · intro rq1 hup hrun hrecovery ha hj hlen hdenied
    have ha' : arrives t rq1 (tick t s) = true := by
      rw [arrives, tick_tick]
      exact ha
    obtain ⟨u, he, hsame, hjournal, -⟩ := refuses_of_refuse (i := .timeGetTime t rq1) (s := tick t s) rfl
      fun _ _ _ => serve_denied ha' hj hlen rfl hrecovery hdenied
    refine ⟨u, (exec_mgmtReqRx_getTime hup hrun).trans he, Unchanged.trans ?_ hsame, hjournal⟩
    intro p hp
    cases p
    case now => exact absurd (by decide) hp
    all_goals simp [Part.same]

end Sys2Proof.Machine
end

section
/-! What an operation leaves alone. `Rest ps k s` is what `s` holds outside the parts `ps`, with the basin's cells where `k` asks
for them: an operation that changes nothing but `ps` has the same rest before and after it. -/

set_option maxRecDepth 4000

namespace Sys2Proof.Machine

/-! ### The parts that are split (Safety.lean) -/

/-- HOSTIF `x` with the fields of `y` that are parts of their own. -/
@[reducible, simp] def hostCore (x y : HostSt) : HostSt :=
  { x with mbox := y.mbox, evq := y.evq, intStatus := y.intStatus, msixPending := y.msixPending }

/-- The management complex `x` with the fields of `y` that are a part of their own. -/
@[reducible, simp] def mgmtCore (x y : MgmtSt) : MgmtSt :=
  { x with running := y.running, waiting := y.waiting, fabricQueue := y.fabricQueue }

/-- The fabric `x` with the fields of `y` that are a part of their own. -/
@[reducible, simp] def fabCore (x y : FabSt) : FabSt :=
  { x with seq := y.seq, orig := y.orig, extended := y.extended, waiting := y.waiting, discards := y.discards
           egress := y.egress }

/-- The NV store `x` with the fields of `y` that are a part of their own. -/
@[reducible, simp] def nvCore (x y : NvSt) : NvSt := { x with journal := y.journal, writesSince := y.writesSince }

/-! ### The rest of a state -/

theorem Unchanged.symm {ps : List Part} {s t : State} (h : Unchanged ps s t) : Unchanged ps t s := by
  intro p hp
  have e := h p hp
  cases p
  case host => exact (congrArg (hostCore · t.host) e).symm
  case mgmt => exact (congrArg (mgmtCore · t.mgmt) e).symm
  case fab => exact (congrArg (fabCore · t.fab) e).symm
  case nv => exact (congrArg (nvCore · t.nv) e).symm
  case interrupts => exact ⟨e.1.symm, e.2.symm⟩
  case journal => exact ⟨e.1.symm, e.2.symm⟩
  case commands => exact ⟨e.1.symm, e.2.1.symm, e.2.2.symm⟩
  case frames =>
    exact ⟨e.1.symm, e.2.1.symm, e.2.2.1.symm, e.2.2.2.1.symm, e.2.2.2.2.1.symm, e.2.2.2.2.2.symm⟩
  all_goals exact Eq.symm e

/-- The states that agree with `s` outside `ps`, and in the basin's cells where `k` asks for it. -/
def Rest (ps : List Part) (k : Bool) (s : State) : State → Prop :=
  fun t => Unchanged ps s t ∧ (k = true → t.basin.cells = s.basin.cells)

section
variable {ps : List Part} {k : Bool} {s t : State}

theorem rest_of (h : Unchanged ps s t) (hk : k = true → t.basin.cells = s.basin.cells) : Rest ps k t = Rest ps k s := by
  funext u
  refine propext ⟨fun hu => ⟨h.trans hu.1, fun e => ?_⟩, fun hu => ⟨h.symm.trans hu.1, fun e => ?_⟩⟩
  · exact (hu.2 e).trans (hk e)
  · exact (hu.2 e).trans (hk e).symm

theorem rest_iff : Rest ps k t = Rest ps k s ↔ Unchanged ps s t ∧ (k = true → t.basin.cells = s.basin.cells) := by
  refine ⟨fun h => ?_, fun h => rest_of h.1 h.2⟩
  have ht : Rest ps k t t := ⟨Unchanged.refl ps t, fun _ => rfl⟩
  rw [h] at ht
  exact ht

theorem Unchanged.of_rest (h : Rest ps false t = Rest ps false s) : Unchanged ps s t := (rest_iff.mp h).1

theorem cells_of_rest (h : Rest ps true t = Rest ps true s) : t.basin.cells = s.basin.cells := (rest_iff.mp h).2 rfl

/-- What leaves everything but `a` alone, `.basin` not among it, leaves the rest outside any larger list alone. -/
theorem rest_of_same {a : List Part} (h : Unchanged a s t) (hb : Part.basin ∉ a) (ha : ∀ p ∈ a, p ∈ ps) :
    Rest ps k t = Rest ps k s :=
  rest_of (h.mono ha) fun _ => congrArg BasinSt.cells (h .basin hb)

end

@[simp] theorem mem_signalling (p : Part) :
    p ∈ signalling ↔ p = .now ∨ p = .discards ∨ p = .events ∨ p = .interrupts ∨ p = .out := by
  simp [signalling]

@[simp] theorem mem_answering (p : Part) :
    p ∈ answering ↔ p ∈ signalling ∨ p = .mailboxes ∨ p = .commands ∨ p = .frames ∨ p = .journal := by
  simp [answering]

@[simp] theorem mem_volatile (p : Part) :
    p ∈ volatile ↔
      p = .islands ∨ p = .discards ∨ p = .host ∨ p = .mailboxes ∨ p = .events ∨ p = .interrupts ∨ p = .mgmt ∨
      p = .commands ∨ p = .time ∨ p = .tact ∨ p = .daq ∨ p = .pwr ∨ p = .clk ∨ p = .therm ∨ p = .cfg ∨ p =
      .line ∨ p = .fab ∨ p = .frames ∨ p = .eth ∨ p = .basin ∨ p = .oper ∨ p = .mems ∨ p = .tagMismatch ∨ p =
      .softRepairs ∨ p = .repairQueue ∨ p = .aon ∨ p = .diag ∨ p = .now ∨ p = .out := by
  simp [volatile]

@[simp] theorem forall_or_imp (a b c : Part → Prop) :
    (∀ p, a p ∨ b p → c p) ↔ (∀ p, a p → c p) ∧ ∀ p, b p → c p := by
  simp only [or_imp, forall_and]

@[simp] theorem rest_ite {ps : List Part} {k : Bool} (c : Prop) [Decidable c] (a b : State) :
    Rest ps k (if c then a else b) = if c then Rest ps k a else Rest ps k b := by
  split <;> rfl

/-! ### Updates of the state's fields -/

section
variable {ps : List Part} {k : Bool}

/-- A state that is built from another one has the other one's rest where every field that differs is one of `ps`. -/
@[simp] theorem rest_mk (s : State) {n f is ho mg ti ta da pw cl th cf li fa et ba op me tg so re nv fu fs ao di ou}
    (hnow : .now ∈ ps ∨ n = s.now) (hfree : .free ∈ ps ∨ f = s.free)
    (hislands : .islands ∈ ps ∨ is.map (fun x => { x with discards := 0 }) = s.islands.map (fun x => { x with discards := 0 }))
    (hdiscards : .discards ∈ ps ∨ is.map (fun x => x.discards) = s.islands.map (fun x => x.discards))
    (hhost : .host ∈ ps ∨ hostCore ho s.host = s.host)
    (hmailboxes : .mailboxes ∈ ps ∨ ho.mbox = s.host.mbox) (hevents : .events ∈ ps ∨ ho.evq = s.host.evq)
    (hinterrupts : .interrupts ∈ ps ∨ ho.intStatus = s.host.intStatus ∧ ho.msixPending = s.host.msixPending)
    (hmgmt : .mgmt ∈ ps ∨ mgmtCore mg s.mgmt = s.mgmt)
    (hcommands : .commands ∈ ps ∨
      mg.running = s.mgmt.running ∧ mg.waiting = s.mgmt.waiting ∧ mg.fabricQueue = s.mgmt.fabricQueue)
    (htime : .time ∈ ps ∨ ti = s.time) (htact : .tact ∈ ps ∨ ta = s.tact) (hdaq : .daq ∈ ps ∨ da = s.daq)
    (hpwr : .pwr ∈ ps ∨ pw = s.pwr) (hclk : .clk ∈ ps ∨ cl = s.clk) (htherm : .therm ∈ ps ∨ th = s.therm)
    (hcfg : .cfg ∈ ps ∨ cf = s.cfg) (hline : .line ∈ ps ∨ li = s.line)
    (hfab : .fab ∈ ps ∨ fabCore fa s.fab = s.fab)
    (hframes : .frames ∈ ps ∨ fa.seq = s.fab.seq ∧ fa.orig = s.fab.orig ∧ fa.extended = s.fab.extended ∧
      fa.waiting = s.fab.waiting ∧ fa.discards = s.fab.discards ∧ fa.egress = s.fab.egress)
    (heth : .eth ∈ ps ∨ et = s.eth) (hbasin : .basin ∈ ps ∨ ba = s.basin) (hcells : k = false ∨ ba.cells = s.basin.cells)
    (hoper : .oper ∈ ps ∨ op = s.oper) (hmems : .mems ∈ ps ∨ me = s.mems)
    (htag : .tagMismatch ∈ ps ∨ tg = s.tagMismatch) (hsoft : .softRepairs ∈ ps ∨ so = s.softRepairs)
    (hqueue : .repairQueue ∈ ps ∨ re = s.repairQueue)
    (hnv : .nv ∈ ps ∨ nvCore nv s.nv = s.nv)
    (hjournal : .journal ∈ ps ∨ nv.journal = s.nv.journal ∧ nv.writesSince = s.nv.writesSince)
    (hfuses : .fuses ∈ ps ∨ fu = s.fuses) (hshadow : .fuseShadow ∈ ps ∨ fs = s.fuseShadow)
    (haon : .aon ∈ ps ∨ ao = s.aon) (hdiag : .diag ∈ ps ∨ di = s.diag) (hout : .out ∈ ps ∨ ou = s.out) :
    Rest ps k (State.mk s.pending n f is ho mg ti ta da pw cl th cf li fa et ba op me tg so re nv fu fs ao di ou) =
      Rest ps k s := by
  refine rest_of (fun p hp => ?_) fun hk => hcells.resolve_left (by simp [hk])
  cases p
  case pending => rfl
  case now => exact hnow.resolve_left hp
  case free => exact hfree.resolve_left hp
  case islands => exact hislands.resolve_left hp
  case discards => exact hdiscards.resolve_left hp
  case host => exact hhost.resolve_left hp
  case mailboxes => exact hmailboxes.resolve_left hp
  case events => exact hevents.resolve_left hp
  case interrupts => exact hinterrupts.resolve_left hp
  case mgmt => exact hmgmt.resolve_left hp
  case commands => exact hcommands.resolve_left hp
  case time => exact htime.resolve_left hp
  case tact => exact htact.resolve_left hp
  case daq => exact hdaq.resolve_left hp
  case pwr => exact hpwr.resolve_left hp
  case clk => exact hclk.resolve_left hp
  case therm => exact htherm.resolve_left hp
  case cfg => exact hcfg.resolve_left hp
  case line => exact hline.resolve_left hp
  case fab => exact hfab.resolve_left hp
  case frames => exact hframes.resolve_left hp
  case eth => exact heth.resolve_left hp
  case basin => exact hbasin.resolve_left hp
  case oper => exact hoper.resolve_left hp
  case mems => exact hmems.resolve_left hp
  case tagMismatch => exact htag.resolve_left hp
  case softRepairs => exact hsoft.resolve_left hp
  case repairQueue => exact hqueue.resolve_left hp
  case nv => exact hnv.resolve_left hp
  case journal => exact hjournal.resolve_left hp
  case fuses => exact hfuses.resolve_left hp
  case fuseShadow => exact hshadow.resolve_left hp
  case aon => exact haon.resolve_left hp
  case diag => exact hdiag.resolve_left hp
  case out => exact hout.resolve_left hp

/-! ### Updates of one part -/

@[simp] theorem tick_rest (h : Part.now ∈ ps) (t : Time) (s : State) : Rest ps k (tick t s) = Rest ps k s := by
  simp [tick, h]

@[simp] theorem modHost_rest (f : HostSt → HostSt) (s : State) (hhost : Part.host ∈ ps)
    (hmailboxes : .mailboxes ∈ ps ∨ ∀ x, (f x).mbox = x.mbox) (hevents : .events ∈ ps ∨ ∀ x, (f x).evq = x.evq)
    (hinterrupts : .interrupts ∈ ps ∨ ∀ x, (f x).intStatus = x.intStatus ∧ (f x).msixPending = x.msixPending) :
    Rest ps k (modHost f s) = Rest ps k s := by
  unfold modHost
  apply rest_mk
  case hhost => exact .inl hhost
  case hmailboxes => exact hmailboxes.imp_right fun h => h s.host
  case hevents => exact hevents.imp_right fun h => h s.host
  case hinterrupts => exact hinterrupts.imp_right fun h => h s.host
  all_goals simp

@[simp] theorem modHost_core_rest (f : HostSt → HostSt) (s : State) (hhost : ∀ x, hostCore (f x) x = x)
    (hmailboxes : .mailboxes ∈ ps ∨ ∀ x, (f x).mbox = x.mbox) (hevents : .events ∈ ps ∨ ∀ x, (f x).evq = x.evq)
    (hinterrupts : .interrupts ∈ ps ∨ ∀ x, (f x).intStatus = x.intStatus ∧ (f x).msixPending = x.msixPending) :
    Rest ps k (modHost f s) = Rest ps k s := by
  unfold modHost
  apply rest_mk
  case hhost => exact .inr (hhost s.host)
  case hmailboxes => exact hmailboxes.imp_right fun h => h s.host
  case hevents => exact hevents.imp_right fun h => h s.host
  case hinterrupts => exact hinterrupts.imp_right fun h => h s.host
  all_goals simp

@[simp] theorem modMgmt_rest (f : MgmtSt → MgmtSt) (s : State) (hmgmt : Part.mgmt ∈ ps)
    (hcommands : .commands ∈ ps ∨ ∀ x, (f x).running = x.running ∧ (f x).waiting = x.waiting ∧
      (f x).fabricQueue = x.fabricQueue) : Rest ps k (modMgmt f s) = Rest ps k s := by
  unfold modMgmt
  apply rest_mk
  case hmgmt => exact .inl hmgmt
  case hcommands => exact hcommands.imp_right fun h => h s.mgmt
  all_goals simp

@[simp] theorem modFab_rest (f : FabSt → FabSt) (s : State) (hfab : Part.fab ∈ ps)
    (hframes : .frames ∈ ps ∨ ∀ x, (f x).seq = x.seq ∧ (f x).orig = x.orig ∧ (f x).extended = x.extended ∧
      (f x).waiting = x.waiting ∧ (f x).discards = x.discards ∧ (f x).egress = x.egress) :
    Rest ps k (modFab f s) = Rest ps k s := by
  unfold modFab
  apply rest_mk
  case hfab => exact .inl hfab
  case hframes => exact hframes.imp_right fun h => h s.fab
  all_goals simp

@[simp] theorem modFab_core_rest (f : FabSt → FabSt) (s : State) (hframes : Part.frames ∈ ps)
    (hfab : ∀ x, fabCore (f x) x = x) : Rest ps k (modFab f s) = Rest ps k s := by
  unfold modFab
  apply rest_mk
  case hfab => exact .inr (hfab s.fab)
  case hframes => exact .inl hframes
  all_goals simp

@[simp] theorem modBasin_rest (h : .basin ∈ ps) (f : BasinSt → BasinSt) (s : State)
    (hcells : k = false ∨ ∀ x, (f x).cells = x.cells) : Rest ps k (modBasin f s) = Rest ps k s := by
  unfold modBasin
  apply rest_mk
  case hbasin => exact .inl h
  case hcells => exact hcells.imp_right fun h => h s.basin
  all_goals simp

theorem map_modify_eq {α β : Type} (g : α → β) (f : α → α) (l : List α) (i : Nat) (h : ∀ x, g (f x) = g x) :
    (l.modify i f).map g = l.map g := by
  apply List.ext_getElem?
  intro j
  simp only [List.getElem?_map, List.getElem?_modify]
  cases l[j]? with
  | none => rfl
  | some x =>
    split
    · simp [h]
    · simp

@[simp] theorem modIsland_rest (i : Island) (f : IslandSt → IslandSt) (s : State)
    (hislands : .islands ∈ ps ∨ ∀ x, ({ f x with discards := 0 } : IslandSt) = { x with discards := 0 })
    (hdiscards : .discards ∈ ps ∨ ∀ x, (f x).discards = x.discards) :
    Rest ps k (modIsland s i f) = Rest ps k s := by
  unfold modIsland
  apply rest_mk
  case hislands => exact hislands.imp_right fun h => map_modify_eq _ f s.islands (islandIx i) h
  case hdiscards => exact hdiscards.imp_right fun h => map_modify_eq _ f s.islands (islandIx i) h
  all_goals simp

end

/-! ### Outcomes and folds -/

/-- The rest of the next state, or `d` after a stop. -/
def orest (ps : List Part) (k : Bool) (d : State → Prop) (o : Outcome) : State → Prop :=
  match o with | .next s => Rest ps k s | _ => d

section
variable {ps : List Part} {k : Bool}

@[simp] theorem orest_next (d : State → Prop) (s : State) : orest ps k d (.next s) = Rest ps k s := rfl
@[simp] theorem orest_fault (d : State → Prop) (r : Fault) : orest ps k d (.fault r) = d := rfl
@[simp] theorem orest_refused (d : State → Prop) (r : Refusal) : orest ps k d (.refused r) = d := rfl
@[simp] theorem orest_ite (d : State → Prop) (c : Prop) [Decidable c] (a b : Outcome) :
    orest ps k d (if c then a else b) = if c then orest ps k d a else orest ps k d b := by
  split <;> rfl

@[simp] theorem foldl_rest {α : Type} (l : List α) (g : State → α → State) (s : State)
    (h : ∀ a x, Rest ps k (g a x) = Rest ps k a) : Rest ps k (l.foldl g s) = Rest ps k s := by
  induction l generalizing s with
  | nil => rfl
  | cons x l ih => rw [List.foldl_cons, ih, h]

theorem foldl_fst_rest {α β : Type} (l : List α) (g : State × β → α → State × β) (p : State × β)
    (h : ∀ a x, Rest ps k (g a x).1 = Rest ps k a.1) : Rest ps k (l.foldl g p).1 = Rest ps k p.1 := by
  induction l generalizing p with
  | nil => rfl
  | cons x l ih => rw [List.foldl_cons, ih, h]

theorem foldl_snd_rest {α β : Type} (l : List α) (g : β × State → α → β × State) (p : β × State)
    (h : ∀ a x, Rest ps k (g a x).2 = Rest ps k a.2) : Rest ps k (l.foldl g p).2 = Rest ps k p.2 := by
  induction l generalizing p with
  | nil => rfl
  | cons x l ih => rw [List.foldl_cons, ih, h]

end

end Sys2Proof.Machine
end

section
/-! What the operations of frames and islands leave alone. -/

set_option maxRecDepth 4000

namespace Sys2Proof.Machine

variable {ps : List Part} {cells : Bool}

/-! ### Base -/

@[simp] theorem setPhase_rest (hps : Part.islands ∈ ps) (s : State) (i : Island) (p : IslandPhase) : Rest ps cells
    (setPhase s i p) = Rest ps cells s := by
  unfold setPhase
  simp [hps]

@[simp] theorem countDiscard_rest (hps : Part.discards ∈ ps) (s : State) (i : Island) : Rest ps cells (countDiscard s i)
    = Rest ps cells s := by
  unfold countDiscard
  simp [hps]

@[simp] theorem arriveAt_rest (hps : Part.discards ∈ ps) {d : State → Prop} (i : Island) (s : State) (f : State →
    Outcome) (hd : Rest ps cells s = d) (h : orest ps cells d (f s) = d) : orest ps cells d (arriveAt i s f) = d := by
  subst hd
  unfold arriveAt
  split <;> simp [hps, h]

@[simp] theorem emitOut_rest (hps : Part.out ∈ ps) (o : Out) (s : State) : Rest ps cells (emitOut o s) = Rest ps cells
    s := by
  unfold emitOut
  simp [hps]

/-! ### Frame -/

@[simp] theorem modLine_rest (hps : Part.line ∈ ps) (f : LineSt → LineSt) (s : State) : Rest ps cells (modLine f s) =
    Rest ps cells s := by
  unfold modLine
  simp [hps]

@[simp] theorem modLane_rest (hps : Part.line ∈ ps) (p : Nat) (l : Nat) (f : Lane → Lane) (s : State) : Rest ps cells
    (modLane p l f s) = Rest ps cells s := by
  unfold modLane
  simp [hps]

@[simp] theorem modLineSlot_rest (hps : Part.line ∈ ps) (p : Nat) (i : Nat) (f : Slot → Slot) (s : State) :
    Rest ps cells (modLineSlot p i f s) = Rest ps cells s := by
  unfold modLineSlot
  simp [hps]

@[simp] theorem modPort_rest (hps : Part.fab ∈ ps) (p : Nat) (f : FabPort → FabPort) (s : State) : Rest ps cells
    (modPort p f s) = Rest ps cells s := by
  unfold modPort
  simp [hps]

@[simp] theorem countDiscardClass_rest (hps : Part.frames ∈ ps) (c : Nat) (s : State) : Rest ps cells (countDiscardClass
    c s) = Rest ps cells s := by
  unfold countDiscardClass
  simp [hps]

@[simp] theorem modEgress_rest (hps : Part.frames ∈ ps) (p : Nat) (f : Egress → Egress) (s : State) : Rest ps cells
    (modEgress p f s) = Rest ps cells s := by
  unfold modEgress
  simp [hps]

@[simp] theorem toPort_rest (hps : ∀ p ∈ [.discards, .frames, .out], p ∈ ps) (p : Nat) (c : Nat) (len : Nat) (up : Bool)
    (leave : Nat → Out) (s : State) : Rest ps cells (toPort p c len up leave s) = Rest ps cells s := by
  unfold toPort
  simp [hps]

@[simp] theorem clearEgress_rest (hps : Part.frames ∈ ps) (p : Nat) (s : State) : Rest ps cells (clearEgress p s) =
    Rest ps cells s := by
  unfold clearEgress
  simp [hps]

@[simp] theorem sendDual_rest (hps : ∀ p ∈ [.discards, .frames, .out], p ∈ ps) (h : Hdr) (words : List Word) (s :
    State) : Rest ps cells (sendDual h words s) = Rest ps cells s := by
  unfold sendDual
  repeat' split
  all_goals simp [hps]

@[simp] theorem sendSingle_rest (hps : ∀ p ∈ [.free, .discards, .frames, .out], p ∈ ps) (tc : Nat) (kind : Nat) (dest :
    BitVec 16) (gen : Nat) (last : Bool) (words : List Word) (s : State) : Rest ps cells (sendSingle tc kind dest gen
    last words s) = Rest ps cells s := by
  unfold sendSingle
  split <;> simp [hps]

@[simp] theorem sendNext_rest (hps : ∀ p ∈ [.free, .discards, .frames, .out], p ∈ ps) (p : Nat) (tc : Nat) (kind : Nat)
    (up : Bool) (dest : BitVec 16) (link : Bool) (gen : Nat) (words : List Word) (s : State) : Rest ps cells (sendNext p
    tc kind up dest link gen words s) = Rest ps cells s := by
  unfold sendNext
  simp [hps]

@[simp] theorem admitFrame_rest (hps : ∀ p ∈ [.discards, .frames, .out], p ∈ ps) (w : WaitFrame) (s : State) :
    Rest ps cells (admitFrame w s) = Rest ps cells s := by
  unfold admitFrame
  simp only []
  repeat' split
  all_goals simp [hps]

@[simp] theorem originate_rest (hps : ∀ p ∈ [.discards, .frames, .out], p ∈ ps) (w : WaitFrame) (s : State) :
    Rest ps cells (originate w s) = Rest ps cells s := by
  unfold originate
  simp [hps]

@[simp] theorem releaseWaiting_rest (hps : ∀ p ∈ [.discards, .frames, .eth, .out], p ∈ ps) (a : Nat) (x1 : State) :
    Rest ps cells (releaseWaiting a x1) = Rest ps cells x1 := by
  induction a generalizing x1 with
  | zero => rfl
  | succ n ih =>
    unfold releaseWaiting
    split
    · rfl
    · split
      · rfl
      · rw [ih]; simp [hps]

/-! ### Ops -/

@[simp] theorem msix_rest (hps : ∀ p ∈ [.interrupts, .out], p ∈ ps) (v : Nat) (s : State) : Rest ps cells (msix v s) =
    Rest ps cells s := by
  unfold msix
  simp [hps]

@[simp] theorem setInt_rest (hps : Part.interrupts ∈ ps) (k : Nat) (s : State) : Rest ps cells (setInt k s) =
    Rest ps cells s := by
  unfold setInt
  simp [hps]

@[simp] theorem msixIf_rest (hps : ∀ p ∈ [.interrupts, .out], p ∈ ps) (k : Nat) (v : Nat) (s : State) : Rest ps cells
    (msixIf k v s) = Rest ps cells s := by
  unfold msixIf
  simp [hps]

@[simp] theorem raiseNmi_rest (hps : ∀ p ∈ [.host, .interrupts, .out], p ∈ ps) (k : Nat) (s : State) : Rest ps cells
    (raiseNmi k s) = Rest ps cells s := by
  simp at hps
  unfold raiseNmi
  simp [hps]

@[simp] theorem evqSignal_rest (hps : ∀ p ∈ [.events, .interrupts, .out], p ∈ ps) (s : State) : Rest ps cells (evqSignal
    s) = Rest ps cells s := by
  unfold evqSignal
  simp [hps]

@[simp] theorem evqDrain_rest (hps : ∀ p ∈ [.events, .interrupts, .out], p ∈ ps) (s : State) : Rest ps cells (evqDrain
    s) = Rest ps cells s := by
  unfold evqDrain
  simp [hps]

@[simp] theorem emit_rest (hps : ∀ p ∈ signalling, p ∈ ps) (code : Nat) (argB : Nat) (arg : Nat) (extra : List Word)
    (tb : Nat) (s : State) : Rest ps cells (emit code argB arg extra tb s) = Rest ps cells s := by
  unfold emit
  simp [hps]

@[simp] theorem emitNow_rest (hps : ∀ p ∈ signalling, p ∈ ps) (code : Nat) (argB : Nat) (arg : Nat) (extra : List Word)
    (s : State) : Rest ps cells (emitNow code argB arg extra s) = Rest ps cells s := by
  unfold emitNow
  simp [hps]

@[simp] theorem journalAdd_rest (hps : Part.journal ∈ ps) (e : JEntry) (s : State) : Rest ps cells (journalAdd e s) =
    Rest ps cells s := by
  unfold journalAdd
  simp [hps]

@[simp] theorem journalMod_rest (hps : Part.journal ∈ ps) (a : Agent) (src : BitVec 16) (seq : BitVec 32) (f : JEntry →
    JEntry) (s : State) : Rest ps cells (journalMod a src seq f s) = Rest ps cells s := by
  unfold journalMod
  simp [hps]

@[simp] theorem modMbox_rest (hps : Part.mailboxes ∈ ps) (n : Nat) (f : Mailbox → Mailbox) (s : State) : Rest ps cells
    (modMbox n f s) = Rest ps cells s := by
  unfold modMbox
  simp [hps]

@[simp] theorem mboxDone_rest (hps : ∀ p ∈ [.mailboxes, .interrupts, .out], p ∈ ps) (n : Nat) (seq : BitVec 32)
    (noMsix : Bool) (status : BitVec 16) (words : List Word) (dup : Bool) (s : State) : Rest ps cells (mboxDone n seq
    noMsix status words dup s) = Rest ps cells s := by
  unfold mboxDone
  simp [hps]

@[simp] theorem answer_rest (hps : ∀ p ∈ [.discards, .mailboxes, .interrupts, .frames, .out], p ∈ ps) (rq : Request)
    (seq : BitVec 32) (status : BitVec 16) (words : List Word) (dup : Bool) (s : State) : Rest ps cells (answer rq seq
    status words dup s) = Rest ps cells s := by
  unfold answer
  split <;> simp [hps]

@[simp] theorem completionEvent_rest (hps : ∀ p ∈ signalling, p ∈ ps) (a : Agent) (op : Nat) (seq : BitVec 32) (status :
    BitVec 16) (s : State) : Rest ps cells (completionEvent a op seq status s) = Rest ps cells s := by
  unfold completionEvent
  simp [hps]

@[simp] theorem deny_rest (status : BitVec 16) (s : State) : Rest ps cells (deny status s).st = Rest ps cells s := by
  unfold deny
  simp

@[simp] theorem okay_rest (words : List Word) (s : State) : Rest ps cells (okay words s).st = Rest ps cells s := by
  unfold okay
  simp

@[simp] theorem okaySteps_rest (n : Nat) (words : List Word) (s : State) : Rest ps cells (okaySteps n words s).st =
    Rest ps cells s := by
  unfold okaySteps
  simp

@[simp] theorem accepted_rest (steps : Nat) (holds : List Resource) (words : List Word) (s : State) : Rest ps cells
    (accepted steps holds words s).st = Rest ps cells s := by
  unfold accepted
  simp

@[simp] theorem begun_rest (steps : Nat) (holds : List Resource) (s : State) : Rest ps cells (begun steps holds s).st =
    Rest ps cells s := by
  unfold begun
  simp

@[simp] theorem settle_rest (hps : ∀ p ∈ answering, p ∈ ps) (op : Nat) (rq : Request) (r : Reply) : Rest ps cells
    (settle op rq r) = Rest ps cells r.st := by
  unfold settle
  simp [hps]

@[simp] theorem refuse_rest (hps : ∀ p ∈ answering, p ∈ ps) (op : Nat) (rq : Request) (status : BitVec 16) (s : State) :
    Rest ps cells (refuse op rq status s) = Rest ps cells s := by
  unfold refuse
  simp [hps]

@[simp] theorem answerDuplicate_rest (hps : ∀ p ∈ [.discards, .mailboxes, .interrupts, .frames, .out], p ∈ ps) (rq :
    Request) (e : JEntry) (s : State) : Rest ps cells (answerDuplicate rq e s) = Rest ps cells s := by
  unfold answerDuplicate
  simp [hps]

@[simp] theorem loadRequest_rest (hps : Part.mailboxes ∈ ps) (op : Nat) (rq : Request) (s : State) : Rest ps cells
    (loadRequest op rq s) = Rest ps cells s := by
  unfold loadRequest
  split <;> simp [hps]

@[simp] theorem park_rest (hps : Part.commands ∈ ps) (op : Nat) (rq : Request) (s : State) : Rest ps cells (park op rq
    s) = Rest ps cells s := by
  unfold park
  simp [hps]

@[simp] theorem unpark_rest (hps : Part.commands ∈ ps) (rq : Request) (s : State) : Rest ps cells (unpark rq s) =
    Rest ps cells s := by
  unfold unpark
  simp [hps]

@[simp] theorem sendRemote_rest (hps : ∀ p ∈ answering ++ [.mgmt], p ∈ ps) (op : Nat) (rq : Request) (dest : BitVec 16)
    (routed : Bool) (s : State) : Rest ps cells (sendRemote op rq dest routed s) = Rest ps cells s := by
  simp at hps
  unfold sendRemote
  simp [hps]

@[simp] theorem serve_rest (hps : ∀ p ∈ answering ++ [.mgmt], p ∈ ps) (op : Nat) (known : Bool) (lenOk : Nat → Bool)
    (ownSupply : Bool) (routed : BitVec 16 → State → Bool) (own : State → Reply) (t : Time) (rq : Request) (s0 : State)
    (h_own : ∀ s, Rest ps cells (own s).st = Rest ps cells s) : Rest ps cells (serve op known lenOk ownSupply routed own
    t rq s0) = Rest ps cells s0 := by
  unfold serve
  simp only []
  repeat' split
  all_goals simp [hps, h_own]

@[simp] theorem endWith_rest (hps : ∀ p ∈ answering, p ∈ ps) (a : Agent) (src : BitVec 16) (seq : BitVec 32) (status :
    BitVec 16) (stepsDone : Nat) (words : List Word) (s : State) : Rest ps cells (endWith a src seq status stepsDone
    words s) = Rest ps cells s := by
  unfold endWith
  repeat' split
  all_goals simp [hps]

@[simp] theorem endLong_rest (hps : ∀ p ∈ answering, p ∈ ps) (a : Agent) (src : BitVec 16) (seq : BitVec 32) (status :
    BitVec 16) (stepsDone : Nat) (s : State) : Rest ps cells (endLong a src seq status stepsDone s) = Rest ps cells
    s := by
  unfold endLong
  simp [hps]

@[simp] theorem endHolderWith_rest (hps : ∀ p ∈ answering, p ∈ ps) (res : Resource) (status : BitVec 16) (stepsDone :
    Nat) (words : List Word) (s : State) : Rest ps cells (endHolderWith res status stepsDone words s) = Rest ps cells
    s := by
  unfold endHolderWith
  split <;> simp [hps]

@[simp] theorem endHolder_rest (hps : ∀ p ∈ answering, p ∈ ps) (res : Resource) (status : BitVec 16) (stepsDone : Nat)
    (s : State) : Rest ps cells (endHolder res status stepsDone s) = Rest ps cells s := by
  unfold endHolder
  simp [hps]

@[simp] theorem drawWord_rest (hps : Part.free ∈ ps) (s : State) : Rest ps cells (drawWord s).2 = Rest ps cells s := by
  unfold drawWord
  simp [hps]

@[simp] theorem drawBool_rest (hps : Part.free ∈ ps) (s : State) : Rest ps cells (drawBool s).2 = Rest ps cells s := by
  unfold drawBool
  simp [hps]

@[simp] theorem drawInt_rest (hps : Part.free ∈ ps) (s : State) : Rest ps cells (drawInt s).2 = Rest ps cells s := by
  unfold drawInt
  simp [hps]

@[simp] theorem drawNat_rest (hps : Part.free ∈ ps) (s : State) : Rest ps cells (drawNat s).2 = Rest ps cells s := by
  unfold drawNat
  simp [hps]

end Sys2Proof.Machine
end

section
/-! What the operations of the acquisition leave alone. -/

set_option maxRecDepth 4000

namespace Sys2Proof.Machine

variable {ps : List Part} {cells : Bool}

/-! ### Daq -/

@[simp] theorem modDaq_rest (hps : Part.daq ∈ ps) (f : DaqSt → DaqSt) (s : State) : Rest ps cells (modDaq f s) =
    Rest ps cells s := by
  unfold modDaq
  simp [hps]

@[simp] theorem modChan_rest (hps : Part.daq ∈ ps) (c : Nat) (f : Chan → Chan) (s : State) : Rest ps cells (modChan c f
    s) = Rest ps cells s := by
  unfold modChan
  simp [hps]

@[simp] theorem modGen_rest (hps : Part.daq ∈ ps) (n : Nat) (f : Gen → Gen) (s : State) : Rest ps cells (modGen n f s) =
    Rest ps cells s := by
  unfold modGen
  simp [hps]

@[simp] theorem modGroup_rest (hps : Part.daq ∈ ps) (g : Nat) (f : Group → Group) (s : State) : Rest ps cells (modGroup
    g f s) = Rest ps cells s := by
  unfold modGroup
  simp [hps]

@[simp] theorem modCal_rest (hps : Part.daq ∈ ps) (g : Nat) (f : CalSt → CalSt) (s : State) : Rest ps cells (modCal g f
    s) = Rest ps cells s := by
  unfold modCal
  simp [hps]

@[simp] theorem modWeave_rest (hps : Part.daq ∈ ps) (c : Nat) (f : WeaveSt → WeaveSt) (s : State) : Rest ps cells
    (modWeave c f s) = Rest ps cells s := by
  unfold modWeave
  simp [hps]

@[simp] theorem modAddr_rest (hps : Part.daq ∈ ps) (a : Nat) (f : AddrSt → AddrSt) (s : State) : Rest ps cells (modAddr
    a f s) = Rest ps cells s := by
  unfold modAddr
  simp [hps]

@[simp] theorem forChans_rest (cs : List Nat) (f : Nat → State → State) (s : State) (h_f : ∀ y0 y1, Rest ps cells (f y0
    y1) = Rest ps cells y1) : Rest ps cells (forChans cs f s) = Rest ps cells s := by
  unfold forChans
  exact foldl_rest _ _ _ (fun a x => h_f x a)

@[simp] theorem modRemote_rest (hps : Part.daq ∈ ps) (node : BitVec 16) (a : Nat) (f : AddrSt → AddrSt) (s : State) :
    Rest ps cells (modRemote node a f s) = Rest ps cells s := by
  unfold modRemote
  simp [hps]

@[simp] theorem modPath_rest (hps : Part.daq ∈ ps) (node : Option (BitVec 16)) (a : Nat) (f : AddrSt → AddrSt) (s :
    State) : Rest ps cells (modPath node a f s) = Rest ps cells s := by
  unfold modPath
  split <;> simp [hps]

@[simp] theorem gapAt_rest (hps : Part.daq ∈ ps) (a : Nat) (ds : List Dest) (s : State) : Rest ps cells (gapAt a ds s) =
    Rest ps cells s := by
  unfold gapAt
  simp [hps]

@[simp] theorem gapAllAt_rest (hps : Part.daq ∈ ps) (a : Nat) (at_ : Time) (s : State) : Rest ps cells (gapAllAt a at_
    s) = Rest ps cells s := by
  unfold gapAllAt
  simp [hps]

@[simp] theorem gapAll_rest (hps : Part.daq ∈ ps) (a : Nat) (s : State) : Rest ps cells (gapAll a s) = Rest ps cells
    s := by
  unfold gapAll
  simp [hps]

@[simp] theorem gapChan_rest (hps : Part.daq ∈ ps) (c : Nat) (s : State) : Rest ps cells (gapChan c s) = Rest ps cells
    s := by
  unfold gapChan
  simp [hps]

@[simp] theorem gapChanAllAt_rest (hps : Part.daq ∈ ps) (c : Nat) (at_ : Time) (s : State) : Rest ps cells (gapChanAllAt
    c at_ s) = Rest ps cells s := by
  unfold gapChanAllAt
  simp [hps]

@[simp] theorem gapChanAll_rest (hps : Part.daq ∈ ps) (c : Nat) (s : State) : Rest ps cells (gapChanAll c s) =
    Rest ps cells s := by
  unfold gapChanAll
  simp [hps]

@[simp] theorem putQueue_rest (hps : Part.daq ∈ ps) (q : DestQueue) (s : State) : Rest ps cells (putQueue q s) =
    Rest ps cells s := by
  unfold putQueue
  simp [hps]

@[simp] theorem countDropped_rest (hps : ∀ p ∈ [.host, .frames], p ∈ ps) (d : Dest) (s : State) : Rest ps cells
    (countDropped d s) = Rest ps cells s := by
  unfold countDropped
  split <;> simp [hps]

@[simp] theorem deliver_rest (hps : ∀ p ∈ [.host, .daq, .frames], p ∈ ps) (g : Nat) (a : Nat) (r : FormedRec) (d : Dest)
    (reachable : Bool) (s : State) : Rest ps cells (deliver g a r d reachable s) = Rest ps cells s := by
  unfold deliver
  simp [hps]

/-! ### Filter -/

@[simp] theorem refJudge_rest (hps : Part.daq ∈ ps) (c : Nat) (t : Time) (s : State) : Rest ps cells (refJudge c t s) =
    Rest ps cells s := by
  unfold refJudge
  simp [hps]

@[simp] theorem notePol_rest (hps : Part.daq ∈ ps) (n : Nat) (t : Time) (s : State) : Rest ps cells (notePol n t s) =
    Rest ps cells s := by
  unfold notePol
  simp [hps]

@[simp] theorem openEvent_rest (hps : ∀ p ∈ signalling, p ∈ ps) (c : Nat) (pos : Nat) (flag : Bool) (out : Int) (s :
    State) : Rest ps cells (openEvent c pos flag out s) = Rest ps cells s := by
  unfold openEvent
  simp [hps]

@[simp] theorem evalOpen_rest (hps : ∀ p ∈ signalling ++ [.daq], p ∈ ps) (c : Nat) (pos : Nat) (inBand : Bool) (out :
    Int) (s : State) : Rest ps cells (evalOpen c pos inBand out s) = Rest ps cells s := by
  unfold evalOpen
  simp [hps]

@[simp] theorem formRecord_rest (hps : Part.daq ∈ ps) (c : Nat) (pos : Nat) (value : Int) (ts : Int) (out : Int) (lim :
    Int) (flags : BitVec 12) (s : State) : Rest ps cells (formRecord c pos value ts out lim flags s) = Rest ps cells
    s := by
  unfold formRecord
  simp [hps]

@[simp] theorem accAdd_rest (hps : Part.daq ∈ ps) (n : Nat) (a : Nat) (neg : Bool) (value : Int) (ts : Int) (flags :
    BitVec 12) (s : State) : Rest ps cells (accAdd n a neg value ts flags s) = Rest ps cells s := by
  unfold accAdd
  simp [hps]

@[simp] theorem closeCycle_rest (hps : Part.daq ∈ ps) (n : Nat) (a : Nat) (out : Int) (s : State) : Rest ps cells
    (closeCycle n a out s) = Rest ps cells s := by
  unfold closeCycle
  simp [hps]

@[simp] theorem dropCycles_rest (hps : Part.daq ∈ ps) (n : Nat) (t : Time) (s : State) : Rest ps cells (dropCycles n t
    s) = Rest ps cells s := by
  unfold dropCycles
  simp [hps]

@[simp] theorem forgetCycle_rest (hps : Part.daq ∈ ps) (c : Nat) (s : State) : Rest ps cells (forgetCycle c s) =
    Rest ps cells s := by
  unfold forgetCycle
  simp [hps]

@[simp] theorem outRecord_rest (hps : Part.daq ∈ ps) (c : Nat) (pos : Nat) (value : Int) (ts : Int) (out : Int) (flags :
    BitVec 12) (s : State) : Rest ps cells (outRecord c pos value ts out flags s) = Rest ps cells s := by
  unfold outRecord
  simp [hps]

@[simp] theorem blankedOutput_rest (hps : Part.daq ∈ ps) (c : Nat) (pos : Nat) (ts : Int) (out : Int) (s : State) :
    Rest ps cells (blankedOutput c pos ts out s) = Rest ps cells s := by
  unfold blankedOutput
  simp only []
  repeat' split
  all_goals simp [hps]

@[simp] theorem addPair_rest (hps : Part.daq ∈ ps) (g : Nat) (spareV : Int) (chanNew : Int) (chanOld : Int) (s :
    State) : Rest ps cells (addPair g spareV chanNew chanOld s) = Rest ps cells s := by
  unfold addPair
  simp [hps]

@[simp] theorem pairOutput_rest (hps : Part.daq ∈ ps) (c : Nat) (code : Nat) (main : Merged) (flags : BitVec 12) (raw :
    Int) (bad : Bool) (other : Option Filtered) (s : State) : Rest ps cells (pairOutput c code main flags raw bad other
    s) = Rest ps cells s := by
  unfold pairOutput
  split <;> simp [hps]

@[simp] theorem primaryHalf_rest (hps : Part.daq ∈ ps) (c : Nat) (o : Sample) (ot : OutTime) (raw : Int) (blanked :
    Bool) (part : Bool) (s : State) : Rest ps cells (primaryHalf c o ot raw blanked part s).1 = Rest ps cells s := by
  unfold primaryHalf
  simp only []
  repeat' split
  all_goals simp [hps]

@[simp] theorem emitHalf_rest (hps : Part.daq ∈ ps) (c : Nat) (h : HalfOut) (s : State) : Rest ps cells (emitHalf c h s)
    = Rest ps cells s := by
  unfold emitHalf
  simp [hps]

@[simp] theorem exchangeRoles_rest (hps : Part.daq ∈ ps) (c : Nat) (s : State) : Rest ps cells (exchangeRoles c s) =
    Rest ps cells s := by
  unfold exchangeRoles
  simp [hps]

@[simp] theorem capSwitch_rest (hps : Part.daq ∈ ps) (c : Nat) (m : Nat) (s : State) : Rest ps cells (capSwitch c m s) =
    Rest ps cells s := by
  unfold capSwitch
  simp [hps]

@[simp] theorem capRefresh_rest (hps : Part.daq ∈ ps) (c : Nat) (s : State) : Rest ps cells (capRefresh c s) =
    Rest ps cells s := by
  unfold capRefresh
  simp only []
  repeat' split
  all_goals simp [hps]

@[simp] theorem capRefreshAll_rest (hps : Part.daq ∈ ps) (s : State) : Rest ps cells (capRefreshAll s) = Rest ps cells
    s := by
  unfold capRefreshAll
  simp [hps]

@[simp] theorem fadeDone_rest (hps : ∀ p ∈ signalling, p ∈ ps) (c : Nat) (j : Nat) (cut : Bool) (ts : Int) (s : State) :
    Rest ps cells (fadeDone c j cut ts s) = Rest ps cells s := by
  unfold fadeDone
  simp [hps]

@[simp] theorem fadeRecord_rest (hps : Part.daq ∈ ps) (c : Nat) (j : Nat) (n : Nat) (p : HalfOut) (q : HalfOut) (s :
    State) : Rest ps cells (fadeRecord c j n p q s) = Rest ps cells s := by
  unfold fadeRecord
  simp [hps]

@[simp] theorem fadeEnds_rest (hps : ∀ p ∈ signalling ++ [.daq], p ∈ ps) (c : Nat) (n : Nat) (p : HalfOut) (s : State) :
    Rest ps cells (fadeEnds c n p s) = Rest ps cells s := by
  simp at hps
  unfold fadeEnds
  simp [hps]

@[simp] theorem fadeStep_rest (hps : ∀ p ∈ signalling ++ [.daq], p ∈ ps) (c : Nat) (j : Nat) (n : Nat) (p : HalfOut)
    (q : HalfOut) (s : State) : Rest ps cells (fadeStep c j n p q s) = Rest ps cells s := by
  unfold fadeStep
  simp [hps]

@[simp] theorem fadePump_rest (hps : ∀ p ∈ signalling ++ [.daq], p ∈ ps) (c : Nat) (a : Nat) (x2 : State) :
    Rest ps cells (fadePump c a x2) = Rest ps cells x2 := by
  induction a generalizing x2 with
  | zero => rfl
  | succ k ih =>
    unfold fadePump
    repeat' (first | rfl | (simp [hps, ih]; done) | split | (simp only []; split))

@[simp] theorem fadeRun_rest (hps : ∀ p ∈ signalling ++ [.daq], p ∈ ps) (c : Nat) (s : State) : Rest ps cells (fadeRun c
    s) = Rest ps cells s := by
  unfold fadeRun
  simp [hps]

@[simp] theorem cycleEnd_rest (hps : Part.daq ∈ ps) (c : Nat) (ot : OutTime) (s : State) : Rest ps cells (cycleEnd c ot
    s) = Rest ps cells s := by
  unfold cycleEnd
  simp [hps]

@[simp] theorem gridOutput_rest (hps : ∀ p ∈ signalling ++ [.daq], p ∈ ps) (c : Nat) (o : Sample) (s : State) :
    Rest ps cells (gridOutput c o s) = Rest ps cells s := by
  unfold gridOutput
  simp [hps]

@[simp] theorem shadowStep_rest (hps : ∀ p ∈ signalling ++ [.daq], p ∈ ps) (c : Nat) (o : Sample) (s : State) :
    Rest ps cells (shadowStep c o s) = Rest ps cells s := by
  unfold shadowStep
  simp [hps]

@[simp] theorem strokeOpen_rest (hps : ∀ p ∈ signalling ++ [.daq], p ∈ ps) (c : Nat) (r : StrokeRun) (inBand : Bool)
    (inBl : Bool) (out : Int) (s : State) : Rest ps cells (strokeOpen c r inBand inBl out s).1 = Rest ps cells s := by
  unfold strokeOpen
  simp [hps]
  repeat' (first | (simp [hps]; done) | (split <;> simp_all <;> done) | split)

@[simp] theorem convert_rest (hps : ∀ p ∈ signalling ++ [.daq], p ∈ ps) (c : Nat) (o : Sample) (r : StrokeRun) (s :
    State) : Rest ps cells (convert c o r s).1 = Rest ps cells s := by
  unfold convert
  simp only []
  repeat' split
  all_goals simp [hps]

@[simp] theorem weaveOutput_rest (hps : ∀ p ∈ signalling ++ [.daq], p ∈ ps) (c : Nat) (o : Sample) (s : State) :
    Rest ps cells (weaveOutput c o s) = Rest ps cells s := by
  unfold weaveOutput
  simp only []
  repeat' split
  all_goals simp [hps]

@[simp] theorem execFilterOutput_rest (hps : ∀ p ∈ signalling ++ [.daq], p ∈ ps) (t : Time) (ch : Fin 64) (o : Sample)
    (s0 : State) : orest ps cells (Rest ps cells s0) (execFilterOutput t ch o s0) = Rest ps cells s0 := by
  unfold execFilterOutput
  simp [hps]

/-! ### Change -/

@[simp] theorem restartOther_rest (hps : Part.daq ∈ ps) (c : Nat) (s : State) : Rest ps cells (restartOther c s) =
    Rest ps cells s := by
  unfold restartOther
  simp [hps]

@[simp] theorem restartChan_rest (hps : Part.daq ∈ ps) (c : Nat) (start : Time) (bySync : Bool) (s : State) :
    Rest ps cells (restartChan c start bySync s) = Rest ps cells s := by
  unfold restartChan
  simp [hps]

@[simp] theorem cutFade_rest (hps : ∀ p ∈ signalling ++ [.free, .daq], p ∈ ps) (c : Nat) (at_ : Time) (s : State) :
    Rest ps cells (cutFade c at_ s) = Rest ps cells s := by
  unfold cutFade
  simp only []
  repeat' split
  all_goals simp [hps]

@[simp] theorem muxChange_rest (hps : ∀ p ∈ signalling ++ [.free, .daq], p ∈ ps) (c : Nat) (pos : Nat) (t0 : Time) (s :
    State) : Rest ps cells (muxChange c pos t0 s) = Rest ps cells s := by
  unfold muxChange
  simp [hps]

@[simp] theorem settleTo_rest (hps : Part.daq ∈ ps) (c : Nat) (at_ : Time) (until_ : Time) (s : State) : Rest ps cells
    (settleTo c at_ until_ s) = Rest ps cells s := by
  unfold settleTo
  simp [hps]

@[simp] theorem calRefresh_rest (hps : ∀ p ∈ signalling ++ [.daq], p ∈ ps) (g : Nat) (s : State) : Rest ps cells
    (calRefresh g s) = Rest ps cells s := by
  unfold calRefresh
  simp only []
  repeat' split
  all_goals simp [hps]

@[simp] theorem startOverlap_rest (hps : Part.daq ∈ ps) (g : Nat) (phase : CalPhase) (b : Time) (s : State) :
    Rest ps cells (startOverlap g phase b s) = Rest ps cells s := by
  unfold startOverlap
  simp [hps]

@[simp] theorem ratioEdge_rest (hps : ∀ p ∈ signalling ++ [.daq], p ∈ ps) (n : Nat) (before : Bool) (t : Time) (s :
    State) : Rest ps cells (ratioEdge n before t s) = Rest ps cells s := by
  simp at hps
  unfold ratioEdge
  simp [hps]

@[simp] theorem excChange_rest (hps : Part.daq ∈ ps) (n : Nat) (tc : Time) (s : State) : Rest ps cells (excChange n tc
    s) = Rest ps cells s := by
  unfold excChange
  simp [hps]

@[simp] theorem acBegin_rest (hps : Part.daq ∈ ps) (n : Nat) (tc : Time) (dead : Nat) (neg : Bool) (s : State) :
    Rest ps cells (acBegin n tc dead neg s) = Rest ps cells s := by
  unfold acBegin
  simp [hps]

@[simp] theorem applyGen_rest (hps : ∀ p ∈ signalling ++ [.daq], p ∈ ps) (n : Nat) (new : ExcCfg) (tc : Time) (s :
    State) : Rest ps cells (applyGen n new tc s) = Rest ps cells s := by
  unfold applyGen
  simp [hps]

@[simp] theorem applyGenPending_rest (hps : ∀ p ∈ signalling ++ [.daq], p ∈ ps) (n : Nat) (tc : Time) (s : State) :
    Rest ps cells (applyGenPending n tc s) = Rest ps cells s := by
  unfold applyGenPending
  split <;> simp [hps]

@[simp] theorem endSlotOff_rest (hps : ∀ p ∈ signalling ++ [.daq], p ∈ ps) (c : Nat) (s : State) : Rest ps cells
    (endSlotOff c s) = Rest ps cells s := by
  unfold endSlotOff
  simp [hps]

@[simp] theorem applyCfg_rest (hps : ∀ p ∈ signalling ++ [.daq], p ∈ ps) (c : Nat) (new : ChanCfg) (b : Time) (s :
    State) : Rest ps cells (applyCfg c new b s) = Rest ps cells s := by
  unfold applyCfg
  simp [hps]

@[simp] theorem applySub_rest (hps : Part.daq ∈ ps) (a : Nat) (b : Time) (s : State) : Rest ps cells (applySub a b s) =
    Rest ps cells s := by
  unfold applySub
  split <;> simp [hps]

@[simp] theorem applyCoefs_rest (hps : Part.daq ∈ ps) (conv : Nat) (s : State) : Rest ps cells (applyCoefs conv s) =
    Rest ps cells s := by
  unfold applyCoefs
  simp [hps]

@[simp] theorem applyOverlap_rest (hps : Part.daq ∈ ps) (c : Nat) (b : Time) (s : State) : Rest ps cells (applyOverlap c
    b s) = Rest ps cells s := by
  unfold applyOverlap
  simp only []
  repeat' split
  all_goals simp [hps]

@[simp] theorem applyBoundary_rest (hps : ∀ p ∈ signalling ++ [.free, .daq], p ∈ ps) (c : Nat) (b : Time) (s : State) :
    Rest ps cells (applyBoundary c b s) = Rest ps cells s := by
  simp at hps
  unfold applyBoundary
  extract_lets n s1 s2 s3 s4 starts floor s5 s6 s7 s8
  have h1 : Rest ps cells s1 = Rest ps cells s := by simp only [s1]; split <;> simp [hps]
  have h2 : Rest ps cells s2 = Rest ps cells s := by simp [s2, hps, h1]
  have h3 : Rest ps cells s3 = Rest ps cells s := by simp [s3, hps, h2]
  have h4 : Rest ps cells s4 = Rest ps cells s := by simp only [s4]; split <;> simp [hps, h3]
  have h5 : Rest ps cells s5 = Rest ps cells s := by simp [s5, hps, h4]
  have h6 : Rest ps cells s6 = Rest ps cells s := by simp only [s6]; split <;> simp [hps, h5]
  have h7 : Rest ps cells s7 = Rest ps cells s := by simp [s7, hps, h6]
  have h8 : Rest ps cells s8 = Rest ps cells s := by simp only [s8]; split <;> simp [hps, h7]
  split <;> simp [hps, h8]

@[simp] theorem execPendingSettingApply_rest (hps : ∀ p ∈ signalling ++ [.free, .daq], p ∈ ps) (t : Time) (ch : Fin 64)
    (s0 : State) : orest ps cells (Rest ps cells s0) (execPendingSettingApply t ch s0) = Rest ps cells s0 := by
  unfold execPendingSettingApply
  simp only []
  repeat' split
  all_goals simp [hps]

@[simp] theorem execSettlingDelayEnd_rest (hps : ∀ p ∈ [.now, .daq], p ∈ ps) (t : Time) (ch : Fin 64) (s0 : State) :
    orest ps cells (Rest ps cells s0) (execSettlingDelayEnd t ch s0) = Rest ps cells s0 := by
  unfold execSettlingDelayEnd
  simp only []
  repeat' split
  all_goals simp [hps]

/-! ### Route -/

@[simp] theorem reaching_rest (op : Nat) (own : Request → State → Reply) (rq : Request) (s : State) (h_own :
    Rest ps cells (own rq s).st = Rest ps cells s) : Rest ps cells (reaching op own rq s).st = Rest ps cells s := by
  unfold reaching
  simp only []
  split <;> simp [h_own]

@[simp] theorem command_rest (hps : ∀ p ∈ answering ++ [.mgmt], p ∈ ps) (op : Nat) (lenOk : Nat → Bool) (own : Request →
    State → Reply) (t : Time) (rq : Request) (s : State) (h_own : ∀ s, Rest ps cells (own rq s).st = Rest ps cells s) :
    orest ps cells (Rest ps cells s) (command op lenOk own t rq s) = Rest ps cells s := by
  unfold command
  simp [hps, h_own]

@[simp] theorem commandSupply_rest (hps : ∀ p ∈ answering ++ [.mgmt], p ∈ ps) (op : Nat) (lenOk : Nat → Bool) (own :
    Request → State → Reply) (t : Time) (rq : Request) (s : State) (h_own : ∀ s, Rest ps cells (own rq s).st =
    Rest ps cells s) : orest ps cells (Rest ps cells s) (commandSupply op lenOk own t rq s) = Rest ps cells s := by
  unfold commandSupply
  simp [hps, h_own]

@[simp] theorem guardedIn_rest (img : Bool) (cs : List (Bool × BitVec 16)) (s : State) (go : Unit → Reply) (h_go :
    Rest ps cells (go ()).st = Rest ps cells s) : Rest ps cells (guardedIn img cs s go).st = Rest ps cells s := by
  unfold guardedIn
  split <;> simp [h_go]

@[simp] theorem guarded_rest (cs : List (Bool × BitVec 16)) (s : State) (go : Unit → Reply) (h_go : Rest ps cells (go
    ()).st = Rest ps cells s) : Rest ps cells (guarded cs s go).st = Rest ps cells s := by
  unfold guarded
  split <;> simp [h_go]

/-! ### Slots -/

@[simp] theorem putSlot_rest (hps : Part.tact ∈ ps) (i : Nat) (a : Option SlotArm) (s : State) : Rest ps cells (putSlot
    i a s) = Rest ps cells s := by
  unfold putSlot
  simp [hps]

@[simp] theorem slotEvent_rest (hps : ∀ p ∈ signalling, p ∈ ps) (i : Nat) (a : SlotArm) (index : Nat) (skipped : Nat)
    (late : Nat) (f : Nat) (status : BitVec 16) (user : Nat) (s : State) : Rest ps cells (slotEvent i a index skipped
    late f status user s) = Rest ps cells s := by
  unfold slotEvent
  simp [hps]

@[simp] theorem armSlot_rest (hps : ∀ p ∈ signalling ++ [.tact], p ∈ ps) (i : Nat) (p : ArmPlan) (s : State) :
    Rest ps cells (armSlot i p s) = Rest ps cells s := by
  unfold armSlot
  simp [hps]

end Sys2Proof.Machine
end

section
/-! What the operations of the weaves leave alone. -/

set_option maxRecDepth 4000

namespace Sys2Proof.Machine

variable {ps : List Part} {cells : Bool}

/-! ### Weave -/

@[simp] theorem strokeExc_rest (hps : ∀ p ∈ signalling ++ [.daq], p ∈ ps) (c : Nat) (k : Stroke) (b : Time) (s :
    State) : Rest ps cells (strokeExc c k b s) = Rest ps cells s := by
  unfold strokeExc
  simp [hps]

@[simp] theorem beginStroke_rest (hps : ∀ p ∈ signalling ++ [.free, .daq], p ∈ ps) (c : Nat) (i : Nat) (b : Time) (s :
    State) : Rest ps cells (beginStroke c i b s) = Rest ps cells s := by
  unfold beginStroke
  simp only []
  repeat' split
  all_goals simp [hps]

@[simp] theorem beginRound_rest (hps : ∀ p ∈ signalling ++ [.free, .daq], p ∈ ps) (c : Nat) (b : Time) (s : State) :
    Rest ps cells (beginRound c b s) = Rest ps cells s := by
  unfold beginRound
  simp [hps]

@[simp] theorem beginWeave_rest (hps : ∀ p ∈ signalling ++ [.free, .daq], p ∈ ps) (c : Nat) (t0 : Time) (s : State) :
    Rest ps cells (beginWeave c t0 s) = Rest ps cells s := by
  unfold beginWeave
  simp [hps]

@[simp] theorem endWeave_rest (hps : ∀ p ∈ signalling ++ [.free, .daq], p ∈ ps) (c : Nat) (e : Time) (s : State) :
    Rest ps cells (endWeave c e s) = Rest ps cells s := by
  unfold endWeave
  simp only []
  repeat' split
  all_goals simp [hps]

@[simp] theorem afterRound_rest (hps : ∀ p ∈ signalling ++ [.free, .daq], p ∈ ps) (c : Nat) (img : WeaveImg) (e : Time)
    (s : State) : Rest ps cells (afterRound c img e s) = Rest ps cells s := by
  unfold afterRound
  simp [hps]

@[simp] theorem execStrokeBoundary_rest (hps : ∀ p ∈ signalling ++ [.free, .daq], p ∈ ps) (t : Time) (ch : Fin 64) (s0 :
    State) : orest ps cells (Rest ps cells s0) (execStrokeBoundary t ch s0) = Rest ps cells s0 := by
  unfold execStrokeBoundary
  simp only []
  repeat' split
  all_goals simp [hps]

@[simp] theorem execRoundStart_rest (hps : ∀ p ∈ signalling ++ [.free, .daq], p ∈ ps) (t : Time) (ch : Fin 64) (s0 :
    State) : orest ps cells (Rest ps cells s0) (execRoundStart t ch s0) = Rest ps cells s0 := by
  unfold execRoundStart
  simp only []
  repeat' split
  all_goals simp [hps]

@[simp] theorem execWeaveArmedStart_rest (hps : ∀ p ∈ signalling ++ [.free, .daq], p ∈ ps) (t : Time) (ch : Fin 64)
    (s0 : State) : orest ps cells (Rest ps cells s0) (execWeaveArmedStart t ch s0) = Rest ps cells s0 := by
  unfold execWeaveArmedStart
  simp only []
  repeat' split
  all_goals simp [hps]

@[simp] theorem stopWeave_rest (hps : ∀ p ∈ signalling ++ [.free, .daq], p ∈ ps) (mode : Nat) (f : Time) (c : Nat) (s :
    State) : Rest ps cells (stopWeave mode f c s) = Rest ps cells s := by
  unfold stopWeave
  simp only []
  repeat' split
  all_goals simp [hps]

@[simp] theorem ownWeaveLoad_rest (hps : Part.daq ∈ ps) (img : Bool) (rq : Request) (s : State) : Rest ps cells
    (ownWeaveLoad img rq s).st = Rest ps cells s := by
  unfold ownWeaveLoad
  simp only []
  repeat' split
  all_goals simp [hps]

@[simp] theorem execWeaveLoad_rest (hps : ∀ p ∈ answering ++ [.mgmt, .daq], p ∈ ps) (t : Time) (rq : Request) (s :
    State) : orest ps cells (Rest ps cells s) (execWeaveLoad t rq s) = Rest ps cells s := by
  simp at hps
  unfold execWeaveLoad
  simp [hps]

@[simp] theorem ownWeaveStart_rest (hps : ∀ p ∈ signalling ++ [.tact, .daq], p ∈ ps) (rq : Request) (s : State) :
    Rest ps cells (ownWeaveStart rq s).st = Rest ps cells s := by
  simp at hps
  unfold ownWeaveStart
  extract_lets q1 cs trig late tgt arm armAll bad
  have hA : ∀ f s, Rest ps cells (armAll f s) = Rest ps cells s := by
    intro f s
    simp [armAll, hps]
  generalize armAll = armAll at hA
  clear_value trig late arm bad
  repeat' split
  all_goals simp [hA, hps]

@[simp] theorem execWeaveStart_rest (hps : ∀ p ∈ answering ++ [.mgmt, .tact, .daq], p ∈ ps) (t : Time) (rq : Request)
    (s : State) : orest ps cells (Rest ps cells s) (execWeaveStart t rq s) = Rest ps cells s := by
  simp at hps
  unfold execWeaveStart
  simp [hps]

@[simp] theorem ownWeaveStop_rest (hps : ∀ p ∈ signalling ++ [.free, .daq], p ∈ ps) (rq : Request) (s : State) :
    Rest ps cells (ownWeaveStop rq s).st = Rest ps cells s := by
  simp at hps
  unfold ownWeaveStop
  simp [hps]

@[simp] theorem execWeaveStop_rest (hps : ∀ p ∈ answering ++ [.free, .mgmt, .daq], p ∈ ps) (t : Time) (rq : Request)
    (s : State) : orest ps cells (Rest ps cells s) (execWeaveStop t rq s) = Rest ps cells s := by
  simp at hps
  unfold execWeaveStop
  simp [hps]

@[simp] theorem ownWeaveStatus_rest (rq : Request) (s : State) : Rest ps cells (ownWeaveStatus rq s).st = Rest ps cells
    s := by
  unfold ownWeaveStatus
  simp

@[simp] theorem execWeaveStatus_rest (hps : ∀ p ∈ answering ++ [.mgmt], p ∈ ps) (t : Time) (rq : Request) (s : State) :
    orest ps cells (Rest ps cells s) (execWeaveStatus t rq s) = Rest ps cells s := by
  unfold execWeaveStatus
  simp [hps]

/-! ### Cal -/

@[simp] theorem modCalNv_rest (hps : ∀ p ∈ [.nv, .journal], p ∈ ps) (f : CalRegion → CalRegion) (s : State) :
    Rest ps cells (modCalNv f s) = Rest ps cells s := by
  simp at hps
  unfold modCalNv
  simp [hps]

@[simp] theorem storeSets_rest (hps : ∀ p ∈ [.daq, .nv, .journal], p ∈ ps) (conv : Nat) (completed : Bool) (s : State) :
    Rest ps cells (storeSets conv completed s) = Rest ps cells s := by
  unfold storeSets
  simp [hps]

@[simp] theorem recordFailures_rest (hps : ∀ p ∈ [.nv, .journal], p ∈ ps) (s : State) : Rest ps cells (recordFailures s)
    = Rest ps cells s := by
  unfold recordFailures
  simp [hps]

@[simp] theorem flushStores_rest (hps : ∀ p ∈ [.daq, .nv, .journal], p ∈ ps) (s : State) : Rest ps cells (flushStores s)
    = Rest ps cells s := by
  simp at hps
  unfold flushStores
  simp [hps]

@[simp] theorem loadConv_rest (hps : ∀ p ∈ signalling ++ [.daq], p ∈ ps) (conv : Nat) (s : State) : Rest ps cells
    (loadConv conv s) = Rest ps cells s := by
  unfold loadConv
  simp [hps]

@[simp] theorem putSets_rest (hps : ∀ p ∈ [.daq, .nv, .journal], p ∈ ps) (conv : Nat) (sets : List CoefSet) (s :
    State) : Rest ps cells (putSets conv sets s) = Rest ps cells s := by
  unfold putSets
  simp [hps]

@[simp] theorem calRefreshAll_rest (hps : ∀ p ∈ signalling ++ [.daq], p ∈ ps) (s : State) : Rest ps cells (calRefreshAll
    s) = Rest ps cells s := by
  simp at hps
  unfold calRefreshAll
  simp [hps]

@[simp] theorem endSlotAs_rest (hps : ∀ p ∈ signalling ++ [.daq], p ∈ ps) (completed : Bool) (g : Nat) (s : State) :
    Rest ps cells (endSlotAs completed g s) = Rest ps cells s := by
  unfold endSlotAs
  simp [hps]

@[simp] theorem endSlot_rest (hps : ∀ p ∈ signalling ++ [.daq], p ∈ ps) (g : Nat) (s : State) : Rest ps cells (endSlot g
    s) = Rest ps cells s := by
  unfold endSlot
  simp [hps]

@[simp] theorem bringForward_rest (hps : Part.daq ∈ ps) (c : Nat) (s : State) : Rest ps cells (bringForward c s) =
    Rest ps cells s := by
  unfold bringForward
  simp [hps]

@[simp] theorem startSlot_rest (hps : Part.daq ∈ ps) (g : Nat) (c : Nat) (outOf : Bool) (s : State) : Rest ps cells
    (startSlot g c outOf s) = Rest ps cells s := by
  unfold startSlot
  simp [hps]

@[simp] theorem execCalSlotStart_rest (hps : ∀ p ∈ [.now, .daq], p ∈ ps) (t : Time) (g : Fin 8) (tempChange : Nat) (s0 :
    State) : orest ps cells (Rest ps cells s0) (execCalSlotStart t g tempChange s0) = Rest ps cells s0 := by
  unfold execCalSlotStart
  simp only []
  repeat' split
  all_goals simp [hps]

@[simp] theorem execCalSpareCheckDone_rest (hps : ∀ p ∈ [.now, .daq], p ∈ ps) (t : Time) (g : Fin 8) (s0 : State) :
    orest ps cells (Rest ps cells s0) (execCalSpareCheckDone t g s0) = Rest ps cells s0 := by
  unfold execCalSpareCheckDone
  simp [hps]

@[simp] theorem spareFails_rest (hps : ∀ p ∈ signalling ++ [.daq], p ∈ ps) (g : Nat) (firstBad : Time) (s : State) :
    Rest ps cells (spareFails g firstBad s) = Rest ps cells s := by
  unfold spareFails
  simp [hps]

@[simp] theorem execCalOverlapClose_rest (hps : ∀ p ∈ signalling ++ [.daq], p ∈ ps) (t : Time) (g : Fin 8) (s0 :
    State) : orest ps cells (Rest ps cells s0) (execCalOverlapClose t g s0) = Rest ps cells s0 := by
  unfold execCalOverlapClose
  simp only []
  repeat' split
  all_goals simp [hps]

@[simp] theorem switchTo_rest (hps : Part.daq ∈ ps) (c : Nat) (sub : Subst) (m : Merger) (s : State) : Rest ps cells
    (switchTo c sub m s) = Rest ps cells s := by
  unfold switchTo
  simp [hps]

@[simp] theorem handBack_rest (hps : ∀ p ∈ answering ++ [.daq, .nv], p ∈ ps) (g : Nat) (c : Nat) (new : Bool) (s :
    State) : Rest ps cells (handBack g c new s) = Rest ps cells s := by
  unfold handBack
  simp [hps]

@[simp] theorem execCalHandoverSwitch_rest (hps : ∀ p ∈ answering ++ [.daq, .nv], p ∈ ps) (t : Time) (g : Fin 8) (s0 :
    State) : orest ps cells (Rest ps cells s0) (execCalHandoverSwitch t g s0) = Rest ps cells s0 := by
  unfold execCalHandoverSwitch
  simp only []
  repeat' split
  all_goals simp [hps]

@[simp] theorem execCalMeasurementDone_rest (hps : ∀ p ∈ signalling ++ [.daq, .nv, .journal], p ∈ ps) (t : Time) (g :
    Fin 8) (sets : CalResult) (inLimits : Bool) (s0 : State) : orest ps cells (Rest ps cells s0) (execCalMeasurementDone
    t g sets inLimits s0) = Rest ps cells s0 := by
  unfold execCalMeasurementDone
  simp [hps]

@[simp] theorem execSpareRecheckDone_rest (hps : ∀ p ∈ answering ++ [.daq, .nv], p ∈ ps) (t : Time) (g : Fin 8) (good :
    Bool) (s0 : State) : orest ps cells (Rest ps cells s0) (execSpareRecheckDone t g good s0) = Rest ps cells s0 := by
  unfold execSpareRecheckDone
  simp only []
  repeat' split
  all_goals simp [hps]

@[simp] theorem execSpareRecalibrationDone_rest (hps : ∀ p ∈ [.now, .daq, .nv, .journal], p ∈ ps) (t : Time) (g : Fin 8)
    (sets : CalResult) (s0 : State) : orest ps cells (Rest ps cells s0) (execSpareRecalibrationDone t g sets s0) =
    Rest ps cells s0 := by
  unfold execSpareRecalibrationDone
  simp [hps]

@[simp] theorem execCalOverlapLimit_rest (hps : ∀ p ∈ signalling ++ [.daq], p ∈ ps) (t : Time) (g : Fin 8) (s0 :
    State) : orest ps cells (Rest ps cells s0) (execCalOverlapLimit t g s0) = Rest ps cells s0 := by
  unfold execCalOverlapLimit
  simp only []
  repeat' split
  all_goals simp [hps]

@[simp] theorem execCalHandbackDelayed_rest (hps : ∀ p ∈ signalling ++ [.daq], p ∈ ps) (t : Time) (g : Fin 8) (s0 :
    State) : orest ps cells (Rest ps cells s0) (execCalHandbackDelayed t g s0) = Rest ps cells s0 := by
  unfold execCalHandbackDelayed
  simp [hps]

@[simp] theorem newConverter_rest (hps : Part.daq ∈ ps) (c : Nat) (from_ : Time) (s : State) : Rest ps cells
    (newConverter c from_ s) = Rest ps cells s := by
  unfold newConverter
  simp [hps]

@[simp] theorem takeBack_rest (hps : Part.daq ∈ ps) (c : Nat) (s : State) : Rest ps cells (takeBack c s) = Rest ps cells
    s := by
  unfold takeBack
  simp [hps]

@[simp] theorem abandonForFailure_rest (hps : Part.daq ∈ ps) (g : Nat) (s : State) : Rest ps cells (abandonForFailure g
    s) = Rest ps cells s := by
  unfold abandonForFailure
  simp [hps]

@[simp] theorem releaseFails_rest (hps : ∀ p ∈ answering ++ [.daq], p ∈ ps) (g : Nat) (s : State) : Rest ps cells
    (releaseFails g s) = Rest ps cells s := by
  unfold releaseFails
  simp [hps]

@[simp] theorem abandonSlot_rest (hps : ∀ p ∈ signalling ++ [.daq], p ∈ ps) (g : Nat) (s : State) : Rest ps cells
    (abandonSlot g s) = Rest ps cells s := by
  unfold abandonSlot
  simp [hps]

@[simp] theorem abandonAll_rest (hps : ∀ p ∈ signalling ++ [.daq], p ∈ ps) (s : State) : Rest ps cells (abandonAll s) =
    Rest ps cells s := by
  simp at hps
  unfold abandonAll
  simp [hps]

@[simp] theorem substitute_rest (hps : Part.daq ∈ ps) (g : Nat) (c : Nat) (t0 : Time) (s : State) : Rest ps cells
    (substitute g c t0 s) = Rest ps cells s := by
  unfold substitute
  simp [hps]

@[simp] theorem unsubstitute_rest (hps : Part.daq ∈ ps) (c : Nat) (s : State) : Rest ps cells (unsubstitute c s) =
    Rest ps cells s := by
  unfold unsubstitute
  simp [hps]

@[simp] theorem withholdBad_rest (hps : Part.daq ∈ ps) (c : Nat) (substituted : Bool) (firstBad : Time) (s : State) :
    Rest ps cells (withholdBad c substituted firstBad s) = Rest ps cells s := by
  unfold withholdBad
  simp [hps]

@[simp] theorem execChannelFailureDetect_rest (hps : ∀ p ∈ answering ++ [.daq, .nv], p ∈ ps) (t : Time) (g : Fin 8)
    (ch : Option (Fin 8)) (detector : Fin 5) (firstBad : Time) (s0 : State) : orest ps cells (Rest ps cells s0)
    (execChannelFailureDetect t g ch detector firstBad s0) = Rest ps cells s0 := by
  unfold execChannelFailureDetect
  simp only []
  repeat' split
  all_goals simp [hps]

@[simp] theorem execSpareConnect_rest (hps : ∀ p ∈ [.now, .daq], p ∈ ps) (t : Time) (g : Fin 8) (s0 : State) : orest ps
    cells (Rest ps cells s0) (execSpareConnect t g s0) = Rest ps cells s0 := by
  unfold execSpareConnect
  simp only []
  repeat' split
  all_goals simp [hps]

@[simp] theorem execSpareSettleEnd_rest (hps : ∀ p ∈ [.now, .daq], p ∈ ps) (t : Time) (g : Fin 8) (s0 : State) : orest
    ps cells (Rest ps cells s0) (execSpareSettleEnd t g s0) = Rest ps cells s0 := by
  unfold execSpareSettleEnd
  simp only []
  repeat' split
  all_goals simp [hps]

@[simp] theorem execSubstituteBistDone_rest (hps : ∀ p ∈ answering ++ [.daq], p ∈ ps) (t : Time) (g : Fin 8) (passed :
    Bool) (s0 : State) : orest ps cells (Rest ps cells s0) (execSubstituteBistDone t g passed s0) = Rest ps cells
    s0 := by
  unfold execSubstituteBistDone
  simp [hps]

@[simp] theorem execPathMismatchCheck_rest (hps : ∀ p ∈ signalling ++ [.daq], p ∈ ps) (t : Time) (ch : Fin 64) (meanHg :
    Int) (meanLg : Int) (s0 : State) : orest ps cells (Rest ps cells s0) (execPathMismatchCheck t ch meanHg meanLg s0) =
    Rest ps cells s0 := by
  unfold execPathMismatchCheck
  simp only []
  repeat' split
  all_goals simp [hps]

@[simp] theorem execTempCompUpdate_rest (hps : ∀ p ∈ signalling ++ [.daq], p ∈ ps) (t : Time) (g : Fin 8) (s0 : State) :
    orest ps cells (Rest ps cells s0) (execTempCompUpdate t g s0) = Rest ps cells s0 := by
  unfold execTempCompUpdate
  simp only []
  repeat' split
  all_goals simp [hps]

@[simp] theorem ownCalConfig_rest (hps : ∀ p ∈ signalling ++ [.daq], p ∈ ps) (img : Bool) (rq : Request) (s : State) :
    Rest ps cells (ownCalConfig img rq s).st = Rest ps cells s := by
  unfold ownCalConfig
  simp [hps]

@[simp] theorem execCalConfig_rest (hps : ∀ p ∈ answering ++ [.mgmt, .daq], p ∈ ps) (t : Time) (rq : Request) (s :
    State) : orest ps cells (Rest ps cells s) (execCalConfig t rq s) = Rest ps cells s := by
  simp at hps
  unfold execCalConfig
  simp [hps]

@[simp] theorem ownCalStart_rest (hps : Part.daq ∈ ps) (rq : Request) (s : State) : Rest ps cells (ownCalStart rq s).st
    = Rest ps cells s := by
  unfold ownCalStart
  simp [hps]

@[simp] theorem execCalStart_rest (hps : ∀ p ∈ answering ++ [.mgmt, .daq], p ∈ ps) (t : Time) (rq : Request) (s :
    State) : orest ps cells (Rest ps cells s) (execCalStart t rq s) = Rest ps cells s := by
  simp at hps
  unfold execCalStart
  simp [hps]

@[simp] theorem ownCalStop_rest (hps : ∀ p ∈ signalling ++ [.daq], p ∈ ps) (rq : Request) (s : State) : Rest ps cells
    (ownCalStop rq s).st = Rest ps cells s := by
  simp at hps
  unfold ownCalStop
  simp [hps]

@[simp] theorem execCalStop_rest (hps : ∀ p ∈ answering ++ [.mgmt, .daq], p ∈ ps) (t : Time) (rq : Request) (s :
    State) : orest ps cells (Rest ps cells s) (execCalStop t rq s) = Rest ps cells s := by
  simp at hps
  unfold execCalStop
  simp [hps]

@[simp] theorem ownCalRead_rest (readable : Bool) (rq : Request) (s : State) : Rest ps cells (ownCalRead readable rq
    s).st = Rest ps cells s := by
  unfold ownCalRead
  simp

@[simp] theorem execCalRead_rest (hps : ∀ p ∈ answering ++ [.mgmt], p ∈ ps) (t : Time) (rq : Request) (readable : Bool)
    (s : State) : orest ps cells (Rest ps cells s) (execCalRead t rq readable s) = Rest ps cells s := by
  unfold execCalRead
  simp [hps]

@[simp] theorem ownCalWrite_rest (hps : ∀ p ∈ [.daq, .nv, .journal], p ∈ ps) (rq : Request) (s : State) : Rest ps cells
    (ownCalWrite rq s).st = Rest ps cells s := by
  unfold ownCalWrite
  simp [hps]

@[simp] theorem execCalWrite_rest (hps : ∀ p ∈ answering ++ [.mgmt, .daq, .nv], p ∈ ps) (t : Time) (rq : Request) (s :
    State) : orest ps cells (Rest ps cells s) (execCalWrite t rq s) = Rest ps cells s := by
  simp at hps
  unfold execCalWrite
  simp [hps]

@[simp] theorem ownCalRestoreFactory_rest (hps : ∀ p ∈ [.daq, .nv, .journal], p ∈ ps) (rq : Request) (s : State) :
    Rest ps cells (ownCalRestoreFactory rq s).st = Rest ps cells s := by
  simp at hps
  unfold ownCalRestoreFactory
  simp [hps]

@[simp] theorem execCalRestoreFactory_rest (hps : ∀ p ∈ answering ++ [.mgmt, .daq, .nv], p ∈ ps) (t : Time) (rq :
    Request) (s : State) : orest ps cells (Rest ps cells s) (execCalRestoreFactory t rq s) = Rest ps cells s := by
  simp at hps
  unfold execCalRestoreFactory
  simp [hps]

/-! ### Acquire -/

@[simp] theorem modOper_rest (hps : Part.oper ∈ ps) (n : Nat) (f : OpSlot → OpSlot) (s : State) : Rest ps cells (modOper
    n f s) = Rest ps cells s := by
  unfold modOper
  simp [hps]

@[simp] theorem opDeliver_rest (hps : ∀ p ∈ [.daq, .oper], p ∈ ps) (n : Nat) (ins : List Nat) (node : Option (BitVec
    16)) (a : Nat) (r : QRec) (gapBefore : Bool) (s : State) : Rest ps cells (opDeliver n ins node a r gapBefore s) =
    Rest ps cells s := by
  unfold opDeliver
  simp [hps]

@[simp] theorem opDeliverAll_rest (hps : ∀ p ∈ [.daq, .oper], p ∈ ps) (node : Option (BitVec 16)) (a : Nat) (r : QRec)
    (gap : Bool) (s : State) : Rest ps cells (opDeliverAll node a r gap s) = Rest ps cells s := by
  simp at hps
  unfold opDeliverAll
  simp [hps]

@[simp] theorem execRecordDispatch_rest (hps : ∀ p ∈ [.now, .host, .daq, .frames, .oper], p ∈ ps) (t : Time) (ch : Fin
    64) (s0 : State) : orest ps cells (Rest ps cells s0) (execRecordDispatch t ch s0) = Rest ps cells s0 := by
  unfold execRecordDispatch
  simp [hps]
  repeat' (first | (simp [hps]; done) | (split <;> simp_all <;> done) | split)

@[simp] theorem modBlank_rest (hps : Part.daq ∈ ps) (i : Nat) (f : BlankSrc → BlankSrc) (s : State) : Rest ps cells
    (modBlank i f s) = Rest ps cells s := by
  unfold modBlank
  simp [hps]

@[simp] theorem blankOn_rest (hps : Part.daq ∈ ps) (i : Nat) (rise : Time) (from_ : Time) (s : State) : Rest ps cells
    (blankOn i rise from_ s) = Rest ps cells s := by
  unfold blankOn
  simp [hps]

@[simp] theorem blankOff_rest (hps : ∀ p ∈ signalling ++ [.daq], p ∈ ps) (i : Nat) (fall : Time) (to_ : Time) (s :
    State) : Rest ps cells (blankOff i fall to_ s) = Rest ps cells s := by
  simp at hps
  unfold blankOff
  simp [hps]

@[simp] theorem execBlankAssert_rest (hps : ∀ p ∈ [.now, .daq], p ∈ ps) (t : Time) (pin : Fin 4) (widthNs : Nat) (s0 :
    State) : orest ps cells (Rest ps cells s0) (execBlankAssert t pin widthNs s0) = Rest ps cells s0 := by
  unfold execBlankAssert
  simp [hps]

@[simp] theorem execBlankRelease_rest (hps : ∀ p ∈ signalling ++ [.daq], p ∈ ps) (t : Time) (pin : Fin 4) (s0 : State) :
    orest ps cells (Rest ps cells s0) (execBlankRelease t pin s0) = Rest ps cells s0 := by
  unfold execBlankRelease
  simp [hps]

@[simp] theorem execBlankStuck_rest (hps : ∀ p ∈ signalling ++ [.daq], p ∈ ps) (t : Time) (src : Fin 8) (s0 : State) :
    orest ps cells (Rest ps cells s0) (execBlankStuck t src s0) = Rest ps cells s0 := by
  unfold execBlankStuck
  simp [hps]

@[simp] theorem execTblkWindowEnd_rest (hps : ∀ p ∈ signalling ++ [.daq], p ∈ ps) (t : Time) (line : Fin 4) (s0 :
    State) : orest ps cells (Rest ps cells s0) (execTblkWindowEnd t line s0) = Rest ps cells s0 := by
  unfold execTblkWindowEnd
  simp only []
  repeat' split
  all_goals simp [hps]

@[simp] theorem blankWindow_rest (hps : Part.daq ∈ ps) (line : Nat) (f : Time) (end_ : Time) (s : State) : Rest ps cells
    (blankWindow line f end_ s) = Rest ps cells s := by
  unfold blankWindow
  simp [hps]

@[simp] theorem addSync_rest (hps : Part.daq ∈ ps) (g : Nat) (at_ : Time) (s : State) : Rest ps cells (addSync g at_ s)
    = Rest ps cells s := by
  unfold addSync
  simp [hps]

@[simp] theorem execSyncNEdge_rest (hps : ∀ p ∈ [.now, .daq], p ∈ ps) (t : Time) (lowNs : Nat) (s0 : State) : orest ps
    cells (Rest ps cells s0) (execSyncNEdge t lowNs s0) = Rest ps cells s0 := by
  simp at hps
  unfold execSyncNEdge
  simp [hps]

@[simp] theorem syncGrid_rest (hps : ∀ p ∈ signalling ++ [.free, .daq], p ∈ ps) (c : Nat) (ts : Time) (s : State) :
    Rest ps cells (syncGrid c ts s) = Rest ps cells s := by
  unfold syncGrid
  simp [hps]

@[simp] theorem syncChan_rest (hps : ∀ p ∈ signalling ++ [.free, .daq], p ∈ ps) (c : Nat) (ts : Time) (s : State) :
    Rest ps cells (syncChan c ts s) = Rest ps cells s := by
  unfold syncChan
  simp [hps]
  repeat' (first | (simp [hps]; done) | (split <;> simp_all <;> done) | split)

@[simp] theorem syncGroup_rest (hps : ∀ p ∈ signalling ++ [.free, .daq], p ∈ ps) (g : Nat) (ts : Time) (s : State) :
    Rest ps cells (syncGroup g ts s) = Rest ps cells s := by
  simp at hps
  unfold syncGroup
  simp [hps]

@[simp] theorem execGroupSync_rest (hps : ∀ p ∈ signalling ++ [.free, .daq], p ∈ ps) (t : Time) (g : Fin 8) (s0 :
    State) : orest ps cells (Rest ps cells s0) (execGroupSync t g s0) = Rest ps cells s0 := by
  unfold execGroupSync
  simp only []
  repeat' split
  all_goals simp [hps]

@[simp] theorem execRefValidityChange_rest (hps : ∀ p ∈ signalling ++ [.daq], p ∈ ps) (t : Time) (gen : Option (Fin 16))
    (valid : Bool) (s0 : State) : orest ps cells (Rest ps cells s0) (execRefValidityChange t gen valid s0) =
    Rest ps cells s0 := by
  simp at hps
  unfold execRefValidityChange
  split <;> simp [hps]

@[simp] theorem execExcComplianceChange_rest (hps : ∀ p ∈ signalling ++ [.daq], p ∈ ps) (t : Time) (n : Fin 16) (entry :
    Bool) (s0 : State) : orest ps cells (Rest ps cells s0) (execExcComplianceChange t n entry s0) = Rest ps cells
    s0 := by
  unfold execExcComplianceChange
  simp [hps]

@[simp] theorem execExcTrip_rest (hps : ∀ p ∈ signalling ++ [.daq], p ∈ ps) (t : Time) (n : Fin 16) (pins : Fin 3) (s0 :
    State) : orest ps cells (Rest ps cells s0) (execExcTrip t n pins s0) = Rest ps cells s0 := by
  unfold execExcTrip
  simp [hps]

@[simp] theorem execExcOverload_rest (hps : ∀ p ∈ signalling ++ [.daq], p ∈ ps) (t : Time) (n : Fin 16) (averageMa :
    Nat) (belowFor : Nat) (s0 : State) : orest ps cells (Rest ps cells s0) (execExcOverload t n averageMa belowFor s0) =
    Rest ps cells s0 := by
  unfold execExcOverload
  simp [hps]

@[simp] theorem execLeadDropMeasure_rest (hps : ∀ p ∈ signalling ++ [.daq], p ∈ ps) (t : Time) (n : Fin 16) (dropP :
    Int) (dropN : Int) (s0 : State) : orest ps cells (Rest ps cells s0) (execLeadDropMeasure t n dropP dropN s0) =
    Rest ps cells s0 := by
  unfold execLeadDropMeasure
  simp [hps]

@[simp] theorem execAcPolaritySwap_rest (hps : ∀ p ∈ [.now, .daq], p ∈ ps) (t : Time) (n : Fin 16) (s0 : State) : orest
    ps cells (Rest ps cells s0) (execAcPolaritySwap t n s0) = Rest ps cells s0 := by
  unfold execAcPolaritySwap
  simp [hps]

@[simp] theorem execAcDeadTimeEnd_rest (hps : ∀ p ∈ [.now, .daq], p ∈ ps) (t : Time) (n : Fin 16) (s0 : State) : orest
    ps cells (Rest ps cells s0) (execAcDeadTimeEnd t n s0) = Rest ps cells s0 := by
  unfold execAcDeadTimeEnd
  simp only []
  repeat' split
  all_goals simp [hps]

@[simp] theorem loopDev_rest (hps : Part.free ∈ ps) (g : Gen) (mean : Int) (s : State) : Rest ps cells (loopDev g mean
    s).2 = Rest ps cells s := by
  unfold loopDev
  split <;> simp [hps]

@[simp] theorem execLoopbackEnd_rest (hps : ∀ p ∈ answering ++ [.free, .daq], p ∈ ps) (t : Time) (ch : Fin 64) (mean :
    Int) (rms : Int) (count : Nat) (s0 : State) : orest ps cells (Rest ps cells s0) (execLoopbackEnd t ch mean rms count
    s0) = Rest ps cells s0 := by
  unfold execLoopbackEnd
  simp only []
  repeat' split
  all_goals simp [hps]

end Sys2Proof.Machine
end

section
/-! What the operations of the channels leave alone. -/

set_option maxRecDepth 4000

namespace Sys2Proof.Machine

variable {ps : List Part} {cells : Bool}

/-! ### Chan -/

@[simp] theorem ownChanConfig_rest (hps : Part.daq ∈ ps) (img : Bool) (rq : Request) (s : State) : Rest ps cells
    (ownChanConfig img rq s).st = Rest ps cells s := by
  unfold ownChanConfig
  simp [hps]

@[simp] theorem execChanConfig_rest (hps : ∀ p ∈ answering ++ [.mgmt, .daq], p ∈ ps) (t : Time) (rq : Request) (s :
    State) : orest ps cells (Rest ps cells s) (execChanConfig t rq s) = Rest ps cells s := by
  simp at hps
  unfold execChanConfig
  simp [hps]

@[simp] theorem ownChanSetInput_rest (hps : Part.daq ∈ ps) (rq : Request) (s : State) : Rest ps cells (ownChanSetInput
    rq s).st = Rest ps cells s := by
  unfold ownChanSetInput
  simp [hps]

@[simp] theorem execChanSetInput_rest (hps : ∀ p ∈ answering ++ [.mgmt, .daq], p ∈ ps) (t : Time) (rq : Request) (s :
    State) : orest ps cells (Rest ps cells s) (execChanSetInput t rq s) = Rest ps cells s := by
  simp at hps
  unfold execChanSetInput
  simp [hps]

@[simp] theorem ownChanStatus_rest (rq : Request) (s : State) : Rest ps cells (ownChanStatus rq s).st = Rest ps cells
    s := by
  unfold ownChanStatus
  simp

@[simp] theorem execChanStatus_rest (hps : ∀ p ∈ answering ++ [.mgmt], p ∈ ps) (t : Time) (rq : Request) (s : State) :
    orest ps cells (Rest ps cells s) (execChanStatus t rq s) = Rest ps cells s := by
  unfold execChanStatus
  simp [hps]

@[simp] theorem recordFirst_rest (hps : ∀ p ∈ [.nv, .journal], p ∈ ps) (c : Nat) (s : State) : Rest ps cells
    (recordFirst c s) = Rest ps cells s := by
  unfold recordFirst
  simp [hps]

@[simp] theorem moveSpare_rest (hps : ∀ p ∈ [.daq, .nv, .journal], p ∈ ps) (g : Nat) (c : Nat) (s : State) :
    Rest ps cells (moveSpare g c s) = Rest ps cells s := by
  unfold moveSpare
  split <;> simp [hps]

@[simp] theorem ownChanSubstitute_rest (hps : ∀ p ∈ [.daq, .nv, .journal], p ∈ ps) (rq : Request) (s : State) :
    Rest ps cells (ownChanSubstitute rq s).st = Rest ps cells s := by
  simp at hps
  unfold ownChanSubstitute
  simp [hps]

@[simp] theorem execChanSubstitute_rest (hps : ∀ p ∈ answering ++ [.mgmt, .daq, .nv], p ∈ ps) (t : Time) (rq : Request)
    (s : State) : orest ps cells (Rest ps cells s) (execChanSubstitute t rq s) = Rest ps cells s := by
  simp at hps
  unfold execChanSubstitute
  simp [hps]

@[simp] theorem ownChanConfigBlank_rest (hps : Part.daq ∈ ps) (rq : Request) (s : State) : Rest ps cells
    (ownChanConfigBlank rq s).st = Rest ps cells s := by
  unfold ownChanConfigBlank
  simp [hps]

@[simp] theorem execChanConfigBlank_rest (hps : ∀ p ∈ answering ++ [.mgmt, .daq], p ∈ ps) (t : Time) (rq : Request) (s :
    State) : orest ps cells (Rest ps cells s) (execChanConfigBlank t rq s) = Rest ps cells s := by
  simp at hps
  unfold execChanConfigBlank
  simp [hps]

@[simp] theorem ownExcConfig_rest (hps : ∀ p ∈ signalling ++ [.daq], p ∈ ps) (img : Bool) (rq : Request) (s : State) :
    Rest ps cells (ownExcConfig img rq s).st = Rest ps cells s := by
  simp at hps
  unfold ownExcConfig
  simp [hps]

@[simp] theorem execExcConfig_rest (hps : ∀ p ∈ answering ++ [.mgmt, .daq], p ∈ ps) (t : Time) (rq : Request) (s :
    State) : orest ps cells (Rest ps cells s) (execExcConfig t rq s) = Rest ps cells s := by
  simp at hps
  unfold execExcConfig
  simp [hps]

@[simp] theorem ownExcStatus_rest (rq : Request) (s : State) : Rest ps cells (ownExcStatus rq s).st = Rest ps cells
    s := by
  unfold ownExcStatus
  simp

@[simp] theorem execExcStatus_rest (hps : ∀ p ∈ answering ++ [.mgmt], p ∈ ps) (t : Time) (rq : Request) (s : State) :
    orest ps cells (Rest ps cells s) (execExcStatus t rq s) = Rest ps cells s := by
  unfold execExcStatus
  simp [hps]

@[simp] theorem ownExcLoopback_rest (hps : Part.daq ∈ ps) (rq : Request) (s : State) : Rest ps cells (ownExcLoopback rq
    s).st = Rest ps cells s := by
  unfold ownExcLoopback
  simp [hps]

@[simp] theorem execExcLoopback_rest (hps : ∀ p ∈ answering ++ [.mgmt, .daq], p ∈ ps) (t : Time) (rq : Request) (s :
    State) : orest ps cells (Rest ps cells s) (execExcLoopback t rq s) = Rest ps cells s := by
  simp at hps
  unfold execExcLoopback
  simp [hps]

/-! ### Filt -/

@[simp] theorem modInst_rest (hps : Part.daq ∈ ps) (c : Nat) (shadow : Bool) (f : FiltInst → FiltInst) (s : State) :
    Rest ps cells (modInst c shadow f s) = Rest ps cells s := by
  unfold modInst
  simp [hps]

@[simp] theorem ownFiltConfig_rest (hps : Part.daq ∈ ps) (img : Bool) (rq : Request) (s : State) : Rest ps cells
    (ownFiltConfig img rq s).st = Rest ps cells s := by
  unfold ownFiltConfig
  simp [hps]

@[simp] theorem execFiltConfig_rest (hps : ∀ p ∈ answering ++ [.mgmt, .daq], p ∈ ps) (t : Time) (rq : Request) (s :
    State) : orest ps cells (Rest ps cells s) (execFiltConfig t rq s) = Rest ps cells s := by
  simp at hps
  unfold execFiltConfig
  simp [hps]

@[simp] theorem ownFiltLoadBank_rest (hps : Part.daq ∈ ps) (img : Bool) (rq : Request) (s : State) : Rest ps cells
    (ownFiltLoadBank img rq s).st = Rest ps cells s := by
  unfold ownFiltLoadBank
  simp only []
  repeat' split
  all_goals simp [hps]

@[simp] theorem execFiltLoadBank_rest (hps : ∀ p ∈ answering ++ [.mgmt, .daq], p ∈ ps) (t : Time) (rq : Request) (s :
    State) : orest ps cells (Rest ps cells s) (execFiltLoadBank t rq s) = Rest ps cells s := by
  simp at hps
  unfold execFiltLoadBank
  simp [hps]

@[simp] theorem ownFiltSelectMode_rest (hps : Part.daq ∈ ps) (img : Bool) (rq : Request) (s : State) : Rest ps cells
    (ownFiltSelectMode img rq s).st = Rest ps cells s := by
  unfold ownFiltSelectMode
  simp [hps]

@[simp] theorem execFiltSelectMode_rest (hps : ∀ p ∈ answering ++ [.mgmt, .daq], p ∈ ps) (t : Time) (rq : Request) (s :
    State) : orest ps cells (Rest ps cells s) (execFiltSelectMode t rq s) = Rest ps cells s := by
  simp at hps
  unfold execFiltSelectMode
  simp [hps]

@[simp] theorem ownFiltStart_rest (hps : Part.daq ∈ ps) (rq : Request) (s : State) : Rest ps cells (ownFiltStart rq
    s).st = Rest ps cells s := by
  unfold ownFiltStart
  simp [hps]

@[simp] theorem execFiltStart_rest (hps : ∀ p ∈ answering ++ [.mgmt, .daq], p ∈ ps) (t : Time) (rq : Request) (s :
    State) : orest ps cells (Rest ps cells s) (execFiltStart t rq s) = Rest ps cells s := by
  simp at hps
  unfold execFiltStart
  simp [hps]

@[simp] theorem ownFiltStop_rest (hps : Part.daq ∈ ps) (rq : Request) (s : State) : Rest ps cells (ownFiltStop rq s).st
    = Rest ps cells s := by
  unfold ownFiltStop
  simp [hps]

@[simp] theorem execFiltStop_rest (hps : ∀ p ∈ answering ++ [.mgmt, .daq], p ∈ ps) (t : Time) (rq : Request) (s :
    State) : orest ps cells (Rest ps cells s) (execFiltStop t rq s) = Rest ps cells s := by
  simp at hps
  unfold execFiltStop
  simp [hps]

@[simp] theorem ownFiltCrossfade_rest (hps : Part.daq ∈ ps) (rq : Request) (s : State) : Rest ps cells (ownFiltCrossfade
    rq s).st = Rest ps cells s := by
  unfold ownFiltCrossfade
  simp [hps]

@[simp] theorem execFiltCrossfade_rest (hps : ∀ p ∈ answering ++ [.mgmt, .daq], p ∈ ps) (t : Time) (rq : Request) (s :
    State) : orest ps cells (Rest ps cells s) (execFiltCrossfade t rq s) = Rest ps cells s := by
  simp at hps
  unfold execFiltCrossfade
  simp [hps]

@[simp] theorem ownFiltSync_rest (hps : ∀ p ∈ signalling ++ [.tact, .daq], p ∈ ps) (rq : Request) (s : State) :
    Rest ps cells (ownFiltSync rq s).st = Rest ps cells s := by
  simp at hps
  unfold ownFiltSync
  simp only []
  repeat' split
  all_goals simp [hps]

@[simp] theorem execFiltSync_rest (hps : ∀ p ∈ answering ++ [.mgmt, .tact, .daq], p ∈ ps) (t : Time) (rq : Request) (s :
    State) : orest ps cells (Rest ps cells s) (execFiltSync t rq s) = Rest ps cells s := by
  simp at hps
  unfold execFiltSync
  simp [hps]

@[simp] theorem ownFiltStatus_rest (rq : Request) (s : State) : Rest ps cells (ownFiltStatus rq s).st = Rest ps cells
    s := by
  unfold ownFiltStatus
  simp

@[simp] theorem execFiltStatus_rest (hps : ∀ p ∈ answering ++ [.mgmt], p ∈ ps) (t : Time) (rq : Request) (s : State) :
    orest ps cells (Rest ps cells s) (execFiltStatus t rq s) = Rest ps cells s := by
  unfold execFiltStatus
  simp [hps]

/-! ### Rec -/

@[simp] theorem ownRecSubscribe_rest (hps : Part.daq ∈ ps) (img : Bool) (rq : Request) (s : State) : Rest ps cells
    (ownRecSubscribe img rq s).st = Rest ps cells s := by
  unfold ownRecSubscribe
  simp [hps]

@[simp] theorem execRecSubscribe_rest (hps : ∀ p ∈ answering ++ [.mgmt, .daq], p ∈ ps) (t : Time) (rq : Request) (s :
    State) : orest ps cells (Rest ps cells s) (execRecSubscribe t rq s) = Rest ps cells s := by
  simp at hps
  unfold execRecSubscribe
  simp [hps]

@[simp] theorem ownRecStatus_rest (rq : Request) (s : State) : Rest ps cells (ownRecStatus rq s).st = Rest ps cells
    s := by
  unfold ownRecStatus
  simp

@[simp] theorem execRecStatus_rest (hps : ∀ p ∈ answering ++ [.mgmt], p ∈ ps) (t : Time) (rq : Request) (s : State) :
    orest ps cells (Rest ps cells s) (execRecStatus t rq s) = Rest ps cells s := by
  unfold execRecStatus
  simp [hps]

end Sys2Proof.Machine
end

section
/-! What the operations of the time service leave alone. -/

set_option maxRecDepth 4000

namespace Sys2Proof.Machine

variable {ps : List Part} {cells : Bool}

/-! ### Time -/

@[simp] theorem modTime_rest (hps : Part.time ∈ ps) (f : TimeSt → TimeSt) (s : State) : Rest ps cells (modTime f s) =
    Rest ps cells s := by
  unfold modTime
  simp [hps]

@[simp] theorem modDom_rest (hps : Part.time ∈ ps) (d : Nat) (f : Domain → Domain) (s : State) : Rest ps cells (modDom d
    f s) = Rest ps cells s := by
  unfold modDom
  simp [hps]

@[simp] theorem modTod_rest (hps : Part.time ∈ ps) (f : TodSt → TodSt) (s : State) : Rest ps cells (modTod f s) =
    Rest ps cells s := by
  unfold modTod
  simp [hps]

@[simp] theorem modPtp_rest (hps : Part.time ∈ ps) (p : Nat) (f : PtpPort → PtpPort) (s : State) : Rest ps cells (modPtp
    p f s) = Rest ps cells s := by
  unfold modPtp
  simp [hps]

@[simp] theorem noteY_rest (hps : Part.time ∈ ps) (s : State) : Rest ps cells (noteY s) = Rest ps cells s := by
  unfold noteY
  split <;> simp [hps]

@[simp] theorem advance_rest (hps : Part.time ∈ ps) (s : State) : Rest ps cells (advance s) = Rest ps cells s := by
  unfold advance
  simp [hps]

@[simp] theorem setY_rest (hps : Part.time ∈ ps) (y : Int) (s : State) : Rest ps cells (setY y s) = Rest ps cells
    s := by
  unfold setY
  simp [hps]

@[simp] theorem releaseDom_rest (hps : Part.time ∈ ps) (s : State) : Rest ps cells (releaseDom s) = Rest ps cells
    s := by
  unfold releaseDom
  simp [hps]

@[simp] theorem noteLimit_rest (hps : ∀ p ∈ signalling, p ∈ ps) (s : State) : Rest ps cells (noteLimit s) =
    Rest ps cells s := by
  unfold noteLimit
  simp [hps]

@[simp] theorem switchDom_rest (hps : ∀ p ∈ signalling ++ [.time], p ∈ ps) (n : Nat) (s : State) : Rest ps cells
    (switchDom n s) = Rest ps cells s := by
  unfold switchDom
  simp [hps]

@[simp] theorem noteBin_rest (hps : Part.time ∈ ps) (s : State) : Rest ps cells (noteBin s) = Rest ps cells s := by
  unfold noteBin
  simp [hps]

@[simp] theorem followTable_rest (hps : Part.time ∈ ps) (s0 : State) : Rest ps cells (followTable s0) = Rest ps cells
    s0 := by
  unfold followTable
  simp [hps]

@[simp] theorem enterHoldover_rest (hps : Part.time ∈ ps) (s : State) : Rest ps cells (enterHoldover s) = Rest ps cells
    s := by
  unfold enterHoldover
  simp [hps]

@[simp] theorem enterFree_rest (hps : Part.time ∈ ps) (y : Int) (s : State) : Rest ps cells (enterFree y s) =
    Rest ps cells s := by
  unfold enterFree
  simp [hps]

@[simp] theorem autoSync_rest (hps : Part.daq ∈ ps) (s : State) : Rest ps cells (autoSync s) = Rest ps cells s := by
  unfold autoSync
  simp [hps]

@[simp] theorem toState_rest (hps : ∀ p ∈ signalling ++ [.time, .daq], p ∈ ps) (d : Nat) (new : DomState) (s : State) :
    Rest ps cells (toState d new s) = Rest ps cells s := by
  unfold toState
  simp [hps]

@[simp] theorem quietTime_rest (hps : Part.time ∈ ps) (s : State) : Rest ps cells (quietTime s) = Rest ps cells s := by
  unfold quietTime
  simp [hps]

@[simp] theorem chooseDom_rest (hps : ∀ p ∈ signalling ++ [.time], p ∈ ps) (s : State) : Rest ps cells (chooseDom s) =
    Rest ps cells s := by
  unfold chooseDom
  simp only []
  repeat' split
  all_goals simp [hps]

@[simp] theorem decideStep_rest (hps : Part.time ∈ ps) (delta : Int) (cause : StepCause) (origin : Option Nat) (s :
    State) : Rest ps cells (decideStep delta cause origin s) = Rest ps cells s := by
  unfold decideStep
  split <;> simp [hps]

@[simp] theorem largeOffset_rest (hps : ∀ p ∈ signalling ++ [.time, .daq], p ∈ ps) (d : Nat) (s : State) : Rest ps cells
    (largeOffset d s) = Rest ps cells s := by
  unfold largeOffset
  simp [hps]

@[simp] theorem smallOffset_rest (hps : ∀ p ∈ signalling ++ [.time, .daq], p ∈ ps) (d : Nat) (own : Int) (tb : Int) (s :
    State) : Rest ps cells (smallOffset d own tb s) = Rest ps cells s := by
  unfold smallOffset
  simp [hps]

@[simp] theorem bigOffset_rest (hps : ∀ p ∈ signalling ++ [.time, .daq], p ∈ ps) (d : Nat) (own : Int) (tb : Int) (s :
    State) : Rest ps cells (bigOffset d own tb s) = Rest ps cells s := by
  unfold bigOffset
  simp [hps]

@[simp] theorem measure_rest (hps : ∀ p ∈ signalling ++ [.time, .daq], p ∈ ps) (d : Nat) (raw : Int) (rootUnc : Bool)
    (s0 : State) : Rest ps cells (measure d raw rootUnc s0) = Rest ps cells s0 := by
  unfold measure
  simp [hps]

@[simp] theorem missed_rest (hps : ∀ p ∈ signalling ++ [.time, .daq], p ∈ ps) (d : Nat) (s : State) : Rest ps cells
    (missed d s) = Rest ps cells s := by
  unfold missed
  simp [hps]

@[simp] theorem supplyUtc_rest (hps : Part.time ∈ ps) (d : Nat) (valid : Bool) (offset : Int) (l61 : Bool) (l59 : Bool)
    (leapTime : Nat) (s : State) : Rest ps cells (supplyUtc d valid offset l61 l59 leapTime s) = Rest ps cells s := by
  unfold supplyUtc
  simp [hps]

@[simp] theorem dIn_rest (hps : Part.free ∈ ps) (s : State) (port : Nat) (rt : Option Int) : Rest ps cells (dIn s port
    rt).2 = Rest ps cells s := by
  unfold dIn
  split <;> simp [hps]

@[simp] theorem frameAt_rest (hps : ∀ p ∈ signalling ++ [.free, .time, .daq], p ∈ ps) (d : Nat) (f : TimeFrame) (s :
    State) : Rest ps cells (frameAt d f s) = Rest ps cells s := by
  unfold frameAt
  simp [hps]

@[simp] theorem execTimeFrameRx_rest (hps : ∀ p ∈ signalling ++ [.free, .time, .daq], p ∈ ps) (t : Time) (f : TimeFrame)
    (s0 : State) : orest ps cells (Rest ps cells s0) (execTimeFrameRx t f s0) = Rest ps cells s0 := by
  unfold execTimeFrameRx
  simp [hps]

@[simp] theorem execTimeCopySwitch_rest (hps : ∀ p ∈ [.now, .time], p ∈ ps) (t : Time) (d : Fin 2) (s0 : State) : orest
    ps cells (Rest ps cells s0) (execTimeCopySwitch t d s0) = Rest ps cells s0 := by
  unfold execTimeCopySwitch
  simp only []
  repeat' split
  all_goals simp [hps]

@[simp] theorem execDomainSignalLoss_rest (hps : ∀ p ∈ signalling ++ [.time, .daq], p ∈ ps) (t : Time) (d : Fin 2) (s0 :
    State) : orest ps cells (Rest ps cells s0) (execDomainSignalLoss t d s0) = Rest ps cells s0 := by
  unfold execDomainSignalLoss
  simp [hps]

@[simp] theorem execSlewComplete_rest (hps : ∀ p ∈ [.now, .time], p ∈ ps) (t : Time) (s0 : State) : orest ps cells
    (Rest ps cells s0) (execSlewComplete t s0) = Rest ps cells s0 := by
  unfold execSlewComplete
  simp [hps]

@[simp] theorem execRevertiveSwitch_rest (hps : ∀ p ∈ signalling ++ [.time], p ∈ ps) (t : Time) (s0 : State) : orest ps
    cells (Rest ps cells s0) (execRevertiveSwitch t s0) = Rest ps cells s0 := by
  unfold execRevertiveSwitch
  simp [hps]

@[simp] theorem execFaultRecovery_rest (hps : ∀ p ∈ signalling ++ [.time, .daq], p ∈ ps) (t : Time) (d : Fin 2) (s0 :
    State) : orest ps cells (Rest ps cells s0) (execFaultRecovery t d s0) = Rest ps cells s0 := by
  unfold execFaultRecovery
  simp only []
  repeat' split
  all_goals simp [hps]

@[simp] theorem execHoldoverLearn_rest (hps : ∀ p ∈ [.now, .time], p ∈ ps) (t : Time) (s0 : State) : orest ps cells
    (Rest ps cells s0) (execHoldoverLearn t s0) = Rest ps cells s0 := by
  unfold execHoldoverLearn
  simp [hps]

@[simp] theorem execHoldoverTableWrite_rest (hps : ∀ p ∈ [.now, .time, .nv, .journal], p ∈ ps) (t : Time) (s0 : State) :
    orest ps cells (Rest ps cells s0) (execHoldoverTableWrite t s0) = Rest ps cells s0 := by
  unfold execHoldoverTableWrite
  simp [hps]

@[simp] theorem execHoldoverBoundExpiry_rest (hps : ∀ p ∈ [.now, .time], p ∈ ps) (t : Time) (s0 : State) : orest ps
    cells (Rest ps cells s0) (execHoldoverBoundExpiry t s0) = Rest ps cells s0 := by
  unfold execHoldoverBoundExpiry
  simp [hps]

@[simp] theorem execLeapEvent_rest (hps : ∀ p ∈ [.now, .time], p ∈ ps) (t : Time) (s0 : State) : orest ps cells
    (Rest ps cells s0) (execLeapEvent t s0) = Rest ps cells s0 := by
  unfold execLeapEvent
  simp only []
  repeat' split
  all_goals simp [hps]

@[simp] theorem execTimeFrameTx_rest (hps : ∀ p ∈ [.now, .discards, .frames, .out], p ∈ ps) (t : Time) (s0 : State) :
    orest ps cells (Rest ps cells s0) (execTimeFrameTx t s0) = Rest ps cells s0 := by
  unfold execTimeFrameTx
  simp [hps]

@[simp] theorem modLink_rest (hps : Part.time ∈ ps) (port : Nat) (lane : Nat) (f : LinkRt → LinkRt) (s : State) :
    Rest ps cells (modLink port lane f s) = Rest ps cells s := by
  unfold modLink
  simp [hps]

@[simp] theorem linkEvent_rest (hps : ∀ p ∈ signalling, p ∈ ps) (port : Nat) (lane : Nat) (change : Int) (s : State) :
    Rest ps cells (linkEvent port lane change s) = Rest ps cells s := by
  unfold linkEvent
  simp [hps]

@[simp] theorem execLinkDelayUpdate_rest (hps : ∀ p ∈ signalling ++ [.time], p ∈ ps) (t : Time) (port : Fin 3) (lane :
    Fin 8) (s0 : State) : orest ps cells (Rest ps cells s0) (execLinkDelayUpdate t port lane s0) = Rest ps cells
    s0 := by
  unfold execLinkDelayUpdate
  simp only []
  repeat' split
  all_goals simp [hps]

@[simp] theorem execLinkDelayEventTimer_rest (hps : ∀ p ∈ signalling ++ [.time], p ∈ ps) (t : Time) (port : Fin 3)
    (lane : Fin 8) (s0 : State) : orest ps cells (Rest ps cells s0) (execLinkDelayEventTimer t port lane s0) =
    Rest ps cells s0 := by
  unfold execLinkDelayEventTimer
  simp only []
  repeat' split
  all_goals simp [hps]

@[simp] theorem sendPtp_rest (hps : ∀ p ∈ [.time, .out], p ∈ ps) (p : Nat) (kind : Nat) (content : Int) (s : State) :
    Rest ps cells (sendPtp p kind content s) = Rest ps cells s := by
  unfold sendPtp
  simp [hps]

@[simp] theorem ptpMeasure_rest (hps : ∀ p ∈ signalling ++ [.free, .time, .daq], p ∈ ps) (p : Nat) (rx : Nat) (origin :
    Nat) (corr : Int) (logI : Int) (s : State) : Rest ps cells (ptpMeasure p rx origin corr logI s) = Rest ps cells
    s := by
  unfold ptpMeasure
  simp only []
  repeat' split
  all_goals simp [hps]

@[simp] theorem ptpSync_rest (hps : ∀ p ∈ signalling ++ [.free, .time, .daq], p ∈ ps) (p : Nat) (m : PtpSync) (s :
    State) : Rest ps cells (ptpSync p m s) = Rest ps cells s := by
  unfold ptpSync
  simp [hps]

@[simp] theorem ptpFollowUp_rest (hps : ∀ p ∈ signalling ++ [.free, .time, .daq], p ∈ ps) (p : Nat) (src : BitVec 64)
    (seq : Nat) (origin : Nat) (corr : Int) (s : State) : Rest ps cells (ptpFollowUp p src seq origin corr s) =
    Rest ps cells s := by
  unfold ptpFollowUp
  split <;> simp [hps]

@[simp] theorem ptpAnnounce_rest (hps : Part.time ∈ ps) (p : Nat) (m : PtpAnnounce) (s : State) : Rest ps cells
    (ptpAnnounce p m s) = Rest ps cells s := by
  unfold ptpAnnounce
  simp only []
  repeat' split
  all_goals simp [hps]

@[simp] theorem execPtpMessageRx_rest (hps : ∀ p ∈ signalling ++ [.free, .time, .daq], p ∈ ps) (t : Time) (port : Fin 2)
    (domainNum : Nat) (udp : Bool) (tags : Nat) (m : PtpMsg) (s0 : State) : orest ps cells (Rest ps cells s0)
    (execPtpMessageRx t port domainNum udp tags m s0) = Rest ps cells s0 := by
  unfold execPtpMessageRx
  split <;> simp [hps]

@[simp] theorem execPtpMessageTimer_rest (hps : ∀ p ∈ [.now, .free, .time, .out], p ∈ ps) (t : Time) (port : Fin 2)
    (kind : Fin 3) (s0 : State) : orest ps cells (Rest ps cells s0) (execPtpMessageTimer t port kind s0) = Rest ps cells
    s0 := by
  unfold execPtpMessageTimer
  simp [hps]

@[simp] theorem execTodMessageRx_rest (hps : ∀ p ∈ [.now, .time], p ∈ ps) (t : Time) (bytes : List Byte) (s0 : State) :
    orest ps cells (Rest ps cells s0) (execTodMessageRx t bytes s0) = Rest ps cells s0 := by
  unfold execTodMessageRx
  simp only []
  repeat' split
  all_goals simp [hps]

@[simp] theorem execPpsInEdge_rest (hps : ∀ p ∈ signalling ++ [.time, .daq], p ∈ ps) (t : Time) (s0 : State) : orest ps
    cells (Rest ps cells s0) (execPpsInEdge t s0) = Rest ps cells s0 := by
  unfold execPpsInEdge
  simp only []
  repeat' split
  all_goals simp [hps]

@[simp] theorem execTodTxMessage_rest (hps : ∀ p ∈ [.now, .free, .time, .out], p ∈ ps) (t : Time) (s0 : State) : orest
    ps cells (Rest ps cells s0) (execTodTxMessage t s0) = Rest ps cells s0 := by
  unfold execTodTxMessage
  simp only []
  repeat' split
  all_goals simp [hps]

@[simp] theorem execAonSecondsLoad_rest (hps : ∀ p ∈ [.now, .aon], p ∈ ps) (t : Time) (s0 : State) : orest ps cells
    (Rest ps cells s0) (execAonSecondsLoad t s0) = Rest ps cells s0 := by
  unfold execAonSecondsLoad
  simp [hps]

/-! ### TimeCmd -/

@[simp] theorem ownTimeGetTime_rest (x : Request) (s : State) : Rest ps cells (ownTimeGetTime x s).st = Rest ps cells
    s := by
  unfold ownTimeGetTime
  simp

@[simp] theorem execTimeGetTime_rest (hps : ∀ p ∈ answering ++ [.mgmt], p ∈ ps) (t : Time) (rq : Request) (s : State) :
    orest ps cells (Rest ps cells s) (execTimeGetTime t rq s) = Rest ps cells s := by
  unfold execTimeGetTime
  simp [hps]

@[simp] theorem ownTimeStatus_rest (x : Request) (s : State) : Rest ps cells (ownTimeStatus x s).st = Rest ps cells
    s := by
  unfold ownTimeStatus
  simp

@[simp] theorem execTimeStatus_rest (hps : ∀ p ∈ answering ++ [.mgmt], p ∈ ps) (t : Time) (rq : Request) (s : State) :
    orest ps cells (Rest ps cells s) (execTimeStatus t rq s) = Rest ps cells s := by
  unfold execTimeStatus
  simp [hps]

@[simp] theorem configDomain_rest (hps : ∀ p ∈ signalling ++ [.time, .daq], p ∈ ps) (d : Nat) (src : DomSource) (dPps :
    Int) (s : State) : Rest ps cells (configDomain d src dPps s) = Rest ps cells s := by
  unfold configDomain
  simp [hps]

@[simp] theorem ownTimeConfigDomain_rest (hps : ∀ p ∈ signalling ++ [.time, .daq], p ∈ ps) (img : Bool) (rq : Request)
    (s : State) : Rest ps cells (ownTimeConfigDomain img rq s).st = Rest ps cells s := by
  simp at hps
  unfold ownTimeConfigDomain
  simp [hps]

@[simp] theorem execTimeConfigDomain_rest (hps : ∀ p ∈ answering ++ [.mgmt, .time, .daq], p ∈ ps) (t : Time) (rq :
    Request) (s : State) : orest ps cells (Rest ps cells s) (execTimeConfigDomain t rq s) = Rest ps cells s := by
  simp at hps
  unfold execTimeConfigDomain
  simp [hps]

@[simp] theorem ownTimeConfigServo_rest (hps : Part.time ∈ ps) (img : Bool) (rq : Request) (s : State) : Rest ps cells
    (ownTimeConfigServo img rq s).st = Rest ps cells s := by
  unfold ownTimeConfigServo
  simp [hps]

@[simp] theorem execTimeConfigServo_rest (hps : ∀ p ∈ answering ++ [.mgmt, .time], p ∈ ps) (t : Time) (rq : Request)
    (s : State) : orest ps cells (Rest ps cells s) (execTimeConfigServo t rq s) = Rest ps cells s := by
  simp at hps
  unfold execTimeConfigServo
  simp [hps]

@[simp] theorem ownTimeSelectDomain_rest (hps : ∀ p ∈ signalling ++ [.time], p ∈ ps) (img : Bool) (rq : Request) (s :
    State) : Rest ps cells (ownTimeSelectDomain img rq s).st = Rest ps cells s := by
  simp at hps
  unfold ownTimeSelectDomain
  simp [hps]

@[simp] theorem execTimeSelectDomain_rest (hps : ∀ p ∈ answering ++ [.mgmt, .time], p ∈ ps) (t : Time) (rq : Request)
    (s : State) : orest ps cells (Rest ps cells s) (execTimeSelectDomain t rq s) = Rest ps cells s := by
  simp at hps
  unfold execTimeSelectDomain
  simp [hps]

@[simp] theorem ownTimeClearFault_rest (hps : ∀ p ∈ signalling ++ [.time, .daq], p ∈ ps) (rq : Request) (s : State) :
    Rest ps cells (ownTimeClearFault rq s).st = Rest ps cells s := by
  simp at hps
  unfold ownTimeClearFault
  simp [hps]

@[simp] theorem execTimeClearFault_rest (hps : ∀ p ∈ answering ++ [.mgmt, .time, .daq], p ∈ ps) (t : Time) (rq :
    Request) (s : State) : orest ps cells (Rest ps cells s) (execTimeClearFault t rq s) = Rest ps cells s := by
  simp at hps
  unfold execTimeClearFault
  simp [hps]

@[simp] theorem ownTimeSetAsym_rest (hps : Part.time ∈ ps) (img : Bool) (rq : Request) (s : State) : Rest ps cells
    (ownTimeSetAsym img rq s).st = Rest ps cells s := by
  unfold ownTimeSetAsym
  simp [hps]

@[simp] theorem execTimeSetAsym_rest (hps : ∀ p ∈ answering ++ [.mgmt, .time], p ∈ ps) (t : Time) (rq : Request) (s :
    State) : orest ps cells (Rest ps cells s) (execTimeSetAsym t rq s) = Rest ps cells s := by
  simp at hps
  unfold execTimeSetAsym
  simp [hps]

@[simp] theorem ownTimeConfigRoot_rest (hps : Part.time ∈ ps) (img : Bool) (rq : Request) (s : State) : Rest ps cells
    (ownTimeConfigRoot img rq s).st = Rest ps cells s := by
  unfold ownTimeConfigRoot
  simp [hps]

@[simp] theorem execTimeConfigRoot_rest (hps : ∀ p ∈ answering ++ [.mgmt, .time], p ∈ ps) (t : Time) (rq : Request) (s :
    State) : orest ps cells (Rest ps cells s) (execTimeConfigRoot t rq s) = Rest ps cells s := by
  simp at hps
  unfold execTimeConfigRoot
  simp [hps]

@[simp] theorem ownTimeConfigHoldover_rest (hps : Part.time ∈ ps) (rq : Request) (s : State) : Rest ps cells
    (ownTimeConfigHoldover rq s).st = Rest ps cells s := by
  unfold ownTimeConfigHoldover
  simp [hps]

@[simp] theorem execTimeConfigHoldover_rest (hps : ∀ p ∈ answering ++ [.mgmt, .time], p ∈ ps) (t : Time) (rq : Request)
    (s : State) : orest ps cells (Rest ps cells s) (execTimeConfigHoldover t rq s) = Rest ps cells s := by
  simp at hps
  unfold execTimeConfigHoldover
  simp [hps]

@[simp] theorem ownTimeConfigTod_rest (hps : Part.time ∈ ps) (rq : Request) (s : State) : Rest ps cells
    (ownTimeConfigTod rq s).st = Rest ps cells s := by
  unfold ownTimeConfigTod
  simp [hps]

@[simp] theorem execTimeConfigTod_rest (hps : ∀ p ∈ answering ++ [.mgmt, .time], p ∈ ps) (t : Time) (rq : Request) (s :
    State) : orest ps cells (Rest ps cells s) (execTimeConfigTod t rq s) = Rest ps cells s := by
  simp at hps
  unfold execTimeConfigTod
  simp [hps]

@[simp] theorem ownTimeSetUtcOffset_rest (hps : Part.time ∈ ps) (rq : Request) (s : State) : Rest ps cells
    (ownTimeSetUtcOffset rq s).st = Rest ps cells s := by
  unfold ownTimeSetUtcOffset
  simp [hps]

@[simp] theorem execTimeSetUtcOffset_rest (hps : ∀ p ∈ answering ++ [.mgmt, .time], p ∈ ps) (t : Time) (rq : Request)
    (s : State) : orest ps cells (Rest ps cells s) (execTimeSetUtcOffset t rq s) = Rest ps cells s := by
  simp at hps
  unfold execTimeSetUtcOffset
  simp [hps]

@[simp] theorem ownTimeStepLog_rest (x : Request) (s : State) : Rest ps cells (ownTimeStepLog x s).st = Rest ps cells
    s := by
  unfold ownTimeStepLog
  simp

@[simp] theorem execTimeStepLog_rest (hps : ∀ p ∈ answering ++ [.mgmt], p ∈ ps) (t : Time) (rq : Request) (s : State) :
    orest ps cells (Rest ps cells s) (execTimeStepLog t rq s) = Rest ps cells s := by
  unfold execTimeStepLog
  simp [hps]

end Sys2Proof.Machine
end

section
/-! What the operations of the basin and the operators leave alone. -/

set_option maxRecDepth 4000

namespace Sys2Proof.Machine

variable {ps : List Part} {cells : Bool}

/-! ### Mem -/

@[simp] theorem modSeg_rest (hps : Part.basin ∈ ps) (g : Nat) (f : Segment → Segment) (s : State) : Rest ps cells
    (modSeg g f s) = Rest ps cells s := by
  unfold modSeg
  simp [hps]

@[simp] theorem mirrorMark_rest (hps : Part.out ∈ ps) (g : Nat) (freeze : Bool) (s : State) : Rest ps cells (mirrorMark
    g freeze s) = Rest ps cells s := by
  unfold mirrorMark
  simp [hps]

@[simp] theorem freezeNow_rest (hps : ∀ p ∈ signalling ++ [.basin], p ∈ ps) (g : Nat) (truncated : Bool) (s : State) :
    Rest ps cells (freezeNow g truncated s) = Rest ps cells s := by
  simp at hps
  unfold freezeNow
  extract_lets x span cut short first last s1
  rw [mirrorMark_rest (by simp [hps]), emitNow_rest (by simp [hps])]
  simp [s1, hps]

@[simp] theorem trigger_rest (hps : ∀ p ∈ signalling ++ [.basin], p ∈ ps) (g : Nat) (src : Nat) (tTrig : Nat) (s :
    State) : Rest ps cells (trigger g src tTrig s) = Rest ps cells s := by
  unfold trigger
  simp only []
  repeat' split
  all_goals simp [hps]

@[simp] theorem mirrorOut_rest (hps : ∀ p ∈ [.free, .discards, .frames, .basin, .out], p ∈ ps) (g : Nat) (gen : Nat)
    (w : Word) (s : State) : Rest ps cells (mirrorOut g gen w s) = Rest ps cells s := by
  unfold mirrorOut
  simp [hps]

@[simp] theorem storeRec_rest (hps : ∀ p ∈ [.free, .discards, .frames, .basin, .mems, .out], p ∈ ps) (hcells : cells =
    false) (g : Nat) (r : QRec) (s : State) : Rest ps cells (storeRec g r s) = Rest ps cells s := by
  unfold storeRec
  simp [hps, hcells]

@[simp] theorem arrive_rest (hps : ∀ p ∈ signalling ++ [.free, .frames, .basin, .mems], p ∈ ps) (hcells : cells = false)
    (g : Nat) (r : QRec) (s : State) : Rest ps cells (arrive g r s) = Rest ps cells s := by
  unfold arrive
  simp only []
  repeat' split
  all_goals simp [hps, hcells]

@[simp] theorem execBasinRecordWrite_rest (hps : ∀ p ∈ signalling ++ [.free, .daq, .frames, .basin, .mems], p ∈ ps)
    (hcells : cells = false) (t : Time) (seg : Fin 1024) (s0 : State) : orest ps cells (Rest ps cells s0)
    (execBasinRecordWrite t seg s0) = Rest ps cells s0 := by
  unfold execBasinRecordWrite
  simp only []
  repeat' split
  all_goals simp [hps, hcells]

@[simp] theorem execSegmentIdleFreeze_rest (hps : ∀ p ∈ signalling ++ [.basin], p ∈ ps) (t : Time) (seg : Fin 1024)
    (s0 : State) : orest ps cells (Rest ps cells s0) (execSegmentIdleFreeze t seg s0) = Rest ps cells s0 := by
  unfold execSegmentIdleFreeze
  simp [hps]

@[simp] theorem execMirrorOriginLost_rest (hps : ∀ p ∈ signalling ++ [.basin], p ∈ ps) (t : Time) (seg : Fin 1024) (s0 :
    State) : orest ps cells (Rest ps cells s0) (execMirrorOriginLost t seg s0) = Rest ps cells s0 := by
  unfold execMirrorOriginLost
  simp only []
  repeat' split
  all_goals simp [hps]

@[simp] theorem cutMeta_rest (hps : Part.basin ∈ ps) (s : State) : Rest ps cells (cutMeta s) = Rest ps cells s := by
  unfold cutMeta
  simp [hps]

/-! ### Basin -/

@[simp] theorem ownBasinConfigSegment_rest (hps : Part.basin ∈ ps) (img : Bool) (rq : Request) (s : State) :
    Rest ps cells (ownBasinConfigSegment img rq s).st = Rest ps cells s := by
  unfold ownBasinConfigSegment
  simp [hps]

@[simp] theorem execBasinConfigSegment_rest (hps : ∀ p ∈ answering ++ [.mgmt, .basin], p ∈ ps) (t : Time) (rq : Request)
    (s : State) : orest ps cells (Rest ps cells s) (execBasinConfigSegment t rq s) = Rest ps cells s := by
  simp at hps
  unfold execBasinConfigSegment
  simp [hps]

@[simp] theorem ownBasinClear_rest (hps : Part.basin ∈ ps) (rq : Request) (s : State) : Rest ps cells (ownBasinClear rq
    s).st = Rest ps cells s := by
  unfold ownBasinClear
  simp [hps]

@[simp] theorem execBasinClear_rest (hps : ∀ p ∈ answering ++ [.mgmt, .basin], p ∈ ps) (t : Time) (rq : Request) (s :
    State) : orest ps cells (Rest ps cells s) (execBasinClear t rq s) = Rest ps cells s := by
  simp at hps
  unfold execBasinClear
  simp [hps]

@[simp] theorem ownBasinFreeze_rest (hps : ∀ p ∈ signalling ++ [.basin], p ∈ ps) (rq : Request) (s : State) :
    Rest ps cells (ownBasinFreeze rq s).st = Rest ps cells s := by
  simp at hps
  unfold ownBasinFreeze
  simp [hps]

@[simp] theorem execBasinFreeze_rest (hps : ∀ p ∈ answering ++ [.mgmt, .basin], p ∈ ps) (t : Time) (rq : Request) (s :
    State) : orest ps cells (Rest ps cells s) (execBasinFreeze t rq s) = Rest ps cells s := by
  simp at hps
  unfold execBasinFreeze
  simp [hps]

@[simp] theorem releaseSeg_rest (hps : ∀ p ∈ [.basin, .out], p ∈ ps) (g : Nat) (s : State) : Rest ps cells (releaseSeg g
    s) = Rest ps cells s := by
  unfold releaseSeg
  simp [hps]

@[simp] theorem freeWords_rest (hps : Part.basin ∈ ps) (g : Nat) (n : Nat) (s : State) : Rest ps cells (freeWords g n s)
    = Rest ps cells s := by
  unfold freeWords
  simp [hps]

@[simp] theorem ownBasinRelease_rest (hps : ∀ p ∈ [.basin, .out], p ∈ ps) (rq : Request) (s : State) : Rest ps cells
    (ownBasinRelease rq s).st = Rest ps cells s := by
  simp at hps
  unfold ownBasinRelease
  simp [hps]

@[simp] theorem execBasinRelease_rest (hps : ∀ p ∈ answering ++ [.mgmt, .basin], p ∈ ps) (t : Time) (rq : Request) (s :
    State) : orest ps cells (Rest ps cells s) (execBasinRelease t rq s) = Rest ps cells s := by
  simp at hps
  unfold execBasinRelease
  simp [hps]

@[simp] theorem ownBasinExtract_rest (hps : Part.basin ∈ ps) (rq : Request) (s : State) : Rest ps cells (ownBasinExtract
    rq s).st = Rest ps cells s := by
  unfold ownBasinExtract
  simp [hps]

@[simp] theorem execBasinExtract_rest (hps : ∀ p ∈ answering ++ [.mgmt, .basin], p ∈ ps) (t : Time) (rq : Request) (s :
    State) : orest ps cells (Rest ps cells s) (execBasinExtract t rq s) = Rest ps cells s := by
  simp at hps
  unfold execBasinExtract
  simp [hps]

@[simp] theorem ownBasinSetWindow_rest (hps : Part.basin ∈ ps) (rq : Request) (s : State) : Rest ps cells
    (ownBasinSetWindow rq s).st = Rest ps cells s := by
  unfold ownBasinSetWindow
  simp [hps]

@[simp] theorem execBasinSetWindow_rest (hps : ∀ p ∈ answering ++ [.mgmt, .basin], p ∈ ps) (t : Time) (rq : Request)
    (s : State) : orest ps cells (Rest ps cells s) (execBasinSetWindow t rq s) = Rest ps cells s := by
  simp at hps
  unfold execBasinSetWindow
  simp [hps]

@[simp] theorem ownBasinExport_rest (hps : Part.basin ∈ ps) (rq : Request) (s : State) : Rest ps cells (ownBasinExport
    rq s).st = Rest ps cells s := by
  unfold ownBasinExport
  simp [hps]

@[simp] theorem execBasinExport_rest (hps : ∀ p ∈ answering ++ [.mgmt, .basin], p ∈ ps) (t : Time) (rq : Request) (s :
    State) : orest ps cells (Rest ps cells s) (execBasinExport t rq s) = Rest ps cells s := by
  simp at hps
  unfold execBasinExport
  simp [hps]

@[simp] theorem ownBasinStatus_rest (rq : Request) (s : State) : Rest ps cells (ownBasinStatus rq s).st = Rest ps cells
    s := by
  unfold ownBasinStatus
  simp

@[simp] theorem execBasinStatus_rest (hps : ∀ p ∈ answering ++ [.mgmt], p ∈ ps) (t : Time) (rq : Request) (s : State) :
    orest ps cells (Rest ps cells s) (execBasinStatus t rq s) = Rest ps cells s := by
  unfold execBasinStatus
  simp [hps]

/-! ### Oper -/

@[simp] theorem opEmpty_rest (hps : ∀ p ∈ [.daq, .oper], p ∈ ps) (n : Nat) (run : OpRun) (s : State) : Rest ps cells
    (opEmpty n run s) = Rest ps cells s := by
  simp at hps
  unfold opEmpty
  split <;> simp [hps]

@[simp] theorem opRefresh_rest (hps : ∀ p ∈ signalling ++ [.daq, .oper], p ∈ ps) (s : State) : Rest ps cells (opRefresh
    s) = Rest ps cells s := by
  unfold opRefresh
  apply foldl_rest
  intro a p
  split <;> simp [hps]

@[simp] theorem emitDerived_rest (hps : ∀ p ∈ [.host, .daq, .frames, .oper], p ∈ ps) (n : Nat) (i : Nat) (value : Int)
    (time : Nat) (flags : BitVec 12) (s : State) : Rest ps cells (emitDerived n i value time flags s) = Rest ps cells
    s := by
  simp at hps
  unfold emitDerived
  split <;> simp [hps]

@[simp] theorem statsStep_rest (hps : ∀ p ∈ [.host, .daq, .frames, .oper], p ∈ ps) (n : Nat) (k : Nat) (s : State) :
    Rest ps cells (statsStep n k s) = Rest ps cells s := by
  unfold statsStep
  simp [hps]

@[simp] theorem threshFreeze_rest (hps : ∀ p ∈ signalling ++ [.basin], p ∈ ps) (n : Nat) (time : Nat) (s : State) :
    Rest ps cells (threshFreeze n time s) = Rest ps cells s := by
  simp at hps
  unfold threshFreeze
  simp [hps]

@[simp] theorem threshStep_rest (hps : ∀ p ∈ signalling ++ [.host, .daq, .frames, .basin, .oper], p ∈ ps) (n : Nat) (u :
    Int) (lo : Int) (r : OpRec) (s : State) : Rest ps cells (threshStep n u lo r s) = Rest ps cells s := by
  unfold threshStep
  split <;> simp [hps]

@[simp] theorem combineStep_rest (hps : ∀ p ∈ [.host, .daq, .frames, .oper], p ∈ ps) (n : Nat) (k : OpCfg) (coefs : List
    Int) (offset : Int) (r : OpRec) (s : State) : Rest ps cells (combineStep n k coefs offset r s) = Rest ps cells
    s := by
  unfold combineStep
  simp [hps]

@[simp] theorem decimStep_rest (hps : ∀ p ∈ [.host, .daq, .frames, .oper], p ∈ ps) (n : Nat) (taps : List Int) (d : Nat)
    (s : State) : Rest ps cells (decimStep n taps d s) = Rest ps cells s := by
  unfold decimStep
  simp [hps]

@[simp] theorem spectrumStep_rest (hps : ∀ p ∈ [.host, .daq, .frames, .oper], p ∈ ps) (n : Nat) (l : Nat) (s : State) :
    Rest ps cells (spectrumStep n l s) = Rest ps cells s := by
  simp at hps
  unfold spectrumStep
  simp [hps]

@[simp] theorem eventStep_rest (hps : ∀ p ∈ [.host, .daq, .frames, .oper], p ∈ ps) (n : Nat) (le : Int) (he : Int) (r :
    OpRec) (s : State) : Rest ps cells (eventStep n le he r s) = Rest ps cells s := by
  unfold eventStep
  simp only []
  repeat' split
  all_goals simp [hps]

@[simp] theorem pairOut_rest (hps : ∀ p ∈ [.free, .host, .daq, .frames, .oper], p ∈ ps) (n : Nat) (dMm : Nat) (shift :
    Nat) (gMs : Nat) (a : OpRec) (b : OpRec) (s : State) : Rest ps cells (pairOut n dMm shift gMs a b s) = Rest ps cells
    s := by
  unfold pairOut
  simp only []
  repeat' split
  all_goals simp [hps]

@[simp] theorem correlateStep_rest (hps : ∀ p ∈ [.free, .host, .daq, .frames, .oper], p ∈ ps) (n : Nat) (lo : Nat) (hi :
    Nat) (dMm : Nat) (shift : Nat) (gMs : Nat) (a : Nat) (x7 : List OpRec) (x8 : State) : Rest ps cells (correlateStep n
    lo hi dMm shift gMs a x7 x8) = Rest ps cells x8 := by
  induction a generalizing x7 x8 with
  | zero => rfl
  | succ k ih =>
    unfold correlateStep
    split
    · rfl
    · simp only []
      split <;> simp [hps, ih]

@[simp] theorem opTake_rest (hps : ∀ p ∈ signalling ++ [.free, .host, .daq, .frames, .basin, .oper], p ∈ ps) (n : Nat)
    (i : Nat) (r : QRec) (s : State) : Rest ps cells (opTake n i r s) = Rest ps cells s := by
  unfold opTake
  repeat' split
  all_goals simp [hps]

@[simp] theorem execOperatorInput_rest (hps : ∀ p ∈ signalling ++ [.free, .host, .daq, .frames, .basin, .oper], p ∈ ps)
    (t : Time) (slot : Fin 32) (s0 : State) : orest ps cells (Rest ps cells s0) (execOperatorInput t slot s0) =
    Rest ps cells s0 := by
  unfold execOperatorInput
  simp only []
  repeat' split
  all_goals simp [hps]

@[simp] theorem execOperatorHoldExpiry_rest (hps : ∀ p ∈ [.now, .daq, .oper], p ∈ ps) (t : Time) (slot : Fin 32) (s0 :
    State) : orest ps cells (Rest ps cells s0) (execOperatorHoldExpiry t slot s0) = Rest ps cells s0 := by
  unfold execOperatorHoldExpiry
  simp only []
  repeat' split
  all_goals simp [hps]

@[simp] theorem ownOperConfig_rest (hps : Part.oper ∈ ps) (img : Bool) (rq : Request) (s : State) : Rest ps cells
    (ownOperConfig img rq s).st = Rest ps cells s := by
  unfold ownOperConfig
  simp only []
  repeat' split
  all_goals simp [hps]

@[simp] theorem execOperConfig_rest (hps : ∀ p ∈ answering ++ [.mgmt, .oper], p ∈ ps) (t : Time) (rq : Request) (s :
    State) : orest ps cells (Rest ps cells s) (execOperConfig t rq s) = Rest ps cells s := by
  simp at hps
  unfold execOperConfig
  simp [hps]

@[simp] theorem ownOperStart_rest (hps : ∀ p ∈ signalling ++ [.daq, .oper], p ∈ ps) (rq : Request) (s : State) :
    Rest ps cells (ownOperStart rq s).st = Rest ps cells s := by
  simp at hps
  unfold ownOperStart
  apply guarded_rest
  simp [hps]

@[simp] theorem execOperStart_rest (hps : ∀ p ∈ answering ++ [.mgmt, .daq, .oper], p ∈ ps) (t : Time) (rq : Request)
    (s : State) : orest ps cells (Rest ps cells s) (execOperStart t rq s) = Rest ps cells s := by
  simp at hps
  unfold execOperStart
  simp [hps]

@[simp] theorem ownOperStop_rest (hps : ∀ p ∈ signalling ++ [.daq, .oper], p ∈ ps) (rq : Request) (s : State) :
    Rest ps cells (ownOperStop rq s).st = Rest ps cells s := by
  simp at hps
  unfold ownOperStop
  apply guarded_rest
  simp [hps]

@[simp] theorem execOperStop_rest (hps : ∀ p ∈ answering ++ [.mgmt, .daq, .oper], p ∈ ps) (t : Time) (rq : Request) (s :
    State) : orest ps cells (Rest ps cells s) (execOperStop t rq s) = Rest ps cells s := by
  simp at hps
  unfold execOperStop
  simp [hps]

@[simp] theorem ownOperStatus_rest (rq : Request) (s : State) : Rest ps cells (ownOperStatus rq s).st = Rest ps cells
    s := by
  unfold ownOperStatus
  simp

@[simp] theorem execOperStatus_rest (hps : ∀ p ∈ answering ++ [.mgmt], p ∈ ps) (t : Time) (rq : Request) (s : State) :
    orest ps cells (Rest ps cells s) (execOperStatus t rq s) = Rest ps cells s := by
  unfold execOperStatus
  simp [hps]

/-! ### TbRef -/

@[simp] theorem modClk_rest (hps : Part.clk ∈ ps) (f : ClkSt → ClkSt) (s : State) : Rest ps cells (modClk f s) =
    Rest ps cells s := by
  unfold modClk
  simp [hps]

@[simp] theorem setPll_rest (hps : Part.clk ∈ ps) (code : Nat) (p : PllState) (s : State) : Rest ps cells (setPll code p
    s) = Rest ps cells s := by
  unfold setPll
  simp [hps]

@[simp] theorem holdPll_rest (hps : Part.clk ∈ ps) (code : Nat) (s : State) : Rest ps cells (holdPll code s) =
    Rest ps cells s := by
  unfold holdPll
  simp [hps]

@[simp] theorem modRef_rest (hps : Part.clk ∈ ps) (b : Bool) (f : RefIn → RefIn) (s : State) : Rest ps cells (modRef b f
    s) = Rest ps cells s := by
  unfold modRef
  simp [hps]

@[simp] theorem switchTb_rest (hps : ∀ p ∈ [.free, .host, .interrupts, .time, .clk, .out], p ∈ ps) (entry : Nat) (s :
    State) : Rest ps cells (switchTb entry s) = Rest ps cells s := by
  unfold switchTb
  simp [hps]

@[simp] theorem keepTbRef_rest (hps : ∀ p ∈ [.free, .host, .interrupts, .time, .clk, .out], p ∈ ps) (was : Option Bool)
    (s : State) : Rest ps cells (keepTbRef was s) = Rest ps cells s := by
  unfold keepTbRef
  split <;> simp [hps]

@[simp] theorem laneRefLost_rest (hps : ∀ p ∈ [.free, .host, .interrupts, .time, .clk, .out], p ∈ ps) (p : Nat) (l :
    Nat) (s : State) : Rest ps cells (laneRefLost p l s) = Rest ps cells s := by
  unfold laneRefLost
  simp [hps]

end Sys2Proof.Machine
end

section
/-! What the operations of the line and the fabric leave alone. -/

set_option maxRecDepth 4000

namespace Sys2Proof.Machine

variable {ps : List Part} {cells : Bool}

/-! ### Line -/

@[simp] theorem sendEnum_rest (hps : ∀ p ∈ [.free, .discards, .frames, .out], p ∈ ps) (p : Nat) (ws : List Word) (s :
    State) : Rest ps cells (sendEnum p ws s) = Rest ps cells s := by
  unfold sendEnum
  simp [hps]

@[simp] theorem noteBreak_rest (hps : ∀ p ∈ signalling ++ [.fab], p ∈ ps) (up : Bool) (b : Break) (s : State) :
    Rest ps cells (noteBreak up b s) = Rest ps cells s := by
  unfold noteBreak
  simp [hps]

@[simp] theorem portChange_rest (hps : ∀ p ∈ signalling ++ [.free, .fab, .frames], p ∈ ps) (p : Nat) (up : Bool) (s :
    State) : Rest ps cells (portChange p up s) = Rest ps cells s := by
  unfold portChange
  repeat' split
  all_goals simp [hps]

@[simp] theorem leaveAdjacent_rest (hps : ∀ p ∈ signalling ++ [.free, .fab, .frames], p ∈ ps) (p : Nat) (s : State) :
    Rest ps cells (leaveAdjacent p s) = Rest ps cells s := by
  unfold leaveAdjacent
  simp [hps]

@[simp] theorem checkLink_rest (hps : ∀ p ∈ signalling ++ [.free, .fab, .frames], p ∈ ps) (p : Nat) (s : State) :
    Rest ps cells (checkLink p s) = Rest ps cells s := by
  unfold checkLink
  simp [hps]

@[simp] theorem checkLinks_rest (hps : ∀ p ∈ signalling ++ [.free, .fab, .frames], p ∈ ps) (s : State) : Rest ps cells
    (checkLinks s) = Rest ps cells s := by
  unfold checkLinks
  simp [hps]

@[simp] theorem toLane_rest (hps : ∀ p ∈ signalling ++ [.free, .host, .time, .clk, .line, .fab, .frames], p ∈ ps) (p :
    Nat) (l : Nat) (new : LaneState) (s : State) : Rest ps cells (toLane p l new s) = Rest ps cells s := by
  unfold toLane
  simp [hps]

@[simp] theorem startTraining_rest (hps : ∀ p ∈ signalling ++ [.free, .host, .time, .clk, .line, .fab, .frames], p ∈ ps)
    (p : Nat) (l : Nat) (s : State) : Rest ps cells (startTraining p l s) = Rest ps cells s := by
  unfold startTraining
  simp [hps]

@[simp] theorem onLane_rest {d : State → Prop} (l : Nat) (s : State) (go : Unit → State) (h_go : Rest ps cells (go ()) =
    d) : orest ps cells d (onLane l s go) = d := by
  unfold onLane
  split <;> simp [h_go]

@[simp] theorem execLaneSignalDetect_rest (hps : ∀ p ∈ signalling ++ [.free, .host, .time, .clk, .line, .fab, .frames],
    p ∈ ps) (t : Time) (port : Fin 2) (lane : Fin 8) (s0 : State) : orest ps cells (Rest ps cells s0)
    (execLaneSignalDetect t port lane s0) = Rest ps cells s0 := by
  simp at hps
  unfold execLaneSignalDetect
  simp [hps]

@[simp] theorem execLaneRxConverged_rest (hps : ∀ p ∈ signalling ++ [.free, .host, .time, .clk, .line, .fab, .frames],
    p ∈ ps) (t : Time) (port : Fin 2) (lane : Fin 8) (s0 : State) : orest ps cells (Rest ps cells s0)
    (execLaneRxConverged t port lane s0) = Rest ps cells s0 := by
  simp at hps
  unfold execLaneRxConverged
  simp [hps]

@[simp] theorem execLaneNegotiationDone_rest (hps : ∀ p ∈ signalling ++ [.free, .host, .time, .clk, .line, .fab,
    .frames], p ∈ ps) (t : Time) (port : Fin 2) (lane : Fin 8) (sameRate : Bool) (s0 : State) : orest ps cells
    (Rest ps cells s0) (execLaneNegotiationDone t port lane sameRate s0) = Rest ps cells s0 := by
  simp at hps
  unfold execLaneNegotiationDone
  simp [hps]

@[simp] theorem laneOrderFault_rest (hps : ∀ p ∈ signalling ++ [.free, .host, .time, .clk, .line, .fab, .frames],
    p ∈ ps) (p : Nat) (l : Nat) (f : Nat) (s : State) : Rest ps cells (laneOrderFault p l f s) = Rest ps cells s := by
  unfold laneOrderFault
  simp [hps]

@[simp] theorem modCircuit_rest (hps : Part.line ∈ ps) (id : BitVec 16) (f : Circuit → Circuit) (s : State) :
    Rest ps cells (modCircuit id f s) = Rest ps cells s := by
  unfold modCircuit
  simp [hps]

@[simp] theorem execLaneAligned_rest (hps : ∀ p ∈ signalling ++ [.free, .host, .time, .clk, .line, .fab, .frames],
    p ∈ ps) (t : Time) (port : Fin 2) (lane : Fin 8) (laneField : Fin 8) (s0 : State) : orest ps cells (Rest ps cells
    s0) (execLaneAligned t port lane laneField s0) = Rest ps cells s0 := by
  simp at hps
  unfold execLaneAligned
  simp [hps]

@[simp] theorem execLaneTrainingTimeout_rest (hps : ∀ p ∈ signalling ++ [.free, .host, .time, .clk, .line, .fab,
    .frames], p ∈ ps) (t : Time) (port : Fin 2) (lane : Fin 8) (s0 : State) : orest ps cells (Rest ps cells s0)
    (execLaneTrainingTimeout t port lane s0) = Rest ps cells s0 := by
  simp at hps
  unfold execLaneTrainingTimeout
  simp [hps]

@[simp] theorem execLaneRetryTimer_rest (hps : ∀ p ∈ signalling ++ [.free, .host, .time, .clk, .line, .fab, .frames],
    p ∈ ps) (t : Time) (port : Fin 2) (lane : Fin 8) (s0 : State) : orest ps cells (Rest ps cells s0)
    (execLaneRetryTimer t port lane s0) = Rest ps cells s0 := by
  unfold execLaneRetryTimer
  simp [hps]
  repeat' (first | (simp [hps]; done) | (split <;> simp_all <;> done) | split)

@[simp] theorem execLaneFailure_rest (hps : ∀ p ∈ signalling ++ [.free, .host, .time, .clk, .line, .fab, .frames],
    p ∈ ps) (t : Time) (port : Fin 2) (lane : Fin 8) (s0 : State) : orest ps cells (Rest ps cells s0) (execLaneFailure t
    port lane s0) = Rest ps cells s0 := by
  simp at hps
  unfold execLaneFailure
  simp [hps]

@[simp] theorem takeMap_rest (hps : ∀ p ∈ signalling ++ [.free, .line, .fab, .frames], p ∈ ps) (p : Nat) (m : List Nat)
    (s : State) : Rest ps cells (takeMap p m s) = Rest ps cells s := by
  unfold takeMap
  simp [hps]

@[simp] theorem transitBudget_rest (hps : ∀ p ∈ signalling ++ [.line], p ∈ ps) (p : Nat) (i : Nat) (h : Nat) (s :
    State) : Rest ps cells (transitBudget p i h s) = Rest ps cells s := by
  unfold transitBudget
  simp [hps]

@[simp] theorem sendFraming_rest (hps : ∀ p ∈ [.free, .out], p ∈ ps) (p : Nat) (l : Nat) (stuff : Bool) (deleteNext :
    Bool) (s : State) : Rest ps cells (sendFraming p l stuff deleteNext s) = Rest ps cells s := by
  unfold sendFraming
  simp [hps]

@[simp] theorem takeStamps_rest (hps : Part.time ∈ ps) (p : Nat) (l : Nat) (half : Bool) (cw : Word) (s : State) :
    Rest ps cells (takeStamps p l half cw s) = Rest ps cells s := by
  unfold takeStamps
  simp [hps]

@[simp] theorem takeFir_rest (hps : Part.line ∈ ps) (p : Nat) (l : Nat) (r : Option (Fin 4 × Bool)) (s : State) :
    Rest ps cells (takeFir p l r s) = Rest ps cells s := by
  unfold takeFir
  split <;> simp [hps]

@[simp] theorem takeSide_rest (hps : ∀ p ∈ signalling ++ [.free, .line, .fab, .frames], p ∈ ps) (p : Nat) (l : Nat) (m :
    Option SideMsg) (s : State) : Rest ps cells (takeSide p l m s) = Rest ps cells s := by
  unfold takeSide
  split <;> simp [hps]

@[simp] theorem execFramingCodewordRx_rest (hps : ∀ p ∈ signalling ++ [.free, .host, .time, .clk, .line, .fab, .frames],
    p ∈ ps) (t : Time) (port : Fin 3) (lane : Fin 8) (cw : Word) (side : Option SideMsg) (s0 : State) : orest ps cells
    (Rest ps cells s0) (execFramingCodewordRx t port lane cw side s0) = Rest ps cells s0 := by
  simp at hps
  unfold execFramingCodewordRx
  simp only []
  repeat' split
  all_goals simp [hps]

@[simp] theorem execLaneJustification_rest (hps : ∀ p ∈ signalling ++ [.free, .line], p ∈ ps) (t : Time) (port : Fin 2)
    (lane : Fin 8) (bufferHigh : Bool) (beyondRange : Bool) (s0 : State) : orest ps cells (Rest ps cells s0)
    (execLaneJustification t port lane bufferHigh beyondRange s0) = Rest ps cells s0 := by
  simp at hps
  unfold execLaneJustification
  simp only []
  repeat' split
  all_goals simp [hps]

@[simp] theorem execCtleReevaluate_rest (hps : ∀ p ∈ [.now, .line], p ∈ ps) (t : Time) (port : Fin 2) (lane : Fin 8)
    (better : Nat) (s0 : State) : orest ps cells (Rest ps cells s0) (execCtleReevaluate t port lane better s0) =
    Rest ps cells s0 := by
  simp at hps
  unfold execCtleReevaluate
  simp [hps]

@[simp] theorem execFirTapRequest_rest (hps : ∀ p ∈ [.now, .line, .out], p ∈ ps) (t : Time) (port : Fin 2) (lane : Fin
    8) (tap : Fin 4) (up : Bool) (gainDb100 : Nat) (s0 : State) : orest ps cells (Rest ps cells s0) (execFirTapRequest t
    port lane tap up gainDb100 s0) = Rest ps cells s0 := by
  simp at hps
  unfold execFirTapRequest
  simp [hps]

@[simp] theorem execLaneDegradedChange_rest (hps : ∀ p ∈ signalling ++ [.line], p ∈ ps) (t : Time) (port : Fin 2)
    (lane : Fin 8) (ber : Nat) (s0 : State) : orest ps cells (Rest ps cells s0) (execLaneDegradedChange t port lane ber
    s0) = Rest ps cells s0 := by
  simp at hps
  unfold execLaneDegradedChange
  simp [hps]

@[simp] theorem shedEnter_rest (hps : ∀ p ∈ [.line, .out], p ∈ ps) (s : State) : Rest ps cells (shedEnter s) =
    Rest ps cells s := by
  simp at hps
  unfold shedEnter
  simp [hps]

@[simp] theorem shedLeave_rest (hps : ∀ p ∈ signalling ++ [.free, .host, .time, .clk, .line, .fab, .frames], p ∈ ps)
    (s : State) : Rest ps cells (shedLeave s) = Rest ps cells s := by
  simp at hps
  unfold shedLeave
  simp [hps]

@[simp] theorem execLaneShedPowerdown_rest (hps : ∀ p ∈ signalling ++ [.free, .host, .time, .clk, .line, .fab, .frames],
    p ∈ ps) (t : Time) (port : Fin 2) (lane : Fin 8) (s0 : State) : orest ps cells (Rest ps cells s0)
    (execLaneShedPowerdown t port lane s0) = Rest ps cells s0 := by
  simp at hps
  unfold execLaneShedPowerdown
  simp [hps]

@[simp] theorem innerDecode_rest (hps : Part.line ∈ ps) (p : Nat) (l : Nat) (cw : Word) (resolved : Option (BitVec 120))
    (s : State) : Rest ps cells (innerDecode p l cw resolved s).2 = Rest ps cells s := by
  unfold innerDecode
  split <;> simp [hps]

@[simp] theorem sendSlot_rest (hps : ∀ p ∈ [.free, .out], p ∈ ps) (p : Nat) (i : Nat) (hops : Nat) (info : BitVec 120)
    (s : State) : Rest ps cells (sendSlot p i hops info s) = Rest ps cells s := by
  unfold sendSlot
  simp [hps]

@[simp] theorem sendIdle_rest (hps : ∀ p ∈ [.free, .out], p ∈ ps) (p : Nat) (i : Nat) (s : State) : Rest ps cells
    (sendIdle p i s) = Rest ps cells s := by
  unfold sendIdle
  simp [hps]

@[simp] theorem execExpressCodeword_rest (hps : ∀ p ∈ [.now, .free, .line, .out], p ∈ ps) (t : Time) (port : Fin 2)
    (lane : Fin 8) (j : Fin 1088) (cw : Word) (resolved : Option (BitVec 120)) (s0 : State) : orest ps cells
    (Rest ps cells s0) (execExpressCodeword t port lane j cw resolved s0) = Rest ps cells s0 := by
  unfold execExpressCodeword
  simp [hps]
  repeat' (first | (simp [hps]; done) | (split <;> simp_all <;> done) | split)

@[simp] theorem sendCircuit_rest (hps : ∀ p ∈ [.free, .out], p ∈ ps) (p : Nat) (id : BitVec 16) (ws : List (BitVec 120))
    (s : State) : Rest ps cells (sendCircuit p id ws s) = Rest ps cells s := by
  simp at hps
  unfold sendCircuit
  simp (disch := simp [hps])

@[simp] theorem execCircuitAdd_rest (hps : ∀ p ∈ [.now, .free, .out], p ∈ ps) (t : Time) (circuit : BitVec 16)
    (codewords : List (BitVec 120)) (s0 : State) : orest ps cells (Rest ps cells s0) (execCircuitAdd t circuit codewords
    s0) = Rest ps cells s0 := by
  unfold execCircuitAdd
  simp only []
  repeat' split
  all_goals simp [hps]

@[simp] theorem execCircuitDrop_rest (hps : ∀ p ∈ signalling ++ [.line], p ∈ ps) (t : Time) (circuit : BitVec 16)
    (working : Option (List (BitVec 120))) (protecting : Option (List (BitVec 120))) (skewNs : Nat) (diffDelayUs : Nat)
    (s0 : State) : orest ps cells (Rest ps cells s0) (execCircuitDrop t circuit working protecting skewNs diffDelayUs
    s0) = Rest ps cells s0 := by
  unfold execCircuitDrop
  simp only []
  repeat' split
  all_goals simp [hps]

@[simp] theorem execCircuitRegen_rest (hps : ∀ p ∈ [.now, .free, .out], p ∈ ps) (t : Time) (port : Fin 2) (slot : Fin
    64) (info : BitVec 120) (s0 : State) : orest ps cells (Rest ps cells s0) (execCircuitRegen t port slot info s0) =
    Rest ps cells s0 := by
  simp at hps
  unfold execCircuitRegen
  simp [hps]

@[simp] theorem ownLaneConfig_rest (hps : ∀ p ∈ signalling ++ [.free, .host, .time, .clk, .line, .fab, .frames], p ∈ ps)
    (img : Bool) (rq : Request) (s : State) : Rest ps cells (ownLaneConfig img rq s).st = Rest ps cells s := by
  simp at hps
  unfold ownLaneConfig
  simp [hps]

@[simp] theorem execLaneConfig_rest (hps : ∀ p ∈ answering ++ [.free, .host, .mgmt, .time, .clk, .line, .fab], p ∈ ps)
    (t : Time) (rq : Request) (s : State) : orest ps cells (Rest ps cells s) (execLaneConfig t rq s) = Rest ps cells
    s := by
  simp at hps
  unfold execLaneConfig
  simp [hps]

@[simp] theorem ownLaneRetrain_rest (hps : ∀ p ∈ signalling ++ [.free, .host, .time, .clk, .line, .fab, .frames],
    p ∈ ps) (rq : Request) (s : State) : Rest ps cells (ownLaneRetrain rq s).st = Rest ps cells s := by
  simp at hps
  unfold ownLaneRetrain
  simp (disch := simp [hps])

@[simp] theorem execLaneRetrain_rest (hps : ∀ p ∈ answering ++ [.free, .host, .mgmt, .time, .clk, .line, .fab], p ∈ ps)
    (t : Time) (rq : Request) (s : State) : orest ps cells (Rest ps cells s) (execLaneRetrain t rq s) = Rest ps cells
    s := by
  simp at hps
  unfold execLaneRetrain
  simp [hps]

@[simp] theorem adaptTaps_rest (hps : ∀ p ∈ [.free, .line], p ∈ ps) (p : Nat) (s : State) : Rest ps cells (adaptTaps p
    s) = Rest ps cells s := by
  unfold adaptTaps
  simp [hps]

@[simp] theorem ownLaneStatus_rest (hps : ∀ p ∈ [.free, .line], p ∈ ps) (rq : Request) (s : State) : Rest ps cells
    (ownLaneStatus rq s).st = Rest ps cells s := by
  simp at hps
  unfold ownLaneStatus
  simp [hps]

@[simp] theorem execLaneStatus_rest (hps : ∀ p ∈ answering ++ [.free, .mgmt, .line], p ∈ ps) (t : Time) (rq : Request)
    (s : State) : orest ps cells (Rest ps cells s) (execLaneStatus t rq s) = Rest ps cells s := by
  simp at hps
  unfold execLaneStatus
  simp [hps]

@[simp] theorem ownSlotStatus_rest (rq : Request) (s : State) : Rest ps cells (ownSlotStatus rq s).st = Rest ps cells
    s := by
  unfold ownSlotStatus
  simp

@[simp] theorem execSlotStatus_rest (hps : ∀ p ∈ answering ++ [.mgmt], p ∈ ps) (t : Time) (rq : Request) (s : State) :
    orest ps cells (Rest ps cells s) (execSlotStatus t rq s) = Rest ps cells s := by
  unfold execSlotStatus
  simp [hps]

/-! ### Fab -/

@[simp] theorem putWin_rest (hps : Part.fab ∈ ps) (w : DupWin) (s : State) : Rest ps cells (putWin w s) = Rest ps cells
    s := by
  unfold putWin
  simp [hps]

@[simp] theorem keepCopy_rest (hps : Part.fab ∈ ps) (gate : Bool) (src : BitVec 16) (q : Nat) (s : State) :
    Rest ps cells (keepCopy gate src q s).2 = Rest ps cells s := by
  unfold keepCopy
  simp only []
  repeat' split
  all_goals simp [hps]

@[simp] theorem deliverRemote_rest (hps : ∀ p ∈ [.host, .daq, .frames], p ∈ ps) (node : BitVec 16) (a : Nat) (r : QRec)
    (s : State) (d : Dest) : Rest ps cells (deliverRemote node a r s d) = Rest ps cells s := by
  unfold deliverRemote
  simp [hps]

@[simp] theorem takeRemote_rest (hps : ∀ p ∈ [.host, .daq, .frames, .oper], p ∈ ps) (node : BitVec 16) (gen : Nat) (w :
    Word) (s : State) : Rest ps cells (takeRemote node gen w s) = Rest ps cells s := by
  simp at hps
  unfold takeRemote
  simp [hps]

@[simp] theorem putOrder_rest (hps : Part.fab ∈ ps) (o : SrcOrder) (s : State) : Rest ps cells (putOrder o s) =
    Rest ps cells s := by
  unfold putOrder
  simp [hps]

@[simp] theorem lossGap_rest (hps : Part.fab ∈ ps) (src : BitVec 16) (w : Word) (s : State) : Rest ps cells (lossGap src
    w s).2 = Rest ps cells s := by
  unfold lossGap
  repeat' split
  all_goals simp [hps]

@[simp] theorem deliverRecords_rest (hps : ∀ p ∈ [.host, .daq, .fab, .frames, .oper], p ∈ ps) (f : Frame) (s : State) :
    Rest ps cells (deliverRecords f s) = Rest ps cells s := by
  simp at hps
  unfold deliverRecords
  simp [hps]

@[simp] theorem modEth_rest (hps : Part.eth ∈ ps) (p : Nat) (f : EthPort → EthPort) (s : State) : Rest ps cells (modEth
    p f s) = Rest ps cells s := by
  unfold modEth
  simp [hps]

@[simp] theorem learnMac_rest (hps : Part.eth ∈ ps) (g : Nat) (m : BitVec 48) (node : BitVec 16) (port : Option Nat)
    (s : State) : Rest ps cells (learnMac g m node port s) = Rest ps cells s := by
  unfold learnMac
  simp [hps]

@[simp] theorem etherOut_rest (hps : ∀ p ∈ [.eth, .out], p ∈ ps) (p : Nat) (ws : List Word) (corr : Int) (s : State) :
    Rest ps cells (etherOut p ws corr s) = Rest ps cells s := by
  unfold etherOut
  simp [hps]

@[simp] theorem deliverData_rest (hps : ∀ p ∈ [.eth, .out], p ∈ ps) (f : Frame) (s : State) : Rest ps cells (deliverData
    f s) = Rest ps cells s := by
  simp at hps
  unfold deliverData
  simp [hps]

@[simp] theorem consume_rest (hps : ∀ p ∈ [.host, .daq, .fab, .frames, .eth, .oper, .out], p ∈ ps) (f : Frame) (s :
    State) : Rest ps cells (consume f s) = Rest ps cells s := by
  unfold consume
  repeat' split
  all_goals simp [hps]

@[simp] theorem drainOrder_rest (hps : ∀ p ∈ [.host, .daq, .fab, .frames, .eth, .oper, .out], p ∈ ps) (src : BitVec 16)
    (a : Nat) (x2 : State) : Rest ps cells (drainOrder src a x2) = Rest ps cells x2 := by
  induction a generalizing x2 with
  | zero => rfl
  | succ k ih =>
    unfold drainOrder
    repeat' (first | rfl | (simp [hps, ih]; done) | split)

@[simp] theorem inOrder_rest (hps : ∀ p ∈ [.host, .daq, .fab, .frames, .eth, .oper, .out], p ∈ ps) (src : BitVec 16)
    (q : Nat) (f : Frame) (s : State) : Rest ps cells (inOrder src q f s) = Rest ps cells s := by
  unfold inOrder
  split <;> simp [hps]

@[simp] theorem noteSecond_rest (hps : Part.fab ∈ ps) (src : BitVec 16) (q : Nat) (s : State) : Rest ps cells
    (noteSecond src q s) = Rest ps cells s := by
  unfold noteSecond
  repeat' split
  all_goals simp [hps]

@[simp] theorem acceptDual_rest (hps : ∀ p ∈ [.host, .daq, .fab, .frames, .eth, .oper, .out], p ∈ ps) (h : Hdr) (f :
    Frame) (s : State) : Rest ps cells (acceptDual h f s) = Rest ps cells s := by
  unfold acceptDual
  simp [hps]

@[simp] theorem expireHeld_rest (hps : ∀ p ∈ [.host, .daq, .fab, .frames, .eth, .oper, .out], p ∈ ps) (src : BitVec 16)
    (a : Nat) (x2 : State) : Rest ps cells (expireHeld src a x2) = Rest ps cells x2 := by
  induction a generalizing x2 with
  | zero => rfl
  | succ k ih =>
    unfold expireHeld
    split
    · rfl
    · simp only []
      split
      · rfl
      · split
        · rfl
        · simp [hps, ih, drainOrder_rest, modFab_rest, putOrder_rest]

@[simp] theorem execReorderHoldExpiry_rest (hps : ∀ p ∈ [.now, .host, .daq, .fab, .frames, .eth, .oper, .out], p ∈ ps)
    (t : Time) (src : BitVec 16) (s0 : State) : orest ps cells (Rest ps cells s0) (execReorderHoldExpiry t src s0) =
    Rest ps cells s0 := by
  unfold execReorderHoldExpiry
  simp only []
  repeat' split
  all_goals simp [hps]

@[simp] theorem execSourceForget_rest (hps : ∀ p ∈ [.now, .fab], p ∈ ps) (t : Time) (src : BitVec 16) (s0 : State) :
    orest ps cells (Rest ps cells s0) (execSourceForget t src s0) = Rest ps cells s0 := by
  unfold execSourceForget
  simp [hps]

@[simp] theorem noteStomp_rest (hps : ∀ p ∈ signalling ++ [.fab], p ∈ ps) (p : Nat) (c : Nat) (own : Bool) (s : State) :
    Rest ps cells (noteStomp p c own s) = Rest ps cells s := by
  unfold noteStomp
  simp [hps]

@[simp] theorem passOn_rest (hps : ∀ p ∈ [.discards, .frames, .out], p ∈ ps) (f : Frame) (outs : List Nat) (bad : Bool)
    (gain : Int) (s : State) : Rest ps cells (passOn f outs bad gain s) = Rest ps cells s := by
  simp at hps
  unfold passOn
  simp [hps]

@[simp] theorem crossNow_rest (hps : Part.fab ∈ ps) (h : Hdr) (p : Nat) (bad : Bool) (s : State) : Rest ps cells
    (crossNow h p bad s).2 = Rest ps cells s := by
  unfold crossNow
  repeat' split
  all_goals simp [hps]

@[simp] theorem routeFrame_rest (hps : ∀ p ∈ signalling ++ [.free, .host, .daq, .fab, .frames, .eth, .oper], p ∈ ps)
    (f : Frame) (h : Hdr) (residence : Nat) (s : State) : Rest ps cells (routeFrame f h residence s) = Rest ps cells
    s := by
  unfold routeFrame
  repeat' split
  all_goals simp [hps]

@[simp] theorem execFrameForward_rest (hps : ∀ p ∈ signalling ++ [.free, .host, .daq, .fab, .frames, .eth, .oper],
    p ∈ ps) (t : Time) (f : Frame) (residence : Nat) (s0 : State) : orest ps cells (Rest ps cells s0) (execFrameForward
    t f residence s0) = Rest ps cells s0 := by
  unfold execFrameForward
  simp [hps]

@[simp] theorem takeMirror_rest (hps : ∀ p ∈ signalling ++ [.free, .daq, .frames, .basin, .mems], p ∈ ps) (hcells :
    cells = false) (g : Nat) (gen : Nat) (node : BitVec 16) (ws : List Word) (s : State) : Rest ps cells (takeMirror g
    gen node ws s) = Rest ps cells s := by
  simp at hps
  unfold takeMirror
  simp [hps, hcells]

@[simp] theorem takeMark_rest (hps : ∀ p ∈ signalling ++ [.basin], p ∈ ps) (g : Nat) (mark : Option Bool) (s : State) :
    Rest ps cells (takeMark g mark s) = Rest ps cells s := by
  unfold takeMark
  split <;> simp [hps]

@[simp] theorem execRecordsFrameRx_rest (hps : ∀ p ∈ signalling ++ [.free, .host, .daq, .fab, .frames, .eth, .basin,
    .oper, .mems], p ∈ ps) (hcells : cells = false) (t : Time) (f : Frame) (mark : Option Bool) (s0 : State) : orest ps
    cells (Rest ps cells s0) (execRecordsFrameRx t f mark s0) = Rest ps cells s0 := by
  simp at hps
  rw [← tick_rest (by simp [hps]) t s0]
  unfold execRecordsFrameRx
  generalize tick t s0 = s
  extract_lets s h
  apply arriveAt_rest (by simp [hps]) _ _ _ rfl
  repeat' split
  all_goals simp [hps, hcells]

@[simp] theorem execDataFrameRx_rest (hps : ∀ p ∈ signalling ++ [.host, .daq, .fab, .frames, .eth, .oper], p ∈ ps) (t :
    Time) (f : Frame) (s0 : State) : orest ps cells (Rest ps cells s0) (execDataFrameRx t f s0) = Rest ps cells s0 := by
  simp at hps
  unfold execDataFrameRx
  simp [hps]

@[simp] theorem execOriginationHoldEnd_rest (hps : ∀ p ∈ [.now, .discards, .frames, .eth, .out], p ∈ ps) (t : Time)
    (s0 : State) : orest ps cells (Rest ps cells s0) (execOriginationHoldEnd t s0) = Rest ps cells s0 := by
  unfold execOriginationHoldEnd
  simp [hps]

@[simp] theorem execOriginationLimitRelease_rest (hps : ∀ p ∈ [.now, .discards, .frames, .eth, .out], p ∈ ps) (t : Time)
    (s0 : State) : orest ps cells (Rest ps cells s0) (execOriginationLimitRelease t s0) = Rest ps cells s0 := by
  unfold execOriginationLimitRelease
  simp [hps]

@[simp] theorem execLimiterExtensionEnd_rest (hps : ∀ p ∈ [.now, .frames], p ∈ ps) (t : Time) (s0 : State) : orest ps
    cells (Rest ps cells s0) (execLimiterExtensionEnd t s0) = Rest ps cells s0 := by
  unfold execLimiterExtensionEnd
  simp [hps]

@[simp] theorem closeExport_rest (hps : ∀ p ∈ [.free, .discards, .daq, .frames, .out], p ∈ ps) (force : Bool) (g : Nat)
    (node : BitVec 16) (s : State) : Rest ps cells (closeExport force g node s) = Rest ps cells s := by
  unfold closeExport
  simp only []
  repeat' split
  all_goals simp [hps]

@[simp] theorem execExportFrameClose_rest (hps : ∀ p ∈ [.now, .free, .discards, .daq, .frames, .out], p ∈ ps) (t : Time)
    (g : Fin 10) (s0 : State) : orest ps cells (Rest ps cells s0) (execExportFrameClose t g s0) = Rest ps cells s0 := by
  simp at hps
  unfold execExportFrameClose
  simp [hps]

@[simp] theorem execHelloRx_rest (hps : ∀ p ∈ signalling ++ [.free, .fab, .frames], p ∈ ps) (t : Time) (port : Fin 3)
    (uid : BitVec 64) (heard : BitVec 64) (sameRing : Bool) (s0 : State) : orest ps cells (Rest ps cells s0)
    (execHelloRx t port uid heard sameRing s0) = Rest ps cells s0 := by
  unfold execHelloRx
  simp [hps]

@[simp] theorem execHelloTx_rest (hps : ∀ p ∈ signalling ++ [.free, .fab, .frames], p ∈ ps) (t : Time) (port : Fin 3)
    (s0 : State) : orest ps cells (Rest ps cells s0) (execHelloTx t port s0) = Rest ps cells s0 := by
  unfold execHelloTx
  simp [hps]

@[simp] theorem execAdjacencyTimeout_rest (hps : ∀ p ∈ signalling ++ [.free, .fab, .frames], p ∈ ps) (t : Time) (port :
    Fin 3) (s0 : State) : orest ps cells (Rest ps cells s0) (execAdjacencyTimeout t port s0) = Rest ps cells s0 := by
  unfold execAdjacencyTimeout
  simp [hps]

@[simp] theorem noteDivergence_rest (hps : Part.cfg ∈ ps) (s : State) : Rest ps cells (noteDivergence s) = Rest ps cells
    s := by
  unfold noteDivergence
  split <;> simp [hps]

@[simp] theorem takePos_rest (hps : ∀ p ∈ signalling ++ [.fab], p ∈ ps) (r : PosRun) (s : State) : Rest ps cells
    (takePos r s) = Rest ps cells s := by
  unfold takePos
  simp [hps]

@[simp] theorem execTokenRx_rest (hps : ∀ p ∈ signalling ++ [.free, .cfg, .fab, .frames], p ∈ ps) (t : Time) (port : Fin
    2) (payload1 : Word) (payload2 : Word) (s0 : State) : orest ps cells (Rest ps cells s0) (execTokenRx t port payload1
    payload2 s0) = Rest ps cells s0 := by
  unfold execTokenRx
  simp [hps]

@[simp] theorem execTokenTx_rest (hps : ∀ p ∈ [.now, .free, .discards, .cfg, .fab, .frames, .out], p ∈ ps) (t : Time)
    (s0 : State) : orest ps cells (Rest ps cells s0) (execTokenTx t s0) = Rest ps cells s0 := by
  unfold execTokenTx
  simp [hps]

@[simp] theorem execSecondaryAnchorTakeover_rest (hps : ∀ p ∈ [.now, .free, .fab], p ∈ ps) (t : Time) (s0 : State) :
    orest ps cells (Rest ps cells s0) (execSecondaryAnchorTakeover t s0) = Rest ps cells s0 := by
  unfold execSecondaryAnchorTakeover
  simp [hps]

@[simp] theorem execLinkStateRx_rest (hps : ∀ p ∈ signalling ++ [.free, .fab, .frames], p ∈ ps) (t : Time) (port : Fin
    2) (up : Bool) (pos : Fin 1024) (brokenPort : Fin 3) (s0 : State) : orest ps cells (Rest ps cells s0)
    (execLinkStateRx t port up pos brokenPort s0) = Rest ps cells s0 := by
  unfold execLinkStateRx
  simp only []
  repeat' split
  all_goals simp [hps]

@[simp] theorem execBeaconTx_rest (hps : ∀ p ∈ [.now, .free, .discards, .cfg, .frames, .out], p ∈ ps) (t : Time) (s0 :
    State) : orest ps cells (Rest ps cells s0) (execBeaconTx t s0) = Rest ps cells s0 := by
  unfold execBeaconTx
  simp [hps]

@[simp] theorem execBeaconRx_rest (hps : ∀ p ∈ [.now, .discards, .cfg], p ∈ ps) (t : Time) (b : Beacon) (s0 : State) :
    orest ps cells (Rest ps cells s0) (execBeaconRx t b s0) = Rest ps cells s0 := by
  simp at hps
  unfold execBeaconRx
  simp [hps]

@[simp] theorem ownFabStatus_rest (_rq : Request) (s : State) : Rest ps cells (ownFabStatus _rq s).st = Rest ps cells
    s := by
  unfold ownFabStatus
  simp

@[simp] theorem execFabStatus_rest (hps : ∀ p ∈ answering ++ [.mgmt], p ∈ ps) (t : Time) (rq : Request) (s : State) :
    orest ps cells (Rest ps cells s) (execFabStatus t rq s) = Rest ps cells s := by
  unfold execFabStatus
  simp [hps]

@[simp] theorem ownFabProbe_rest (hps : ∀ p ∈ [.discards, .frames, .out], p ∈ ps) (ans : Option (Nat × Nat)) (rq :
    Request) (s : State) : Rest ps cells (ownFabProbe ans rq s).st = Rest ps cells s := by
  simp at hps
  unfold ownFabProbe
  split <;> simp [hps]

@[simp] theorem execFabProbe_rest (hps : ∀ p ∈ answering ++ [.mgmt], p ∈ ps) (t : Time) (rq : Request) (answer : Option
    (Nat × Nat)) (s : State) : orest ps cells (Rest ps cells s) (execFabProbe t rq answer s) = Rest ps cells s := by
  simp at hps
  unfold execFabProbe
  simp [hps]

/-! ### Ethm -/

@[simp] theorem bridgeFrame_rest (hps : ∀ p ∈ [.discards, .frames, .eth, .out], p ∈ ps) (p : Nat) (bytes : Nat) (ptp :
    Bool) (ws : List Word) (fabric : Bool) (s : State) : Rest ps cells (bridgeFrame p bytes ptp ws fabric s) =
    Rest ps cells s := by
  unfold bridgeFrame
  simp [hps]

@[simp] theorem execEthmFrameRx_rest (hps : ∀ p ∈ [.now, .discards, .frames, .eth, .out], p ∈ ps) (t : Time) (port : Fin
    2) (bytes : Nat) (fcsOk : Bool) (pause : Bool) (ptpEvent : Bool) (words : List Word) (s0 : State) : orest ps cells
    (Rest ps cells s0) (execEthmFrameRx t port bytes fcsOk pause ptpEvent words s0) = Rest ps cells s0 := by
  unfold execEthmFrameRx
  simp only []
  repeat' split
  all_goals simp [hps]

@[simp] theorem execEthmLinkChange_rest (hps : ∀ p ∈ signalling ++ [.eth], p ∈ ps) (t : Time) (port : Fin 2) (up : Bool)
    (s0 : State) : orest ps cells (Rest ps cells s0) (execEthmLinkChange t port up s0) = Rest ps cells s0 := by
  unfold execEthmLinkChange
  simp [hps]

@[simp] theorem execMacAgeing_rest (hps : ∀ p ∈ [.now, .eth], p ∈ ps) (t : Time) (group : Fin 16) (mac : BitVec 48)
    (s0 : State) : orest ps cells (Rest ps cells s0) (execMacAgeing t group mac s0) = Rest ps cells s0 := by
  unfold execMacAgeing
  simp [hps]

@[simp] theorem ethSet_rest (hps : ∀ p ∈ signalling ++ [.eth], p ∈ ps) (p : Nat) (enable : Bool) (slow : Bool) (s :
    State) : Rest ps cells (ethSet p enable slow s) = Rest ps cells s := by
  unfold ethSet
  simp [hps]

@[simp] theorem ownEthmConfig_rest (hps : ∀ p ∈ signalling ++ [.eth], p ∈ ps) (rq : Request) (s : State) : Rest ps cells
    (ownEthmConfig rq s).st = Rest ps cells s := by
  simp at hps
  unfold ownEthmConfig
  simp [hps]

@[simp] theorem execEthmConfig_rest (hps : ∀ p ∈ answering ++ [.mgmt, .eth], p ∈ ps) (t : Time) (rq : Request) (s :
    State) : orest ps cells (Rest ps cells s) (execEthmConfig t rq s) = Rest ps cells s := by
  simp at hps
  unfold execEthmConfig
  simp [hps]

@[simp] theorem setPtp_rest (hps : ∀ p ∈ [.time, .eth], p ∈ ps) (q : Word) (s : State) : Rest ps cells (setPtp q s) =
    Rest ps cells s := by
  unfold setPtp
  simp [hps]

@[simp] theorem ownEthmPtpConfig_rest (hps : ∀ p ∈ [.time, .eth], p ∈ ps) (rq : Request) (s : State) : Rest ps cells
    (ownEthmPtpConfig rq s).st = Rest ps cells s := by
  simp at hps
  unfold ownEthmPtpConfig
  simp [hps]

@[simp] theorem execEthmPtpConfig_rest (hps : ∀ p ∈ answering ++ [.mgmt, .time, .eth], p ∈ ps) (t : Time) (rq : Request)
    (s : State) : orest ps cells (Rest ps cells s) (execEthmPtpConfig t rq s) = Rest ps cells s := by
  simp at hps
  unfold execEthmPtpConfig
  simp [hps]

@[simp] theorem ownEthmStatus_rest (hps : Part.free ∈ ps) (rq : Request) (s : State) : Rest ps cells (ownEthmStatus rq
    s).st = Rest ps cells s := by
  unfold ownEthmStatus
  simp [hps]

@[simp] theorem execEthmStatus_rest (hps : ∀ p ∈ answering ++ [.free, .mgmt], p ∈ ps) (t : Time) (rq : Request) (s :
    State) : orest ps cells (Rest ps cells s) (execEthmStatus t rq s) = Rest ps cells s := by
  simp at hps
  unfold execEthmStatus
  simp [hps]

end Sys2Proof.Machine
end

section
/-! What the operations of the power and the clocks leave alone. -/

set_option maxRecDepth 4000

namespace Sys2Proof.Machine

variable {ps : List Part} {cells : Bool}

/-! ### Resets -/

@[simp] theorem powerCut_rest (hps : ∀ p ∈ volatile, p ∈ ps) (hcells : cells = false) (s : State) : Rest ps cells
    (powerCut s) = Rest ps cells s := by
  unfold powerCut
  simp [hps, hcells]

@[simp] theorem modAon_rest (hps : Part.aon ∈ ps) (f : AonSt → AonSt) (s : State) : Rest ps cells (modAon f s) =
    Rest ps cells s := by
  unfold modAon
  simp [hps]

@[simp] theorem coarseNow_rest (hps : Part.free ∈ ps) (s : State) : Rest ps cells (coarseNow s).2 = Rest ps cells
    s := by
  unfold coarseNow
  repeat' split
  all_goals simp [hps]

@[simp] theorem thermalShutdown_rest (hps : ∀ p ∈ volatile, p ∈ ps) (hcells : cells = false) (s : State) : Rest ps cells
    (thermalShutdown s) = Rest ps cells s := by
  unfold thermalShutdown
  repeat' split
  all_goals simp [hps, hcells]

@[simp] theorem execAonThermalTrip_rest (hps : ∀ p ∈ volatile, p ∈ ps) (hcells : cells = false) (t : Time) (s0 :
    State) : orest ps cells (Rest ps cells s0) (execAonThermalTrip t s0) = Rest ps cells s0 := by
  unfold execAonThermalTrip
  simp only []
  repeat' split
  all_goals simp [hps, hcells]

@[simp] theorem execThermalRestart_rest (hps : ∀ p ∈ [.now, .aon], p ∈ ps) (t : Time) (s0 : State) : orest ps cells
    (Rest ps cells s0) (execThermalRestart t s0) = Rest ps cells s0 := by
  unfold execThermalRestart
  simp [hps]

/-! ### Power -/

@[simp] theorem modPwr_rest (hps : Part.pwr ∈ ps) (f : PwrSt → PwrSt) (s : State) : Rest ps cells (modPwr f s) =
    Rest ps cells s := by
  unfold modPwr
  simp [hps]

@[simp] theorem setOp_rest (hps : ∀ p ∈ signalling ++ [.daq, .pwr, .oper], p ∈ ps) (op : Nat) (s : State) :
    Rest ps cells (setOp op s) = Rest ps cells s := by
  unfold setOp
  simp [hps]

@[simp] theorem startChange_rest (hps : ∀ p ∈ signalling ++ [.daq, .pwr, .oper], p ∈ ps) (target : Nat) (s : State) :
    Rest ps cells (startChange target s) = Rest ps cells s := by
  unfold startChange
  simp [hps]

@[simp] theorem wantOp_rest (hps : ∀ p ∈ signalling ++ [.daq, .pwr, .oper], p ∈ ps) (target : Nat) (s : State) :
    Rest ps cells (wantOp target s) = Rest ps cells s := by
  unfold wantOp
  simp [hps]

@[simp] theorem opNext_rest (hps : ∀ p ∈ signalling ++ [.daq, .pwr, .oper], p ∈ ps) (s : State) : Rest ps cells (opNext
    s) = Rest ps cells s := by
  unfold opNext
  split <;> simp [hps]

@[simp] theorem writeBack_rest (hps : Part.pwr ∈ ps) (c : AvsChange) (s : State) : Rest ps cells (writeBack c s) =
    Rest ps cells s := by
  unfold writeBack
  simp [hps]

@[simp] theorem execVctlVerify_rest (hps : ∀ p ∈ answering ++ [.daq, .pwr, .oper], p ∈ ps) (t : Time) (readingMv : Nat)
    (s0 : State) : orest ps cells (Rest ps cells s0) (execVctlVerify t readingMv s0) = Rest ps cells s0 := by
  unfold execVctlVerify
  simp only []
  repeat' split
  all_goals simp [hps]

@[simp] theorem execAvsTimeout_rest (hps : ∀ p ∈ answering ++ [.daq, .pwr, .oper], p ∈ ps) (t : Time) (s0 : State) :
    orest ps cells (Rest ps cells s0) (execAvsTimeout t s0) = Rest ps cells s0 := by
  unfold execAvsTimeout
  simp only []
  repeat' split
  all_goals simp [hps]

@[simp] theorem sagStopsChange_rest (hps : ∀ p ∈ answering ++ [.pwr], p ∈ ps) (s : State) : Rest ps cells
    (sagStopsChange s) = Rest ps cells s := by
  unfold sagStopsChange
  split <;> simp [hps]

@[simp] theorem ownPwrSetOp_rest (hps : ∀ p ∈ signalling ++ [.daq, .pwr, .oper], p ∈ ps) (rq : Request) (s : State) :
    Rest ps cells (ownPwrSetOp rq s).st = Rest ps cells s := by
  simp at hps
  unfold ownPwrSetOp
  simp [hps]

@[simp] theorem execPwrSetOp_rest (hps : ∀ p ∈ answering ++ [.mgmt, .daq, .pwr, .oper], p ∈ ps) (t : Time) (rq :
    Request) (s : State) : orest ps cells (Rest ps cells s) (execPwrSetOp t rq s) = Rest ps cells s := by
  simp at hps
  unfold execPwrSetOp
  simp [hps]

@[simp] theorem imageOp_rest (hps : ∀ p ∈ signalling ++ [.daq, .pwr, .oper], p ∈ ps) (op : Nat) (s : State) :
    Rest ps cells (imageOp op s) = Rest ps cells s := by
  unfold imageOp
  simp [hps]

@[simp] theorem ownPwrStatus_rest (railMv : List Nat) (x : Request) (s : State) : Rest ps cells (ownPwrStatus railMv x
    s).st = Rest ps cells s := by
  unfold ownPwrStatus
  simp

@[simp] theorem execPwrStatus_rest (hps : ∀ p ∈ answering ++ [.mgmt], p ∈ ps) (t : Time) (rq : Request) (railMv : List
    Nat) (s : State) : orest ps cells (Rest ps cells s) (execPwrStatus t rq railMv s) = Rest ps cells s := by
  unfold execPwrStatus
  simp [hps]

@[simp] theorem execPmbusPoll_rest (hps : ∀ p ∈ [.now, .time, .pwr], p ∈ ps) (t : Time) (currents : List (Option Nat))
    (oscTemp : Int) (s0 : State) : orest ps cells (Rest ps cells s0) (execPmbusPoll t currents oscTemp s0) =
    Rest ps cells s0 := by
  unfold execPmbusPoll
  simp [hps]

/-! ### Therm -/

@[simp] theorem modTherm_rest (hps : Part.therm ∈ ps) (f : ThermSt → ThermSt) (s : State) : Rest ps cells (modTherm f s)
    = Rest ps cells s := by
  unfold modTherm
  simp [hps]

@[simp] theorem modZone_rest (hps : Part.therm ∈ ps) (z : Nat) (f : Zone → Zone) (s : State) : Rest ps cells (modZone z
    f s) = Rest ps cells s := by
  unfold modZone
  simp [hps]

@[simp] theorem modSensor_rest (hps : Part.therm ∈ ps) (i : Nat) (f : Sensor → Sensor) (s : State) : Rest ps cells
    (modSensor i f s) = Rest ps cells s := by
  unfold modSensor
  simp [hps]

@[simp] theorem execSensorRead_rest (hps : ∀ p ∈ [.now, .time, .therm], p ∈ ps) (t : Time) (readings : List Int)
    (openShort : BitVec 17) (s0 : State) : orest ps cells (Rest ps cells s0) (execSensorRead t readings openShort s0) =
    Rest ps cells s0 := by
  unfold execSensorRead
  simp [hps, okept_next, followTable_rest]
  rw [foldl_rest]
  · simp [hps]
  · intro a z
    split <;> simp [hps]

@[simp] theorem noteZones_rest (hps : Part.therm ∈ ps) (s : State) : Rest ps cells (noteZones s) = Rest ps cells s := by
  unfold noteZones
  simp [hps]

@[simp] theorem noteDemand_rest (hps : ∀ p ∈ [.interrupts, .therm, .out], p ∈ ps) (s : State) : Rest ps cells
    (noteDemand s) = Rest ps cells s := by
  unfold noteDemand
  split <;> simp [hps]

@[simp] theorem enterL1_rest (hps : ∀ p ∈ signalling ++ [.daq, .pwr, .oper], p ∈ ps) (s : State) : Rest ps cells
    (enterL1 s) = Rest ps cells s := by
  unfold enterL1
  simp [hps]

@[simp] theorem leaveL1_rest (hps : ∀ p ∈ signalling ++ [.daq, .pwr, .oper], p ∈ ps) (s : State) : Rest ps cells
    (leaveL1 s) = Rest ps cells s := by
  unfold leaveL1
  split <;> simp [hps]

@[simp] theorem setLevel_rest (hps : ∀ p ∈ signalling ++ [.free, .host, .time, .daq, .pwr, .clk, .therm, .line, .fab,
    .frames, .oper], p ∈ ps) (n : Nat) (s : State) : Rest ps cells (setLevel n s) = Rest ps cells s := by
  unfold setLevel
  simp [hps]

@[simp] theorem checkLevel_rest (hps : ∀ p ∈ signalling ++ [.free, .host, .time, .daq, .pwr, .clk, .therm, .line, .fab,
    .frames, .oper], p ∈ ps) (s : State) : Rest ps cells (checkLevel s) = Rest ps cells s := by
  unfold checkLevel
  simp [hps]

@[simp] theorem thermCheck_rest (hps : ∀ p ∈ signalling ++ [.free, .host, .time, .daq, .pwr, .clk, .therm, .line, .fab,
    .frames, .oper], p ∈ ps) (s : State) : Rest ps cells (thermCheck s) = Rest ps cells s := by
  unfold thermCheck
  simp [hps]

@[simp] theorem crossing_rest (hps : ∀ p ∈ signalling, p ∈ ps) (z : Nat) (what : Nat) (entry : Bool) (s : State) :
    Rest ps cells (crossing z what entry s) = Rest ps cells s := by
  unfold crossing
  simp [hps]

@[simp] theorem execSensorBrokenChange_rest (hps : ∀ p ∈ signalling ++ [.free, .host, .time, .daq, .pwr, .clk, .therm,
    .line, .fab, .frames, .oper], p ∈ ps) (t : Time) (sensor : Fin 17) (s0 : State) : orest ps cells (Rest ps cells s0)
    (execSensorBrokenChange t sensor s0) = Rest ps cells s0 := by
  unfold execSensorBrokenChange
  simp [hps]

@[simp] theorem crossOne_rest (hps : ∀ p ∈ signalling ++ [.therm], p ∈ ps) (z : Nat) (what : Option Nat) (cur : Bool)
    (up : Nat) (down : Nat) (put : Bool → Zone → Zone) (s : State) : Rest ps cells (crossOne z what cur up down put s) =
    Rest ps cells s := by
  unfold crossOne
  repeat' split
  all_goals simp [hps]

@[simp] theorem reachCrit_rest (hps : ∀ p ∈ volatile, p ∈ ps) (hcells : cells = false) (z : Nat) (s : State) :
    Rest ps cells (reachCrit z s) = Rest ps cells s := by
  unfold reachCrit
  repeat' split
  all_goals simp [hps, hcells]

@[simp] theorem execZoneThresholdCrossing_rest (hps : ∀ p ∈ volatile ++ [.free], p ∈ ps) (hcells : cells = false) (t :
    Time) (zone : Fin 7) (s0 : State) : orest ps cells (Rest ps cells s0) (execZoneThresholdCrossing t zone s0) =
    Rest ps cells s0 := by
  unfold execZoneThresholdCrossing
  repeat' split
  all_goals simp [hps, hcells]

@[simp] theorem execZoneRisingFastChange_rest (hps : ∀ p ∈ signalling ++ [.free, .host, .time, .daq, .pwr, .clk, .therm,
    .line, .fab, .frames, .oper], p ∈ ps) (t : Time) (zone : Fin 7) (s0 : State) : orest ps cells (Rest ps cells s0)
    (execZoneRisingFastChange t zone s0) = Rest ps cells s0 := by
  unfold execZoneRisingFastChange
  simp [hps]

@[simp] theorem execGraceTimeExpiry_rest (hps : ∀ p ∈ signalling ++ [.free, .host, .time, .daq, .pwr, .clk, .therm,
    .line, .fab, .frames, .oper], p ∈ ps) (t : Time) (s0 : State) : orest ps cells (Rest ps cells s0)
    (execGraceTimeExpiry t s0) = Rest ps cells s0 := by
  unfold execGraceTimeExpiry
  simp [hps]

@[simp] theorem execL2HotTimer_rest (hps : ∀ p ∈ signalling ++ [.free, .host, .time, .daq, .pwr, .clk, .therm, .line,
    .fab, .frames, .oper], p ∈ ps) (t : Time) (s0 : State) : orest ps cells (Rest ps cells s0) (execL2HotTimer t s0) =
    Rest ps cells s0 := by
  unfold execL2HotTimer
  simp [hps]

@[simp] theorem execZoneAllBrokenTimer_rest (hps : ∀ p ∈ volatile, p ∈ ps) (hcells : cells = false) (t : Time) (zone :
    Fin 7) (s0 : State) : orest ps cells (Rest ps cells s0) (execZoneAllBrokenTimer t zone s0) = Rest ps cells s0 := by
  unfold execZoneAllBrokenTimer
  simp [hps, hcells]

@[simp] theorem ownThermConfig_rest (hps : Part.therm ∈ ps) (img : Bool) (rq : Request) (s : State) : Rest ps cells
    (ownThermConfig img rq s).st = Rest ps cells s := by
  unfold ownThermConfig
  simp [hps]

@[simp] theorem execThermConfig_rest (hps : ∀ p ∈ answering ++ [.mgmt, .therm], p ∈ ps) (t : Time) (rq : Request) (s :
    State) : orest ps cells (Rest ps cells s) (execThermConfig t rq s) = Rest ps cells s := by
  simp at hps
  unfold execThermConfig
  simp [hps]

@[simp] theorem ownThermStatus_rest (x : Request) (s : State) : Rest ps cells (ownThermStatus x s).st = Rest ps cells
    s := by
  unfold ownThermStatus
  simp

@[simp] theorem execThermStatus_rest (hps : ∀ p ∈ answering ++ [.mgmt], p ∈ ps) (t : Time) (rq : Request) (s : State) :
    orest ps cells (Rest ps cells s) (execThermStatus t rq s) = Rest ps cells s := by
  unfold execThermStatus
  simp [hps]

/-! ### Islands -/

@[simp] theorem chanDown_rest (hps : ∀ p ∈ answering ++ [.daq], p ∈ ps) (c : Nat) (s : State) : Rest ps cells (chanDown
    c s) = Rest ps cells s := by
  unfold chanDown
  simp [hps]

@[simp] theorem genDown_rest (hps : Part.daq ∈ ps) (n : Nat) (s : State) : Rest ps cells (genDown n s) = Rest ps cells
    s := by
  unfold genDown
  simp [hps]

@[simp] theorem daqDown_rest (hps : ∀ p ∈ answering ++ [.daq], p ∈ ps) (g : Nat) (s : State) : Rest ps cells (daqDown g
    s) = Rest ps cells s := by
  simp at hps
  unfold daqDown
  simp [hps]

@[simp] theorem daqUp_rest (hps : ∀ p ∈ signalling ++ [.daq], p ∈ ps) (g : Nat) (s : State) : Rest ps cells (daqUp g s)
    = Rest ps cells s := by
  simp at hps
  unfold daqUp
  extract_lets s1 s2 s3
  have h1 : Rest ps cells s1 = Rest ps cells s := by
    simp only [s1]
    rw [modGroup_rest (by simp [hps]), foldl_rest]
    intro a x
    simp [hps]
  have h2 : Rest ps cells s2 = Rest ps cells s := (foldl_rest _ _ _ fun a n => by simp [hps]).trans h1
  have h3 : Rest ps cells s3 = Rest ps cells s := by
    simp only [s3]
    rw [forChans_rest, h2]
    intro c x
    simp [hps]
  clear_value s3
  split
  · rw [addSync_rest (by simp [hps]), h3]
  · exact h3

@[simp] theorem loopsOff_rest (hps : Part.diag ∈ ps) (ports : List Nat) (s : State) : Rest ps cells (loopsOff ports s) =
    Rest ps cells s := by
  unfold loopsOff
  simp [hps]

@[simp] theorem lineDown_rest (hps : ∀ p ∈ signalling ++ [.free, .host, .time, .clk, .line, .fab, .frames], p ∈ ps)
    (keep : Bool) (p : Nat) (s : State) : Rest ps cells (lineDown keep p s) = Rest ps cells s := by
  simp at hps
  unfold lineDown
  simp [hps]

@[simp] theorem xbarDown_rest (hps : ∀ p ∈ [.fab, .frames], p ∈ ps) (s : State) : Rest ps cells (xbarDown s) =
    Rest ps cells s := by
  unfold xbarDown
  simp [hps]

@[simp] theorem xbarUp_rest (hps : Part.fab ∈ ps) (s : State) : Rest ps cells (xbarUp s) = Rest ps cells s := by
  unfold xbarUp
  simp [hps]

@[simp] theorem basinDown_rest (hps : ∀ p ∈ answering ++ [.basin], p ∈ ps) (s : State) : Rest ps cells (basinDown s) =
    Rest ps cells s := by
  simp at hps
  unfold basinDown
  simp [hps]

@[simp] theorem basinUp_rest (hps : Part.basin ∈ ps) (s : State) : Rest ps cells (basinUp s) = Rest ps cells s := by
  unfold basinUp
  simp [hps]

@[simp] theorem ethmDown_rest (hps : Part.eth ∈ ps) (keep : Bool) (s : State) : Rest ps cells (ethmDown keep s) =
    Rest ps cells s := by
  unfold ethmDown
  simp [hps]

@[simp] theorem islandDown_rest (hps : ∀ p ∈ answering ++ [.free, .islands, .host, .time, .daq, .clk, .line, .fab, .eth,
    .basin, .diag], p ∈ ps) (keep : Bool) (i : Island) (ph : IslandPhase) (s : State) : Rest ps cells (islandDown keep i
    ph s) = Rest ps cells s := by
  unfold islandDown
  repeat' split
  all_goals simp [hps]

@[simp] theorem islandUp_rest (hps : ∀ p ∈ signalling ++ [.islands, .daq, .fab, .basin], p ∈ ps) (i : Island) (s :
    State) : Rest ps cells (islandUp i s) = Rest ps cells s := by
  unfold islandUp
  split <;> simp [hps]

@[simp] theorem ownSysIslandReset_rest (hps : Part.islands ∈ ps) (rq : Request) (s : State) : Rest ps cells
    (ownSysIslandReset rq s).st = Rest ps cells s := by
  unfold ownSysIslandReset
  simp [hps]

@[simp] theorem execSysIslandReset_rest (hps : ∀ p ∈ answering ++ [.islands, .mgmt], p ∈ ps) (t : Time) (rq : Request)
    (s : State) : orest ps cells (Rest ps cells s) (execSysIslandReset t rq s) = Rest ps cells s := by
  simp at hps
  unfold execSysIslandReset
  simp [hps]

@[simp] theorem abortShake_rest (hps : ∀ p ∈ [.islands, .discards], p ∈ ps) (s : State) (p : Fin 21) : Rest ps cells
    (abortShake s p) = Rest ps cells s := by
  unfold abortShake
  simp [hps]

@[simp] theorem execIslandResetDrainEnd_rest (hps : ∀ p ∈ answering ++ [.free, .islands, .host, .time, .daq, .clk,
    .line, .fab, .eth, .basin, .diag], p ∈ ps) (t : Time) (openShakes : List (Fin 21)) (s0 : State) : orest ps cells
    (Rest ps cells s0) (execIslandResetDrainEnd t openShakes s0) = Rest ps cells s0 := by
  unfold execIslandResetDrainEnd
  simp [hps]
  repeat' (first | (simp [hps]; done) | (split <;> simp_all <;> done) | split)

@[simp] theorem ownClkGate_rest (hps : Part.islands ∈ ps) (rq : Request) (s : State) : Rest ps cells (ownClkGate rq
    s).st = Rest ps cells s := by
  unfold ownClkGate
  simp [hps]

@[simp] theorem execClkGate_rest (hps : ∀ p ∈ answering ++ [.islands, .mgmt], p ∈ ps) (t : Time) (rq : Request) (s :
    State) : orest ps cells (Rest ps cells s) (execClkGate t rq s) = Rest ps cells s := by
  simp at hps
  unfold execClkGate
  simp [hps]

@[simp] theorem gateClosed_rest (hps : ∀ p ∈ answering ++ [.free, .islands, .host, .time, .daq, .clk, .line, .fab, .eth,
    .basin, .diag], p ∈ ps) (n : Nat) (s : State) : Rest ps cells (gateClosed n s) = Rest ps cells s := by
  unfold gateClosed
  simp [hps]

@[simp] theorem gateOpened_rest (hps : ∀ p ∈ signalling ++ [.islands, .daq, .clk, .fab, .basin], p ∈ ps) (n : Nat) (s :
    State) : Rest ps cells (gateOpened n s) = Rest ps cells s := by
  unfold gateOpened
  simp [hps]

@[simp] theorem execGateCloseDrainEnd_rest (hps : ∀ p ∈ answering ++ [.free, .islands, .host, .time, .daq, .clk, .line,
    .fab, .eth, .basin, .diag], p ∈ ps) (t : Time) (idle : Bool) (s0 : State) : orest ps cells (Rest ps cells s0)
    (execGateCloseDrainEnd t idle s0) = Rest ps cells s0 := by
  unfold execGateCloseDrainEnd
  simp only []
  repeat' split
  all_goals simp [hps]

@[simp] theorem execGateOpenDone_rest (hps : ∀ p ∈ answering ++ [.islands, .daq, .clk, .fab, .basin], p ∈ ps) (t : Time)
    (s0 : State) : orest ps cells (Rest ps cells s0) (execGateOpenDone t s0) = Rest ps cells s0 := by
  unfold execGateOpenDone
  simp only []
  repeat' split
  all_goals simp [hps]

@[simp] theorem quietDom_rest (hps : ∀ p ∈ signalling ++ [.time, .daq], p ∈ ps) (d : Nat) (s : State) : Rest ps cells
    (quietDom d s) = Rest ps cells s := by
  unfold quietDom
  split <;> simp [hps]

@[simp] theorem enterQuiet_rest (hps : ∀ p ∈ answering ++ [.free, .islands, .host, .time, .daq, .pwr, .clk, .line, .fab,
    .eth, .basin, .diag], p ∈ ps) (s : State) : Rest ps cells (enterQuiet s) = Rest ps cells s := by
  simp at hps
  unfold enterQuiet
  simp [hps]

@[simp] theorem leaveQuiet_rest (hps : ∀ p ∈ signalling ++ [.islands, .time, .daq, .pwr, .fab, .basin], p ∈ ps) (s :
    State) : Rest ps cells (leaveQuiet s) = Rest ps cells s := by
  simp at hps
  unfold leaveQuiet
  simp [hps]

@[simp] theorem ownPwrSetState_rest (hps : ∀ p ∈ answering ++ [.free, .islands, .host, .mgmt, .time, .daq, .pwr, .clk,
    .line, .fab, .eth, .basin, .diag], p ∈ ps) (idle : Bool) (rq : Request) (s : State) : Rest ps cells (ownPwrSetState
    idle rq s).st = Rest ps cells s := by
  unfold ownPwrSetState
  simp [hps]
  repeat' (first | (simp [hps]; done) | (split <;> simp_all <;> done) | split)

@[simp] theorem execPwrSetState_rest (hps : ∀ p ∈ answering ++ [.free, .islands, .host, .mgmt, .time, .daq, .pwr, .clk,
    .line, .fab, .eth, .basin, .diag], p ∈ ps) (t : Time) (rq : Request) (idle : Bool) (s : State) : orest ps cells
    (Rest ps cells s) (execPwrSetState t rq idle s) = Rest ps cells s := by
  simp at hps
  unfold execPwrSetState
  simp [hps]

@[simp] theorem execHibernateEntry_rest (hps : ∀ p ∈ volatile, p ∈ ps) (hcells : cells = false) (t : Time) (s0 :
    State) : orest ps cells (Rest ps cells s0) (execHibernateEntry t s0) = Rest ps cells s0 := by
  unfold execHibernateEntry
  simp only []
  repeat' split
  all_goals simp [hps, hcells]

/-! ### Clk -/

@[simp] theorem toRc_rest (hps : ∀ p ∈ signalling ++ [.daq, .clk, .oper], p ∈ ps) (s : State) : Rest ps cells (toRc s) =
    Rest ps cells s := by
  unfold toRc
  simp [hps]

@[simp] theorem controlLost_rest (hps : ∀ p ∈ signalling ++ [.daq, .clk, .oper], p ∈ ps) (s : State) : Rest ps cells
    (controlLost s) = Rest ps cells s := by
  simp at hps
  unfold controlLost
  simp [hps]

@[simp] theorem failPort_rest (hps : ∀ p ∈ signalling ++ [.free, .host, .time, .clk, .line, .fab, .frames], p ∈ ps) (p :
    Nat) (s : State) : Rest ps cells (failPort p s) = Rest ps cells s := by
  simp at hps
  unfold failPort
  simp [hps]

@[simp] theorem refFails_rest (hps : ∀ p ∈ signalling ++ [.free, .host, .time, .daq, .clk, .oper], p ∈ ps) (b : Bool)
    (s : State) : Rest ps cells (refFails b s) = Rest ps cells s := by
  unfold refFails
  simp [hps]

@[simp] theorem sourceFails_rest (hps : ∀ p ∈ answering ++ [.free, .islands, .host, .time, .daq, .clk, .line, .fab,
    .eth, .basin, .oper, .diag], p ∈ ps) (src : Nat) (s : State) : Rest ps cells (sourceFails src s) = Rest ps cells
    s := by
  simp at hps
  unfold sourceFails
  split <;> simp [hps]

@[simp] theorem execClockSourceFailure_rest (hps : ∀ p ∈ answering ++ [.free, .islands, .host, .time, .daq, .clk, .line,
    .fab, .eth, .basin, .oper, .diag], p ∈ ps) (t : Time) (src : Fin 32) (_stopped : Bool) (s0 : State) : orest ps cells
    (Rest ps cells s0) (execClockSourceFailure t src _stopped s0) = Rest ps cells s0 := by
  unfold execClockSourceFailure
  simp [hps]

@[simp] theorem execClockForcedSwitch_rest (hps : ∀ p ∈ signalling ++ [.host, .clk], p ∈ ps) (t : Time) (src : Fin 32)
    (s0 : State) : orest ps cells (Rest ps cells s0) (execClockForcedSwitch t src s0) = Rest ps cells s0 := by
  unfold execClockForcedSwitch
  simp [hps]

@[simp] theorem restored_rest (hps : ∀ p ∈ signalling ++ [.clk], p ∈ ps) (src : Nat) (s : State) : Rest ps cells
    (restored src s) = Rest ps cells s := by
  unfold restored
  simp [hps]

@[simp] theorem execRefQualified_rest (hps : ∀ p ∈ signalling ++ [.free, .host, .time, .clk], p ∈ ps) (t : Time) (refB :
    Bool) (s0 : State) : orest ps cells (Rest ps cells s0) (execRefQualified t refB s0) = Rest ps cells s0 := by
  unfold execRefQualified
  simp [hps]

@[simp] theorem lockAll_rest (hps : Part.clk ∈ ps) (s : State) : Rest ps cells (lockAll s) = Rest ps cells s := by
  unfold lockAll
  simp [hps]

@[simp] theorem execClockQualifyTimeout_rest (hps : ∀ p ∈ signalling ++ [.host, .daq, .clk, .oper], p ∈ ps) (t : Time)
    (s0 : State) : orest ps cells (Rest ps cells s0) (execClockQualifyTimeout t s0) = Rest ps cells s0 := by
  unfold execClockQualifyTimeout
  simp [hps]

@[simp] theorem execTbRefSwitchUp_rest (hps : ∀ p ∈ signalling ++ [.free, .host, .time, .clk], p ∈ ps) (t : Time)
    (entry : Fin 3) (s0 : State) : orest ps cells (Rest ps cells s0) (execTbRefSwitchUp t entry s0) = Rest ps cells
    s0 := by
  unfold execTbRefSwitchUp
  simp [hps]

@[simp] theorem groupResumes_rest (hps : Part.daq ∈ ps) (g : Nat) (s : State) : Rest ps cells (groupResumes g s) =
    Rest ps cells s := by
  unfold groupResumes
  simp [hps]

@[simp] theorem execPllLocked_rest (hps : ∀ p ∈ signalling ++ [.islands, .daq, .clk, .fab, .basin, .oper], p ∈ ps) (t :
    Time) (src : Fin 32) (s0 : State) : orest ps cells (Rest ps cells s0) (execPllLocked t src s0) = Rest ps cells
    s0 := by
  unfold execPllLocked
  simp [hps]
  repeat' (first | (simp [hps]; done) | (split <;> simp_all <;> done) | split)

@[simp] theorem execPllHoldExpiry_rest (hps : ∀ p ∈ signalling ++ [.free, .host, .time, .clk, .line, .fab, .frames],
    p ∈ ps) (t : Time) (s0 : State) : orest ps cells (Rest ps cells s0) (execPllHoldExpiry t s0) = Rest ps cells
    s0 := by
  unfold execPllHoldExpiry
  simp only []
  repeat' split
  all_goals simp [hps]

@[simp] theorem execCounterGateClose_rest (hps : ∀ p ∈ answering ++ [.free, .clk], p ∈ ps) (t : Time) (c : Fin 4)
    (measCount : Nat) (s0 : State) : orest ps cells (Rest ps cells s0) (execCounterGateClose t c measCount s0) =
    Rest ps cells s0 := by
  unfold execCounterGateClose
  simp only []
  repeat' split
  all_goals simp [hps]

@[simp] theorem presentMask_rest (hps : Part.free ∈ ps) (s : State) : Rest ps cells (presentMask s).2 = Rest ps cells
    s := by
  unfold presentMask
  simp [hps]

@[simp] theorem ownClkStatus_rest (hps : Part.free ∈ ps) (x : Request) (s : State) : Rest ps cells (ownClkStatus x s).st
    = Rest ps cells s := by
  unfold ownClkStatus
  simp [hps]

@[simp] theorem execClkStatus_rest (hps : ∀ p ∈ answering ++ [.free, .mgmt], p ∈ ps) (t : Time) (rq : Request) (s :
    State) : orest ps cells (Rest ps cells s) (execClkStatus t rq s) = Rest ps cells s := by
  simp at hps
  unfold execClkStatus
  simp [hps]

@[simp] theorem ownClkCounter_rest (hps : Part.clk ∈ ps) (rq : Request) (s : State) : Rest ps cells (ownClkCounter rq
    s).st = Rest ps cells s := by
  unfold ownClkCounter
  simp [hps]

@[simp] theorem execClkCounter_rest (hps : ∀ p ∈ answering ++ [.mgmt, .clk], p ∈ ps) (t : Time) (rq : Request) (s :
    State) : orest ps cells (Rest ps cells s) (execClkCounter t rq s) = Rest ps cells s := by
  simp at hps
  unfold execClkCounter
  simp [hps]

@[simp] theorem ownClkSetPriority_rest (hps : ∀ p ∈ [.free, .host, .interrupts, .time, .clk, .out], p ∈ ps) (rq :
    Request) (s : State) : Rest ps cells (ownClkSetPriority rq s).st = Rest ps cells s := by
  simp at hps
  unfold ownClkSetPriority
  simp [hps]

@[simp] theorem execClkSetPriority_rest (hps : ∀ p ∈ answering ++ [.free, .host, .mgmt, .time, .clk], p ∈ ps) (t : Time)
    (rq : Request) (s : State) : orest ps cells (Rest ps cells s) (execClkSetPriority t rq s) = Rest ps cells s := by
  simp at hps
  unfold execClkSetPriority
  simp [hps]

end Sys2Proof.Machine
end

section
/-! What the operations of the images and the DMA channels leave alone. -/

set_option maxRecDepth 4000

namespace Sys2Proof.Machine

variable {ps : List Part} {cells : Bool}

/-! ### Dma -/

@[simp] theorem modDma_rest (hps : Part.host ∈ ps) (c : Nat) (f : DmaCh → DmaCh) (s : State) : Rest ps cells (modDma c f
    s) = Rest ps cells s := by
  unfold modDma
  simp [hps]

@[simp] theorem dmaSignal_rest (hps : ∀ p ∈ [.interrupts, .out], p ∈ ps) (c : Nat) (s : State) : Rest ps cells
    (dmaSignal c s) = Rest ps cells s := by
  unfold dmaSignal
  simp [hps]

@[simp] theorem completeDesc_rest (hps : ∀ p ∈ [.host, .interrupts, .out], p ∈ ps) (c : Nat) (b : DmaBuf) (why : Close)
    (s : State) : Rest ps cells (completeDesc c b why s) = Rest ps cells s := by
  unfold completeDesc
  simp [hps]

@[simp] theorem closeBuf_rest (hps : ∀ p ∈ [.host, .interrupts, .out], p ∈ ps) (c : Nat) (why : Close) (s : State) :
    Rest ps cells (closeBuf c why s) = Rest ps cells s := by
  unfold closeBuf
  split <;> simp [hps]

@[simp] theorem closeRings_rest (hps : ∀ p ∈ [.host, .interrupts, .out], p ∈ ps) (s : State) : Rest ps cells (closeRings
    s) = Rest ps cells s := by
  simp at hps
  unfold closeRings
  simp [hps]

@[simp] theorem putWord_rest (hps : ∀ p ∈ [.host, .interrupts, .out], p ∈ ps) (c : Nat) (w : Word) (poisoned : Bool)
    (s : State) : Rest ps cells (putWord c w poisoned s) = Rest ps cells s := by
  unfold putWord
  split <;> simp [hps]

@[simp] theorem haltDma_rest (hps : ∀ p ∈ [.host, .interrupts, .out], p ∈ ps) (c : Nat) (w : Word) (s : State) :
    Rest ps cells (haltDma c w s) = Rest ps cells s := by
  unfold haltDma
  simp [hps]

@[simp] theorem haltAt_rest (hps : ∀ p ∈ [.host, .interrupts, .out], p ∈ ps) (c : Nat) (r : QRec) (s : State) :
    Rest ps cells (haltAt c r s) = Rest ps cells s := by
  unfold haltAt
  simp [hps]

@[simp] theorem takeWord_rest (hps : ∀ p ∈ [.host, .daq], p ∈ ps) {c : Nat} {s s3 : State} {q : QRec} (h : takeWord c s
    = some (q, s3)) : Rest ps cells s3 = Rest ps cells s := by
  unfold takeWord at h
  repeat' split at h
  all_goals first | (simp [hps] at h; done) | (simp [hps, Option.some.injEq, Prod.mk.injEq] at h; rw [← h.2]; simp [hps])

@[simp] theorem moveWord_rest (hps : ∀ p ∈ [.host, .interrupts, .daq, .out], p ∈ ps) (c : Nat) (desc : Word) (bad :
    Bool) (s : State) : Rest ps cells (moveWord c desc bad s) = Rest ps cells s := by
  simp at hps
  unfold moveWord
  split
  · rfl
  · rename_i r hr
    extract_lets s1 d s2
    have h1 : Rest ps cells s1 = Rest ps cells s := by
      simp only [s1]
      repeat' split
      all_goals simp [hps]
    have h2 : Rest ps cells s2 = Rest ps cells s := by
      simp only [s2]
      split
      · exact h1
      · simp [hps, h1]
    clear_value s1 s2
    split
    · exact h1
    split
    · simp [hps, h2]
    split
    · exact h2
    · rename_i q s3 h3
      have h3 : Rest ps cells s3 = Rest ps cells s := (takeWord_rest (by simp [hps]) h3).trans h2
      split <;> simp [hps, h3]

@[simp] theorem writeBuf_rest (hps : Part.out ∈ ps) (desc : Word) (ws : List Word) (s : State) : Rest ps cells (writeBuf
    desc ws s) = Rest ps cells s := by
  unfold writeBuf
  simp [hps]

@[simp] theorem putExtract_rest (hps : Part.basin ∈ ps) (e : Extract) (s : State) : Rest ps cells (putExtract e s) =
    Rest ps cells s := by
  unfold putExtract
  simp [hps]

@[simp] theorem moveBasin_rest (hps : ∀ p ∈ [.free, .host, .interrupts, .basin, .out], p ∈ ps) (c : Nat) (desc : Word)
    (s : State) : Rest ps cells (moveBasin c desc s) = Rest ps cells s := by
  unfold moveBasin
  split <;> simp [hps]

@[simp] theorem execDmaWrite_rest (hps : ∀ p ∈ [.now, .free, .host, .interrupts, .daq, .basin, .out], p ∈ ps) (t : Time)
    (c : Fin 16) (desc : Word) (bad : Bool) (s0 : State) : orest ps cells (Rest ps cells s0) (execDmaWrite t c desc bad
    s0) = Rest ps cells s0 := by
  unfold execDmaWrite
  simp [hps]

@[simp] theorem execRecBufferFlush_rest (hps : ∀ p ∈ [.now, .host, .interrupts, .out], p ∈ ps) (t : Time) (c : Fin 8)
    (s0 : State) : orest ps cells (Rest ps cells s0) (execRecBufferFlush t c s0) = Rest ps cells s0 := by
  unfold execRecBufferFlush
  simp only []
  repeat' split
  all_goals simp [hps]

@[simp] theorem setProd_rest (hps : Part.host ∈ ps) (c : Nat) (v : BitVec 32) (s : State) : Rest ps cells (setProd c v
    s) = Rest ps cells s := by
  unfold setProd
  simp [hps]

@[simp] theorem execDmaProdWrite_rest (hps : ∀ p ∈ [.now, .host], p ∈ ps) (t : Time) (c : Fin 16) (value : BitVec 32)
    (s0 : State) : orest ps cells (Rest ps cells s0) (execDmaProdWrite t c value s0) = Rest ps cells s0 := by
  unfold execDmaProdWrite
  simp [hps]

@[simp] theorem startDma_rest (hps : Part.host ∈ ps) (c : Nat) (s : State) : Rest ps cells (startDma c s) =
    Rest ps cells s := by
  unfold startDma
  simp [hps]

@[simp] theorem stopDma_rest (hps : ∀ p ∈ [.host, .interrupts, .out], p ∈ ps) (c : Nat) (s : State) : Rest ps cells
    (stopDma c s) = Rest ps cells s := by
  unfold stopDma
  simp [hps]

@[simp] theorem resumeWith_rest (hps : ∀ p ∈ [.host, .interrupts, .out], p ∈ ps) (c : Nat) (w : Word) (poisoned : Bool)
    (s : State) : Rest ps cells (resumeWith c w poisoned s) = Rest ps cells s := by
  unfold resumeWith
  simp [hps]

@[simp] theorem gapAtRing_rest (hps : Part.daq ∈ ps) (c : Nat) (s : State) (k : Option (BitVec 16) × Nat) :
    Rest ps cells (gapAtRing c s k) = Rest ps cells s := by
  unfold gapAtRing
  simp only []
  repeat' split
  all_goals simp [hps]

@[simp] theorem resumeFit_rest (c : Nat) (f : Word → State → State) (s : State) (h_f : ∀ y0 y1, Rest ps cells (f y0 y1)
    = Rest ps cells y1) : Rest ps cells (resumeFit c f s) = Rest ps cells s := by
  unfold resumeFit
  simp
  repeat' (first | (simp; done) | (split <;> simp_all <;> done) | split)

@[simp] theorem resumeDma_rest (hps : ∀ p ∈ [.host, .interrupts, .out], p ∈ ps) (c : Nat) (stillBad : Bool) (s :
    State) : Rest ps cells (resumeDma c stillBad s) = Rest ps cells s := by
  simp at hps
  unfold resumeDma
  simp [hps]

@[simp] theorem skipGaps_rest (hps : ∀ p ∈ [.free, .daq], p ∈ ps) (c : Nat) (w : Word) (s : State) : Rest ps cells
    (skipGaps c w s) = Rest ps cells s := by
  simp at hps
  unfold skipGaps
  simp [hps]

@[simp] theorem resumeSkipDma_rest (hps : ∀ p ∈ [.free, .host, .interrupts, .daq, .out], p ∈ ps) (c : Nat) (s : State) :
    Rest ps cells (resumeSkipDma c s) = Rest ps cells s := by
  simp at hps
  unfold resumeSkipDma
  simp [hps]

@[simp] theorem dmaAction_rest (hps : ∀ p ∈ [.free, .host, .interrupts, .daq, .out], p ∈ ps) (c : Nat) (v : BitVec 32)
    (s : State) : Rest ps cells (dmaAction c v s) = Rest ps cells s := by
  unfold dmaAction
  split <;> simp [hps]

@[simp] theorem dmaDo_rest (hps : Part.now ∈ ps) (t : Time) (f : State → State) (s0 : State) (h_f : ∀ y0, Rest ps cells
    (f y0) = Rest ps cells y0) : orest ps cells (Rest ps cells s0) (dmaDo t f s0) = Rest ps cells s0 := by
  unfold dmaDo
  simp only []
  split <;> simp [hps, h_f]

@[simp] theorem execDmaStart_rest (hps : ∀ p ∈ [.now, .host], p ∈ ps) (t : Time) (c : Fin 16) (s : State) : orest ps
    cells (Rest ps cells s) (execDmaStart t c s) = Rest ps cells s := by
  simp at hps
  unfold execDmaStart
  simp [hps]

@[simp] theorem execDmaStop_rest (hps : ∀ p ∈ [.now, .host, .interrupts, .out], p ∈ ps) (t : Time) (c : Fin 16) (s :
    State) : orest ps cells (Rest ps cells s) (execDmaStop t c s) = Rest ps cells s := by
  simp at hps
  unfold execDmaStop
  simp [hps]

@[simp] theorem execDmaResume_rest (hps : ∀ p ∈ [.now, .host, .interrupts, .out], p ∈ ps) (t : Time) (c : Fin 16)
    (stillBad : Bool) (s : State) : orest ps cells (Rest ps cells s) (execDmaResume t c stillBad s) = Rest ps cells
    s := by
  simp at hps
  unfold execDmaResume
  simp [hps]

@[simp] theorem execDmaResumeSkip_rest (hps : ∀ p ∈ [.now, .free, .host, .interrupts, .daq, .out], p ∈ ps) (t : Time)
    (c : Fin 16) (s : State) : orest ps cells (Rest ps cells s) (execDmaResumeSkip t c s) = Rest ps cells s := by
  simp at hps
  unfold execDmaResumeSkip
  simp [hps]

@[simp] theorem execDmaDroppedRead_rest (hps : ∀ p ∈ [.now, .host], p ∈ ps) (t : Time) (ring : Fin 8) (s0 : State) :
    orest ps cells (Rest ps cells s0) (execDmaDroppedRead t ring s0) = Rest ps cells s0 := by
  unfold execDmaDroppedRead
  simp [hps]

/-! ### Image -/

@[simp] theorem applyFabricRec_rest (hps : ∀ p ∈ signalling ++ [.time, .line, .fab, .eth], p ∈ ps) (kind : Nat) (body :
    List Word) (s : State) : Rest ps cells (applyFabricRec kind body s).st = Rest ps cells s := by
  unfold applyFabricRec
  simp only []
  repeat' split
  all_goals simp [hps]

@[simp] theorem applyRec_rest (hps : ∀ p ∈ signalling ++ [.free, .host, .time, .daq, .pwr, .clk, .therm, .line, .fab,
    .frames, .eth, .basin, .oper], p ∈ ps) (r : ImgRec) (s : State) : Rest ps cells (applyRec r s).st = Rest ps cells
    s := by
  unfold applyRec
  split <;> simp [hps]

@[simp] theorem tryRecords_rest (hps : ∀ p ∈ signalling ++ [.free, .host, .time, .daq, .pwr, .clk, .therm, .line, .fab,
    .frames, .eth, .basin, .oper], p ∈ ps) (rs : List ImgRec) (s : State) : Rest ps cells (tryRecords rs s).2 =
    Rest ps cells s := by
  unfold tryRecords
  rw [foldl_snd_rest]
  intro a x
  split
  · rfl
  · simp only []
    split <;> simp [hps]

@[simp] theorem applyRecords_rest (hps : ∀ p ∈ signalling ++ [.free, .host, .time, .daq, .pwr, .clk, .therm, .line,
    .fab, .frames, .eth, .basin, .oper], p ∈ ps) (start : Bool) (rs : List ImgRec) (s : State) : Rest ps cells
    (applyRecords start rs s).1 = Rest ps cells s := by
  unfold applyRecords
  rw [foldl_fst_rest]
  intro a x
  simp only []
  repeat' (first | rfl | (simp [hps]; done) | split)

@[simp] theorem changeFilter_rest (hps : ∀ p ∈ signalling ++ [.free, .daq], p ∈ ps) (c : Nat) (old : FiltInst) (new :
    FiltInst) (s : State) : Rest ps cells (changeFilter c old new s).1 = Rest ps cells s := by
  unfold changeFilter
  simp only []
  repeat' split
  all_goals simp [hps]

@[simp] theorem changeFilters_rest (hps : ∀ p ∈ signalling ++ [.free, .daq], p ∈ ps) (before : State) (s : State) :
    Rest ps cells (changeFilters before s).1 = Rest ps cells s := by
  unfold changeFilters
  rw [foldl_fst_rest]
  intro a x
  simp only []
  split <;> simp [hps]

@[simp] theorem dropPrepared_rest (hps : ∀ p ∈ [.daq, .cfg], p ∈ ps) (s : State) : Rest ps cells (dropPrepared s) =
    Rest ps cells s := by
  simp at hps
  unfold dropPrepared
  simp [hps]

@[simp] theorem prepareShadows_rest (hps : ∀ p ∈ [.daq, .cfg], p ∈ ps) (after : State) (s : State) : Rest ps cells
    (prepareShadows after s) = Rest ps cells s := by
  simp at hps
  unfold prepareShadows
  simp [hps]

@[simp] theorem applyImage_rest (hps : ∀ p ∈ signalling ++ [.free, .host, .time, .daq, .pwr, .clk, .therm, .line, .fab,
    .frames, .eth, .basin, .oper], p ∈ ps) (start : Bool) (ws : List Word) (s : State) : Rest ps cells (applyImage start
    ws s).1 = Rest ps cells s := by
  unfold applyImage
  simp [hps]

/-! ### Cfg -/

@[simp] theorem modCfg_rest (hps : Part.cfg ∈ ps) (f : CfgSt → CfgSt) (s : State) : Rest ps cells (modCfg f s) =
    Rest ps cells s := by
  unfold modCfg
  simp [hps]

@[simp] theorem finishing_rest (rq : Request) (before : State) (after : State) (f : State → State) (h_f : ∀ y0,
    Rest ps cells (f y0) = Rest ps cells y0) : Rest ps cells (finishing rq before after f) = Rest ps cells after := by
  unfold finishing
  simp only []
  split <;> simp [h_f]

@[simp] theorem endRq_rest (hps : ∀ p ∈ answering, p ∈ ps) (rq : Request) (status : BitVec 16) (steps : Nat) (s :
    State) : Rest ps cells (endRq rq status steps s) = Rest ps cells s := by
  unfold endRq
  simp [hps]

@[simp] theorem dropStaged_rest (hps : ∀ p ∈ [.tact, .daq, .cfg], p ∈ ps) (s : State) : Rest ps cells (dropStaged s) =
    Rest ps cells s := by
  unfold dropStaged
  simp only []
  repeat' split
  all_goals simp [hps]

@[simp] theorem stageImage_rest (hps : ∀ p ∈ signalling ++ [.free, .host, .time, .daq, .pwr, .clk, .therm, .cfg, .line,
    .fab, .frames, .eth, .basin, .oper], p ∈ ps) (img : Image) (catchup : Bool) (s : State) : Rest ps cells (stageImage
    img catchup s) = Rest ps cells s := by
  unfold stageImage
  simp [hps]

@[simp] theorem sendImage_rest (hps : ∀ p ∈ [.discards, .frames, .out], p ∈ ps) (img : Image) (dest : BitVec 16) (s :
    State) : Rest ps cells (sendImage img dest s) = Rest ps cells s := by
  simp at hps
  unfold sendImage
  simp [hps]

@[simp] theorem commitResult_rest (hps : ∀ p ∈ signalling ++ [.cfg], p ∈ ps) (code : Nat) (gen : Nat) (chans : List Nat)
    (s : State) : Rest ps cells (commitResult code gen chans s) = Rest ps cells s := by
  unfold commitResult
  simp [hps]

@[simp] theorem storeConfig_rest (hps : ∀ p ∈ [.nv, .journal], p ∈ ps) (img : Image) (s : State) : Rest ps cells
    (storeConfig img s) = Rest ps cells s := by
  unfold storeConfig
  simp [hps]

@[simp] theorem closeExports_rest (hps : ∀ p ∈ [.free, .discards, .daq, .frames, .out], p ∈ ps) (s : State) :
    Rest ps cells (closeExports s) = Rest ps cells s := by
  simp at hps
  unfold closeExports
  simp (disch := simp [hps])

@[simp] theorem takeRing_rest (hps : Part.fab ∈ ps) (ws : List Word) (s : State) : Rest ps cells (takeRing ws s) =
    Rest ps cells s := by
  unfold takeRing
  split <;> simp [hps]

@[simp] theorem commitSwitch_rest (hps : ∀ p ∈ signalling ++ [.free, .host, .time, .daq, .pwr, .clk, .therm, .cfg,
    .line, .fab, .frames, .eth, .basin, .oper, .nv, .journal], p ∈ ps) (img : Image) (code : Nat) (s : State) :
    Rest ps cells (commitSwitch img code s) = Rest ps cells s := by
  unfold commitSwitch
  simp [hps]

@[simp] theorem fireCommit_rest (hps : ∀ p ∈ signalling ++ [.free, .host, .time, .daq, .pwr, .clk, .therm, .cfg, .line,
    .fab, .frames, .eth, .basin, .oper, .nv, .journal], p ∈ ps) (late : Bool) (s : State) : Rest ps cells (fireCommit
    late s) = Rest ps cells s := by
  unfold fireCommit
  simp only []
  repeat' split
  all_goals simp [hps]

@[simp] theorem lostCommitDue_rest (hps : ∀ p ∈ signalling ++ [.cfg], p ∈ ps) (s : State) : Rest ps cells (lostCommitDue
    s) = Rest ps cells s := by
  unfold lostCommitDue
  split <;> simp [hps]

@[simp] theorem autoload_rest (hps : ∀ p ∈ signalling ++ [.free, .host, .time, .daq, .pwr, .clk, .therm, .cfg, .line,
    .fab, .frames, .eth, .basin, .oper, .nv], p ∈ ps) (s : State) : Rest ps cells (autoload s) = Rest ps cells s := by
  unfold autoload
  simp [hps]

@[simp] theorem ownCfgStage_rest (rq : Request) (s : State) : Rest ps cells (ownCfgStage rq s).st = Rest ps cells
    s := by
  unfold ownCfgStage
  simp

@[simp] theorem stageFetched_rest (hps : ∀ p ∈ answering ++ [.free, .host, .time, .daq, .pwr, .clk, .therm, .cfg, .line,
    .fab, .eth, .basin, .oper], p ∈ ps) (rq : Request) (img : ImageFetch) (othersOk : Bool) (s : State) : Rest ps cells
    (stageFetched rq img othersOk s) = Rest ps cells s := by
  unfold stageFetched
  simp only []
  repeat' split
  all_goals simp [hps]

@[simp] theorem execCfgStage_rest (hps : ∀ p ∈ answering ++ [.free, .host, .mgmt, .time, .daq, .pwr, .clk, .therm, .cfg,
    .line, .fab, .eth, .basin, .oper], p ∈ ps) (t : Time) (rq : Request) (img : ImageFetch) (othersOk : Bool) (s :
    State) : orest ps cells (Rest ps cells s) (execCfgStage t rq img othersOk s) = Rest ps cells s := by
  simp at hps
  unfold execCfgStage
  simp [hps]

@[simp] theorem ownCfgCommitAt_rest (hps : ∀ p ∈ signalling ++ [.tact, .cfg], p ∈ ps) (rq : Request) (s : State) :
    Rest ps cells (ownCfgCommitAt rq s).st = Rest ps cells s := by
  simp at hps
  unfold ownCfgCommitAt
  simp [hps]

@[simp] theorem castScope_rest (hps : ∀ p ∈ answering, p ∈ ps) (op : Nat) (rq : Request) (othersOk : Bool) (s : State) :
    Rest ps cells (castScope op rq othersOk s) = Rest ps cells s := by
  unfold castScope
  simp [hps]

@[simp] theorem execCfgCommitAt_rest (hps : ∀ p ∈ answering ++ [.mgmt, .tact, .cfg], p ∈ ps) (t : Time) (rq : Request)
    (othersOk : Bool) (s : State) : orest ps cells (Rest ps cells s) (execCfgCommitAt t rq othersOk s) = Rest ps cells
    s := by
  simp at hps
  unfold execCfgCommitAt
  simp (disch := simp [hps])

@[simp] theorem ownCfgCancelCommit_rest (hps : ∀ p ∈ [.tact, .cfg], p ∈ ps) (rq : Request) (s : State) : Rest ps cells
    (ownCfgCancelCommit rq s).st = Rest ps cells s := by
  simp at hps
  unfold ownCfgCancelCommit
  simp [hps]

@[simp] theorem execCfgCancelCommit_rest (hps : ∀ p ∈ answering ++ [.mgmt, .tact, .cfg], p ∈ ps) (t : Time) (rq :
    Request) (othersOk : Bool) (s : State) : orest ps cells (Rest ps cells s) (execCfgCancelCommit t rq othersOk s) =
    Rest ps cells s := by
  simp at hps
  unfold execCfgCancelCommit
  simp (disch := simp [hps])

@[simp] theorem ownCfgReport_rest (collected : Option (List Beacon)) (rq : Request) (s : State) : Rest ps cells
    (ownCfgReport collected rq s).st = Rest ps cells s := by
  unfold ownCfgReport
  simp only []
  repeat' split
  all_goals simp

@[simp] theorem execCfgReport_rest (hps : ∀ p ∈ answering ++ [.mgmt, .cfg], p ∈ ps) (t : Time) (rq : Request)
    (collected : Option (List Beacon)) (s : State) : orest ps cells (Rest ps cells s) (execCfgReport t rq collected s) =
    Rest ps cells s := by
  simp at hps
  unfold execCfgReport
  simp [hps]

@[simp] theorem ownCfgConfig_rest (hps : Part.nv ∈ ps) (rq : Request) (s : State) : Rest ps cells (ownCfgConfig rq s).st
    = Rest ps cells s := by
  unfold ownCfgConfig
  simp [hps]

@[simp] theorem execCfgConfig_rest (hps : ∀ p ∈ answering ++ [.mgmt, .nv], p ∈ ps) (t : Time) (rq : Request) (s :
    State) : orest ps cells (Rest ps cells s) (execCfgConfig t rq s) = Rest ps cells s := by
  simp at hps
  unfold execCfgConfig
  simp [hps]

@[simp] theorem takePart_rest (hps : Part.cfg ∈ ps) (gen : Nat) (d64 : BitVec 64) (offset : Nat) (ws : List Word) (s :
    State) : Rest ps cells (takePart gen d64 offset ws s) = Rest ps cells s := by
  unfold takePart
  simp [hps]

@[simp] theorem finishTransfer_rest (hps : ∀ p ∈ signalling ++ [.free, .host, .time, .daq, .pwr, .clk, .therm, .cfg,
    .line, .fab, .frames, .eth, .basin, .oper], p ∈ ps) (gen : Nat) (d64 : BitVec 64) (s : State) : Rest ps cells
    (finishTransfer gen d64 s) = Rest ps cells s := by
  unfold finishTransfer
  simp only []
  repeat' split
  all_goals simp [hps]

@[simp] theorem execConfigFrameRx_rest (hps : ∀ p ∈ signalling ++ [.free, .host, .time, .daq, .pwr, .clk, .therm, .cfg,
    .line, .fab, .frames, .eth, .basin, .oper], p ∈ ps) (t : Time) (gen : BitVec 16) (offset : Nat) (words : List Word)
    (last : Bool) (digest64 : BitVec 64) (s0 : State) : orest ps cells (Rest ps cells s0) (execConfigFrameRx t gen
    offset words last digest64 s0) = Rest ps cells s0 := by
  simp at hps
  rw [← tick_rest (by simp [hps]) t s0]
  unfold execConfigFrameRx
  generalize tick t s0 = s
  simp [hps]

@[simp] theorem execCatchupTrigger_rest (hps : ∀ p ∈ [.now, .discards, .frames, .out], p ∈ ps) (t : Time) (node : BitVec
    16) (s0 : State) : orest ps cells (Rest ps cells s0) (execCatchupTrigger t node s0) = Rest ps cells s0 := by
  unfold execCatchupTrigger
  simp only []
  repeat' split
  all_goals simp [hps]

@[simp] theorem execCatchupCommit_rest (hps : ∀ p ∈ signalling ++ [.free, .host, .time, .daq, .pwr, .clk, .therm, .cfg,
    .line, .fab, .frames, .eth, .basin, .oper, .nv, .journal], p ∈ ps) (t : Time) (s0 : State) : orest ps cells
    (Rest ps cells s0) (execCatchupCommit t s0) = Rest ps cells s0 := by
  unfold execCatchupCommit
  simp only []
  repeat' split
  all_goals simp [hps]

/-! ### Tact -/

@[simp] theorem modTact_rest (hps : Part.tact ∈ ps) (f : TactSt → TactSt) (s : State) : Rest ps cells (modTact f s) =
    Rest ps cells s := by
  unfold modTact
  simp [hps]

@[simp] theorem modTev_rest (hps : Part.tact ∈ ps) (n : Nat) (f : TevPin → TevPin) (s : State) : Rest ps cells (modTev n
    f s) = Rest ps cells s := by
  unfold modTev
  simp [hps]

@[simp] theorem modTcap_rest (hps : Part.tact ∈ ps) (n : Nat) (f : TcapIn → TcapIn) (s : State) : Rest ps cells (modTcap
    n f s) = Rest ps cells s := by
  unfold modTcap
  simp [hps]

@[simp] theorem tevEdge_rest (hps : Part.out ∈ ps) (n : Nat) (at_ : Time) (drive : Bool) (dTev : Int) (level : Bool)
    (s : State) : Rest ps cells (tevEdge n at_ drive dTev level s) = Rest ps cells s := by
  unfold tevEdge
  simp [hps]

@[simp] theorem tevPulse_rest (hps : ∀ p ∈ [.tact, .out], p ∈ ps) (n : Nat) (f : Time) (width : Nat) (s : State) :
    Rest ps cells (tevPulse n f width s) = Rest ps cells s := by
  unfold tevPulse
  simp only []
  repeat' split
  all_goals simp [hps]

@[simp] theorem slotPulse_rest (hps : ∀ p ∈ [.tact, .out], p ∈ ps) (n : Nat) (f : Time) (width : Nat) (s : State) :
    Rest ps cells (slotPulse n f width s) = Rest ps cells s := by
  unfold slotPulse
  simp [hps]

@[simp] theorem showRest_rest (hps : Part.out ∈ ps) (n : Nat) (s : State) : Rest ps cells (showRest n s) = Rest ps cells
    s := by
  unfold showRest
  simp [hps]

@[simp] theorem execTevPulseEnd_rest (hps : ∀ p ∈ [.now, .tact, .out], p ∈ ps) (t : Time) (pin : Fin 16) (s0 : State) :
    orest ps cells (Rest ps cells s0) (execTevPulseEnd t pin s0) = Rest ps cells s0 := by
  unfold execTevPulseEnd
  simp only []
  repeat' split
  all_goals simp [hps]

@[simp] theorem syncNow_rest (hps : ∀ p ∈ signalling ++ [.free, .daq], p ∈ ps) (gs : List Nat) (ts : Time) (s : State) :
    Rest ps cells (syncNow gs ts s) = Rest ps cells s := by
  unfold syncNow
  rw [foldl_rest]
  intro a x
  simp only []
  split <;> simp [hps]

@[simp] theorem releaseArmed_rest (hps : Part.daq ∈ ps) (cs : List Nat) (s : State) : Rest ps cells (releaseArmed cs s)
    = Rest ps cells s := by
  unfold releaseArmed
  simp [hps]

@[simp] theorem startWeaves_rest (hps : ∀ p ∈ signalling ++ [.free, .daq], p ∈ ps) (cs : List Nat) (ts : Time) (s :
    State) : Rest ps cells (startWeaves cs ts s).2 = Rest ps cells s := by
  unfold startWeaves
  simp [hps]
  repeat' (first | (simp [hps]; done) | (split <;> simp_all <;> done) | split)

@[simp] theorem applyKind_rest (hps : ∀ p ∈ signalling ++ [.free, .host, .time, .tact, .daq, .pwr, .clk, .therm, .cfg,
    .line, .fab, .frames, .eth, .basin, .oper, .nv, .journal], p ∈ ps) (a : SlotArm) (k : Nat) (f : Nat) (late : Bool)
    (s : State) : Rest ps cells (applyKind a k f late s).2 = Rest ps cells s := by
  simp at hps
  unfold applyKind
  repeat' split
  all_goals simp [hps]

@[simp] theorem slotDone_rest (hps : ∀ p ∈ signalling ++ [.tact], p ∈ ps) (i : Nat) (a : SlotArm) (f : Nat) (s :
    State) : Rest ps cells (slotDone i a f s) = Rest ps cells s := by
  unfold slotDone
  simp [hps]

@[simp] theorem fireOcc_rest (hps : ∀ p ∈ signalling ++ [.free, .host, .time, .tact, .daq, .pwr, .clk, .therm, .cfg,
    .line, .fab, .frames, .eth, .basin, .oper, .nv, .journal], p ∈ ps) (i : Nat) (a : SlotArm) (late : Bool) (s :
    State) : Rest ps cells (fireOcc i a late s) = Rest ps cells s := by
  unfold fireOcc
  simp [hps]

@[simp] theorem fireThrough_rest (hps : ∀ p ∈ signalling ++ [.free, .host, .time, .tact, .daq, .pwr, .clk, .therm, .cfg,
    .line, .fab, .frames, .eth, .basin, .oper, .nv, .journal], p ∈ ps) (a : Nat) (x1 : Option Nat) (x2 : State) :
    Rest ps cells (fireThrough a x1 x2) = Rest ps cells x2 := by
  induction a generalizing x2 with
  | zero => rfl
  | succ n ih =>
    unfold fireThrough
    repeat' (first | rfl | (simp [hps, ih]; done) | split)

@[simp] theorem fireBefore_rest (hps : ∀ p ∈ signalling ++ [.free, .host, .time, .tact, .daq, .pwr, .clk, .therm, .cfg,
    .line, .fab, .frames, .eth, .basin, .oper, .nv, .journal], p ∈ ps) (a : Nat) (x1 : State) : Rest ps cells
    (fireBefore a x1) = Rest ps cells x1 := by
  induction a generalizing x1 with
  | zero => rfl
  | succ n ih =>
    unfold fireBefore
    repeat' (first | rfl | (simp [hps, ih]; done) | split)

@[simp] theorem execActionFire_rest (hps : ∀ p ∈ signalling ++ [.free, .host, .time, .tact, .daq, .pwr, .clk, .therm,
    .cfg, .line, .fab, .frames, .eth, .basin, .oper, .nv, .journal], p ∈ ps) (t : Time) (slot : Fin 64) (s0 : State) :
    orest ps cells (Rest ps cells s0) (execActionFire t slot s0) = Rest ps cells s0 := by
  unfold execActionFire
  simp only []
  repeat' split
  all_goals simp [hps]

@[simp] theorem stepSlot_rest (hps : ∀ p ∈ signalling ++ [.free, .host, .time, .tact, .daq, .pwr, .clk, .therm, .cfg,
    .line, .fab, .frames, .eth, .basin, .oper, .nv, .journal], p ∈ ps) (i : Nat) (s : State) : Rest ps cells (stepSlot i
    s) = Rest ps cells s := by
  unfold stepSlot
  split <;> simp [hps]

@[simp] theorem stepOnTime_rest (hps : ∀ p ∈ signalling ++ [.free, .host, .time, .tact, .daq, .pwr, .clk, .therm, .cfg,
    .line, .fab, .frames, .eth, .basin, .oper, .nv, .journal], p ∈ ps) (i : Nat) (s : State) : Rest ps cells (stepOnTime
    i s) = Rest ps cells s := by
  unfold stepOnTime
  split <;> simp [hps]

@[simp] theorem stepSlots_rest (hps : ∀ p ∈ signalling ++ [.free, .host, .time, .tact, .daq, .pwr, .clk, .therm, .cfg,
    .line, .fab, .frames, .eth, .basin, .oper, .nv, .journal], p ∈ ps) (s : State) : Rest ps cells (stepSlots s) =
    Rest ps cells s := by
  unfold stepSlots
  rw [foldl_rest]
  intro a x
  rw [foldl_rest]
  intro b y
  repeat' (first | rfl | (simp [hps]; done) | split)

@[simp] theorem stepBy_rest (hps : ∀ p ∈ signalling ++ [.free, .host, .time, .tact, .daq, .pwr, .clk, .therm, .cfg,
    .line, .fab, .frames, .eth, .basin, .oper, .nv, .journal], p ∈ ps) (delta : Int) (cause : StepCause) (origin :
    Option Nat) (s0 : State) : Rest ps cells (stepBy delta cause origin s0) = Rest ps cells s0 := by
  unfold stepBy
  simp [hps]

@[simp] theorem stepPending_rest (hps : ∀ p ∈ signalling ++ [.free, .host, .time, .tact, .daq, .pwr, .clk, .therm, .cfg,
    .line, .fab, .frames, .eth, .basin, .oper, .nv, .journal], p ∈ ps) (s : State) : Rest ps cells (stepPending s) =
    Rest ps cells s := by
  unfold stepPending
  split <;> simp [hps]

@[simp] theorem execTimebaseStep_rest (hps : ∀ p ∈ signalling ++ [.free, .host, .time, .tact, .daq, .pwr, .clk, .therm,
    .cfg, .line, .fab, .frames, .eth, .basin, .oper, .nv, .journal], p ∈ ps) (t : Time) (s0 : State) : orest ps cells
    (Rest ps cells s0) (execTimebaseStep t s0) = Rest ps cells s0 := by
  unfold execTimebaseStep
  simp [hps]

@[simp] theorem ownTimeSet_rest (hps : ∀ p ∈ signalling ++ [.free, .host, .time, .tact, .daq, .pwr, .clk, .therm, .cfg,
    .line, .fab, .frames, .eth, .basin, .oper, .nv, .journal], p ∈ ps) (rq : Request) (s : State) : Rest ps cells
    (ownTimeSet rq s).st = Rest ps cells s := by
  simp at hps
  unfold ownTimeSet
  simp [hps]

@[simp] theorem execTimeSet_rest (hps : ∀ p ∈ answering ++ [.free, .host, .mgmt, .time, .tact, .daq, .pwr, .clk, .therm,
    .cfg, .line, .fab, .eth, .basin, .oper, .nv], p ∈ ps) (t : Time) (rq : Request) (s : State) : orest ps cells
    (Rest ps cells s) (execTimeSet t rq s) = Rest ps cells s := by
  simp at hps
  unfold execTimeSet
  simp [hps]

@[simp] theorem ownTimeStepAccept_rest (hps : ∀ p ∈ signalling ++ [.free, .host, .time, .tact, .daq, .pwr, .clk, .therm,
    .cfg, .line, .fab, .frames, .eth, .basin, .oper, .nv, .journal], p ∈ ps) (rq : Request) (s : State) : Rest ps cells
    (ownTimeStepAccept rq s).st = Rest ps cells s := by
  unfold ownTimeStepAccept
  simp [hps]
  repeat' (first | (simp [hps]; done) | (split <;> simp_all <;> done) | split)

@[simp] theorem execTimeStepAccept_rest (hps : ∀ p ∈ answering ++ [.free, .host, .mgmt, .time, .tact, .daq, .pwr, .clk,
    .therm, .cfg, .line, .fab, .eth, .basin, .oper, .nv], p ∈ ps) (t : Time) (rq : Request) (s : State) : orest ps cells
    (Rest ps cells s) (execTimeStepAccept t rq s) = Rest ps cells s := by
  simp at hps
  unfold execTimeStepAccept
  simp [hps]

@[simp] theorem execPpsOutPulse_rest (hps : ∀ p ∈ [.now, .time, .tact, .out], p ∈ ps) (t : Time) (s0 : State) : orest ps
    cells (Rest ps cells s0) (execPpsOutPulse t s0) = Rest ps cells s0 := by
  unfold execPpsOutPulse
  simp only []
  repeat' split
  all_goals simp [hps]

@[simp] theorem execPpsPulseEnd_rest (hps : ∀ p ∈ [.now, .tact, .out], p ∈ ps) (t : Time) (s0 : State) : orest ps cells
    (Rest ps cells s0) (execPpsPulseEnd t s0) = Rest ps cells s0 := by
  unfold execPpsPulseEnd
  simp only []
  repeat' split
  all_goals simp [hps]

@[simp] theorem execTcapEdge_rest (hps : ∀ p ∈ signalling ++ [.tact], p ∈ ps) (t : Time) (input : Fin 8) (falling :
    Bool) (pulse : Nat) (s0 : State) : orest ps cells (Rest ps cells s0) (execTcapEdge t input falling pulse s0) =
    Rest ps cells s0 := by
  unfold execTcapEdge
  simp [hps]

@[simp] theorem ownTactArm_rest (hps : ∀ p ∈ signalling ++ [.tact], p ∈ ps) (rq : Request) (s : State) : Rest ps cells
    (ownTactArm rq s).st = Rest ps cells s := by
  unfold ownTactArm
  simp [hps]
  repeat' (first | (simp [hps]; done) | (split <;> simp_all <;> done) | split)

@[simp] theorem execTactArm_rest (hps : ∀ p ∈ answering ++ [.mgmt, .tact], p ∈ ps) (t : Time) (rq : Request) (s :
    State) : orest ps cells (Rest ps cells s) (execTactArm t rq s) = Rest ps cells s := by
  simp at hps
  unfold execTactArm
  simp [hps]

@[simp] theorem ownTactCancel_rest (hps : ∀ p ∈ signalling ++ [.free, .host, .time, .tact, .daq, .pwr, .clk, .therm,
    .cfg, .line, .fab, .frames, .eth, .basin, .oper, .nv, .journal], p ∈ ps) (rq : Request) (s0 : State) : Rest ps cells
    (ownTactCancel rq s0).st = Rest ps cells s0 := by
  simp at hps
  unfold ownTactCancel
  simp only []
  repeat' split
  all_goals simp [hps]

@[simp] theorem execTactCancel_rest (hps : ∀ p ∈ answering ++ [.free, .host, .mgmt, .time, .tact, .daq, .pwr, .clk,
    .therm, .cfg, .line, .fab, .eth, .basin, .oper, .nv], p ∈ ps) (t : Time) (rq : Request) (s : State) : orest ps cells
    (Rest ps cells s) (execTactCancel t rq s) = Rest ps cells s := by
  simp at hps
  unfold execTactCancel
  simp [hps]

@[simp] theorem ownTactStatus_rest (hps : ∀ p ∈ signalling ++ [.free, .host, .time, .tact, .daq, .pwr, .clk, .therm,
    .cfg, .line, .fab, .frames, .eth, .basin, .oper, .nv, .journal], p ∈ ps) (rq : Request) (s0 : State) : Rest ps cells
    (ownTactStatus rq s0).st = Rest ps cells s0 := by
  simp at hps
  unfold ownTactStatus
  simp [hps]

@[simp] theorem execTactStatus_rest (hps : ∀ p ∈ answering ++ [.free, .host, .mgmt, .time, .tact, .daq, .pwr, .clk,
    .therm, .cfg, .line, .fab, .eth, .basin, .oper, .nv], p ∈ ps) (t : Time) (rq : Request) (s : State) : orest ps cells
    (Rest ps cells s) (execTactStatus t rq s) = Rest ps cells s := by
  simp at hps
  unfold execTactStatus
  simp [hps]

@[simp] theorem ownTactConfigPin_rest (hps : ∀ p ∈ [.tact, .out], p ∈ ps) (rq : Request) (s : State) : Rest ps cells
    (ownTactConfigPin rq s).st = Rest ps cells s := by
  simp at hps
  unfold ownTactConfigPin
  simp [hps]

@[simp] theorem execTactConfigPin_rest (hps : ∀ p ∈ answering ++ [.mgmt, .tact], p ∈ ps) (t : Time) (rq : Request) (s :
    State) : orest ps cells (Rest ps cells s) (execTactConfigPin t rq s) = Rest ps cells s := by
  simp at hps
  unfold execTactConfigPin
  simp [hps]

@[simp] theorem ownTactConfigPps_rest (hps : Part.tact ∈ ps) (rq : Request) (s : State) : Rest ps cells
    (ownTactConfigPps rq s).st = Rest ps cells s := by
  unfold ownTactConfigPps
  simp [hps]

@[simp] theorem execTactConfigPps_rest (hps : ∀ p ∈ answering ++ [.mgmt, .tact], p ∈ ps) (t : Time) (rq : Request) (s :
    State) : orest ps cells (Rest ps cells s) (execTactConfigPps t rq s) = Rest ps cells s := by
  simp at hps
  unfold execTactConfigPps
  simp [hps]

@[simp] theorem ownTactConfigCapture_rest (hps : Part.tact ∈ ps) (rq : Request) (s : State) : Rest ps cells
    (ownTactConfigCapture rq s).st = Rest ps cells s := by
  unfold ownTactConfigCapture
  simp [hps]

@[simp] theorem execTactConfigCapture_rest (hps : ∀ p ∈ answering ++ [.mgmt, .tact], p ∈ ps) (t : Time) (rq : Request)
    (s : State) : orest ps cells (Rest ps cells s) (execTactConfigCapture t rq s) = Rest ps cells s := by
  simp at hps
  unfold execTactConfigCapture
  simp [hps]

@[simp] theorem ownTactReadCapture_rest (hps : Part.tact ∈ ps) (rq : Request) (s : State) : Rest ps cells
    (ownTactReadCapture rq s).st = Rest ps cells s := by
  unfold ownTactReadCapture
  simp [hps]

@[simp] theorem execTactReadCapture_rest (hps : ∀ p ∈ answering ++ [.mgmt, .tact], p ∈ ps) (t : Time) (rq : Request)
    (s : State) : orest ps cells (Rest ps cells s) (execTactReadCapture t rq s) = Rest ps cells s := by
  simp at hps
  unfold execTactReadCapture
  simp [hps]

end Sys2Proof.Machine
end

section
/-! What the operations of the host interface leave alone. -/

set_option maxRecDepth 4000

namespace Sys2Proof.Machine

variable {ps : List Part} {cells : Bool}

/-! ### Start -/

@[simp] theorem execPowerOnReset_rest (hps : ∀ p ∈ volatile, p ∈ ps) (hcells : cells = false) (t : Time) (s0 : State) :
    orest ps cells (Rest ps cells s0) (execPowerOnReset t s0) = Rest ps cells s0 := by
  simp at hps
  unfold execPowerOnReset
  simp [hps, hcells]

@[simp] theorem execResetNAssert_rest (hps : ∀ p ∈ volatile ++ [.free], p ∈ ps) (hcells : cells = false) (t : Time)
    (lowNs : Nat) (s0 : State) : orest ps cells (Rest ps cells s0) (execResetNAssert t lowNs s0) = Rest ps cells
    s0 := by
  unfold execResetNAssert
  split <;> simp [hps, hcells]

@[simp] theorem execResetNRelease_rest (hps : ∀ p ∈ [.now, .pwr], p ∈ ps) (t : Time) (railsOk : Bool) (s0 : State) :
    orest ps cells (Rest ps cells s0) (execResetNRelease t railsOk s0) = Rest ps cells s0 := by
  unfold execResetNRelease
  simp only []
  repeat' split
  all_goals simp [hps]

@[simp] theorem execSupplyRelease_rest (hps : ∀ p ∈ [.now, .pwr], p ∈ ps) (t : Time) (s0 : State) : orest ps cells
    (Rest ps cells s0) (execSupplyRelease t s0) = Rest ps cells s0 := by
  simp at hps
  unfold execSupplyRelease
  simp [hps]

@[simp] theorem execSagWarning_rest (hps : ∀ p ∈ answering ++ [.host, .pwr], p ∈ ps) (t : Time) (rail : Fin 8) (s0 :
    State) : orest ps cells (Rest ps cells s0) (execSagWarning t rail s0) = Rest ps cells s0 := by
  unfold execSagWarning
  simp only []
  repeat' split
  all_goals simp [hps]

@[simp] theorem storeQueue_rest (hps : ∀ p ∈ signalling ++ [.nv], p ∈ ps) (s : State) : Rest ps cells (storeQueue s) =
    Rest ps cells s := by
  simp at hps
  unfold storeQueue
  simp [hps]

@[simp] theorem execSagWarningClear_rest (hps : ∀ p ∈ signalling ++ [.daq, .pwr, .oper, .nv, .journal], p ∈ ps) (t :
    Time) (s0 : State) : orest ps cells (Rest ps cells s0) (execSagWarningClear t s0) = Rest ps cells s0 := by
  simp at hps
  rw [← tick_rest (by simp [hps]) t s0]
  unfold execSagWarningClear
  generalize tick t s0 = s
  simp only []
  repeat' split
  all_goals simp [hps]

@[simp] theorem execSagCommandTimeout_rest (hps : ∀ p ∈ answering, p ∈ ps) (t : Time) (s0 : State) : orest ps cells
    (Rest ps cells s0) (execSagCommandTimeout t s0) = Rest ps cells s0 := by
  simp at hps
  unfold execSagCommandTimeout
  simp [hps]

@[simp] theorem execSagReset_rest (hps : ∀ p ∈ volatile, p ∈ ps) (hcells : cells = false) (t : Time) (rails : BitVec 8)
    (s0 : State) : orest ps cells (Rest ps cells s0) (execSagReset t rails s0) = Rest ps cells s0 := by
  simp at hps
  unfold execSagReset
  simp [hps, hcells]

@[simp] theorem qualifyRefs_rest (hps : ∀ p ∈ signalling ++ [.clk], p ∈ ps) (env : StartEnv) (s : State) : Rest ps cells
    (qualifyRefs env s) = Rest ps cells s := by
  simp at hps
  unfold qualifyRefs
  simp [hps]

@[simp] theorem startPlls_rest (hps : Part.clk ∈ ps) (s : State) : Rest ps cells (startPlls s) = Rest ps cells s := by
  unfold startPlls
  simp [hps]

@[simp] theorem confirmVctl_rest (hps : Part.pwr ∈ ps) (ok : Bool) (s : State) : Rest ps cells (confirmVctl ok s) =
    Rest ps cells s := by
  unfold confirmVctl
  simp [hps]

@[simp] theorem strapRole_rest (hps : ∀ p ∈ signalling ++ [.fab], p ∈ ps) (straps : BitVec 2) (s : State) :
    Rest ps cells (strapRole straps s) = Rest ps cells s := by
  unfold strapRole
  repeat' split
  all_goals simp [hps]

@[simp] theorem repairMaps_rest (hps : ∀ p ∈ [.mems, .repairQueue], p ∈ ps) (s : State) : Rest ps cells (repairMaps s) =
    Rest ps cells s := by
  simp at hps
  unfold repairMaps
  simp [hps]

@[simp] theorem runIslands_rest (hps : ∀ p ∈ [.islands, .fab], p ∈ ps) (l : List Island) (s : State) : Rest ps cells
    (runIslands l s) = Rest ps cells s := by
  simp at hps
  unfold runIslands
  simp [hps]

@[simp] theorem execColdStartRelease_rest (hps : ∀ p ∈ signalling ++ [.free, .islands, .time, .pwr, .clk, .line, .fab,
    .mems, .repairQueue, .fuseShadow, .aon], p ∈ ps) (t : Time) (env : StartEnv) (s0 : State) : orest ps cells
    (Rest ps cells s0) (execColdStartRelease t env s0) = Rest ps cells s0 := by
  simp at hps
  unfold execColdStartRelease
  simp [hps]

@[simp] theorem execBasinInitDone_rest (hps : ∀ p ∈ [.now, .basin], p ∈ ps) (t : Time) (s0 : State) : orest ps cells
    (Rest ps cells s0) (execBasinInitDone t s0) = Rest ps cells s0 := by
  simp at hps
  unfold execBasinInitDone
  simp [hps]

@[simp] theorem resolveJournal_rest (hps : Part.journal ∈ ps) (s : State) : Rest ps cells (resolveJournal s) =
    Rest ps cells s := by
  unfold resolveJournal
  simp [hps]

@[simp] theorem recallFailed_rest (hps : Part.daq ∈ ps) (soft : Bool) (c : Nat) (s : State) : Rest ps cells
    (recallFailed soft c s) = Rest ps cells s := by
  unfold recallFailed
  simp [hps]

@[simp] theorem loadCal_rest (hps : ∀ p ∈ signalling ++ [.time, .daq, .nv], p ∈ ps) (table : Bool) (s : State) :
    Rest ps cells (loadCal table s) = Rest ps cells s := by
  simp at hps
  unfold loadCal
  simp [hps]

@[simp] theorem startPlane_rest (hps : ∀ p ∈ signalling ++ [.free, .islands, .host, .time, .daq, .pwr, .clk, .therm,
    .cfg, .line, .fab, .frames, .eth, .basin, .oper, .nv], p ∈ ps) (s : State) : Rest ps cells (startPlane s) =
    Rest ps cells s := by
  simp at hps
  unfold startPlane
  simp [hps]

@[simp] theorem runImage_rest (hps : ∀ p ∈ [.host, .mgmt], p ∈ ps) (n : Nat) (x : FwSlot) (s : State) : Rest ps cells
    (runImage n x s) = Rest ps cells s := by
  simp at hps
  unfold runImage
  simp [hps]

@[simp] theorem execBootImageVerify_rest (hps : ∀ p ∈ signalling ++ [.free, .islands, .host, .mgmt, .time, .daq, .pwr,
    .clk, .therm, .cfg, .line, .fab, .frames, .eth, .basin, .oper, .nv, .journal], p ∈ ps) (t : Time) (sigA : Bool)
    (sigB : Bool) (s0 : State) : orest ps cells (Rest ps cells s0) (execBootImageVerify t sigA sigB s0) = Rest ps cells
    s0 := by
  simp at hps
  unfold execBootImageVerify
  simp [hps]

@[simp] theorem warmCut_rest (hps : ∀ p ∈ volatile ++ [.journal], p ∈ ps) (s0 : State) : Rest ps cells (warmCut s0) =
    Rest ps cells s0 := by
  simp at hps
  unfold warmCut
  simp [hps]

@[simp] theorem execWarmReset_rest (hps : ∀ p ∈ volatile ++ [.journal], p ∈ ps) (t : Time) (env : StartEnv) (s0 :
    State) : orest ps cells (Rest ps cells s0) (execWarmReset t env s0) = Rest ps cells s0 := by
  simp at hps
  unfold execWarmReset
  simp [hps]

@[simp] theorem ownSysReset_rest (hps : Part.mgmt ∈ ps) (rq : Request) (s : State) : Rest ps cells (ownSysReset rq s).st
    = Rest ps cells s := by
  unfold ownSysReset
  simp [hps]

@[simp] theorem execSysReset_rest (hps : ∀ p ∈ answering ++ [.mgmt], p ∈ ps) (t : Time) (rq : Request) (s : State) :
    orest ps cells (Rest ps cells s) (execSysReset t rq s) = Rest ps cells s := by
  simp at hps
  unfold execSysReset
  simp [hps]

/-! ### Mgmt -/

@[simp] theorem modPair_rest (hps : Part.mgmt ∈ ps) (n : Nat) (f : Pair → Pair) (s : State) : Rest ps cells (modPair n f
    s) = Rest ps cells s := by
  unfold modPair
  split <;> simp [hps]

@[simp] theorem ptpLost_rest (hps : ∀ p ∈ signalling ++ [.time, .daq], p ∈ ps) (d : Nat) (s : State) : Rest ps cells
    (ptpLost d s) = Rest ps cells s := by
  unfold ptpLost
  split <;> simp [hps]

@[simp] theorem activeFails_rest (hps : ∀ p ∈ signalling ++ [.host, .mgmt, .time, .tact, .daq, .cfg], p ∈ ps) (cause :
    Nat) (s0 : State) : Rest ps cells (activeFails cause s0) = Rest ps cells s0 := by
  simp at hps
  unfold activeFails
  simp [hps]

@[simp] theorem pairFails_rest (hps : ∀ p ∈ signalling ++ [.host, .mgmt, .time, .tact, .daq, .cfg], p ∈ ps) (standby :
    Bool) (cause : Nat) (s : State) : Rest ps cells (pairFails standby cause s) = Rest ps cells s := by
  simp at hps
  unfold pairFails
  simp [hps]

@[simp] theorem execMgmtFault_rest (hps : ∀ p ∈ signalling ++ [.host, .mgmt, .time, .tact, .daq, .cfg], p ∈ ps) (t :
    Time) (standbyPair : Bool) (fetch : Bool) (s : State) : orest ps cells (Rest ps cells s) (execMgmtFault t
    standbyPair fetch s) = Rest ps cells s := by
  simp at hps
  unfold execMgmtFault
  simp [hps]

@[simp] theorem execWatchdogExpiry_rest (hps : ∀ p ∈ signalling ++ [.host, .mgmt, .time, .tact, .daq, .cfg], p ∈ ps)
    (t : Time) (standbyPair : Bool) (s : State) : orest ps cells (Rest ps cells s) (execWatchdogExpiry t standbyPair s)
    = Rest ps cells s := by
  simp at hps
  unfold execWatchdogExpiry
  simp [hps]

@[simp] theorem journalRestart_rest (hps : Part.journal ∈ ps) (k : Nat) (a : Agent) (src : BitVec 16) (seq : BitVec 32)
    (s : State) : Rest ps cells (journalRestart k a src seq s) = Rest ps cells s := by
  unfold journalRestart
  simp [hps]

@[simp] theorem interrupt_rest (hps : ∀ p ∈ signalling ++ [.mailboxes, .frames, .journal], p ∈ ps) (open_ : List
    OpenStep) (r : Running) (s : State) : Rest ps cells (interrupt open_ r s) = Rest ps cells s := by
  unfold interrupt
  repeat' split
  all_goals simp [hps]

@[simp] theorem interruptRemote_rest (hps : ∀ p ∈ [.discards, .mailboxes, .interrupts, .frames, .journal, .out], p ∈ ps)
    (p : RemotePending) (s : State) : Rest ps cells (interruptRemote p s) = Rest ps cells s := by
  simp at hps
  unfold interruptRemote
  simp [hps]

@[simp] theorem restartEnds_rest (hps : ∀ p ∈ answering ++ [.free, .islands, .mgmt, .tact, .daq, .pwr, .cfg, .fab,
    .basin, .diag], p ∈ ps) (open_ : List OpenStep) (s : State) : Rest ps cells (restartEnds open_ s) = Rest ps cells
    s := by
  unfold restartEnds
  simp [hps]
  repeat' (first | (simp [hps]; done) | (split <;> simp_all <;> done) | split)

@[simp] theorem execMgmtTakeover_rest (hps : ∀ p ∈ answering ++ [.free, .islands, .host, .mgmt, .time, .tact, .daq,
    .pwr, .clk, .therm, .cfg, .line, .fab, .basin, .oper, .nv, .diag], p ∈ ps) (t : Time) (openSteps : List OpenStep)
    (s0 : State) : orest ps cells (Rest ps cells s0) (execMgmtTakeover t openSteps s0) = Rest ps cells s0 := by
  simp at hps
  unfold execMgmtTakeover
  simp [hps]

@[simp] theorem execStandbyReady_rest (hps : ∀ p ∈ signalling ++ [.mgmt], p ∈ ps) (t : Time) (pairB : Bool)
    (selfTestOk : Bool) (s0 : State) : orest ps cells (Rest ps cells s0) (execStandbyReady t pairB selfTestOk s0) =
    Rest ps cells s0 := by
  unfold execStandbyReady
  simp only []
  repeat' split
  all_goals simp [hps]

@[simp] theorem execMgmtRestartAttempt_rest (hps : ∀ p ∈ [.now, .mgmt], p ∈ ps) (t : Time) (pairB : Bool) (s0 : State) :
    orest ps cells (Rest ps cells s0) (execMgmtRestartAttempt t pairB s0) = Rest ps cells s0 := by
  simp at hps
  unfold execMgmtRestartAttempt
  simp [hps]

@[simp] theorem ownSysLoadFirmware_rest (rq : Request) (s : State) : Rest ps cells (ownSysLoadFirmware rq s).st =
    Rest ps cells s := by
  unfold ownSysLoadFirmware
  simp

@[simp] theorem storeFirmware_rest (hps : ∀ p ∈ [.nv, .journal], p ∈ ps) (img : FwImage) (s : State) : Rest ps cells
    (storeFirmware img s) = Rest ps cells s := by
  simp at hps
  unfold storeFirmware
  simp [hps]

@[simp] theorem restartOnto_rest (hps : ∀ p ∈ answering ++ [.free, .islands, .mgmt, .tact, .daq, .pwr, .cfg, .fab,
    .basin, .diag], p ∈ ps) (s : State) : Rest ps cells (restartOnto s) = Rest ps cells s := by
  simp at hps
  unfold restartOnto
  simp [hps]

@[simp] theorem firmwareFetched_rest (hps : ∀ p ∈ answering ++ [.free, .islands, .mgmt, .tact, .daq, .pwr, .cfg, .fab,
    .basin, .nv, .diag], p ∈ ps) (rq : Request) (img : FwImage) (s : State) : Rest ps cells (firmwareFetched rq img s) =
    Rest ps cells s := by
  simp at hps
  unfold firmwareFetched
  simp [hps]

@[simp] theorem execSysLoadFirmware_rest (hps : ∀ p ∈ answering ++ [.free, .islands, .mgmt, .tact, .daq, .pwr, .cfg,
    .fab, .basin, .nv, .diag], p ∈ ps) (t : Time) (rq : Request) (img : FwImage) (s : State) : orest ps cells
    (Rest ps cells s) (execSysLoadFirmware t rq img s) = Rest ps cells s := by
  simp at hps
  unfold execSysLoadFirmware
  simp [hps]

/-! ### Host -/

@[simp] theorem protoErr_rest (hps : Part.host ∈ ps) (s : State) : Rest ps cells (protoErr s) = Rest ps cells s := by
  unfold protoErr
  simp [hps]

@[simp] theorem clearInt_rest (hps : Part.interrupts ∈ ps) (v : BitVec 32) (s : State) : Rest ps cells (clearInt v s) =
    Rest ps cells s := by
  unfold clearInt
  simp [hps]

@[simp] theorem clearNmi_rest (hps : Part.host ∈ ps) (v : BitVec 32) (s : State) : Rest ps cells (clearNmi v s) =
    Rest ps cells s := by
  unfold clearNmi
  simp [hps]

@[simp] theorem clearSagSeen_rest (hps : Part.host ∈ ps) (v : BitVec 32) (s : State) : Rest ps cells (clearSagSeen v s)
    = Rest ps cells s := by
  unfold clearSagSeen
  simp [hps]

@[simp] theorem setHead_rest (hps : ∀ p ∈ [.events, .interrupts, .out], p ∈ ps) (v : BitVec 32) (s : State) :
    Rest ps cells (setHead v s) = Rest ps cells s := by
  simp at hps
  unfold setHead
  simp [hps]

@[simp] theorem setEvqCtrl_rest (hps : ∀ p ∈ [.events, .interrupts, .out], p ∈ ps) (v : BitVec 32) (s : State) :
    Rest ps cells (setEvqCtrl v s) = Rest ps cells s := by
  simp at hps
  unfold setEvqCtrl
  simp [hps]

@[simp] theorem writeEvq_rest (hps : ∀ p ∈ [.events, .interrupts, .out], p ∈ ps) (off : Nat) (v : BitVec 32) (s :
    State) : Rest ps cells (writeEvq off v s) = Rest ps cells s := by
  unfold writeEvq
  split <;> simp [hps]

@[simp] theorem writeDma_rest (hps : ∀ p ∈ [.free, .host, .interrupts, .daq, .out], p ∈ ps) (c : Nat) (off : Nat) (v :
    BitVec 32) (s : State) : Rest ps cells (writeDma c off v s) = Rest ps cells s := by
  unfold writeDma
  split <;> simp [hps]

@[simp] theorem writeMbox_rest (hps : ∀ p ∈ [.host, .mailboxes], p ∈ ps) (n : Nat) (off : Nat) (v : BitVec 32) (s :
    State) : Rest ps cells (writeMbox n off v s) = Rest ps cells s := by
  unfold writeMbox
  split <;> simp [hps]

@[simp] theorem ring_rest (hps : ∀ p ∈ [.host, .mailboxes], p ∈ ps) (n : Nat) (v : BitVec 32) (viaSpi : Bool) (s :
    State) : Rest ps cells (ring n v viaSpi s) = Rest ps cells s := by
  simp at hps
  unfold ring
  simp [hps]

@[simp] theorem writeReg_rest (hps : ∀ p ∈ [.free, .host, .mailboxes, .events, .interrupts, .daq, .out], p ∈ ps)
    (viaSpi : Bool) (off : Nat) (v : BitVec 32) (s : State) : Rest ps cells (writeReg viaSpi off v s) = Rest ps cells
    s := by
  simp at hps
  unfold writeReg
  simp [hps]

@[simp] theorem hostDo_rest (hps : Part.now ∈ ps) (t : Time) (f : State → State) (s0 : State) (h_f : ∀ y0, Rest ps cells
    (f y0) = Rest ps cells y0) : orest ps cells (Rest ps cells s0) (hostDo t f s0) = Rest ps cells s0 := by
  unfold hostDo
  simp only []
  split <;> simp [hps, h_f]

@[simp] theorem execDoorbell_rest (hps : ∀ p ∈ [.now, .host, .mailboxes], p ∈ ps) (t : Time) (n : Fin 16) (value :
    BitVec 32) (viaSpi : Bool) (s : State) : orest ps cells (Rest ps cells s) (execDoorbell t n value viaSpi s) =
    Rest ps cells s := by
  simp at hps
  unfold execDoorbell
  simp [hps]

@[simp] theorem execRegisterWrite_rest (hps : ∀ p ∈ [.now, .free, .host, .mailboxes, .events, .interrupts, .daq, .out],
    p ∈ ps) (t : Time) (offset : Nat) (value : BitVec 32) (s : State) : orest ps cells (Rest ps cells s)
    (execRegisterWrite t offset value s) = Rest ps cells s := by
  simp at hps
  unfold execRegisterWrite
  simp [hps]

@[simp] theorem execBar0InvalidAccess_rest (hps : ∀ p ∈ [.now, .host], p ∈ ps) (t : Time) (s : State) : orest ps cells
    (Rest ps cells s) (execBar0InvalidAccess t s) = Rest ps cells s := by
  simp at hps
  unfold execBar0InvalidAccess
  simp [hps]

@[simp] theorem execProtoErrRead_rest (hps : ∀ p ∈ [.now, .host], p ∈ ps) (t : Time) (s : State) : orest ps cells
    (Rest ps cells s) (execProtoErrRead t s) = Rest ps cells s := by
  simp at hps
  unfold execProtoErrRead
  simp [hps]

@[simp] theorem execEvqLostRead_rest (hps : ∀ p ∈ [.now, .host, .events], p ∈ ps) (t : Time) (s : State) : orest ps
    cells (Rest ps cells s) (execEvqLostRead t s) = Rest ps cells s := by
  simp at hps
  unfold execEvqLostRead
  simp [hps]

@[simp] theorem execIntStatusClear_rest (hps : ∀ p ∈ [.now, .interrupts], p ∈ ps) (t : Time) (mask : BitVec 32) (s :
    State) : orest ps cells (Rest ps cells s) (execIntStatusClear t mask s) = Rest ps cells s := by
  simp at hps
  unfold execIntStatusClear
  simp [hps]

@[simp] theorem execNmiCauseClear_rest (hps : ∀ p ∈ [.now, .host], p ∈ ps) (t : Time) (mask : BitVec 32) (s : State) :
    orest ps cells (Rest ps cells s) (execNmiCauseClear t mask s) = Rest ps cells s := by
  simp at hps
  unfold execNmiCauseClear
  simp [hps]

@[simp] theorem execSagSeenClear_rest (hps : ∀ p ∈ [.now, .host], p ∈ ps) (t : Time) (mask : BitVec 32) (s : State) :
    orest ps cells (Rest ps cells s) (execSagSeenClear t mask s) = Rest ps cells s := by
  simp at hps
  unfold execSagSeenClear
  simp [hps]

@[simp] theorem dropHeld_rest (hps : Part.events ∈ ps) (bad : List Nat) (s : State) : Rest ps cells (dropHeld bad s) =
    Rest ps cells s := by
  unfold dropHeld
  simp [hps]

@[simp] theorem execEvqHeadWrite_rest (hps : ∀ p ∈ [.now, .events, .interrupts, .out], p ∈ ps) (t : Time) (value :
    BitVec 32) (bad : List Nat) (s : State) : orest ps cells (Rest ps cells s) (execEvqHeadWrite t value bad s) =
    Rest ps cells s := by
  simp at hps
  unfold execEvqHeadWrite
  simp [hps]

@[simp] theorem execEvqModTimer_rest (hps : ∀ p ∈ [.now, .events, .interrupts, .out], p ∈ ps) (t : Time) (s : State) :
    orest ps cells (Rest ps cells s) (execEvqModTimer t s) = Rest ps cells s := by
  simp at hps
  unfold execEvqModTimer
  apply hostDo_rest (by simp [hps])
  intro x
  simp only []
  split
  · rfl
  · split <;> simp [hps]

@[simp] theorem execBar2Read_rest (hps : ∀ p ∈ [.now, .free, .host], p ∈ ps) (t : Time) (word : Fin 67108864) (s :
    State) : orest ps cells (Rest ps cells s) (execBar2Read t word s) = Rest ps cells s := by
  simp at hps
  unfold execBar2Read
  apply hostDo_rest (by simp [hps])
  intro x
  simp only []
  split
  · simp [hps]
  · split <;> simp [hps]

@[simp] theorem execBar2Write_rest (hps : ∀ p ∈ [.now, .host], p ∈ ps) (t : Time) (s : State) : orest ps cells
    (Rest ps cells s) (execBar2Write t s) = Rest ps cells s := by
  simp at hps
  unfold execBar2Write
  simp [hps]

@[simp] theorem spiFrame_rest (hps : ∀ p ∈ [.free, .host, .mailboxes, .events, .interrupts, .daq, .out], p ∈ ps) (read :
    Bool) (off : Nat) (v : BitVec 32) (s : State) : Rest ps cells (spiFrame read off v s).1 = Rest ps cells s := by
  unfold spiFrame
  repeat' split
  all_goals simp [hps]

@[simp] theorem spiFrames_rest (hps : ∀ p ∈ [.free, .host, .mailboxes, .events, .interrupts, .daq, .out], p ∈ ps)
    (read : Bool) (a : Nat) (x2 : List (BitVec 32)) (x3 : State) : Rest ps cells (spiFrames read a x2 x3).1 =
    Rest ps cells x3 := by
  induction x2 generalizing a x3 with
  | nil => rfl
  | cons v l ih => simp [hps, spiFrames, ih]

@[simp] theorem execSpiTransaction_rest (hps : ∀ p ∈ [.now, .free, .host, .mailboxes, .events, .interrupts, .daq, .out],
    p ∈ ps) (t : Time) (cmd : BitVec 32) (data : List (BitVec 32)) (s : State) : orest ps cells (Rest ps cells s)
    (execSpiTransaction t cmd data s) = Rest ps cells s := by
  simp at hps
  unfold execSpiTransaction
  simp [hps]

@[simp] theorem execHostReset_rest (hps : ∀ p ∈ signalling ++ [.free, .host, .mailboxes, .commands, .fab, .frames,
    .basin, .diag], p ∈ ps) (t : Time) (s0 : State) : orest ps cells (Rest ps cells s0) (execHostReset t s0) =
    Rest ps cells s0 := by
  simp at hps
  unfold execHostReset
  simp only []
  repeat' split
  all_goals simp [hps]

@[simp] theorem linkLost_rest (hps : ∀ p ∈ [.host, .interrupts, .out], p ∈ ps) (s : State) : Rest ps cells (linkLost s)
    = Rest ps cells s := by
  simp at hps
  unfold linkLost
  simp [hps]

@[simp] theorem msixFlush_rest (hps : ∀ p ∈ [.interrupts, .out], p ∈ ps) (s : State) : Rest ps cells (msixFlush s) =
    Rest ps cells s := by
  simp at hps
  unfold msixFlush
  simp [hps]

@[simp] theorem execPcieLinkChange_rest (hps : ∀ p ∈ [.now, .host, .events, .interrupts, .out], p ∈ ps) (t : Time) (up :
    Bool) (s0 : State) : orest ps cells (Rest ps cells s0) (execPcieLinkChange t up s0) = Rest ps cells s0 := by
  simp at hps
  unfold execPcieLinkChange
  simp [hps]

end Sys2Proof.Machine
end

section
/-! What the operations of the memories, the store and remote commands leave alone. -/

set_option maxRecDepth 4000

namespace Sys2Proof.Machine

variable {ps : List Part} {cells : Bool}

/-! ### Store -/

@[simp] theorem modMem_rest (hps : Part.mems ∈ ps) (m : Nat) (f : MemSt → MemSt) (s : State) : Rest ps cells (modMem m f
    s) = Rest ps cells s := by
  unfold modMem
  simp [hps]

@[simp] theorem judgeWord_rest (hps : Part.free ∈ ps) (a : List Nat) (x1 : State) : Rest ps cells (judgeWord a x1).2 =
    Rest ps cells x1 := by
  induction a generalizing x1 with
  | nil => rfl
  | cons v l ih =>
    unfold judgeWord
    simp [hps, ih]
    split <;> simp [hps]

@[simp] theorem memEvent_rest (hps : ∀ p ∈ signalling, p ∈ ps) (what : Nat) (m : Nat) (at_ : Nat) (s : State) :
    Rest ps cells (memEvent what m at_ s) = Rest ps cells s := by
  simp at hps
  unfold memEvent
  simp [hps]

@[simp] theorem badWord_rest (hps : ∀ p ∈ signalling ++ [.basin, .mems], p ∈ ps) (m : Nat) (n : Nat) (s : State) :
    Rest ps cells (badWord m n s) = Rest ps cells s := by
  unfold badWord
  simp [hps]
  repeat' (first | (simp [hps]; done) | (split <;> simp_all <;> done) | split)

@[simp] theorem freeSpare_rest (hps : Part.free ∈ ps) (m : Nat) (s : State) : Rest ps cells (freeSpare m s).2 =
    Rest ps cells s := by
  unfold freeSpare
  simp [hps]
  repeat' (first | (simp [hps]; done) | (split <;> simp_all <;> done) | split)

@[simp] theorem hardFault_rest (hps : ∀ p ∈ signalling ++ [.free, .mems], p ∈ ps) (m : Nat) (n : Nat) (s : State) :
    Rest ps cells (hardFault m n s) = Rest ps cells s := by
  simp at hps
  unfold hardFault
  extract_lets row s1 x
  have h1 : Rest ps cells s1 = Rest ps cells s := by simp [s1, hps]
  have h2 : Rest ps cells (freeSpare m s1).2 = Rest ps cells s := by simp [hps, h1]
  clear_value s1
  split
  · exact h1
  split <;> rename_i he <;> rw [he] at h2 <;> simp [hps, h2]

@[simp] theorem correctedWord_rest (hps : ∀ p ∈ signalling ++ [.free, .mems], p ∈ ps) (m : Nat) (n : Nat) (s : State) :
    Rest ps cells (correctedWord m n s) = Rest ps cells s := by
  simp at hps
  unfold correctedWord
  simp [hps]

@[simp] theorem execScrubWord_rest (hps : ∀ p ∈ signalling ++ [.free, .basin, .mems, .tagMismatch], p ∈ ps) (t : Time)
    (mem : Fin 3) (badBits : List Nat) (tagOk : Bool) (s0 : State) : orest ps cells (Rest ps cells s0) (execScrubWord t
    mem badBits tagOk s0) = Rest ps cells s0 := by
  simp at hps
  unfold execScrubWord
  simp [hps]

@[simp] theorem execSoftRepairComplete_rest (hps : ∀ p ∈ signalling ++ [.mems, .softRepairs, .repairQueue, .nv], p ∈ ps)
    (t : Time) (mem : Fin 3) (row : Nat) (s0 : State) : orest ps cells (Rest ps cells s0) (execSoftRepairComplete t mem
    row s0) = Rest ps cells s0 := by
  unfold execSoftRepairComplete
  simp [hps]
  repeat' (first | (simp [hps]; done) | (split <;> simp_all <;> done) | split)

@[simp] theorem ownMemStatus_rest (x : Request) (s : State) : Rest ps cells (ownMemStatus x s).st = Rest ps cells
    s := by
  unfold ownMemStatus
  simp

@[simp] theorem execMemStatus_rest (hps : ∀ p ∈ answering ++ [.mgmt], p ∈ ps) (t : Time) (rq : Request) (s : State) :
    orest ps cells (Rest ps cells s) (execMemStatus t rq s) = Rest ps cells s := by
  simp at hps
  unfold execMemStatus
  simp [hps]

@[simp] theorem ownMemCommitRepair_rest (hps : ∀ p ∈ [.repairQueue, .nv, .fuses], p ∈ ps) (verified : Bool) (rq :
    Request) (s : State) : Rest ps cells (ownMemCommitRepair verified rq s).st = Rest ps cells s := by
  simp at hps
  unfold ownMemCommitRepair
  simp [hps]

@[simp] theorem execMemCommitRepair_rest (hps : ∀ p ∈ answering ++ [.mgmt, .repairQueue, .nv, .fuses], p ∈ ps) (t :
    Time) (rq : Request) (verified : Bool) (s : State) : orest ps cells (Rest ps cells s) (execMemCommitRepair t rq
    verified s) = Rest ps cells s := by
  simp at hps
  unfold execMemCommitRepair
  simp [hps]

@[simp] theorem execRollbackAdvance_rest (hps : ∀ p ∈ [.now, .fuses], p ∈ ps) (t : Time) (s0 : State) : orest ps cells
    (Rest ps cells s0) (execRollbackAdvance t s0) = Rest ps cells s0 := by
  simp at hps
  unfold execRollbackAdvance
  simp [hps]

@[simp] theorem execNvWriteCountStore_rest (hps : ∀ p ∈ [.now, .free, .nv, .journal], p ∈ ps) (t : Time) (s0 : State) :
    orest ps cells (Rest ps cells s0) (execNvWriteCountStore t s0) = Rest ps cells s0 := by
  simp at hps
  unfold execNvWriteCountStore
  simp [hps]

@[simp] theorem refreshRegions_rest (hps : ∀ p ∈ [.nv, .journal], p ∈ ps) (rs : List Nat) (s : State) : Rest ps cells
    (refreshRegions rs s) = Rest ps cells s := by
  simp at hps
  unfold refreshRegions
  simp [hps]

@[simp] theorem execNvRefreshCheck_rest (hps : ∀ p ∈ [.now, .nv, .journal], p ∈ ps) (t : Time) (s0 : State) : orest ps
    cells (Rest ps cells s0) (execNvRefreshCheck t s0) = Rest ps cells s0 := by
  simp at hps
  unfold execNvRefreshCheck
  simp [hps]

@[simp] theorem ownNvsStatus_rest (x : Request) (s : State) : Rest ps cells (ownNvsStatus x s).st = Rest ps cells
    s := by
  unfold ownNvsStatus
  simp

@[simp] theorem execNvsStatus_rest (hps : ∀ p ∈ answering ++ [.mgmt], p ∈ ps) (t : Time) (rq : Request) (s : State) :
    orest ps cells (Rest ps cells s) (execNvsStatus t rq s) = Rest ps cells s := by
  simp at hps
  unfold execNvsStatus
  simp [hps]

@[simp] theorem ownNvsRefresh_rest (rq : Request) (s : State) : Rest ps cells (ownNvsRefresh rq s).st = Rest ps cells
    s := by
  unfold ownNvsRefresh
  simp

@[simp] theorem execNvsRefresh_rest (hps : ∀ p ∈ answering ++ [.mgmt, .nv], p ∈ ps) (t : Time) (rq : Request) (s :
    State) : orest ps cells (Rest ps cells s) (execNvsRefresh t rq s) = Rest ps cells s := by
  simp at hps
  unfold execNvsRefresh
  simp [hps]

@[simp] theorem ownFuseRead_rest (rq : Request) (s : State) : Rest ps cells (ownFuseRead rq s).st = Rest ps cells
    s := by
  unfold ownFuseRead
  simp

@[simp] theorem execFuseRead_rest (hps : ∀ p ∈ answering ++ [.mgmt], p ∈ ps) (t : Time) (rq : Request) (s : State) :
    orest ps cells (Rest ps cells s) (execFuseRead t rq s) = Rest ps cells s := by
  simp at hps
  unfold execFuseRead
  simp [hps]

@[simp] theorem fuseBlow_rest (hps : ∀ p ∈ [.fuses, .fuseShadow], p ∈ ps) (unblown : BitVec 384) (cut : Option (BitVec
    384)) (code : Nat) (val : BitVec 384) (s : State) : Rest ps cells (fuseBlow unblown cut code val s).st =
    Rest ps cells s := by
  simp at hps
  unfold fuseBlow
  simp [hps]

@[simp] theorem ownFuseProgram_rest (hps : ∀ p ∈ [.fuses, .fuseShadow], p ∈ ps) (unblown : BitVec 384) (cut : Option
    (BitVec 384)) (rq : Request) (s : State) : Rest ps cells (ownFuseProgram unblown cut rq s).st = Rest ps cells
    s := by
  simp at hps
  unfold ownFuseProgram
  simp [hps]

@[simp] theorem execFuseProgram_rest (hps : ∀ p ∈ answering ++ [.mgmt, .fuses, .fuseShadow], p ∈ ps) (t : Time) (rq :
    Request) (unblown : BitVec 384) (cut : Option (BitVec 384)) (s : State) : orest ps cells (Rest ps cells s)
    (execFuseProgram t rq unblown cut s) = Rest ps cells s := by
  simp at hps
  unfold execFuseProgram
  simp [hps]

@[simp] theorem ownFuseLock_rest (hps : ∀ p ∈ [.fuses, .fuseShadow], p ∈ ps) (rq : Request) (s : State) : Rest ps cells
    (ownFuseLock rq s).st = Rest ps cells s := by
  simp at hps
  unfold ownFuseLock
  simp [hps]

@[simp] theorem execFuseLock_rest (hps : ∀ p ∈ answering ++ [.mgmt, .fuses, .fuseShadow], p ∈ ps) (t : Time) (rq :
    Request) (s : State) : orest ps cells (Rest ps cells s) (execFuseLock t rq s) = Rest ps cells s := by
  simp at hps
  unfold execFuseLock
  simp [hps]

@[simp] theorem ownLogConfig_rest (hps : Part.diag ∈ ps) (rq : Request) (s : State) : Rest ps cells (ownLogConfig rq
    s).st = Rest ps cells s := by
  unfold ownLogConfig
  simp [hps]

@[simp] theorem execLogConfig_rest (hps : ∀ p ∈ answering ++ [.mgmt, .diag], p ∈ ps) (t : Time) (rq : Request) (s :
    State) : orest ps cells (Rest ps cells s) (execLogConfig t rq s) = Rest ps cells s := by
  simp at hps
  unfold execLogConfig
  simp [hps]

@[simp] theorem drawWords_rest (hps : Part.free ∈ ps) (a : Nat) (x1 : State) : Rest ps cells (drawWords a x1).2 =
    Rest ps cells x1 := by
  induction a generalizing x1 with
  | zero => rfl
  | succ n ih => simp [hps, drawWords, ih]

@[simp] theorem ownLogRead_rest (hps : ∀ p ∈ [.free, .host], p ∈ ps) (rq : Request) (s : State) : Rest ps cells
    (ownLogRead rq s).st = Rest ps cells s := by
  simp at hps
  unfold ownLogRead
  simp [hps]

@[simp] theorem execLogRead_rest (hps : ∀ p ∈ answering ++ [.free, .host, .mgmt], p ∈ ps) (t : Time) (rq : Request) (s :
    State) : orest ps cells (Rest ps cells s) (execLogRead t rq s) = Rest ps cells s := by
  simp at hps
  unfold execLogRead
  simp [hps]

@[simp] theorem ownDiagLoopback_rest (hps : ∀ p ∈ signalling ++ [.free, .fab, .frames, .diag], p ∈ ps) (rq : Request)
    (s : State) : Rest ps cells (ownDiagLoopback rq s).st = Rest ps cells s := by
  simp at hps
  unfold ownDiagLoopback
  simp [hps]

@[simp] theorem execDiagLoopback_rest (hps : ∀ p ∈ answering ++ [.free, .mgmt, .fab, .diag], p ∈ ps) (t : Time) (rq :
    Request) (s : State) : orest ps cells (Rest ps cells s) (execDiagLoopback t rq s) = Rest ps cells s := by
  simp at hps
  unfold execDiagLoopback
  simp [hps]

@[simp] theorem ownDiagSelftest_rest (rq : Request) (s : State) : Rest ps cells (ownDiagSelftest rq s).st =
    Rest ps cells s := by
  unfold ownDiagSelftest
  simp

@[simp] theorem execDiagSelftest_rest (hps : ∀ p ∈ answering ++ [.mgmt], p ∈ ps) (t : Time) (rq : Request) (passed :
    Bool) (s : State) : orest ps cells (Rest ps cells s) (execDiagSelftest t rq passed s) = Rest ps cells s := by
  simp at hps
  unfold execDiagSelftest
  simp [hps]

@[simp] theorem ownDiagCapture_rest (hps : Part.host ∈ ps) (samples : List Word) (rq : Request) (s : State) :
    Rest ps cells (ownDiagCapture samples rq s).st = Rest ps cells s := by
  unfold ownDiagCapture
  simp [hps]

@[simp] theorem execDiagCapture_rest (hps : ∀ p ∈ answering ++ [.host, .mgmt], p ∈ ps) (t : Time) (rq : Request)
    (samples : List Word) (s : State) : orest ps cells (Rest ps cells s) (execDiagCapture t rq samples s) =
    Rest ps cells s := by
  simp at hps
  unfold execDiagCapture
  simp [hps]

/-! ### Sys -/

@[simp] theorem ownSysIdentify_rest (x : Request) (s : State) : Rest ps cells (ownSysIdentify x s).st = Rest ps cells
    s := by
  unfold ownSysIdentify
  simp

@[simp] theorem execSysIdentify_rest (hps : ∀ p ∈ answering ++ [.mgmt], p ∈ ps) (t : Time) (rq : Request) (s : State) :
    orest ps cells (Rest ps cells s) (execSysIdentify t rq s) = Rest ps cells s := by
  simp at hps
  unfold execSysIdentify
  simp [hps]

@[simp] theorem ownSysCmdStatus_rest (rq : Request) (s : State) : Rest ps cells (ownSysCmdStatus rq s).st =
    Rest ps cells s := by
  unfold ownSysCmdStatus
  simp
  repeat' (first | (simp; done) | (split <;> simp_all <;> done) | split)

@[simp] theorem execSysCmdStatus_rest (hps : ∀ p ∈ answering ++ [.mgmt], p ∈ ps) (t : Time) (rq : Request) (s : State) :
    orest ps cells (Rest ps cells s) (execSysCmdStatus t rq s) = Rest ps cells s := by
  simp at hps
  unfold execSysCmdStatus
  simp [hps]

@[simp] theorem endExtract_rest (hps : ∀ p ∈ answering ++ [.basin], p ∈ ps) (e : Extract) (s : State) : Rest ps cells
    (endExtract e s) = Rest ps cells s := by
  simp at hps
  unfold endExtract
  simp [hps]

@[simp] theorem finishExtract_rest (hps : ∀ p ∈ answering ++ [.free, .basin], p ∈ ps) (e : Extract) (s : State) :
    Rest ps cells (finishExtract e s) = Rest ps cells s := by
  simp at hps
  unfold finishExtract
  repeat' split
  all_goals simp (disch := simp [hps])

@[simp] theorem execLongCommandComplete_rest (hps : ∀ p ∈ answering ++ [.free, .basin], p ∈ ps) (t : Time) (agent :
    Agent) (seq : BitVec 32) (_status : BitVec 16) (_stepsDone : Nat) (s0 : State) : orest ps cells (Rest ps cells s0)
    (execLongCommandComplete t agent seq _status _stepsDone s0) = Rest ps cells s0 := by
  unfold execLongCommandComplete
  simp [hps]
  repeat' (first | (simp [hps]; done) | (split <;> simp_all <;> done) | split)

@[simp] theorem remoteOutcome_rest (hps : Part.journal ∈ ps) (rq : Request) (status : BitVec 16) (s : State) :
    Rest ps cells (remoteOutcome rq status s) = Rest ps cells s := by
  unfold remoteOutcome
  simp [hps]

@[simp] theorem remoteEnds_rest (hps : ∀ p ∈ signalling ++ [.mailboxes, .mgmt, .frames, .journal], p ∈ ps) (p :
    RemotePending) (status : BitVec 16) (words : List Word) (s : State) : Rest ps cells (remoteEnds p status words s) =
    Rest ps cells s := by
  simp at hps
  unfold remoteEnds
  simp [hps]

@[simp] theorem execMgmtRspRx_rest (hps : ∀ p ∈ signalling ++ [.mailboxes, .mgmt, .frames, .journal], p ∈ ps) (t : Time)
    (mailbox : Fin 16) (seq : BitVec 32) (status : BitVec 16) (words : List Word) (s0 : State) : orest ps cells
    (Rest ps cells s0) (execMgmtRspRx t mailbox seq status words s0) = Rest ps cells s0 := by
  simp at hps
  rw [← tick_rest (by simp [hps]) t s0]
  unfold execMgmtRspRx
  generalize tick t s0 = s
  extract_lets s
  apply arriveAt_rest (by simp [hps]) _ _ _ rfl
  repeat' split
  all_goals simp [hps]

@[simp] theorem execRemoteCommandTimeout_rest (hps : ∀ p ∈ signalling ++ [.mailboxes, .mgmt, .frames, .journal], p ∈ ps)
    (t : Time) (mailbox : Fin 16) (s0 : State) : orest ps cells (Rest ps cells s0) (execRemoteCommandTimeout t mailbox
    s0) = Rest ps cells s0 := by
  unfold execRemoteCommandTimeout
  simp [hps]
  repeat' (first | (simp [hps]; done) | (split <;> simp_all <;> done) | split)

/-! ### Remote -/

@[simp] theorem execUnknownCommand_rest (hps : ∀ p ∈ answering ++ [.mgmt], p ∈ ps) (t : Time) (rq : Request) (opcode :
    BitVec 16) (s : State) : orest ps cells (Rest ps cells s) (execUnknownCommand t rq opcode s) = Rest ps cells s := by
  simp at hps
  unfold execUnknownCommand
  simp [hps]

@[simp] theorem queueRemote_rest (hps : ∀ p ∈ [.now, .discards, .mailboxes, .interrupts, .commands, .frames, .out],
    p ∈ ps) (op : Nat) (t : Time) (rq : Request) (s0 : State) : orest ps cells (Rest ps cells s0) (queueRemote op t rq
    s0) = Rest ps cells s0 := by
  simp at hps
  unfold queueRemote modMgmt
  simp only []
  split <;> simp [hps]

@[simp] theorem remoteSys_rest (hps : ∀ p ∈ answering ++ [.islands, .mgmt], p ∈ ps) (op : Nat) (t : Time) (rq : Request)
    (s : State) : orest ps cells (Rest ps cells s) (remoteSys op t rq s) = Rest ps cells s := by
  unfold remoteSys
  split <;> simp [hps]

@[simp] theorem remoteCfg_rest (hps : ∀ p ∈ answering ++ [.mgmt, .tact, .cfg, .nv], p ∈ ps) (op : Nat) (t : Time) (rq :
    Request) (s : State) : orest ps cells (Rest ps cells s) (remoteCfg op t rq s) = Rest ps cells s := by
  unfold remoteCfg
  split <;> simp [hps]

@[simp] theorem remoteChan_rest (hps : ∀ p ∈ answering ++ [.mgmt, .daq, .nv], p ∈ ps) (op : Nat) (t : Time) (rq :
    Request) (s : State) : orest ps cells (Rest ps cells s) (remoteChan op t rq s) = Rest ps cells s := by
  unfold remoteChan
  split <;> simp [hps]

@[simp] theorem remoteExc_rest (hps : ∀ p ∈ answering ++ [.mgmt, .daq], p ∈ ps) (op : Nat) (t : Time) (rq : Request)
    (s : State) : orest ps cells (Rest ps cells s) (remoteExc op t rq s) = Rest ps cells s := by
  unfold remoteExc
  split <;> simp [hps]

@[simp] theorem remoteFilt_rest (hps : ∀ p ∈ answering ++ [.mgmt, .tact, .daq], p ∈ ps) (op : Nat) (t : Time) (rq :
    Request) (s : State) : orest ps cells (Rest ps cells s) (remoteFilt op t rq s) = Rest ps cells s := by
  unfold remoteFilt
  split <;> simp [hps]

@[simp] theorem remoteWeave_rest (hps : ∀ p ∈ answering ++ [.free, .mgmt, .tact, .daq], p ∈ ps) (op : Nat) (t : Time)
    (rq : Request) (s : State) : orest ps cells (Rest ps cells s) (remoteWeave op t rq s) = Rest ps cells s := by
  unfold remoteWeave
  split <;> simp [hps]

@[simp] theorem remoteCal_rest (hps : ∀ p ∈ answering ++ [.mgmt, .daq, .nv], p ∈ ps) (op : Nat) (t : Time) (rq :
    Request) (s : State) : orest ps cells (Rest ps cells s) (remoteCal op t rq s) = Rest ps cells s := by
  unfold remoteCal
  split <;> simp [hps]

@[simp] theorem remoteRec_rest (hps : ∀ p ∈ answering ++ [.mgmt, .daq], p ∈ ps) (op : Nat) (t : Time) (rq : Request)
    (s : State) : orest ps cells (Rest ps cells s) (remoteRec op t rq s) = Rest ps cells s := by
  unfold remoteRec
  split <;> simp [hps]

@[simp] theorem remoteTime_rest (hps : ∀ p ∈ answering ++ [.free, .host, .mgmt, .time, .tact, .daq, .pwr, .clk, .therm,
    .cfg, .line, .fab, .eth, .basin, .oper, .nv], p ∈ ps) (op : Nat) (t : Time) (rq : Request) (s : State) : orest ps
    cells (Rest ps cells s) (remoteTime op t rq s) = Rest ps cells s := by
  unfold remoteTime
  split <;> simp [hps]

@[simp] theorem remoteTact_rest (hps : ∀ p ∈ answering ++ [.free, .host, .mgmt, .time, .tact, .daq, .pwr, .clk, .therm,
    .cfg, .line, .fab, .eth, .basin, .oper, .nv], p ∈ ps) (op : Nat) (t : Time) (rq : Request) (s : State) : orest ps
    cells (Rest ps cells s) (remoteTact op t rq s) = Rest ps cells s := by
  unfold remoteTact
  split <;> simp [hps]

@[simp] theorem remoteLane_rest (hps : ∀ p ∈ answering ++ [.free, .host, .mgmt, .time, .clk, .line, .fab], p ∈ ps) (op :
    Nat) (t : Time) (rq : Request) (s : State) : orest ps cells (Rest ps cells s) (remoteLane op t rq s) = Rest ps cells
    s := by
  unfold remoteLane
  split <;> simp [hps]

@[simp] theorem remoteSlot_rest (hps : ∀ p ∈ answering ++ [.mgmt], p ∈ ps) (op : Nat) (t : Time) (rq : Request) (s :
    State) : orest ps cells (Rest ps cells s) (remoteSlot op t rq s) = Rest ps cells s := by
  simp at hps
  unfold remoteSlot
  simp [hps]

@[simp] theorem remoteFab_rest (hps : ∀ p ∈ answering ++ [.mgmt], p ∈ ps) (op : Nat) (t : Time) (rq : Request) (s :
    State) : orest ps cells (Rest ps cells s) (remoteFab op t rq s) = Rest ps cells s := by
  unfold remoteFab
  split <;> simp [hps]

@[simp] theorem remoteEthm_rest (hps : ∀ p ∈ answering ++ [.free, .mgmt, .time, .eth], p ∈ ps) (op : Nat) (t : Time)
    (rq : Request) (s : State) : orest ps cells (Rest ps cells s) (remoteEthm op t rq s) = Rest ps cells s := by
  unfold remoteEthm
  split <;> simp [hps]

@[simp] theorem remoteBasin_rest (hps : ∀ p ∈ answering ++ [.mgmt, .basin], p ∈ ps) (op : Nat) (t : Time) (rq : Request)
    (s : State) : orest ps cells (Rest ps cells s) (remoteBasin op t rq s) = Rest ps cells s := by
  unfold remoteBasin
  split <;> simp [hps]

@[simp] theorem remoteOper_rest (hps : ∀ p ∈ answering ++ [.mgmt, .daq, .oper], p ∈ ps) (op : Nat) (t : Time) (rq :
    Request) (s : State) : orest ps cells (Rest ps cells s) (remoteOper op t rq s) = Rest ps cells s := by
  unfold remoteOper
  split <;> simp [hps]

@[simp] theorem remoteClk_rest (hps : ∀ p ∈ answering ++ [.free, .islands, .host, .mgmt, .time, .clk], p ∈ ps) (op :
    Nat) (t : Time) (rq : Request) (s : State) : orest ps cells (Rest ps cells s) (remoteClk op t rq s) = Rest ps cells
    s := by
  unfold remoteClk
  split <;> simp [hps]

@[simp] theorem remotePwr_rest (hps : ∀ p ∈ answering ++ [.mgmt, .daq, .pwr, .oper], p ∈ ps) (op : Nat) (t : Time) (rq :
    Request) (s : State) : orest ps cells (Rest ps cells s) (remotePwr op t rq s) = Rest ps cells s := by
  unfold remotePwr
  split <;> simp [hps]

@[simp] theorem remoteTherm_rest (hps : ∀ p ∈ answering ++ [.mgmt, .therm], p ∈ ps) (op : Nat) (t : Time) (rq : Request)
    (s : State) : orest ps cells (Rest ps cells s) (remoteTherm op t rq s) = Rest ps cells s := by
  unfold remoteTherm
  split <;> simp [hps]

@[simp] theorem remoteMem_rest (hps : ∀ p ∈ answering ++ [.mgmt], p ∈ ps) (op : Nat) (t : Time) (rq : Request) (s :
    State) : orest ps cells (Rest ps cells s) (remoteMem op t rq s) = Rest ps cells s := by
  unfold remoteMem
  split <;> simp [hps]

@[simp] theorem remoteNvs_rest (hps : ∀ p ∈ answering ++ [.mgmt, .nv], p ∈ ps) (op : Nat) (t : Time) (rq : Request) (s :
    State) : orest ps cells (Rest ps cells s) (remoteNvs op t rq s) = Rest ps cells s := by
  unfold remoteNvs
  split <;> simp [hps]

@[simp] theorem remoteFuse_rest (hps : ∀ p ∈ answering ++ [.mgmt, .fuses, .fuseShadow], p ∈ ps) (op : Nat) (t : Time)
    (rq : Request) (s : State) (h : rq.agent = .fabric) : orest ps cells (Rest ps cells s) (remoteFuse op t rq s) =
    Rest ps cells s := by
  simp at hps
  unfold remoteFuse
  split <;> simp [hps]

@[simp] theorem remoteLog_rest (hps : ∀ p ∈ answering ++ [.free, .host, .mgmt, .diag], p ∈ ps) (op : Nat) (t : Time)
    (rq : Request) (s : State) : orest ps cells (Rest ps cells s) (remoteLog op t rq s) = Rest ps cells s := by
  unfold remoteLog
  split <;> simp [hps]

@[simp] theorem remoteDiag_rest (hps : ∀ p ∈ answering ++ [.free, .mgmt, .fab, .diag], p ∈ ps) (op : Nat) (t : Time)
    (rq : Request) (s : State) : orest ps cells (Rest ps cells s) (remoteDiag op t rq s) = Rest ps cells s := by
  unfold remoteDiag
  split <;> simp [hps]

@[simp] theorem remoteExec_rest (hps : ∀ p ∈ answering ++ [.free, .islands, .host, .mgmt, .time, .tact, .daq, .pwr,
    .clk, .therm, .cfg, .line, .fab, .eth, .basin, .oper, .nv, .fuses, .fuseShadow, .diag], p ∈ ps) (op : Nat) (t :
    Time) (rq : Request) (s : State) (h : rq.agent = .fabric) : orest ps cells (Rest ps cells s) (remoteExec op t rq s)
    = Rest ps cells s := by
  simp at hps
  unfold remoteExec
  split <;> simp [hps, h]

@[simp] theorem execMgmtReqRx_rest (hps : ∀ p ∈ answering ++ [.free, .islands, .host, .mgmt, .time, .tact, .daq, .pwr,
    .clk, .therm, .cfg, .line, .fab, .eth, .basin, .oper, .nv, .fuses, .fuseShadow, .diag], p ∈ ps) (t : Time) (src :
    BitVec 16) (headerOnly : Bool) (opcode : BitVec 16) (rq : Request) (s0 : State) : orest ps cells (Rest ps cells s0)
    (execMgmtReqRx t src headerOnly opcode rq s0) = Rest ps cells s0 := by
  simp at hps
  rw [← tick_rest (by simp [hps]) t s0]
  unfold execMgmtReqRx
  generalize tick t s0 = s
  simp only []
  repeat' split
  all_goals simp [hps]

end Sys2Proof.Machine
end

section
/-! The basin's cells keep their canonical form: only a record that is stored, and a reset, write them. -/

set_option maxRecDepth 4000

namespace Sys2Proof.Machine

/-- Every part. -/
def allParts : List Part := .nv :: .journal :: .fuses :: .fuseShadow :: .free :: .pending :: volatile

@[simp] theorem mem_allParts (p : Part) : p ∈ allParts := by
  cases p <;> decide

/-- The cells of a state that goes on are in their canonical form. -/
def cellsWf : Outcome → Bool
  | .next u => memWf u.basin.cells
  | _ => true

/-- Every part may have changed, but not the cells. -/
theorem memWf_of_rest {s t : State} (h : Rest allParts true t = Rest allParts true s) (hs : memWf s.basin.cells = true) :
    memWf t.basin.cells = true := by
  rw [cells_of_rest h]
  exact hs

theorem cellsWf_of_rest {s : State} {o : Outcome} (h : orest allParts true (Rest allParts true s) o = Rest allParts true s)
    (hs : memWf s.basin.cells = true) : cellsWf o = true := by
  cases o with
  | next u => exact memWf_of_rest h hs
  | fault r => rfl
  | refused r => rfl

theorem storeRec_memWf (g : Nat) (r : QRec) {s : State} (h : memWf s.basin.cells = true) :
    memWf (storeRec g r s).basin.cells = true := by
  unfold storeRec
  extract_lets x a w ix full e s1 s2
  have hs2 : s2.basin.cells = writeWord s.basin.cells (wordNo g ix) w := by simp only [s2, s1, modBasin]
  refine memWf_of_rest (s := s2) (by simp) ?_
  rw [hs2]
  exact writeWord_wf _ _ h

theorem arrive_memWf (g : Nat) (r : QRec) {s : State} (h : memWf s.basin.cells = true) :
    memWf (arrive g r s).basin.cells = true := by
  unfold arrive
  extract_lets x full refuse s1
  have hrefuse : memWf refuse.basin.cells = true := memWf_of_rest (s := s) (by simp [refuse]) h
  have hs1 : memWf s1.basin.cells = true := storeRec_memWf g r h
  have hfreeze : ∀ (b : Bool) (y : State), memWf y.basin.cells = true → memWf (freezeNow g b y).basin.cells = true :=
    fun b y => memWf_of_rest (by simp)
  clear_value refuse s1
  split
  · exact h
  · exact h
  · exact storeRec_memWf g r h
  · split
    · exact hrefuse
    · exact storeRec_memWf g r h
  · split
    · exact hfreeze _ _ h
    split
    · exact hfreeze _ _ hrefuse
    split
    · exact hfreeze _ _ h
    split
    · exact hfreeze _ _ hs1
    · exact hs1

theorem takeMirror_memWf (g gen : Nat) (node : BitVec 16) (ws : List Word) {s : State} (h : memWf s.basin.cells = true) :
    memWf (takeMirror g gen node ws s).basin.cells = true := by
  unfold takeMirror
  extract_lets s1
  have h1 : memWf s1.basin.cells = true := memWf_of_rest (s := s) (by simp [s1]) h
  clear_value s1
  split
  · exact memWf_of_rest (s := s1) (by simp) h1
  split
  · exact memWf_of_rest (s := s1) (by simp) h1
  · induction ws generalizing s1 with
    | nil => exact h1
    | cons w ws ih => exact ih _ (arrive_memWf g _ h1)

/-- A record that waits for a segment and enters it. -/
theorem execBasinRecordWrite_memWf (t : Time) (seg : Fin 1024) {s : State} (h : memWf s.basin.cells = true) :
    cellsWf (execBasinRecordWrite t seg s) = true := by
  unfold execBasinRecordWrite
  simp only []
  split
  · exact h
  split
  · exact h
  · exact arrive_memWf _ _ (memWf_of_rest (s := tick t s) (by simp) h)

/-- A link frame whose records enter a mirror target. -/
theorem execRecordsFrameRx_memWf (t : Time) (f : Frame) (mark : Option Bool) {s : State} (h : memWf s.basin.cells = true) :
    cellsWf (execRecordsFrameRx t f mark s) = true := by
  unfold execRecordsFrameRx arriveAt
  simp only []
  split
  · split
    · exact h
    split
    · exact memWf_of_rest (s := tick t s) (by simp) h
    split
    · split
      · rename_i g _
        exact memWf_of_rest (takeMark_rest (by simp) g mark _) (takeMirror_memWf g _ _ _ h)
      · exact h
    split
    · exact memWf_of_rest (s := tick t s) (by simp) h
    · exact memWf_of_rest (s := tick t s) (by simp) h
  · exact memWf_of_rest (s := tick t s) (by simp) h

/-! A row that cuts the power leaves no cell listed: there the claim is true by evaluation. -/

theorem execZoneThresholdCrossing_memWf (t : Time) (zone : Fin 7) {s : State} (h : memWf s.basin.cells = true) :
    cellsWf (execZoneThresholdCrossing t zone s) = true := by
  unfold execZoneThresholdCrossing
  extract_lets s0 z x s1 s2 s3
  have h3 : memWf s3.basin.cells = true := memWf_of_rest (s := s) (by simp [s3, s2, s1, s0]) h
  clear_value s3
  simp only [cellsWf]
  split
  · rfl
  · exact memWf_of_rest (s := s3) (by simp) h3

theorem execZoneAllBrokenTimer_memWf (t : Time) (zone : Fin 7) {s : State} (h : memWf s.basin.cells = true) :
    cellsWf (execZoneAllBrokenTimer t zone s) = true := by
  unfold execZoneAllBrokenTimer
  simp only []
  split
  · rfl
  · exact h

theorem execAonThermalTrip_memWf (t : Time) {s : State} (h : memWf s.basin.cells = true) :
    cellsWf (execAonThermalTrip t s) = true := by
  unfold execAonThermalTrip
  simp only []
  split
  · exact h
  · rfl

theorem execHibernateEntry_memWf (t : Time) {s : State} (h : memWf s.basin.cells = true) :
    cellsWf (execHibernateEntry t s) = true := by
  unfold execHibernateEntry
  simp only []
  split
  · exact h
  split
  · exact h
  · rfl

theorem execResetNAssert_memWf (t : Time) (lowNs : Nat) {s : State} (h : memWf s.basin.cells = true) :
    cellsWf (execResetNAssert t lowNs s) = true := by
  unfold execResetNAssert
  extract_lets s0 r s1
  split
  · refine memWf_of_rest (s := s) ?_ h
    simp only [r]
    split <;> simp [s0]
  · rfl

theorem execSagReset_memWf (t : Time) (rails : BitVec 8) {s : State} (h : memWf s.basin.cells = true) :
    cellsWf (execSagReset t rails s) = true := by
  unfold execSagReset
  extract_lets s0 seen
  split
  · exact h
  · rfl

/-- Every row but the ones above leaves the cells alone. -/
theorem exec_memWf (i : Instr) {s : State} (h : memWf s.basin.cells = true) : cellsWf (exec i s) = true := by
  apply Instr.casesOn (motive := fun i => cellsWf (exec i s) = true) i
  case basinRecordWrite => exact fun t seg => execBasinRecordWrite_memWf t seg h
  case recordsFrameRx => exact fun t f mark => execRecordsFrameRx_memWf t f mark h
  case powerOnReset => exact fun t => rfl
  case resetNAssert => exact fun t lowNs => execResetNAssert_memWf t lowNs h
  case sagReset => exact fun t rails => execSagReset_memWf t rails h
  case hibernateEntry => exact fun t => execHibernateEntry_memWf t h
  case aonThermalTrip => exact fun t => execAonThermalTrip_memWf t h
  case zoneThresholdCrossing => exact fun t zone => execZoneThresholdCrossing_memWf t zone h
  case zoneAllBrokenTimer => exact fun t zone => execZoneAllBrokenTimer_memWf t zone h
  all_goals
    intro t
    intros
    exact cellsWf_of_rest (by simp [exec]) h

/-- Settles O6. -/
theorem basinStaysCanonical : Obligations.BasinStaysCanonical := by
  refine ⟨reset_memWf, fun s u hs hstep => ?_⟩
  refine step_rec (R := fun s u => memWf s.basin.cells = true → memWf u.basin.cells = true) (fun _ h => h) ?_ hstep hs
  intro c rest s u he h
  have hc := exec_memWf c (s := { s with pending := rest }) h
  rw [he] at hc
  exact hc

end Sys2Proof.Machine
end

section
/-! How a mailbox command that no check refuses ends: what its own part sees of the state, and what remains to be shown of its
own part. -/

set_option maxRecDepth 4000

namespace Sys2Proof.Machine

/-! ### A request as taken up (R334) -/

/-- The state with another clock, other mailboxes and other waiting requests. -/
@[reducible] def retake (n : Time) (mb : List Mailbox) (w q : List Waiting) (s : State) : State :=
  { s with now := n, host := { s.host with mbox := mb }, mgmt := { s.mgmt with waiting := w, fabricQueue := q } }

/-- What reads neither the clock nor the mailboxes nor the waiting requests does not see that a request has been taken up. -/
theorem taken_eq {α : Type} (F : State → α) (hF : ∀ s n mb w q, F (retake n mb w q s) = F s) (op : Nat) (t : Time)
    (rq : Request) (s : State) : F (taken op t rq s) = F s := by
  obtain ⟨mb, w, q, e⟩ := taken_form op t rq s
  rw [e]
  exact hF ..

/-- What reads neither the mailboxes nor the waiting requests sees the clock only. -/
theorem taken_eq_tick {α : Type} (F : State → α) (hF : ∀ s mb w q, F (retake s.now mb w q s) = F s) (op : Nat) (t : Time)
    (rq : Request) (s : State) : F (taken op t rq s) = F (tick t s) := by
  obtain ⟨mb, w, q, e⟩ := taken_form op t rq s
  rw [e]
  exact hF (tick t s) mb w q

/-- Steps that see neither the clock nor the mailboxes nor the waiting requests, one after the other. -/
theorem foldl_retake {α : Type} (l : List α) (g : State → α → State)
    (h : ∀ s x n mb w q, g (retake n mb w q s) x = retake n mb w q (g s x)) (n : Time) (mb : List Mailbox)
    (w q : List Waiting) (s : State) : l.foldl g (retake n mb w q s) = retake n mb w q (l.foldl g s) := by
  induction l generalizing s with
  | nil => rfl
  | cons x l ih => rw [List.foldl_cons, h, ih, List.foldl_cons]

/-- What such steps make of the data acquisition. -/
theorem foldl_taken_daq {α : Type} (l : List α) (g : State → α → State)
    (h : ∀ s x n mb w q, g (retake n mb w q s) x = retake n mb w q (g s x)) (op : Nat) (t : Time) (rq : Request)
    (s : State) : (l.foldl g (taken op t rq s)).daq = (l.foldl g s).daq :=
  taken_eq (fun x => (l.foldl g x).daq) (fun s n mb w q => congrArg (·.daq) (foldl_retake l g h n mb w q s)) op t rq s

section
variable {op : Nat} {t : Time} {rq : Request} {s : State}

@[simp] theorem taken_now : (taken op t rq s).now = max s.now t := taken_eq_tick (·.now) (fun _ _ _ _ => rfl) ..
@[simp] theorem taken_free : (taken op t rq s).free = s.free := taken_eq (·.free) (fun _ _ _ _ _ => rfl) ..
@[simp] theorem taken_islands : (taken op t rq s).islands = s.islands := taken_eq (·.islands) (fun _ _ _ _ _ => rfl) ..
@[simp] theorem taken_time : (taken op t rq s).time = s.time := taken_eq (·.time) (fun _ _ _ _ _ => rfl) ..
@[simp] theorem taken_tact : (taken op t rq s).tact = s.tact := taken_eq (·.tact) (fun _ _ _ _ _ => rfl) ..
@[simp] theorem taken_daq : (taken op t rq s).daq = s.daq := taken_eq (·.daq) (fun _ _ _ _ _ => rfl) ..
@[simp] theorem taken_pwr : (taken op t rq s).pwr = s.pwr := taken_eq (·.pwr) (fun _ _ _ _ _ => rfl) ..
@[simp] theorem taken_clk : (taken op t rq s).clk = s.clk := taken_eq (·.clk) (fun _ _ _ _ _ => rfl) ..
@[simp] theorem taken_therm : (taken op t rq s).therm = s.therm := taken_eq (·.therm) (fun _ _ _ _ _ => rfl) ..
@[simp] theorem taken_cfg : (taken op t rq s).cfg = s.cfg := taken_eq (·.cfg) (fun _ _ _ _ _ => rfl) ..
@[simp] theorem taken_line : (taken op t rq s).line = s.line := taken_eq (·.line) (fun _ _ _ _ _ => rfl) ..
@[simp] theorem taken_fab : (taken op t rq s).fab = s.fab := taken_eq (·.fab) (fun _ _ _ _ _ => rfl) ..
@[simp] theorem taken_eth : (taken op t rq s).eth = s.eth := taken_eq (·.eth) (fun _ _ _ _ _ => rfl) ..
@[simp] theorem taken_basin : (taken op t rq s).basin = s.basin := taken_eq (·.basin) (fun _ _ _ _ _ => rfl) ..
@[simp] theorem taken_oper : (taken op t rq s).oper = s.oper := taken_eq (·.oper) (fun _ _ _ _ _ => rfl) ..
@[simp] theorem taken_mems : (taken op t rq s).mems = s.mems := taken_eq (·.mems) (fun _ _ _ _ _ => rfl) ..
@[simp] theorem taken_repairQueue : (taken op t rq s).repairQueue = s.repairQueue :=
  taken_eq (·.repairQueue) (fun _ _ _ _ _ => rfl) ..
@[simp] theorem taken_fuseShadow : (taken op t rq s).fuseShadow = s.fuseShadow :=
  taken_eq (·.fuseShadow) (fun _ _ _ _ _ => rfl) ..
@[simp] theorem taken_diag : (taken op t rq s).diag = s.diag := taken_eq (·.diag) (fun _ _ _ _ _ => rfl) ..
@[simp] theorem taken_mgmt_run : (taken op t rq s).mgmt.run = s.mgmt.run := taken_eq (·.mgmt.run) (fun _ _ _ _ _ => rfl) ..

@[simp] theorem isUp_taken (i : Island) : isUp (taken op t rq s) i = isUp s i := taken_eq (isUp · i) (fun _ _ _ _ _ => rfl) ..
@[simp] theorem isHeld_taken (r : Resource) : isHeld (taken op t rq s) r = isHeld s r :=
  taken_eq (isHeld · r) (fun _ _ _ _ _ => rfl) ..
@[simp] theorem heldChans_taken (cs : List Nat) : heldChans (taken op t rq s) cs = heldChans s cs :=
  taken_eq (heldChans · cs) (fun _ _ _ _ _ => rfl) ..
@[simp] theorem chanOf_taken (c : Nat) : chanOf (taken op t rq s) c = chanOf s c :=
  taken_eq (chanOf · c) (fun _ _ _ _ _ => rfl) ..
@[simp] theorem genOf_taken (n : Nat) : genOf (taken op t rq s) n = genOf s n := taken_eq (genOf · n) (fun _ _ _ _ _ => rfl) ..
@[simp] theorem groupOf_taken (g : Nat) : groupOf (taken op t rq s) g = groupOf s g :=
  taken_eq (groupOf · g) (fun _ _ _ _ _ => rfl) ..
@[simp] theorem addrOf_taken (a : Nat) : addrOf (taken op t rq s) a = addrOf s a :=
  taken_eq (addrOf · a) (fun _ _ _ _ _ => rfl) ..
@[simp] theorem woven_taken (c : Nat) : woven (taken op t rq s) c = woven s c := taken_eq (woven · c) (fun _ _ _ _ _ => rfl) ..
@[simp] theorem snap_taken : snap (taken op t rq s) = snap (tick t s) := taken_eq_tick snap (fun _ _ _ _ => rfl) ..

end

/-! ### The end of a command (R338, R358) -/

theorem Unchanged.mboxes {ps : List Part} {s u : State} (h : Unchanged ps s u) (hm : .mailboxes ∉ ps) :
    u.host.mbox = s.host.mbox :=
  h .mailboxes hm

/-- What the own part of a command may change, besides the parts that its statement names. -/
def ownParts (parts : List Part) : List Part := parts ++ (signalling ++ [.commands, .frames, .journal])

@[simp] theorem mem_ownParts (parts : List Part) (p : Part) :
    p ∈ ownParts parts ↔ p ∈ parts ∨ p ∈ signalling ∨ p = .commands ∨ p = .frames ∨ p = .journal := by
  simp [ownParts]

theorem ownParts_answering {parts : List Part} {s u : State} (h : Unchanged (ownParts parts) s u) :
    Unchanged (parts ++ answering) s u := by
  refine h.mono fun p hp => ?_
  simp only [mem_ownParts, List.mem_append, mem_answering] at hp ⊢
  tauto

section
variable {i : Instr} {op lo hi : Nat} {lenOk : Nat → Bool} {rq : Request} {words : List Word} {parts : List Part} {t : Time}
  {s : State} {post : State → Prop} {own : Request → State → Reply} {u : State} {n : Nat}

/-- A command under `runs` whose own part answers `OK` completes, and leaves what its own part leaves. -/
theorem completes_own (h : runs op lo hi t rq s = true) (he : exec i s = command op lenOk own t rq s)
    (hl : ∀ n, lo ≤ n → n ≤ hi → lenOk n = true) (ho : own rq (taken op t rq s) = okaySteps (n + 1) words u)
    (hk : Rest (ownParts parts) false u = Rest (ownParts parts) false (taken op t rq s)) (hm : .mailboxes ∉ ownParts parts)
    (hp : post (settle op rq (okaySteps (n + 1) words u))) : completes i op rq words parts s post :=
  completes_command he h hl ho (ownParts_answering (.of_rest hk))
    (congrArg List.length ((Unchanged.of_rest hk).mboxes hm)) hp

/-- A long command under `runs` whose own part answers `ACCEPTED` begins. -/
theorem begins_own {holds : List Resource} (h : runs op lo hi t rq s = true) (he : exec i s = command op lenOk own t rq s)
    (hl : ∀ n, lo ≤ n → n ≤ hi → lenOk n = true) (ho : own rq (taken op t rq s) = accepted n holds [] u)
    (hk : Rest (ownParts parts) false u = Rest (ownParts parts) false (taken op t rq s)) (hm : .mailboxes ∉ ownParts parts)
    (hp : post (settle op rq (accepted n holds [] u))) : begins i op rq holds parts s post :=
  begins_command he h hl ho (ownParts_answering (.of_rest hk))
    (congrArg List.length ((Unchanged.of_rest hk).mboxes hm)) hp

/-- A command that only reads completes with its words. -/
theorem completes_read (h : runs op lo hi t rq s = true) (he : exec i s = command op lenOk own t rq s)
    (hl : ∀ n, lo ≤ n → n ≤ hi → lenOk n = true) (ho : own rq (taken op t rq s) = okay words (taken op t rq s)) :
    completes i op rq words [] s (fun _ => True) :=
  completes_own (n := 0) h he hl ho rfl (by simp) trivial

end

@[simp] theorem okaySteps_st (n : Nat) (ws : List Word) (s : State) : (okaySteps n ws s).st = s := rfl
@[simp] theorem accepted_st (n : Nat) (hs : List Resource) (ws : List Word) (s : State) : (accepted n hs ws s).st = s := rfl
@[simp] theorem begun_st (n : Nat) (hs : List Resource) (s : State) : (begun n hs s).st = s := rfl

theorem lenIs_between (k : Nat) : ∀ n, k ≤ n → n ≤ k → lenIs k n = true := fun _ => lenIs_of_between
theorem lenIn_between (a b : Nat) : ∀ n, a ≤ n → n ≤ b → lenIn a b n = true := fun _ => lenIn_of_between

/-- Own checks pass: one after the other. -/
theorem pass_cons {b : Bool} {st : BitVec 16} {cs : List (Bool × BitVec 16)} (h : b = false) (hcs : ∀ c ∈ cs, c.1 = false) :
    ∀ c ∈ (b, st) :: cs, c.1 = false :=
  List.forall_mem_cons.mpr ⟨h, hcs⟩

end Sys2Proof.Machine
end

section
/-! The commands of channels, filters, weaves, generators and calibration (chapter 15). -/

set_option maxRecDepth 4000

namespace Sys2Proof.Machine

/-! ### Channels -/

/-- A field that two updates set, one after the other. -/
theorem ite_or_merge {α : Type} (a b : Bool) (x y z : α) :
    (if b || a then (if a then x else y) else z) = if a then x else if b then y else z := by
  cases a <;> cases b <;> rfl

theorem effCfg_chanAccept (up : BitVec 10) (new : ChanCfg) (x : Chan) :
    effCfg (chanAccept up new x) = mergeCfg up new (effCfg x) := by
  unfold chanAccept effCfg
  cases x.pendingCfg with
  | none => rfl
  | some p => simp only [mergeCfg, BitVec.getLsbD_or, ite_or_merge]

section
variable {op : Nat} {t : Time} {rq : Request} {s : State}

@[simp] theorem calHolds_taken (c : Nat) : calHolds (taken op t rq s) c = calHolds s c :=
  taken_eq (calHolds · c) (fun _ _ _ _ _ => rfl) ..

theorem chanStatusWords_taken (c : Nat) : chanStatusWords c (taken op t rq s) = chanStatusWords c (tick t s) :=
  taken_eq_tick (chanStatusWords c) (fun _ _ _ _ => rfl) ..

end

/-- A configuration command of its own, not a record of an image, refuses nothing for itself. -/
theorem and_compl_refused (v w : BitVec 10) : v &&& ~~~(if false = true then w else 0) = v := by
  rw [if_neg Bool.false_ne_true]
  exact BitVec.and_allOnes

/-- Settles O18. -/
theorem channelCommandsComplete : Obligations.ChannelCommandsComplete := by
  intro t rq s q c up wants
  refine ⟨effCfg_chanAccept _ _, ?_, ?_, ?_, ?_, ?_, ?_, ?_⟩
  · intro h honly hzero hgain href hpath hguard hac hrefused hheld
    have hac' : (up 0 && breaksAc (modChan c wants (taken 0x1001 t rq s)) (c / 4)) = false := by
      rw [taken_eq (fun x => breaksAc (modChan c wants x) (c / 4)) (fun _ _ _ _ _ => rfl)]
      simpa using hac
    apply completes_own (n := 0) h rfl (lenIs_between 1)
    · unfold ownChanConfig
      simp only [and_compl_refused]
      refine guardedIn_pass (pass_cons ?_ (pass_cons ?_ (by simp)))
      · simpa [q, c, up, honly, hzero, hgain, href, hpath, hguard, wants] using hac'
      · simpa [q, c, up, hheld] using hrefused
    · simp [modChan]
    · simp
    · simp only [settle_daq, okaySteps_st, q, c, wants]
      split <;> simp [modChan]
  · intro h honly hwoven hheld
    apply completes_own (n := 0) h rfl (lenIs_between 1)
    · unfold ownChanSetInput
      exact guarded_pass (by simp [q, c, honly, hwoven, hheld])
    · simp [modChan]
    · simp
    · simp [modChan, q, c]
  · intro h honly
    apply completes_read h rfl (lenIs_between 1)
    unfold ownChanStatus
    rw [guarded_pass (by simp [q, honly]), snap_taken, chanStatusWords_taken]
  · intro h honly hrelease hsubst hheld
    apply begins_own (n := 3) h rfl (lenIs_between 1)
    · unfold ownChanSubstitute
      refine (guarded_pass ?_).trans (if_pos hrelease)
      simpa [q, c, honly, hrelease, hheld] using or_iff_not_imp_left.mp hsubst
    · simp
    · simp
    · simp [modCal, modGroup, q, c]
  · intro h honly hrelease hfailed hspare hheld
    apply completes_own (n := 0) h rfl (lenIs_between 1)
    · unfold ownChanSubstitute
      refine (guarded_pass ?_).trans (if_neg (by simp [q, hrelease]))
      simp [q, c, honly, hrelease, hfailed, hspare, hheld]
    · simp
    · simp
    · simp [q, c]
  · intro h honly hpos hmax
    apply completes_own (n := 0) h rfl (lenIs_between 1)
    · unfold ownChanConfigBlank
      exact guarded_pass (by simp [q, honly, hpos, hmax])
    · simp
    · simp
    · simp [modBlank, q]
  · intro h honly hpos hmax hwoven hcal hheld hloop
    apply begins_own (n := 2) h rfl (lenIs_between 1)
    · unfold ownExcLoopback
      exact guarded_pass (by simp [q, c, honly, hpos, hmax, hwoven, hcal, hheld, hloop])
    · simp
    · simp
    · simp [modChan, q, c]

end Sys2Proof.Machine
end

section
/-! The commands of filters and records (chapter 15). -/

set_option maxRecDepth 4000

namespace Sys2Proof.Machine

section
variable {op : Nat} {t : Time} {rq : Request} {s : State}

@[simp] theorem acBroken_taken (c : Nat) (f : FiltInst) : acBroken (taken op t rq s) c f = acBroken s c f :=
  taken_eq (acBroken · c f) (fun _ _ _ _ _ => rfl) ..
@[simp] theorem remoteOf_taken (node : BitVec 16) (a : Nat) : remoteOf (taken op t rq s) node a = remoteOf s node a :=
  taken_eq (remoteOf · node a) (fun _ _ _ _ _ => rfl) ..
@[simp] theorem soon_taken : soon (taken op t rq s) = soon (tick t s) := taken_eq_tick soon (fun _ _ _ _ => rfl) ..
@[simp] theorem localOf_taken (b : Nat) : localOf (taken op t rq s) b = localOf (tick t s) b :=
  taken_eq_tick (localOf · b) (fun _ _ _ _ => rfl) ..

theorem filtStatusWords_taken (c : Nat) : filtStatusWords c (taken op t rq s) = filtStatusWords c (tick t s) :=
  taken_eq_tick (filtStatusWords c) (fun _ _ _ _ => rfl) ..

/-- No check that all filter commands share refuses. -/
theorem filtBusy_pass {c : Nat} {cs : List (Bool × BitVec 16)} (hfree : woven s c = false) (hunheld : heldChans s [c] = false)
    (hfade : (chanOf s c).fade = .normal) (hcs : ∀ x ∈ cs, x.1 = false) : ∀ x ∈ filtBusy s c ++ cs, x.1 = false := by
  unfold filtBusy
  exact pass_cons (by simp [hfree, hunheld]) (pass_cons (by simp [hfade]) hcs)

end

theorem modInst_daq (c : Nat) (shadow : Bool) (f : FiltInst → FiltInst) (op : Nat) (t : Time) (rq : Request) (s : State) :
    (modInst c shadow f (taken op t rq s)).daq = (modInst c shadow f s).daq :=
  taken_eq (fun x => (modInst c shadow f x).daq) (fun _ _ _ _ _ => rfl) ..

/-- Whether a group takes a sync depends on its island alone. -/
theorem addSync_retake (g : Nat) (at_ : Time) (n : Time) (mb : List Mailbox) (w q : List Waiting) (s : State) :
    addSync g at_ (retake n mb w q s) = retake n mb w q (addSync g at_ s) := by
  have hup : isUp (retake n mb w q s) (daqIsland g) = isUp s (daqIsland g) := rfl
  unfold addSync
  rw [hup]
  split <;> rfl

/-- Settles O19. -/
theorem filterCommandsComplete : Obligations.FilterCommandsComplete := by
  intro t rq s q c sh up x free unheld
  refine ⟨?_, ?_, ?_, ?_, ?_, ?_, ?_, ?_, ?_, ?_⟩
  · intro h honly hzero hbusy
    apply completes_own (n := 0) h rfl (lenIs_between 1)
    · unfold ownFiltConfig
      refine guardedIn_pass (pass_cons (by simp [q, up, honly, hzero]) (pass_cons ?_ (by simp)))
      simpa [q, c, up, free, unheld] using hbusy
    · simp
    · simp
    · simp [modChan, q, c, up]
      split <;> simp
  · intro h hfree hunheld hfade hstopped honly hbank
    apply completes_own (n := 1) h rfl (lenIn_between 3 79)
    · unfold ownFiltLoadBank
      simp only [hbank]
      refine guardedIn_pass (filtBusy_pass (by simpa using hfree) (by simpa using hunheld) (by simpa using hfade) ?_)
      simpa [q, honly] using hstopped
    · simp
    · simp
    · simp only [settle_daq, okaySteps_st]
      exact modInst_daq ..
  · intro h hfree hunheld hfade hstopped honly hvalid hsel htherm
    apply completes_own (n := 0) h rfl (lenIs_between 1)
    · unfold ownFiltSelectMode
      refine guardedIn_pass (filtBusy_pass (by simpa using hfree) (by simpa using hunheld) (by simpa using hfade) ?_)
      refine pass_cons ?_ (pass_cons ?_ (pass_cons ?_ (by simp)))
      · have hrun : running (instOf (chanOf (taken 0x1203 t rq s) (fld (qword rq 1) 0 6)) (fbit (qword rq 1) 6)) = false := by
          simpa using hstopped
        exact hrun
      · simpa [q, honly, hvalid] using hsel
      · simpa [q] using htherm
    · simp
    · simp
    · simp only [settle_daq, okaySteps_st]
      exact modInst_daq ..
  · intro h hfree hunheld hfade honly hstopped hac htherm
    have hstopped' : running (instOf (chanOf (taken 0x1204 t rq s) (fld (qword rq 1) 0 6)) (fbit (qword rq 1) 6)) = false := by
      simpa using hstopped
    apply completes_own (n := 0) h rfl (lenIs_between 1)
    · unfold ownFiltStart
      simp only [hstopped', Bool.false_eq_true, if_false]
      refine guarded_pass (filtBusy_pass (by simpa using hfree) (by simpa using hunheld) (by simpa using hfade) ?_)
      refine pass_cons ?_ (pass_cons ?_ (by simp))
      · simpa [q, honly] using hac
      · simpa [q] using htherm
    · simp
    · simp
    · simp only [settle_daq, okaySteps_st]
      exact modInst_daq ..
  · intro h hfree hunheld hfade honly
    apply completes_own (n := 0) h rfl (lenIs_between 1)
    · unfold ownFiltStop
      refine guarded_pass (filtBusy_pass (by simpa using hfree) (by simpa using hunheld) (by simpa using hfade) ?_)
      simp [q, honly]
    · simp
    · simp
    · simp only [settle_daq, okaySteps_st, chanOf_taken]
      simp only [q, c, sh, x]
      split
      · exact modInst_daq ..
      · simp
  · intro h hfree hunheld hfade honly hpos hmax hrun hrate hac
    apply completes_own (n := 0) h rfl (lenIs_between 1)
    · unfold ownFiltCrossfade
      refine guarded_pass (filtBusy_pass (by simpa using hfree) (by simpa using hunheld) (by simpa using hfade) ?_)
      refine pass_cons ?_ (by simp)
      simpa [q, honly, Nat.ne_of_gt hpos, hmax] using ⟨⟨hrun, or_iff_not_imp_left.mp hrate⟩, hac⟩
    · simp
    · simp
    · simp [modChan, q, c]
  · intro h honly huntimed
    have hlen : ∀ n, 1 ≤ n → n ≤ 1 → lenIs (if fbit (qword rq 1) 8 then 2 else 1) n = true := by
      rw [if_neg (by simp [show fbit (qword rq 1) 8 = false from huntimed])]
      exact lenIs_between 1
    have huntimed' : fbit (qword rq 1) 8 = false := huntimed
    apply completes_own (n := 0) h rfl hlen
    · unfold ownFiltSync
      simp only [huntimed', Bool.false_and, Bool.or_false, Bool.not_false, if_true]
      rw [if_neg (by simp [show onlyBits (qword rq 1) [(0, 11)] = true from honly])]
      simp only [soon_taken, localOf_taken]
      rfl
    · simp
    · simp
    · simp only [settle_daq, okaySteps_st]
      exact foldl_taken_daq _ _ (fun _ _ _ _ _ _ => addSync_retake ..) ..
  · intro h honly
    apply completes_read h rfl (lenIs_between 1)
    unfold ownFiltStatus
    rw [guarded_pass (by simp [q, honly]), snap_taken, filtStatusWords_taken]
  · intro h honly haddr hlocal hzero hbasin hexport
    have hlocal' : fbit (qword rq 1) 52 = false := hlocal
    apply completes_own (n := 0) h rfl (lenIs_between 1)
    · unfold ownRecSubscribe
      simp only [hlocal', Bool.false_eq_true, if_false]
      refine guardedIn_pass (pass_cons ?_ (by simp))
      have hsub : subBad (taken 0x1501 t rq s) (qword rq 1) (fun i => fbit (qword rq 1) (49 + i)) = false := by
        simp only [subBad, taken_basin, Bool.or_eq_false_iff, Bool.and_eq_false_imp, beq_eq_false_iff_ne, Bool.not_eq_false',
          Bool.and_eq_true, and_imp]
        exact ⟨hbasin, hexport⟩
      simp [q, honly, haddr, hzero, hsub]
    · simp [modAddr]
    · simp
    · simp [modAddr, q]
  · intro h honly haddr node x
    apply completes_read h rfl (lenIs_between 1)
    unfold ownRecStatus
    rw [guarded_pass (by simp [q, honly, haddr])]
    simp [q, x, node]

end Sys2Proof.Machine
end

section
/-! The commands of weaves (chapter 15). -/

set_option maxRecDepth 4000

namespace Sys2Proof.Machine

section
variable {op : Nat} {t : Time} {rq : Request} {s : State}

@[simp] theorem startBad_taken (cs : List Nat) : startBad (taken op t rq s) cs = startBad s cs :=
  taken_eq (startBad · cs) (fun _ _ _ _ _ => rfl) ..
@[simp] theorem startBusy_taken (cs : List Nat) : startBusy (taken op t rq s) cs = startBusy s cs :=
  taken_eq (startBusy · cs) (fun _ _ _ _ _ => rfl) ..
@[simp] theorem tbAt_taken (at_ : Time) : tbAt (taken op t rq s) at_ = tbAt s at_ :=
  taken_eq (tbAt · at_) (fun _ _ _ _ _ => rfl) ..

end

/-- An update of one element depends on what that element is. -/
theorem modify_congr {α : Type} {l : List α} {i : Nat} {f g : α → α} (h : ∀ x, l[i]? = some x → f x = g x) :
    l.modify i f = l.modify i g := by
  apply List.ext_getElem?
  intro j
  rw [List.getElem?_modify, List.getElem?_modify]
  cases hj : l[j]? with
  | none => rfl
  | some x =>
    by_cases hij : i = j
    · simp [hij, h x (hij ▸ hj)]
    · simp [hij]

/-- An update of a channel's weave depends on what that weave is. -/
theorem modWeave_congr {c : Nat} {f g : WeaveSt → WeaveSt} {s : State} (h : f (chanOf s c).weave = g (chanOf s c).weave) :
    modWeave c f s = modWeave c g s := by
  have hw : s.daq.chans.modify c (fun x => { x with weave := f x.weave }) =
      s.daq.chans.modify c (fun x => { x with weave := g x.weave }) := by
    refine modify_congr fun x hx => ?_
    rw [chanOf, List.getD_eq_getElem?_getD, hx] at h
    exact congrArg (fun w => { x with weave := w }) h
  simp only [modWeave, modChan, modDaq, hw]

/-- Arming a group of channels sees the channels alone. -/
theorem forChans_modWeave_daq (cs : List Nat) (f : Nat → WeaveSt → WeaveSt) (op : Nat) (t : Time) (rq : Request) (s : State) :
    (forChans cs (fun c => modWeave c (f c)) (taken op t rq s)).daq = (forChans cs (fun c => modWeave c (f c)) s).daq :=
  foldl_taken_daq cs (fun acc c => modWeave c (f c) acc) (fun _ _ _ _ _ _ => rfl) op t rq s

/-- Settles O20. -/
theorem weaveCommandsComplete : Obligations.WeaveCommandsComplete := by
  intro t rq s q c cs w startable
  have hlen : ∀ {k : Nat}, fld q 64 2 = k → k ≠ 1 →
      ∀ n, 1 ≤ n → n ≤ 1 → lenIs (if fld (qword rq 1) 64 2 = 1 then 2 else 1) n = true := by
    intro k hk hne
    rw [if_neg (fun e => hne (hk.symm.trans e))]
    exact lenIs_between 1
  refine ⟨?_, ?_, ?_, ?_, ?_⟩
  · intro h hnotRunning hnotArmed hheld honly hcheck
    apply completes_own (n := 0) h rfl (lenIn_between 2 66)
    · unfold ownWeaveLoad
      simp only [chanOf_taken, genOf_taken]
      rw [if_neg, if_neg (by simpa using honly)]
      · split
        · rename_i st hst
          exact absurd (hst.symm.trans hcheck) (by simp)
        · rfl
      · simpa using ⟨⟨hnotRunning, hnotArmed⟩, hheld⟩
    · simp [modWeave, modChan]
    · simp
    · simp only [settle_daq, okaySteps_st]
      refine (congrArg State.daq (modWeave_congr ?_)).trans (taken_eq (fun x => (modWeave c (fun w =>
        { w with state := .loaded, image := some (weaveOf (rq.payload.drop 1)) }) x).daq) (fun _ _ _ _ _ => rfl) ..)
      rw [chanOf_taken, if_neg (by simpa using ⟨hnotRunning, hnotArmed⟩)]
  · intro h hstart htrigger
    obtain ⟨honly, hbad, hbusy, hheld⟩ := hstart
    apply completes_own (n := 0) h rfl (hlen htrigger (by decide))
    · unfold ownWeaveStart
      simp only [show fld (qword rq 1) 64 2 = 0 from htrigger]
      rw [if_neg (by simpa using ⟨honly, hbad⟩), if_neg (by simpa using ⟨hbusy, hheld⟩), soon_taken, localOf_taken]
      rfl
    · simp [modWeave, modChan]
    · simp
    · simp only [settle_daq, okaySteps_st]
      exact forChans_modWeave_daq ..
  · intro h hstart htrigger
    obtain ⟨honly, hbad, hbusy, hheld⟩ := hstart
    apply completes_own (n := 0) h rfl (hlen htrigger (by decide))
    · unfold ownWeaveStart
      simp only [show fld (qword rq 1) 64 2 = 2 from htrigger]
      rw [if_neg (by simpa using ⟨honly, hbad⟩), if_neg (by simpa using ⟨hbusy, hheld⟩)]
      rfl
    · simp [modWeave, modChan]
    · simp
    · simp only [settle_daq, okaySteps_st]
      exact forChans_modWeave_daq ..
  · intro h honly hmode harmed hheld
    apply completes_own (n := 0) h rfl (lenIs_between 1)
    · unfold ownWeaveStop
      rw [if_neg (by simpa using ⟨honly, hmode⟩), if_neg (by simpa using ⟨harmed, hheld⟩)]
      rfl
    · simp
    · simp
    · simp [q, cs]
  · intro h honly
    apply completes_read h rfl (lenIs_between 1)
    unfold ownWeaveStatus
    simp only []
    rw [if_neg (by simpa using honly)]
    simp [w, c, q] <;> rfl

end Sys2Proof.Machine
end

section
/-! The commands of generators (chapter 15). -/

set_option maxRecDepth 4000

namespace Sys2Proof.Machine

section
variable {op : Nat} {t : Time} {rq : Request} {s : State}

@[simp] theorem weaveOwned_taken (n : Nat) : weaveOwned (taken op t rq s) n = weaveOwned s n :=
  taken_eq (weaveOwned · n) (fun _ _ _ _ _ => rfl) ..
@[simp] theorem leadChan_taken (n : Nat) : leadChan (taken op t rq s) n = leadChan s n :=
  taken_eq (leadChan · n) (fun _ _ _ _ _ => rfl) ..

theorem excStatusWords_taken (n : Nat) : excStatusWords n (taken op t rq s) = excStatusWords n (tick t s) :=
  taken_eq_tick (excStatusWords n) (fun _ _ _ _ => rfl) ..

end

/-- Settles O21. -/
theorem generatorCommandsComplete : Obligations.GeneratorCommandsComplete := by
  intro t rq s q n up new s1
  refine ⟨?_, ?_⟩
  · intro h honly hzero hrange hac howned hheld hfields hlead
    have hcond : acCond (modGen n (fun g => { g with pending := some new }) (taken 0x1101 t rq s)) n = acCond s1 n :=
      taken_eq (fun x => acCond (modGen n (fun g => { g with pending := some new }) x) n) (fun _ _ _ _ _ => rfl) ..
    have hlead' : leadChan (modGen n (fun g => { g with pending := some new }) (taken 0x1101 t rq s)) n = leadChan s n :=
      leadChan_taken (op := 0x1101) (rq := rq) n
    have hac' : (new.mode == .ac && !acCond (modGen n (fun g => { g with pending := some new }) (taken 0x1101 t rq s)) n) =
        false := by
      rw [hcond]
      simpa using fun e => (hac e).1
    have hwoven : (new.mode == .ac && (fedBy n).any (woven (taken 0x1101 t rq s))) = false := by
      simpa using fun e => (hac e).2
    apply completes_own (n := 0) h rfl (lenIs_between 1)
    · unfold ownExcConfig
      simp only [genOf_taken, Bool.false_and, Bool.false_eq_true, if_false, Bool.not_false, Bool.and_true]
      refine (guardedIn_pass (pass_cons ?_ (pass_cons ?_ (by simp)))).trans ((if_neg ?_).trans ?_)
      · simp only [Bool.or_eq_false_iff]
        exact ⟨⟨⟨⟨by simpa using honly, by simpa using hzero⟩, hrange⟩, hac'⟩, hwoven⟩
      · simpa using ⟨howned, hheld⟩
      · exact fun e => hfields e.1
      · rw [if_neg]
        · rfl
        · intro hnone
          rw [hlead', Option.isNone_iff_eq_none] at hnone
          simp [hnone] at hlead
    · simp
    · simp
    · simp [modGen, s1]
      rfl
  · intro h honly
    apply completes_read h rfl (lenIs_between 1)
    unfold ownExcStatus
    rw [guarded_pass (by simp [q, honly]), snap_taken, excStatusWords_taken]

end Sys2Proof.Machine
end

section
/-! The commands of calibration (chapter 15). -/

set_option maxRecDepth 4000

namespace Sys2Proof.Machine

section
variable {op : Nat} {t : Time} {rq : Request} {s : State}

@[simp] theorem settle_nv_cal (op : Nat) (rq : Request) (r : Reply) : (settle op rq r).nv.cal = r.st.nv.cal := by
  rw [settle_journal]

@[simp] theorem spareServes_taken (g : Nat) : spareServes (taken op t rq s) g = spareServes s g :=
  taken_eq (spareServes · g) (fun _ _ _ _ _ => rfl) ..
@[simp] theorem inSlot_taken (conv : Nat) : inSlot (taken op t rq s) conv = inSlot s conv :=
  taken_eq (inSlot · conv) (fun _ _ _ _ _ => rfl) ..
@[simp] theorem historyOf_taken (conv g : Nat) : historyOf (taken op t rq s) conv g = historyOf s conv g :=
  taken_eq (historyOf · conv g) (fun _ _ _ _ _ => rfl) ..
@[simp] theorem coefFor_taken (conv g : Nat) : coefFor (taken op t rq s) conv g = coefFor s conv g :=
  taken_eq (coefFor · conv g) (fun _ _ _ _ _ => rfl) ..

end

/-! ### Calibration sets in the store (R165, R440) -/

theorem storedSet_calAppend (r : CalRegion) (conv g : Nat) (k : CoefSet) :
    storedSet (calAppend conv [(g, k)] r) conv g = some k := by
  simp [storedSet, calAppend, calRecValid, nvValid_nvCommit]

theorem foldl_modCalNv_daq {α : Type} (l : List α) (f : α → CalRegion → CalRegion) (s : State) :
    (l.foldl (fun acc c => modCalNv (f c) acc) s).daq = s.daq := by
  induction l generalizing s with
  | nil => rfl
  | cons x l ih => exact ih _

theorem foldl_modCalNv_cal {α : Type} (l : List α) (f : α → CalRegion → CalRegion) (s : State) :
    (l.foldl (fun acc c => modCalNv (f c) acc) s).nv.cal = l.foldl (fun r c => f c r) s.nv.cal := by
  induction l generalizing s with
  | nil => rfl
  | cons x l ih => exact ih _

/-- Settles O22. -/
theorem calibrationCommandsComplete : Obligations.CalibrationCommandsComplete := by
  intro t rq s readable q c up conv g cs convs k all settings
  refine ⟨?_, ?_, ?_, ?_, ?_, ?_⟩
  · intro h honly hcycle hperiod hincluded hoverlap hheld
    apply completes_own (n := 0) h rfl (lenIs_between 1)
    · unfold ownCalConfig
      rw [if_neg, if_neg (by simpa using hheld)]
      · rfl
      · have hperiod' : (!up 1 && fld q 7 12 != 0) = false ∧
            (up 1 && (decide (fld q 7 12 < 80) || decide (3600 < fld q 7 12))) = false := by
          cases hu : up 1 <;> simpa [hu] using hperiod
        have hoverlap' : (!up 3 && fld q 20 16 != 0) = false ∧ (up 3 && decide (fld q 20 16 < 100)) = false := by
          cases hu : up 3 <;> simpa [hu] using hoverlap
        simp only [Bool.not_eq_true, Bool.or_eq_false_iff]
        exact ⟨⟨⟨⟨⟨⟨by simpa using honly, by simpa using hcycle⟩, hperiod'.1⟩, by simpa using hincluded⟩, hoverlap'.1⟩,
          hperiod'.2⟩, hoverlap'.2⟩
    · split <;> simp
    · simp
    · simp only [settle_daq, okaySteps_st, modDaq, taken_daq, q, up]
      split <;> rfl
  · intro h honly hserves hheld
    apply completes_own (n := 0) h rfl (lenIs_between 1)
    · unfold ownCalStart
      rw [if_neg (by simpa using honly), if_neg (by simpa using hserves), if_neg (by simpa using hheld)]
      rfl
    · simp
    · simp
    · simp only [settle_daq, okaySteps_st]
      exact foldl_taken_daq _ _ (fun _ _ _ _ _ _ => rfl) ..
  · intro h honly
    apply completes_own (n := 0) h rfl (lenIs_between 1)
    · unfold ownCalStop
      rw [if_neg (by simpa using honly)]
      rfl
    · refine foldl_rest _ _ _ fun a g => ?_
      simp only []
      split <;> simp
    · simp
    · simp [q]
  · intro h honly hconv hg hwhich hhist hreadable
    apply completes_read h rfl (lenIs_between 1)
    unfold ownCalRead
    refine (if_neg ?_).trans ((if_neg (by simpa using hreadable)).trans ?_)
    · simp only [Bool.not_eq_true, Bool.or_eq_false_iff]
      exact ⟨⟨⟨⟨by simpa using honly, by simpa using hconv⟩, by simpa using hg⟩, by simpa using hwhich⟩, by simpa using hhist⟩
    · simp only [snap_taken, coefFor_taken, historyOf_taken] <;> rfl
  · intro h honly hconv hg hmin hmax hz1 hz2 hslot hheld
    apply completes_own (n := 1) h rfl (lenIs_between 3)
    · unfold ownCalWrite
      refine (if_neg ?_).trans ((if_neg (by simpa using ⟨hslot, hheld⟩)).trans rfl)
      simp only [Bool.not_eq_true, Bool.or_eq_false_iff]
      exact ⟨⟨⟨⟨⟨⟨by simpa using honly, by simpa using hconv⟩, by simpa using hg⟩, by simpa using hmin⟩, by simpa using hmax⟩,
        by simpa using hz1⟩, by simpa using hz2⟩
    · simp
    · simp
    · refine ⟨?_, ?_, ?_⟩
      · simp [modCalNv, k, conv, g, q]
      · simp [modCalNv, k, conv, g, q]
      · simp only [settle_nv_cal, okaySteps_st]
        exact storedSet_calAppend ..
  · intro h honly hslot hheld
    apply completes_own (n := 1) h rfl (lenIs_between 1)
    · unfold ownCalRestoreFactory
      rw [if_neg (by simpa using honly), if_neg (by simpa using ⟨hslot, hheld⟩)]
    · simp
    · simp
    · refine ⟨?_, ?_⟩
      · simp only [settle_daq, okaySteps_st, foldl_modCalNv_daq]
        simp [all, convs, q]
      · simp only [settle_nv_cal, okaySteps_st, foldl_modCalNv_cal, modDaq_nv, taken_nv, convs, q]

end Sys2Proof.Machine
end

section
/-! `TIME.GET_TIME` tells the state of the timebase at the instant of the command (R197, R391), not the state that held when
the model's clock last moved. -/

namespace Sys2Proof.Machine

/-- A node whose holdover is good for one second more. -/
def lateHoldover : State :=
  { State.reset with
    islands := State.reset.islands.map (fun x => { x with phase := .run })
    mgmt := { State.reset.mgmt with run := true }
    clk := { State.reset.clk with tbRef := 0 }
    time := { State.reset.time with
      everLocked := true, mode := .holdover, holdoverQualified := true, holdoverExpired := false, boundS := 1
      holdoverSince := 0 } }

/-- A request of the host without payload. -/
def bareRequest : Request :=
  { agent := .host, mailbox := 0, srcNode := 0, seq := 7, bell := 7, arrival := 1, len := 0, eventOnDone := false
    noMsix := false, remote := none, payload := [], readable := true }

/-- `TIME.GET_TIME` answers with the state of the timebase at its own instant. -/
theorem timeGetTime_answers {t : Time} {rq : Request} {s u : State} (h : runs 0x2001 0 0 t rq s = true)
    (hb : byMailbox rq = true) (hm : hasMailbox rq s = true) (he : exec (.timeGetTime t rq) s = .next u) :
    answered rq stOk [snap (tick t s), mkWord (utcFields (tick t s))] u := by
  have hcomplete : completes (.timeGetTime t rq) 0x2001 rq [snap (tick t s), mkWord (utcFields (tick t s))] [] s
      (fun _ => True) := by
    apply completes_read h rfl (lenIs_between 0)
    simp only [ownTimeGetTime, snap_taken, taken_eq_tick utcFields (fun _ _ _ _ => rfl)]
  obtain ⟨v, hv, -, -, -, ha⟩ := hcomplete
  cases he.symm.trans hv
  exact ha hb hm

/-- A mailbox shows the words of one response. -/
theorem answered_words {rq : Request} {st : BitVec 16} {ws ws' : List Word} {u : State} (h : answered rq st ws u)
    (h' : answered rq st ws' u) : ws = ws' := by
  obtain ⟨-, -, -, -, hlen, hwords⟩ := h
  obtain ⟨-, -, -, -, hlen', hwords'⟩ := h'
  rw [← hwords, ← hwords', ← hlen, ← hlen']

/-- Refutes O23: a node in holdover whose bound passes between the clock's last move and the command's instant answers
UNCERTAIN in `TB_STATE`, where the statement's words are those of the state before, HOLDOVER. -/
theorem not_timeSettingsComplete : ¬ Obligations.TimeSettingsComplete := by
  intro h
  have hruns : runs 0x2001 0 0 (3 * secU) bareRequest lateHoldover = true := by decide +kernel
  have hbox : byMailbox bareRequest = true := by decide
  have hmailbox : hasMailbox bareRequest lateHoldover = true := by decide +kernel
  have hdiffer : mkWord (utcFields (tick (3 * secU) lateHoldover)) ≠ mkWord (utcFields lateHoldover) := by decide +kernel
  obtain ⟨u, hu, -, -, -, hstated⟩ := (h (3 * secU) bareRequest lateHoldover).1 hruns
  have hanswer := timeGetTime_answers hruns hbox hmailbox hu
  have hsame := answered_words hanswer (hstated hbox hmailbox)
  simp only [List.cons.injEq, and_true, true_and] at hsame
  exact hdiffer hsame

end Sys2Proof.Machine
end

section
/-! Steps of the timebase that the host orders (R195, R220, R221), while no action slot is armed. -/

set_option maxRecDepth 4000

namespace Sys2Proof.Machine

theorem now_of_kept {s u : State} (h : u.kept = s.kept) : u.now = s.now := congrArg (·.2.2) h

theorem time_of_rest {ps : List Part} {s u : State} (h : Rest ps false u = Rest ps false s) (hp : .time ∉ ps) :
    u.time = s.time :=
  (Unchanged.of_rest h) .time hp

@[simp] theorem emitNow_time (code argB arg : Nat) (extra : List Word) (s : State) :
    (emitNow code argB arg extra s).time = s.time :=
  emitNow_same code argB arg extra s .time (by decide)

@[simp] theorem autoSync_time (s : State) : (autoSync s).time = s.time :=
  time_of_rest (ps := [.daq]) (autoSync_rest (by simp) s) (by simp)

@[simp] theorem noteLimit_time (s : State) : (noteLimit s).time = s.time := by
  unfold noteLimit
  split <;> simp

/-! ### What only a step changes (R220, R223) -/

/-- The sum of the steps, the epoch and the log. -/
def stepped (s : State) : Int × Nat × List StepEntry := (s.time.stepSum, s.time.epoch, s.time.stepLog)

theorem stepped_of_time {s u : State} (h : u.time = s.time) : stepped u = stepped s := by
  simp [stepped, h]

@[simp] theorem emitNow_stepped (code argB arg : Nat) (extra : List Word) (s : State) :
    stepped (emitNow code argB arg extra s) = stepped s := stepped_of_time (by simp)
@[simp] theorem noteLimit_stepped (s : State) : stepped (noteLimit s) = stepped s := stepped_of_time (by simp)
@[simp] theorem autoSync_stepped (s : State) : stepped (autoSync s) = stepped s := stepped_of_time (by simp)
@[simp] theorem modDom_stepped (d : Nat) (f : Domain → Domain) (s : State) : stepped (modDom d f s) = stepped s := rfl
@[simp] theorem advance_stepped (s : State) : stepped (advance s) = stepped s := rfl

@[simp] theorem noteY_stepped (s : State) : stepped (noteY s) = stepped s := by
  unfold noteY
  simp only []
  repeat' split
  all_goals rfl

@[simp] theorem releaseDom_stepped (s : State) : stepped (releaseDom s) = stepped s := by
  unfold releaseDom
  simp only []
  split <;> simp

@[simp] theorem switchDom_stepped (n : Nat) (s : State) : stepped (switchDom n s) = stepped s := by
  unfold switchDom
  simp only [noteLimit_stepped, noteY_stepped]
  exact releaseDom_stepped s

@[simp] theorem enterFree_stepped (y : Int) (s : State) : stepped (enterFree y s) = stepped s := by
  unfold enterFree
  rw [noteY_stepped]
  exact releaseDom_stepped s

@[simp] theorem enterHoldover_stepped (s : State) : stepped (enterHoldover s) = stepped s := by
  unfold enterHoldover
  simp only [noteY_stepped]
  exact releaseDom_stepped s

@[simp] theorem quietTime_stepped (s : State) : stepped (quietTime s) = stepped s := by
  unfold quietTime
  simp only []
  repeat' split
  all_goals simp

@[simp] theorem chooseDom_stepped (s : State) : stepped (chooseDom s) = stepped s := by
  unfold chooseDom
  simp only []
  repeat' split
  all_goals simp

@[simp] theorem toState_stepped (d : Nat) (new : DomState) (s : State) : stepped (toState d new s) = stepped s := by
  have hset : ∀ x : State, stepped (modTime (fun y => { y with everLocked := true }) x) = stepped x := fun _ => rfl
  unfold toState
  simp only []
  repeat' split
  all_goals simp [hset]

/-! ### A step while no slot is armed -/

/-- No action slot is armed. -/
def unarmed (s : State) : Prop := ∀ i < 64, slotAt s i = none

/-- Steps none of which changes the state. -/
theorem foldl_fixed_of_mem {α β : Type} {l : List β} {g : α → β → α} {a : α} (h : ∀ x ∈ l, g a x = a) :
    l.foldl g a = a := by
  induction l with
  | nil => rfl
  | cons x l ih =>
    rw [List.foldl_cons, h x (by simp)]
    exact ih fun y hy => h y (List.mem_cons_of_mem x hy)

theorem nextDue_unarmed {s : State} (h : unarmed s) : nextDue s = none := by
  unfold nextDue
  rw [foldl_fixed_of_mem, Option.map_none]
  intro i hi
  simp only [h i (List.mem_range.mp hi)]

theorem fireThrough_unarmed {s : State} (h : unarmed s) (n : Nat) (i : Option Nat) : fireThrough n i s = s := by
  cases n with
  | zero => rfl
  | succ n => simp [fireThrough, nextDue_unarmed h]

theorem stepSlots_unarmed {s : State} (h : unarmed s) : stepSlots s = s := by
  unfold stepSlots
  refine foldl_fixed_of_mem fun r _ => foldl_fixed_of_mem fun i hi => ?_
  simp only [h i (List.mem_range.mp hi)]

theorem unarmed_of_rest {ps : List Part} {s u : State} (h : Rest ps false u = Rest ps false s) (hp : .tact ∉ ps)
    (hs : unarmed s) : unarmed u := by
  have e : u.tact = s.tact := (Unchanged.of_rest h) .tact hp
  intro i hi
  rw [slotAt, e]
  exact hs i hi

/-- What a step does to the clock while no slot is armed: it adds its delta, counts the epoch and writes the log (R220). -/
theorem stepBy_unarmed {s : State} (h : unarmed s) (delta : Int) (cause : StepCause) (origin : Option Nat) :
    stepped (stepBy delta cause origin s) = (s.time.stepSum + delta, (s.time.epoch + 1) % 65536,
      ({ epoch := (s.time.epoch + 1) % 65536, before := tbNow s
         after := ((s.now : Int) + (s.time.stepSum + delta)).toNat, cause := cause } :: s.time.stepLog).take 16) ∧
      Rest (ownParts [.daq, .basin, .time]) false (stepBy delta cause origin s) =
        Rest (ownParts [.daq, .basin, .time]) false s := by
  unfold stepBy
  rw [fireThrough_unarmed (s := advance s) h]
  extract_lets x before s1 e s2 s3 s4
  have h3 : Rest (ownParts [.daq, .basin, .time]) false s3 = Rest (ownParts [.daq, .basin, .time]) false s := by
    simp [s3, s2, s1, x]
  have h4 : Rest (ownParts [.daq, .basin, .time]) false s4 = Rest (ownParts [.daq, .basin, .time]) false s := by
    simp only [s4]
    split <;> simp [h3]
  have hstepped : stepped s4 = stepped s2 := by
    simp only [s4]
    split <;> simp [s3]
  have hcut : Rest (ownParts [.daq, .basin, .time]) false (cutMeta s4) = Rest (ownParts [.daq, .basin, .time]) false s := by
    simp [h4]
  rw [stepSlots_unarmed (unarmed_of_rest hcut (by simp) h)]
  exact ⟨hstepped, hcut⟩

section
variable {op : Nat} {t : Time} {rq : Request} {s : State}

@[simp] theorem domOf_taken (d : Nat) : domOf (taken op t rq s) d = domOf s d := taken_eq (domOf · d) (fun _ _ _ _ _ => rfl) ..
@[simp] theorem followsLocked_taken : followsLocked (taken op t rq s) = followsLocked s :=
  taken_eq followsLocked (fun _ _ _ _ _ => rfl) ..
@[simp] theorem tbNow_taken : tbNow (taken op t rq s) = tbNow (tick t s) := taken_eq_tick tbNow (fun _ _ _ _ => rfl) ..

theorem unarmed_taken (h : unarmed s) : unarmed (taken op t rq s) := by
  intro i hi
  rw [slotAt, taken_tact]
  exact h i hi

end

/-- The reading of the timebase, where it is not below zero. -/
theorem tbNow_cast {s : State} (h : 0 ≤ (s.now : Int) + s.time.stepSum) : (tbNow s : Int) = (s.now : Int) + s.time.stepSum :=
  Int.toNat_of_nonneg h

theorem tbNow_settle (op : Nat) (rq : Request) (r : Reply) : tbNow (settle op rq r) = tbNow r.st := by
  simp [tbNow, tbAt]

theorem tbNow_of {s : State} {n : Time} {c : Int} (hn : s.now = n) (hc : s.time.stepSum = c) :
    tbNow s = ((n : Int) + c).toNat := by
  rw [tbNow, tbAt, hn, hc]

/-- Settles O24. -/
theorem timeStepsComplete : Obligations.TimeStepsComplete := by
  intro t rq s q d now hdue harmed hfollow hpos
  have harmed' : ∀ op, unarmed (taken op t rq s) := fun op => unarmed_taken harmed
  have hnow : (tbNow now : Int) = ((max s.now t : Nat) : Int) + s.time.stepSum := tbNow_cast hpos
  have hdue' : ∀ op, stepPending (taken op t rq s) = taken op t rq s := by
    intro op
    unfold stepPending
    rw [taken_time, hdue]
  refine ⟨fun h hform => ?_, fun delta h honly hfaulty hpending hnear hpos' => ?_⟩
  · obtain ⟨hstepped, hrest⟩ := stepBy_unarmed (harmed' 0x200C) ((ofT96 q : Int) - (tbNow now : Int)) .hostSet none
    have hkept := stepBy_kept ((ofT96 q : Int) - (tbNow now : Int)) .hostSet none (taken 0x200C t rq s)
    generalize hx : stepBy ((ofT96 q : Int) - (tbNow now : Int)) .hostSet none (taken 0x200C t rq s) = x
      at hstepped hrest hkept
    simp only [stepped, taken_time, taken_now, tbNow_taken, Prod.mk.injEq] at hstepped
    obtain ⟨hsum, hepoch, hlog⟩ := hstepped
    have hnext : x.now = max s.now t := (now_of_kept hkept).trans taken_now
    have hafter : (((max s.now t : Nat) : Int) + (s.time.stepSum + ((ofT96 q : Int) - (tbNow now : Int)))).toNat =
        ofT96 q := by
      omega
    rw [hafter] at hlog
    apply completes_own (n := 0) (u := x) h rfl (lenIs_between 1)
    · unfold ownTimeSet
      refine (guarded_pass (by simpa using ⟨hform, hfollow⟩)).trans ?_
      simp only [hdue', tbNow_taken]
      exact congrArg (okay []) hx
    · exact hrest
    · simp
    · refine ⟨?_, ?_, ?_⟩
      · rw [tbNow_settle, okaySteps_st, tbNow_of hnext hsum, hafter]
      · rw [settle_time, okaySteps_st, hepoch]
      · rw [settle_time, okaySteps_st, hlog]
        rfl
  · obtain ⟨hstepped, hrest⟩ := stepBy_unarmed (harmed' 0x200D) delta .hostAccept (some d)
    have hkept := stepBy_kept delta .hostAccept (some d) (taken 0x200D t rq s)
    generalize hx : stepBy delta .hostAccept (some d) (taken 0x200D t rq s) = x at hstepped hrest hkept
    have hkept' : (chooseDom (toState d .acquiring x)).kept = (taken 0x200D t rq s).kept :=
      (chooseDom_kept _).trans ((toState_kept ..).trans hkept)
    have hstepped' := ((chooseDom_stepped (toState d .acquiring x)).trans (toState_stepped ..)).trans hstepped
    have hrest' := (chooseDom_rest (by simp) _).trans ((toState_rest (by simp) d .acquiring x).trans hrest)
    generalize hy : chooseDom (toState d .acquiring x) = y at hkept' hstepped' hrest'
    simp only [stepped, taken_time, taken_now, tbNow_taken, Prod.mk.injEq] at hstepped'
    obtain ⟨hsum, hepoch, hlog⟩ := hstepped'
    have hnext : y.now = max s.now t := (now_of_kept hkept').trans taken_now
    apply completes_own (n := 0) (u := y) h rfl (lenIs_between 1)
    · unfold ownTimeStepAccept
      simp only [domOf_taken, show (domOf s (fld (qword rq 1) 0 1)).pendingDelta = some delta from hpending]
      refine (guarded_pass (pass_cons ?_ (by simp))).trans ?_
      · simp only [Bool.or_eq_false_iff]
        exact ⟨⟨⟨by simpa using honly, by simpa using hfollow⟩, by simpa using hfaulty⟩,
          by rw [Bool.not_eq_false', decide_eq_true_eq]; exact hnear⟩
      · simp only [hdue']
        subst hx hy
        rfl
    · exact hrest'
    · simp
    · refine ⟨?_, ?_, ?_⟩
      · rw [tbNow_settle, okaySteps_st, tbNow_of hnext hsum, hnow]
        omega
      · rw [settle_time, okaySteps_st, hepoch]
      · rw [settle_time, okaySteps_st, hlog]
        rfl

end Sys2Proof.Machine
end

section
/-! The commands of timed actions (chapter 15). -/

set_option maxRecDepth 4000

namespace Sys2Proof.Machine

section
variable {op : Nat} {t : Time} {rq : Request} {s : State}

@[simp] theorem slotAt_taken (i : Nat) : slotAt (taken op t rq s) i = slotAt s i := taken_eq (slotAt · i) (fun _ _ _ _ _ => rfl) ..
@[simp] theorem tevAt_taken (n : Nat) : tevAt (taken op t rq s) n = tevAt s n := taken_eq (tevAt · n) (fun _ _ _ _ _ => rfl) ..
@[simp] theorem tcapAt_taken (n : Nat) : tcapAt (taken op t rq s) n = tcapAt s n := taken_eq (tcapAt · n) (fun _ _ _ _ _ => rfl) ..
@[simp] theorem freeSlot_taken : freeSlot (taken op t rq s) = freeSlot s := taken_eq freeSlot (fun _ _ _ _ _ => rfl) ..
@[simp] theorem t96Near_taken (w : Word) : t96Near (taken op t rq s) w = t96Near (tick t s) w :=
  taken_eq_tick (t96Near · w) (fun _ _ _ _ => rfl) ..
theorem nextDue_taken : nextDue (taken op t rq s) = nextDue (tick t s) := taken_eq_tick nextDue (fun _ _ _ _ => rfl) ..
theorem dueTick_taken (a : SlotArm) : dueTick (taken op t rq s) a = dueTick s a :=
  taken_eq (dueTick · a) (fun _ _ _ _ _ => rfl) ..

end

/-- What no slot's firing tick lies before fires nothing (R236). -/
theorem fireBefore_quiet {s : State} (h : ∀ j, nextDue s = some j → ∀ a, slotAt s j = some a → tickOf s.now ≤ dueTick s a)
    (n : Nat) : fireBefore n s = s := by
  cases n with
  | zero => rfl
  | succ n =>
    unfold fireBefore
    split
    · rfl
    · rename_i j hj
      split
      · rfl
      · rename_i a ha
        exact if_neg (Nat.not_lt.mpr (h j hj a ha))

theorem fireBefore_taken_quiet {op : Nat} {t : Time} {rq : Request} {s : State} (h : ∀ j, nextDue (tick t s) = some j →
    ∀ a, slotAt (tick t s) j = some a → tickOf (tick t s).now ≤ dueTick (tick t s) a) (n : Nat) :
    fireBefore n (taken op t rq s) = taken op t rq s := by
  refine fireBefore_quiet (fun j hj a ha => ?_) n
  rw [nextDue_taken] at hj
  rw [slotAt_taken] at ha
  rw [taken_now, dueTick_taken]
  exact h j hj a ha

/-! ### Slots (R229, R235) -/

theorem emit_tact (code argB arg : Nat) (extra : List Word) (tb : Nat) (s : State) :
    (emit code argB arg extra tb s).tact = s.tact :=
  emit_same code argB arg extra tb s .tact (by decide)

theorem armSlot_tact (i : Nat) (p : ArmPlan) (s : State) :
    (armSlot i p s).tact = { s.tact with slots := s.tact.slots.set i (some p.arm) } := by
  unfold armSlot
  simp only []
  split
  · exact emit_tact ..
  · rfl

theorem set_none_of_getD {l : List (Option SlotArm)} {i : Nat} (h : l.getD i none = none) : l.set i none = l := by
  apply List.ext_getElem?
  intro j
  rw [List.getElem?_set]
  split
  · rename_i hij
    subst hij
    split
    · rename_i hlt
      rw [List.getD_eq_getElem?_getD, List.getElem?_eq_getElem hlt, Option.getD_some] at h
      rw [List.getElem?_eq_getElem hlt, h]
    · rename_i hlt
      rw [List.getElem?_eq_none (Nat.le_of_not_lt hlt)]
  · rfl

theorem releaseArmed_tact (cs : List Nat) (s : State) : (releaseArmed cs s).tact = s.tact :=
  (Unchanged.of_rest (releaseArmed_rest (ps := [.daq]) (by simp) cs s)) .tact (by simp)

/-- What cancelling a slot answers and leaves, once its own checks pass (R236). -/
theorem ownTactCancel_passed {rq : Request} {s : State} (honly : onlyBits (qword rq 1) [(0, 6)] = true)
    (hfree : fld (qword rq 1) 0 6 ≠ 63) : ∃ words u, ownTactCancel rq s = okay words u ∧
      u.tact = { (fireBefore 256 s).tact with slots := (fireBefore 256 s).tact.slots.set (fld (qword rq 1) 0 6) none } := by
  have hpass : ∀ go, guarded [(!onlyBits (qword rq 1) [(0, 6)], stBadParam), (fld (qword rq 1) 0 6 == 63, stDenied)] s go = go () :=
    fun go => guarded_pass (by simpa using ⟨honly, hfree⟩)
  unfold ownTactCancel
  simp only [hpass]
  generalize fireBefore 256 s = x
  split
  · rename_i hnone
    refine ⟨_, _, rfl, ?_⟩
    rw [set_none_of_getD hnone]
  · rename_i a ha
    refine ⟨_, _, rfl, ?_⟩
    split
    · exact releaseArmed_tact ..
    · rfl

/-- Settles O25. -/
theorem actionCommandsComplete : Obligations.ActionCommandsComplete := by
  intro t rq s q now slots quiet
  refine ⟨?_, ?_, ?_, ?_, ?_, ?_, ?_, ?_, ?_, ?_⟩
  · intro a i p h harm hnear hfree hplan
    apply completes_own (n := 0) h rfl (lenIs_between 3)
    · unfold ownTactArm
      simp only [freeSlot_taken, hfree, tbNow_taken, show armPlan a (tbNow (tick t s)) = some p from hplan, taken_time,
        show slotOf (qword rq 1) (qword rq 2) (qword rq 3) rq.agent = some a from harm]
      exact guarded_pass (by simpa using hnear)
    · simp
    · simp
    · simp only [settle_tact, okaySteps_st, Option.getD_some, armSlot_tact, taken_tact]
      rfl
  · intro h honly hfree hquiet hnone
    apply completes_read h rfl (lenIs_between 1)
    unfold ownTactCancel
    rw [guarded_pass (by simpa using ⟨honly, hfree⟩)]
    simp only [fireBefore_taken_quiet hquiet, slotAt_taken, show slotAt s (fld (qword rq 1) 0 6) = none from hnone]
  · intro a h honly hfree hquiet hsome
    apply completes_own (n := 0) h rfl (lenIs_between 1)
    · unfold ownTactCancel
      rw [guarded_pass (by simpa using ⟨honly, hfree⟩)]
      simp only [fireBefore_taken_quiet hquiet, slotAt_taken, show slotAt s (fld (qword rq 1) 0 6) = some a from hsome]
      rfl
    · split <;> simp
    · simp
    · simp only [settle_tact, okaySteps_st]
      split
      · rw [releaseArmed_tact]
        simp [putSlot, slots, q]
      · simp [putSlot, slots, q]
  · intro h honly hpos hmax hquiet
    apply completes_read h rfl (lenIs_between 1)
    unfold ownTactStatus
    rw [guarded_pass (by simpa using ⟨⟨honly, hpos⟩, hmax⟩), fireBefore_taken_quiet hquiet]
    simp [q, now]
  · intro h honly hfree x
    obtain ⟨words, u, hown, hu⟩ := ownTactCancel_passed (s := taken 0x2102 t rq s) honly hfree
    refine ⟨settle 0x2102 rq (okay words u), ?_, ?_, ?_⟩
    · rw [← hown]
      exact runs_command h (lenIs_between 1)
    · exact settle_journalled 0x2102 rq (okay words u)
    · rw [settle_tact]
      exact hu
  · intro h honly hpos hmax
    obtain ⟨words, hown⟩ : ∃ words, ownTactStatus rq (taken 0x2103 t rq s) =
        okay words (fireBefore 256 (taken 0x2103 t rq s)) := by
      unfold ownTactStatus
      exact ⟨_, guarded_pass (by simpa using ⟨⟨honly, hpos⟩, hmax⟩)⟩
    refine ⟨settle 0x2103 rq (okay words (fireBefore 256 (taken 0x2103 t rq s))), ?_, ?_, ?_⟩
    · rw [← hown]
      exact runs_command h (lenIs_between 1)
    · exact settle_journalled 0x2103 rq (okay words _)
    · exact settle_tact ..
  · intro h honly hkind hd
    apply completes_own (n := 0) h rfl (lenIs_between 1)
    · unfold ownTactConfigPin
      refine guarded_pass (pass_cons ?_ (by simp))
      simp only [Bool.or_eq_false_iff]
      exact ⟨⟨by simpa using honly, by simpa using hkind⟩, decide_eq_false (Nat.not_lt.mpr hd)⟩
    · split <;> simp
    · simp
    · simp only [settle_tact, okaySteps_st, tevAt_taken]
      split <;> simp [modTev, showRest, q]
  · intro h honly hmin hmax hoff
    apply completes_own (n := 0) h rfl (lenIs_between 1)
    · unfold ownTactConfigPps
      refine guarded_pass (pass_cons ?_ (by simp))
      simp only [Bool.or_eq_false_iff]
      exact ⟨⟨⟨by simpa using honly, decide_eq_false (Nat.not_lt.mpr hmin)⟩, decide_eq_false (Nat.not_lt.mpr hmax)⟩,
        decide_eq_false (Nat.not_lt.mpr hoff)⟩
    · simp
    · simp
    · simp [q]
  · intro h honly hd
    apply completes_own (n := 0) h rfl (lenIs_between 1)
    · unfold ownTactConfigCapture
      refine guarded_pass (pass_cons ?_ (by simp))
      simp only [Bool.or_eq_false_iff]
      exact ⟨by simpa using honly, decide_eq_false (Nat.not_lt.mpr hd)⟩
    · simp
    · simp
    · simp [q, modTcap]
  · intro h honly hpos hmax x recs
    apply completes_own (n := 0) h rfl (lenIs_between 1)
    · unfold ownTactReadCapture
      refine (guarded_pass (by simpa using ⟨⟨honly, hpos⟩, hmax⟩)).trans ?_
      simp only [snap_taken, tcapAt_taken]
      rfl
    · simp
    · simp
    · simp [q, modTcap]

end Sys2Proof.Machine
end

section
/-! Events: how a row that goes on meets `happens`. HOSTIF: what the host's accesses do while the island runs, and the DMA
channels (R334 to R336, R346 to R350); the basin's words (R304). -/

set_option maxRecDepth 4000

namespace Sys2Proof.Machine

/-- An event whose next state is known happens. -/
theorem happens_next {i : Instr} {parts : List Part} {s u : State} {post : State → Prop} (he : exec i s = .next u)
    (hk : Rest (parts ++ signalling) false u = Rest (parts ++ signalling) false s) (hp : post u) :
    happens i parts s post :=
  ⟨u, he, hp, .of_rest hk⟩

@[simp] theorem isUp_tick (t : Time) (s : State) (i : Island) : isUp (tick t s) i = isUp s i := rfl

/-! ### Words of the basin -/

/-- The digits of `x` to the base 256, from digit `k` on, add up to `x` without its lower digits. -/
theorem foldr_digits (x k n : Nat) :
    (List.range' k n).foldr (fun i acc => x / 256 ^ i % 256 + 256 * acc) 0 = x / 256 ^ k % 256 ^ n := by
  induction n generalizing k with
  | zero => simp [Nat.mod_one]
  | succ n ih =>
    rw [List.range'_succ, List.foldr_cons, ih, Nat.pow_succ 256 k, ← Nat.div_div_eq_div_mul, Nat.pow_succ', Nat.mod_mul]

/-- After a fold of writes each written byte reads back. -/
theorem readByte_writeBytes {m : List Host.Cell} (n i : Nat) (w : Word) (l : List Nat) (h : memWf m = true) :
    readByte (l.foldl (fun acc i => writeByte acc (16 * n + i) (byteOf w i)) m) (16 * n + i) =
      if i ∈ l then byteOf w i else readByte m (16 * n + i) := by
  induction l generalizing m with
  | nil => simp
  | cons j l ih =>
    rw [List.foldl_cons, ih (writeByte_wf _ h (Nat.zero_le _)), readByte_writeByte _ _ _ h]
    by_cases hj : i = j
    · simp [hj]
    · simp [hj]

theorem readByte_writeWord_same {m : List Host.Cell} (n i : Nat) (w : Word) (h : memWf m = true) (hi : i < 16) :
    readByte (writeWord m n w) (16 * n + i) = byteOf w i :=
  (readByte_writeBytes n i w (List.range 16) h).trans (if_pos (List.mem_range.mpr hi))

theorem readWord_congr {m m' : List Host.Cell} (n : Nat)
    (h : ∀ i < 16, readByte m (16 * n + i) = readByte m' (16 * n + i)) : readWord m n = readWord m' n := by
  refine congrArg (BitVec.ofNat 128) (List.foldr_ext _ _ _ fun i hi acc => ?_)
  rw [h i (List.mem_range.mp hi)]

theorem readWord_writeWord_same {m : List Host.Cell} (n : Nat) (w : Word) (h : memWf m = true) :
    readWord (writeWord m n w) n = w := by
  have hdigits : (List.range 16).foldr (fun i acc => (readByte (writeWord m n w) (16 * n + i)).toNat + 256 * acc) 0 =
      (List.range' 0 16).foldr (fun i acc => w.toNat / 256 ^ i % 256 + 256 * acc) 0 := by
    rw [List.range_eq_range']
    refine List.foldr_ext _ _ _ fun i hi acc => ?_
    rw [readByte_writeWord_same n i w h (by simpa using hi), byteOf, BitVec.toNat_ofNat]
  apply BitVec.eq_of_toNat_eq
  rw [readWord, hdigits, foldr_digits, BitVec.toNat_ofNat]
  have hw := w.isLt
  omega

/-- Settles O16. -/
theorem basinWordsReadBack : Obligations.BasinWordsReadBack := by
  intro m n w h
  refine ⟨readWord_writeWord_same n w h, writeWord_wf n w h, fun a ha => readByte_writeWord n a w h ha, fun k hk => ?_⟩
  exact readWord_congr k fun i hi => readByte_writeWord n _ w h (by omega)

/-! ### Accesses of the host (R334 to R336) -/

section
variable {t : Time} {s : State}

theorem dmaDo_up (h : isUp s .hostif = true) (f : State → State) : dmaDo t f s = .next (f (tick t s)) := by
  simp [dmaDo, h]

theorem exec_doorbell_up (h : isUp s .hostif = true) (n : Fin 16) (v : BitVec 32) {spi : Bool} (hspi : spi → n.val = 15) :
    exec (.doorbell t n v spi) s = .next (ring n.val v spi (tick t s)) := by
  have hdone : exec (.doorbell t n v spi) s = hostDo t (fun x =>
      if spi && n.val != 15 then modHost (fun h => { h with spiAddrErr := true }) x else ring n.val v spi x) s := rfl
  rw [hdone, hostDo_up h, if_neg (by simpa using hspi)]

theorem exec_registerWrite_up (h : isUp s .hostif = true) {off : Nat} (hal : off % 4 = 0) (v : BitVec 32) :
    exec (.registerWrite t off v) s = .next (writeReg false off v (tick t s)) := by
  have hdone : exec (.registerWrite t off v) s =
      hostDo t (fun x => if off % 4 = 0 then writeReg false off v x else protoErr x) s := rfl
  rw [hdone, hostDo_up h, if_pos hal]

theorem ring_pending {n : Nat} (v : BitVec 32) (spi : Bool) (h : (s.host.mbox.getD n default).pending = true) :
    ring n v spi s = protoErr s := by
  rw [ring, if_pos h]

theorem writeMbox_pending {n : Nat} (off : Nat) (v : BitVec 32) (h : (s.host.mbox.getD n default).pending = true) :
    writeMbox n off v s = protoErr s := by
  rw [writeMbox]
  exact if_pos h

theorem writeReg_doorbell (spi : Bool) {n : Nat} (hn : n < 16) (v : BitVec 32) :
    writeReg spi (0x380 + 4 * n) v s = ring n v spi s := by
  have hdiv : (0x380 + 4 * n - 0x380) / 4 = n := by omega
  unfold writeReg
  simp only [show ¬ 0x380 + 4 * n = 0x100 by omega, show ¬ 0x380 + 4 * n = 0x104 by omega,
    show ¬ 0x380 + 4 * n = 0x200 by omega, show ¬ 0x380 + 4 * n = 0x204 by omega, show ¬ 0x380 + 4 * n = 0x208 by omega,
    if_false]
  rw [if_pos (by omega), hdiv]

theorem writeReg_mailbox (spi : Bool) {off : Nat} (v : BitVec 32) (hlo : 0x10000 ≤ off) (hhi : off < 0x20000) :
    writeReg spi off v s = writeMbox ((off - 0x10000) / 4096) (off % 4096) v s := by
  unfold writeReg
  simp only [show ¬ off = 0x100 by omega, show ¬ off = 0x104 by omega, show ¬ off = 0x200 by omega,
    show ¬ off = 0x204 by omega, show ¬ off = 0x208 by omega, if_false]
  rw [if_neg (by omega), if_neg (by omega), if_neg (by omega), if_pos ⟨hlo, hhi⟩]

theorem writeReg_mailbox_pending (spi : Bool) {n off : Nat} (v : BitVec 32) (hn : n < 16) (hlo : 0x10000 + 0x1000 * n ≤ off)
    (hhi : off < 0x11000 + 0x1000 * n) (h : (s.host.mbox.getD n default).pending = true) :
    writeReg spi off v s = protoErr s := by
  have hbox : (off - 0x10000) / 4096 = n := by omega
  rw [writeReg_mailbox spi v (by omega) (by omega), hbox, writeMbox_pending _ _ h]

end

/-- Settles O14. -/
theorem pendingMailboxIsClosed : Obligations.PendingMailboxIsClosed := by
  intro t n v s hup hpending counted
  have hpend : ((tick t s).host.mbox.getD n.val default).pending = true := hpending
  have herr : Rest ([.host] ++ signalling) false (protoErr (tick t s)) = Rest ([.host] ++ signalling) false s := by simp
  have hbell : ∀ spi : Bool, (spi → n.val = 15) →
      happens (.doorbell t n v spi) [.host] s (fun u => u.host = counted) := by
    intro spi hspi
    refine happens_next (u := protoErr (tick t s)) ?_ herr rfl
    rw [exec_doorbell_up hup n v hspi, ring_pending _ _ hpend]
  refine ⟨fun off hlo hhi hal => ?_, ?_, hbell false (by simp), fun h15 => ⟨hbell true fun _ => h15, fun off hlo hhi hal => ?_⟩⟩
  · refine happens_next (u := protoErr (tick t s)) ?_ herr rfl
    rw [exec_registerWrite_up hup hal, writeReg_mailbox_pending _ _ n.isLt hlo hhi hpend]
  · refine happens_next (u := protoErr (tick t s)) ?_ herr rfl
    rw [exec_registerWrite_up hup (by omega), writeReg_doorbell _ n.isLt, ring_pending _ _ hpend]
  · have hframes : spiFrames false off [v] (tick t s) = (protoErr (tick t s), [0], false) := by
      have hreach : spiReach off = true := by simp [spiReach, hlo, hhi]
      simp only [spiFrames, spiFrame, hreach]
      simp [writeReg_mailbox_pending (off := off) true v n.isLt (by omega) (by omega) hpend]
    have hcmd : (BitVec.ofNat 32 off).toNat = off := by rw [BitVec.toNat_ofNat]; omega
    have hread : (BitVec.ofNat 32 off).getLsbD 31 = false := by
      rw [BitVec.getLsbD, hcmd]
      exact Nat.testBit_lt_two_pow (by omega)
    have hdone : exec (.spiTransaction t (BitVec.ofNat 32 off) [v]) s = .next (modHost (fun h => { h with
        spiMiso := spiStatus (tick t s) :: [0], spiAddrErr := false }) (protoErr (tick t s))) := by
      have hexec : exec (.spiTransaction t (BitVec.ofNat 32 off) [v]) s =
          execSpiTransaction t (BitVec.ofNat 32 off) [v] s := rfl
      rw [hexec, execSpiTransaction, hostDo_up hup]
      simp only [hcmd, hread, show off % 2 ^ 24 / 4 * 4 = off by omega, show off / 2 ^ 24 % 128 + 1 = 1 by omega,
        List.take_succ_cons, List.take_zero, hframes]
    exact happens_next hdone (by simp) ⟨rfl, rfl⟩

/-- A node whose HOSTIF runs. -/
def hostRuns : State := { State.reset with islands := State.reset.islands.map (fun x => { x with phase := .run }) }

/-- Refutes O56: a write of 3, resume, to `ACTION` of a DMA channel reads the word again, and whether it is still bad is a free
value, so that the write of a register changes more than HOSTIF and the mailboxes. -/
theorem not_hostAccessesActAtOnce : ¬ Obligations.HostAccessesActAtOnce := by
  intro h
  have hup : isUp hostRuns .hostif = true := by decide +kernel
  obtain ⟨-, hwrite, -⟩ := h 0 hostRuns hup
  obtain ⟨u, -, hu, hsame⟩ := (hwrite 0x814 3).1 rfl
  have hfree : u.free = hostRuns.free := hsame .free (by decide)
  rw [hu] at hfree
  exact absurd hfree (by decide +kernel)

/-! ### DMA channels (R346 to R350) -/

section
variable {c : Nat} {s : State}

@[simp] theorem dmaOf_tick (t : Time) : dmaOf (tick t s) c = dmaOf s c := rfl
@[simp] theorem dmaOf_emitOut (o : Out) : dmaOf (emitOut o s) c = dmaOf s c := rfl

theorem dmaOf_of_host {u : State} (h : u.host.dma = s.host.dma) : dmaOf u c = dmaOf s c :=
  congrArg (·.getD c default) h

theorem dmaSignal_dma : (dmaSignal c s).host.dma = s.host.dma := by
  unfold dmaSignal msixIf msix
  repeat' split
  all_goals rfl

@[simp] theorem dmaOf_dmaSignal (k : Nat) : dmaOf (dmaSignal k s) c = dmaOf s c := dmaOf_of_host dmaSignal_dma

theorem modify_eq_set_getD {α : Type} [Inhabited α] (f : α → α) (i : Nat) (l : List α) :
    l.modify i f = l.set i (f (l.getD i default)) := by
  rw [List.modify_eq_set, List.getD_eq_getElem?_getD]

theorem modDma_host (f : DmaCh → DmaCh) :
    (modDma c f s).host = { s.host with dma := s.host.dma.set c (f (dmaOf s c)) } := by
  simp only [modDma, modHost_host, modify_eq_set_getD]
  rfl

/-- A channel with an open buffer is one of the list. -/
theorem lt_length_of_buf {b : DmaBuf} (h : (dmaOf s c).buf = some b) : c < s.host.dma.length := by
  by_contra hc
  have hdef : dmaOf s c = default := List.getD_eq_default _ _ (Nat.le_of_not_lt hc)
  rw [hdef] at h
  cases h

theorem dmaOf_modDma (f : DmaCh → DmaCh) (h : c < s.host.dma.length) : dmaOf (modDma c f s) c = f (dmaOf s c) := by
  unfold dmaOf
  rw [modDma_host]
  simp [h, dmaOf]

theorem starve_buf (d : DmaCh) : (starve d).buf = d.buf := by
  unfold starve
  split <;> try split
  all_goals rfl

theorem dmaOf_completeDesc (b : DmaBuf) (why : Close) (h : c < s.host.dma.length) :
    dmaOf (completeDesc c b why s) c =
      starve { dmaOf s c with buf := none, cons := ((dmaOf s c).cons + 1) % ringSize (dmaOf s c) } := by
  unfold completeDesc
  simp only []
  split
  · rw [dmaOf_dmaSignal, dmaOf_modDma _ (by exact h), dmaOf_emitOut]
  · rw [dmaOf_modDma _ (by exact h), dmaOf_emitOut]

theorem completeDesc_dma_length (b : DmaBuf) (why : Close) :
    (completeDesc c b why s).host.dma.length = s.host.dma.length := by
  unfold completeDesc
  split
  · simp [dmaSignal_dma, modDma]
  · simp [modDma]

/-- A pulse on an MSI-X vector is added to what the device put out. -/
theorem mem_out_msix {o : Out} (v : Nat) (h : o ∈ s.out) : o ∈ (msix v s).out := by
  unfold msix
  split
  · exact h
  · exact List.mem_append_left _ h

theorem mem_out_dmaSignal {o : Out} (h : o ∈ s.out) : o ∈ (dmaSignal c s).out := by
  unfold dmaSignal msixIf
  split
  · exact mem_out_msix _ h
  · exact h

theorem mem_out_completeDesc (b : DmaBuf) (why : Close) :
    .completion c (dmaOf s c).cons (completionEntry c b.desc b.words b.gen b.poison why) ∈ (completeDesc c b why s).out := by
  have hmem : Out.completion c (dmaOf s c).cons (completionEntry c b.desc b.words b.gen b.poison why) ∈
      (modDma c (fun x => starve { x with buf := none, cons := (x.cons + 1) % ringSize x })
        (emitOut (.completion c (dmaOf s c).cons (completionEntry c b.desc b.words b.gen b.poison why)) s)).out :=
    List.mem_append_right _ (List.mem_singleton_self _)
  unfold completeDesc
  split
  · exact mem_out_dmaSignal hmem
  · exact hmem

/-- The states in which STOP fits (R350). -/
def stoppable (d : DmaState) : Bool := d == .running || d == .starved || d == .haltedUe

theorem stopDma_of_fits (h : stoppable (dmaOf s c).state = true) :
    stopDma c s = modDma c (fun d => { d with state := .stopped, badWord := none }) (closeBuf c .ended s) :=
  if_pos h

theorem stoppable_iff {d : DmaState} : stoppable d = true ↔ d = .running ∨ d = .starved ∨ d = .haltedUe := by
  simp [stoppable, or_assoc]

end

/-- Settles O17. -/
theorem dmaActionsFit : Obligations.DmaActionsFit := by
  intro t c s hup d
  refine ⟨fun h => ?_, fun h1 h2 h3 => ?_, fun h => ⟨fun b => ?_, ?_⟩, fun b hbuf hstate => ?_⟩
  · refine (dmaDo_up hup _).trans (congrArg _ (if_neg ?_))
    have h' : ringChannel c.val = false ∨
        (dmaOf s c.val).state ≠ .idle ∧ (dmaOf s c.val).state ≠ .stopped ∧ (dmaOf s c.val).state ≠ .aborted := h
    rw [dmaOf_tick]
    simp only [Bool.and_eq_true, Bool.or_eq_true, beq_iff_eq]
    rintro ⟨hring, hfits⟩
    rw [hring] at h'
    tauto
  · refine (dmaDo_up hup _).trans (congrArg _ (if_neg ?_))
    simpa [d] using ⟨⟨h1, h2⟩, h3⟩
  · refine (dmaDo_up hup _).trans (congrArg _ ?_)
    unfold resumeDma resumeFit
    simp only [dmaOf_tick]
    split
    · exact if_neg (by simpa [d] using h)
    · rfl
  · refine (dmaDo_up hup _).trans (congrArg _ ?_)
    unfold resumeSkipDma resumeFit
    simp only [dmaOf_tick]
    split
    · exact if_neg (by simpa [d] using h)
    · rfl
  · have hlen : c.val < (tick t s).host.dma.length := lt_length_of_buf (s := s) hbuf
    have hclose : closeBuf c.val .ended (tick t s) = completeDesc c.val b .ended (tick t s) := by
      simp only [closeBuf, dmaOf_tick]
      rw [show (dmaOf s c.val).buf = some b from hbuf]
    have hlen' : c.val < (completeDesc c.val b .ended (tick t s)).host.dma.length := by
      rwa [completeDesc_dma_length]
    have hstop : stopDma c.val (tick t s) = modDma c.val (fun d => { d with state := .stopped, badWord := none })
        (completeDesc c.val b .ended (tick t s)) := by
      rw [stopDma_of_fits (s := tick t s) (stoppable_iff.mpr hstate), hclose]
    refine ⟨_, dmaDo_up hup _, ?_, ?_, ?_⟩ <;> rw [hstop]
    · rw [dmaOf_modDma _ hlen']
    · rw [dmaOf_modDma _ hlen', dmaOf_completeDesc b _ hlen, starve_buf]
    · exact mem_out_completeDesc (s := tick t s) b .ended

end Sys2Proof.Machine
end

section
/-! The DMA channels: `PROD`, actions, words, buffers and the end of the long commands they carry (R338, R347 to R350). -/

set_option maxRecDepth 4000

namespace Sys2Proof.Machine

section
variable {c : Nat} {s : State}

theorem resumeFit_bad {w : Word} (f : Word → State → State) (hbad : (dmaOf s c).badWord = some w)
    (h : (dmaOf s c).state = .haltedUe) : resumeFit c f s = f w s := by
  simp [resumeFit, hbad, h]

theorem stopDma_closed (h : stoppable (dmaOf s c).state = true) (hbuf : (dmaOf s c).buf = none) :
    stopDma c s = modDma c (fun d => { d with state := .stopped, badWord := none }) s := by
  rw [stopDma_of_fits h, closeBuf, hbuf]

end

/-- Settles O57. -/
theorem dmaChannelsMove : Obligations.DmaChannelsMove := by
  intro t s hup now
  refine ⟨fun c => ?_, fun c b hbuf hrun hlink hdue => ?_, fun a seq r st n hmgmt hfind => ⟨fun e hop hext => ?_, fun k hop hfeed hbad => ?_⟩⟩
  · intro d put
    refine ⟨fun v => ?_, fun hring hfits => ?_, fun h1 h2 h3 => ?_, fun hfits hbuf => ?_, fun w hhalt hbad => ?_, fun hring hrun hlink desc bad => ?_⟩
    · refine happens_next (u := setProd c.val v now) (if_pos hup) (by simp [now]) ?_
      exact modDma_host _
    · refine happens_next (u := modDma c.val (fun d => starve { d with state := .running }) now) ?_ (by simp [now]) ?_
      · refine (dmaDo_up hup _).trans (congrArg _ (if_pos ?_))
        simpa [hring, or_assoc] using hfits
      · exact modDma_host _
    · refine happens_next (u := now) ?_ (by simp [now]) trivial
      refine (dmaDo_up hup _).trans (congrArg _ (if_neg ?_))
      simp only [Bool.and_eq_true, Bool.or_eq_true, beq_iff_eq, dmaOf_tick]
      tauto
    · refine happens_next (u := modDma c.val (fun d => { d with state := .stopped, badWord := none }) now) ?_
        (by simp [now]) ?_
      · exact (dmaDo_up hup _).trans (congrArg _ (stopDma_closed (s := now) (stoppable_iff.mpr hfits) hbuf))
      · exact modDma_host _
    · have hfit : ∀ f, resumeFit c.val f now = f w now := fun f => resumeFit_bad (s := now) f hbad hhalt
      refine ⟨?_, ?_, fun h8 => ?_, fun h8 => ?_⟩
      · refine happens_next ((dmaDo_up hup _).trans (congrArg _ (hfit _))) ?_ rfl
        simp [now]
      · refine happens_next ((dmaDo_up hup _).trans (congrArg _ (hfit _))) ?_ rfl
        simp [now]
      · refine happens_next ((dmaDo_up hup _).trans (congrArg _ (hfit _))) ?_ ?_
        · simp [now, h8]
        · rw [if_pos h8]
      · refine happens_next ((dmaDo_up hup _).trans (congrArg _ (hfit _))) ?_ ?_
        · simp [now]
        · rw [if_neg (by omega)]
          rfl
    · have hexec : exec (.dmaWrite t c desc bad) s = .next
          (if 9 ≤ c.val ∧ c.val ≤ 12 then moveBasin c.val desc now else moveWord c.val desc bad now) := by
        have hdone : exec (.dmaWrite t c desc bad) s = execDmaWrite t c desc bad s := rfl
        rw [hdone, execDmaWrite, if_neg]
        · split <;> rfl
        · have hrun' : (dmaOf s c.val).state = .running := hrun
          simp [hring, hlink, hup, hrun']
      refine happens_next hexec ?_ rfl
      split <;> simp [now]
  · have hexec : exec (.recBufferFlush t c) s = .next (completeDesc c.val b .byTimer now) := by
      have hdone : exec (.recBufferFlush t c) s = execRecBufferFlush t c s := rfl
      have hbuf' : (dmaOf now c.val).buf = some b := hbuf
      rw [hdone, execRecBufferFlush]
      simp only [dmaOf_tick, hbuf]
      refine (if_pos ?_).trans ?_
      · rw [Bool.and_eq_true, Bool.and_eq_true]
        exact ⟨⟨beq_iff_eq.mpr hrun, decide_eq_true hdue⟩, hlink⟩
      · rw [closeBuf, hbuf']
    exact happens_next hexec (by simp [now]) rfl
  · have hexec : exec (.longCommandComplete t a seq st n) s = .next (finishExtract e now) := by
      have hdone : exec (.longCommandComplete t a seq st n) s = execLongCommandComplete t a seq st n s := rfl
      rw [hdone, execLongCommandComplete]
      simp only [tick_mgmt, hfind, tick_basin, hext]
      rw [if_neg (by simpa using hmgmt), if_pos hop]
    exact happens_next hexec (by simp [now]) rfl
  · have hexec : exec (.longCommandComplete t a seq st n) s = .next (endLong r.agent r.srcNode r.seq stOk 1 now) := by
      have hdone : exec (.longCommandComplete t a seq st n) s = execLongCommandComplete t a seq st n s := rfl
      rw [hdone, execLongCommandComplete]
      simp only [tick_mgmt, hfind]
      rw [if_neg (by simpa using hmgmt)]
      rcases hop with ⟨hop, rfl⟩ | ⟨hop, rfl⟩ <;> simp [hop, hfeed, hbad, now]
    exact happens_next hexec (by simp [now]) rfl

end Sys2Proof.Machine
end

section
/-! The SYS and CFG commands (chapter 16): what a long command that ends in its own row leaves (R338), and the commands
themselves. -/

set_option maxRecDepth 4000

namespace Sys2Proof.Machine

/-! ### A long command that ends in the row that started it (R338) -/

theorem idle_iff {rq : Request} {s : State} : idle rq s = true ↔
    ∀ x ∈ s.mgmt.running, ¬(x.agent = rq.agent ∧ x.seq = rq.seq ∧ (rq.agent = .fabric → x.srcNode = rq.srcNode)) := by
  simp only [idle, List.all_eq_true, Bool.not_eq_true', Bool.and_eq_false_iff, Bool.or_eq_false_iff, beq_eq_false_iff_ne,
    bne_eq_false_iff_eq]
  refine forall₂_congr fun x _ => ?_
  tauto

/-- What a long command leaves among those that run. -/
def longOf (op : Nat) (rq : Request) (n : Nat) (holds : List Resource) : Running :=
  { agent := rq.agent, srcNode := rq.srcNode, seq := rq.seq, opcode := BitVec.ofNat 16 op, steps := n, holds := holds
    ask := none, mute := false }

/-- The command that has just begun is the only one of its request that runs. -/
theorem find_begun {op : Nat} {rq : Request} {n : Nat} {holds : List Resource} {s : State} (h : idle rq s = true) :
    (s.mgmt.running ++ [longOf op rq n holds]).find?
      (fun x => x.agent == rq.agent && x.seq == rq.seq && (rq.agent != .fabric || x.srcNode == rq.srcNode)) =
      some (longOf op rq n holds) := by
  rw [List.find?_append, List.find?_eq_none.mpr, Option.none_or, List.find?_cons_of_pos]
  · simp [longOf]
  · intro x hx hsame
    simp only [Bool.and_eq_true, beq_iff_eq, Bool.or_eq_true, bne_iff_ne, ← imp_iff_not_or, and_assoc] at hsame
    exact idle_iff.mp h x hx hsame

theorem finishing_begun {op : Nat} {rq : Request} {n : Nat} {holds : List Resource} {s u : State} (f : State → State)
    (h : idle rq s = true) (hu : u.mgmt.running = s.mgmt.running ++ [longOf op rq n holds]) :
    finishing rq s u f = f u := by
  refine if_pos ?_
  rw [Bool.and_eq_true, Bool.not_eq_true', hu]
  refine ⟨by simp [longOf], ?_⟩
  rw [List.any_eq_false]
  intro x hx hsame
  simp only [Bool.and_eq_true, beq_iff_eq] at hsame
  obtain ⟨⟨hagent, hseq⟩, hsrc⟩ := hsame
  exact idle_iff.mp h x hx ⟨hagent, hseq, fun _ => hsrc⟩

section
variable {op : Nat} {rq : Request} {n : Nat} {holds : List Resource} {s v : State}

/-- What is left where the command that has just begun ends. -/
theorem endRq_begun (st : BitVec 16) (k : Nat) (h : idle rq s = true)
    (hv : v.mgmt.running = s.mgmt.running ++ [longOf op rq n holds]) :
    endRq rq st k v = completionEvent rq.agent (BitVec.ofNat 16 op).toNat rq.seq st
      (journalMod rq.agent rq.srcNode rq.seq (fun e => { e with
        stepsDone := min k n
        state := if min k n = 0 then .abandoned else if min k n < n then .partially else .done
        status := st, durationUs := durationUs v e.arrivalLocal })
      { v with mgmt := { v.mgmt with running := v.mgmt.running.filter (fun x => x != longOf op rq n holds) } }) := by
  unfold endRq endLong endWith
  rw [hv, find_begun h]
  rfl

theorem endRq_idle (st : BitVec 16) (k : Nat) (h : idle rq s = true)
    (hv : v.mgmt.running = s.mgmt.running ++ [longOf op rq n holds]) : idle rq (endRq rq st k v) = true := by
  have hrunning : (endRq rq st k v).mgmt.running =
      (s.mgmt.running ++ [longOf op rq n holds]).filter (fun x => x != longOf op rq n holds) := by
    rw [endRq_begun st k h hv, (completionEvent_same _ _ _ _ _ .commands (by decide)).1, ← hv]
    rfl
  rw [idle_iff, hrunning]
  intro x hx
  simp only [List.mem_filter, List.mem_append, List.mem_singleton, bne_iff_ne] at hx
  obtain ⟨hold | hnew, hne⟩ := hx
  · exact idle_iff.mp h x hold
  · exact absurd hnew hne

theorem endRq_mbox (st : BitVec 16) (k : Nat) (h : idle rq s = true)
    (hv : v.mgmt.running = s.mgmt.running ++ [longOf op rq n holds]) : (endRq rq st k v).host.mbox = v.host.mbox := by
  rw [endRq_begun st k h hv, completionEvent_mbox]
  rfl

/-- A journal that begins with the command's own entry tells its end. -/
theorem endRq_recorded {e : JEntry} {rest : List JEntry} (st : BitVec 16) (h : idle rq s = true) (hn : 0 < n)
    (hv : v.mgmt.running = s.mgmt.running ++ [longOf op rq n holds]) (hj : v.nv.journal = e :: rest)
    (he : sameCommand rq.agent rq.srcNode rq.seq e = true) :
    recorded rq.agent rq.srcNode rq.seq st .done (endRq rq st n v) := by
  have hjournal : ∀ x : State, (completionEvent rq.agent (BitVec.ofNat 16 op).toNat rq.seq st x).nv.journal =
      x.nv.journal := fun x => ((completionEvent_same _ _ _ _ x) .journal (by decide)).1
  unfold recorded journalFind
  rw [endRq_begun st n h hv, hjournal]
  simp only [journalMod, hj, List.map_cons, he, if_true]
  rw [List.find?_cons_of_pos]
  · simp [Nat.ne_of_gt hn]
  · exact he

end

section
variable {i : Instr} {op lo hi : Nat} {lenOk : Nat → Bool} {rq : Request} {parts : List Part} {t : Time}
  {s : State} {post : State → Prop} {own : Request → State → Reply} {u v : State} {n : Nat} {holds : List Resource}
  {f : State → State}

/-- A command whose row goes on only with a long command that has begun. -/
theorem command_of_finishing (h : runs op lo hi t rq s = true) (hl : ∀ n, lo ≤ n → n ≤ hi → lenOk n = true)
    (he : exec i s = .next (finishing rq s (serve op true lenOk false routedTo (reaching op own rq) t rq s) f))
    (hlong : (own rq (taken op t rq s)).long = false)
    (hrunning : (own rq (taken op t rq s)).st.mgmt.running = s.mgmt.running) : exec i s = command op lenOk own t rq s := by
  have hserve := runs_command (own := own) h hl
  rw [he, command]
  rw [command] at hserve
  injection hserve with hserve
  rw [finishing_of_running_eq]
  rw [hserve, settle_running, hlong, if_neg (by simp), hrunning]

/-- A long command that has been accepted, and whose outside part leaves `v` as it ends with `OK`. -/
theorem finishes_of {b : State} (hb : b = settle op rq (accepted n holds [] u)) (hidle : idle rq s = true)
    (he : exec i s = .next (finishing rq s b f)) (hn : 0 < n)
    (hu : Rest (parts ++ signalling) false u = Rest (parts ++ signalling) false (taken op t rq s))
    (hf : f b = endRq rq stOk n v) (hv : Unchanged (parts ++ answering) b v) (hrun : v.mgmt.running = b.mgmt.running)
    (hmbox : v.host.mbox = b.host.mbox) (hjournal : v.nv.journal = b.nv.journal)
    (hparts : ∀ p ∈ [.commands, .mailboxes], p ∉ parts ++ signalling)
    (hp : post (endRq rq stOk n v)) : finishes i rq parts s post := by
  have hbrun : b.mgmt.running = s.mgmt.running ++ [longOf op rq n holds] := by
    rw [hb, settle_running, if_pos (by rfl)]
    refine congrArg (· ++ _) ?_
    exact ((Unchanged.of_rest hu) .commands (hparts _ (by simp))).1.trans (taken_running op t rq s)
  have hvrun : v.mgmt.running = s.mgmt.running ++ [longOf op rq n holds] := hrun.trans hbrun
  have humbox : u.host.mbox = (taken op t rq s).host.mbox := (Unchanged.of_rest hu).mboxes (hparts _ (by simp))
  refine ⟨endRq rq stOk n v, ?_, hp, ?_, endRq_idle _ _ hidle hvrun, ?_, fun hby hbox => ?_⟩
  · rw [he, finishing_begun f hidle hbrun, hf]
  · have hall : ∀ p ∈ parts ++ signalling, p ∈ parts ++ answering := by
      intro p hp
      simp only [List.mem_append, mem_answering] at hp ⊢
      tauto
    have hsettled : Unchanged (parts ++ answering) s b := by
      rw [hb]
      exact settle_unchanged op rq _ (unchanged_taken ((Unchanged.of_rest hu).mono hall))
    have hend : Unchanged (parts ++ answering) v (endRq rq stOk n v) :=
      .of_rest (endRq_rest (fun p hp => List.mem_append_right _ hp) rq stOk n v)
    exact (hsettled.trans hv).trans hend
  · obtain ⟨e, rest, hj, hseq, hagent, -⟩ := settle_journalled op rq (accepted n holds [] u)
    rw [settle_journal] at hj
    have hsrc : e.srcNode = rq.srcNode := by
      rw [← (List.cons.inj ((List.take_succ_cons).symm.trans hj)).1]
      rfl
    refine endRq_recorded (rest := rest) stOk hidle hn hvrun (hjournal.trans ?_) (sameCommand_iff.mpr ⟨hagent, hseq, fun _ => hsrc⟩)
    rw [hb]
    exact (congrArg (·.journal) (settle_journal op rq _)).trans hj
  · have hboxu : hasMailbox rq u = true := by
      rw [← hasMailbox_taken op t rq s] at hbox
      rw [← hbox]
      unfold hasMailbox
      rw [humbox]
    have hanswer := settle_answered op rq (accepted n holds [] u) hby hboxu rfl
    unfold answered at hanswer ⊢
    rw [endRq_mbox _ _ hidle hvrun, hmbox, hb]
    exact hanswer

/-- A long command under `runs` that is accepted, and whose outside part leaves `v` as it ends with `OK`. -/
theorem finishes_own (h : runs op lo hi t rq s = true) (hidle : idle rq s = true)
    (he : exec i s = .next (finishing rq s (serve op true lenOk false routedTo (reaching op own rq) t rq s) f))
    (hl : ∀ n, lo ≤ n → n ≤ hi → lenOk n = true) (ho : own rq (taken op t rq s) = accepted n holds [] u) (hn : 0 < n)
    (hu : Rest (parts ++ signalling) false u = Rest (parts ++ signalling) false (taken op t rq s))
    (hf : f (settle op rq (accepted n holds [] u)) = endRq rq stOk n v)
    (hv : Rest (parts ++ signalling) false v = Rest (parts ++ signalling) false (settle op rq (accepted n holds [] u)))
    (hparts : ∀ p ∈ [.commands, .journal, .mailboxes], p ∉ parts ++ signalling)
    (hp : post (endRq rq stOk n v)) : finishes i rq parts s post := by
  have hserve := runs_command (own := own) h hl
  rw [command] at hserve
  injection hserve with hserve
  rw [hserve, ho] at he
  have hsame := Unchanged.of_rest hv
  refine finishes_of rfl hidle he hn hu hf (hsame.mono fun p hp => ?_) (hsame .commands (hparts _ (by simp))).1
    (hsame.mboxes (hparts _ (by simp))) (hsame .journal (hparts _ (by simp))).1 (fun p hp => hparts p ?_) hp
  · simp only [List.mem_append, mem_answering] at hp ⊢
    tauto
  · simp only [List.mem_cons] at hp ⊢
    tauto

end

/-! ### Commands that judge the supply themselves (R399) -/

section
variable {i : Instr} {op lo hi : Nat} {lenOk : Nat → Bool} {rq : Request} {words : List Word} {parts : List Part} {t : Time}
  {s : State} {post : State → Prop} {own : Request → State → Reply} {u : State} {n : Nat}

theorem sagWarn_of_runs (h : runs op lo hi t rq s = true) : s.pwr.sagWarn = false := by
  simp only [runs, accepts, Bool.and_eq_true, Bool.not_eq_true'] at h
  exact h.1.1.1.1.2

/-- Such a command under `runs` whose own part answers `OK` completes. -/
theorem completes_supply (h : runs op lo hi t rq s = true) (he : exec i s = commandSupply op lenOk own t rq s)
    (hl : ∀ n, lo ≤ n → n ≤ hi → lenOk n = true) (ho : own rq (taken op t rq s) = okaySteps (n + 1) words u)
    (hk : Rest (ownParts parts) false u = Rest (ownParts parts) false (taken op t rq s)) (hm : .mailboxes ∉ ownParts parts)
    (hp : post (settle op rq (okaySteps (n + 1) words u))) : completes i op rq words parts s post := by
  refine completes_of (he.trans (runs_commandSupply h hl)) ho (unchanged_taken (ownParts_answering (.of_rest hk))) ?_ hp
  rw [← hasMailbox_taken op t rq s]
  unfold hasMailbox
  rw [(Unchanged.of_rest hk).mboxes hm]

end

end Sys2Proof.Machine
end

section
/-! The SYS and CFG commands on this node (chapter 16). -/

set_option maxRecDepth 4000

namespace Sys2Proof.Machine

section
variable {op : Nat} {t : Time} {rq : Request} {s : State}

@[simp] theorem cfgBusy_taken : cfgBusy (taken op t rq s) = cfgBusy s := taken_eq cfgBusy (fun _ _ _ _ _ => rfl) ..
@[simp] theorem ringHere_taken : ringHere (taken op t rq s) = ringHere s := taken_eq ringHere (fun _ _ _ _ _ => rfl) ..
@[simp] theorem settle_nv_autoload (r : Reply) : (settle op rq r).nv.autoload = r.st.nv.autoload := by rw [settle_journal]
@[simp] theorem settle_nv_catchup (r : Reply) : (settle op rq r).nv.catchup = r.st.nv.catchup := by rw [settle_journal]

end

/-! ### Staging an image (R135, R298) -/

theorem prepareShadows_staged (after s : State) : (prepareShadows after s).cfg.staged = s.cfg.staged := by
  unfold prepareShadows
  generalize List.range 64 = l
  induction l generalizing s with
  | nil => rfl
  | cons c l ih =>
    rw [List.foldl_cons, ih]
    simp only []
    split <;> rfl

theorem stageImage_staged (img : Image) (catchup : Bool) (s : State) :
    (stageImage img catchup s).cfg.staged = some img := by
  unfold stageImage
  rw [prepareShadows_staged]
  rfl

/-- The applied image is only looked at: staging changes the configuration state and the shadows. -/
theorem stageImage_rest_shadows {ps : List Part} (hdaq : .daq ∈ ps) (hcfg : .cfg ∈ ps) (img : Image) (catchup : Bool)
    (s : State) : Rest ps false (stageImage img catchup s) = Rest ps false s := by
  unfold stageImage
  simp only []
  rw [prepareShadows_rest (by simp [hdaq, hcfg])]
  simp [hdaq, hcfg]

/-- The image passes every check after `ACCEPTED`. -/
theorem stageFetched_ok {rq : Request} {img : ImageFetch} {othersOk : Bool} {s : State} {rs : List ImgRec}
    {ws : List Word} (hws : ws = (img.words ++ List.replicate (fld (qword rq 2) 0 17) 0).take (fld (qword rq 2) 0 17))
    (hhere : fbit (qword rq 1) 0 = false) (hok : img.ok = true) (hdig : sha256 (imageBytes ws) = rqDigest rq)
    (hgen : headerGen ws = some (fld (qword rq 1) 1 16)) (hrs : recordsOf ws = some rs) (hrules : imageRules s rs = true)
    (hnode : nodeCheck ws s = none) : stageFetched rq img othersOk s =
      endRq rq stOk 3 (stageImage { gen := fld (qword rq 1) 1 16, digest := rqDigest rq, words := ws } false s) := by
  subst hws
  unfold stageFetched
  simp only [hok, hdig, hgen, hrs, hrules, hnode, hhere]
  rw [if_neg (by simp), if_neg (by simp), if_neg (by simp), if_neg (by simp)]

theorem castScope_here {rq : Request} (op : Nat) (othersOk : Bool) (s : State) (h : fbit (qword rq 1) 0 = false) :
    castScope op rq othersOk s = endRq rq stOk 3 s := by
  rw [castScope, if_neg (by simp [h])]

/-- The end of a command leaves a part that answering does not touch. -/
theorem endRq_same {rq : Request} {st : BitVec 16} {n : Nat} {s : State} : Unchanged answering s (endRq rq st n s) :=
  .of_rest (endRq_rest (fun _ h => h) rq st n s)

@[simp] theorem endRq_cfg (rq : Request) (st : BitVec 16) (n : Nat) (s : State) : (endRq rq st n s).cfg = s.cfg :=
  endRq_same .cfg (by decide)
@[simp] theorem endRq_tact (rq : Request) (st : BitVec 16) (n : Nat) (s : State) : (endRq rq st n s).tact = s.tact :=
  endRq_same .tact (by decide)

/-- Settles O26. -/
theorem systemAndConfigurationCommandsComplete : Obligations.SystemAndConfigurationCommandsComplete := by
  intro t rq s q now f seq agent src gen n begun slot63
  refine ⟨fun h => ?_, fun e h hq hseq hsrc hother hfind => ?_, fun h hq hseq hsrc hother hfind => ?_, fun op hop ha hj hlen hremote => ?_,
    ?_, fun othersOk i h hq hform hnear hpast hbusy hstaged hgen hdig hhere hidle => ?_, fun othersOk a h hq harmed hgen hcatch hhere hidle => ?_, fun collected h hq hscope hidle => ?_,
    fun l h hq hscope hidle => ?_, fun h hq => ?_⟩
  · apply completes_read h rfl (lenIs_between 0)
    have hrelease : (taken 0x0101 t rq s).mgmt.release = s.mgmt.release :=
      taken_eq (·.mgmt.release) (fun _ _ _ _ _ => rfl) ..
    have himage : (taken 0x0101 t rq s).mgmt.image = s.mgmt.image := taken_eq (·.mgmt.image) (fun _ _ _ _ _ => rfl) ..
    simp only [ownSysIdentify, snap_taken, taken_fuses, hrelease, himage, now, f]
  · have hmine : sameCommand agent src seq { entryOf (taken 0x0102 t rq s) 0x0102 rq with state := .running } = false := by
      rw [Bool.eq_false_iff, ne_eq, sameCommand_iff]
      rintro ⟨hagent, hs, -⟩
      exact hother hagent.symm hs.symm
    apply completes_read h rfl (lenIs_between 1)
    unfold ownSysCmdStatus
    rw [guarded_pass (by simpa [hq, q] using ⟨hseq, or_iff_not_imp_left.mp hsrc⟩)]
    rw [List.find?_cons_of_neg (by simpa using hmine), taken_nv, show List.find? _ _ = some e from hfind, snap_taken]
  · have hmine : sameCommand agent src seq { entryOf (taken 0x0102 t rq s) 0x0102 rq with state := .running } = false := by
      rw [Bool.eq_false_iff, ne_eq, sameCommand_iff]
      rintro ⟨hagent, hs, -⟩
      exact hother hagent.symm hs.symm
    apply completes_read h rfl (lenIs_between 1)
    unfold ownSysCmdStatus
    rw [guarded_pass (by simpa [hq, q] using ⟨hseq, or_iff_not_imp_left.mp hsrc⟩)]
    rw [List.find?_cons_of_neg (by simpa using hmine), taken_nv, show List.find? _ _ = none from hfind, snap_taken]
  · have hexec : exec (.unknownCommand t rq op) s = .next (settle op.toNat rq (deny stUnknownOpcode (taken op.toNat t rq s))) := by
      have hdone : exec (.unknownCommand t rq op) s = execUnknownCommand t rq op s := rfl
      rw [hdone, execUnknownCommand, if_neg (by simp [hop]), serve_unknown ha hj hlen hremote, refuse]
    exact refuses_of hexec
  · intro img othersOk rs h hq hq2 hn1 hn2 hbusy hhere hidle ws hok hdig hgen hrs hrules hnode
    refine finishes_own (n := 3) (holds := [.config]) (parts := [.cfg, .daq]) (u := taken 0x0201 t rq s)
      (v := stageImage { gen := gen, digest := rqDigest rq, words := ws } false begun) h hidle rfl (lenIs_between 4) ?_ (by decide) rfl
      ?_ ?_ (by decide) ?_
    · unfold ownCfgStage
      rw [guarded_pass]
      refine pass_cons ?_ (pass_cons (by simpa using hbusy) (by simp))
      simp only [Bool.or_eq_false_iff]
      exact ⟨⟨⟨by simpa using hq, by simpa using hq2⟩, by simpa using Nat.ne_of_gt hn1⟩, decide_eq_false (Nat.not_lt.mpr hn2)⟩
    · exact stageFetched_ok rfl hhere hok hdig hgen hrs hrules hnode
    · exact stageImage_rest_shadows (by simp) (by simp) _ _ _
    · rw [endRq_cfg, stageImage_staged]
  · set x := putSlot 63 (some (commitArm (qword rq 2) rq.agent)) (modCfg (fun x => { x with
      armed := some { time := ofT96 (qword rq 2), gen := gen, digest := rqDigest rq, catchup := false }, lostCommit := none })
      (taken 0x0202 t rq s)) with hx
    refine finishes_own (n := 3) (holds := [.config]) (parts := [.cfg, .tact]) (u := x)
      (v := settle 0x0202 rq (accepted 3 [.config] [] x)) h hidle rfl (lenIs_between 4) ?_ (by decide) ?_
      (castScope_here _ _ _ hhere) rfl (by decide) ?_
    · have htb : tbNow (taken 0x0202 t rq s) = tbNow now := taken_eq_tick tbNow (fun _ _ _ _ => rfl) ..
      unfold ownCfgCommitAt
      simp only []
      rw [guarded_pass]
      refine pass_cons ?_ (pass_cons ?_ (pass_cons (by simpa using hbusy) (pass_cons ?_ (pass_cons ?_ (by simp)))))
      · simp only [Bool.or_eq_false_iff, t96Near_taken]
        exact ⟨⟨by simpa using hq, by simpa using hform⟩, by simpa using hnear⟩
      · rw [htb]
        exact decide_eq_false (Nat.not_lt.mpr hpast)
      · simp [hstaged]
      · simp [hstaged, hgen, hdig, gen, q]
    · simp [hx]
    · rw [endRq_cfg, endRq_tact, settle_cfg, settle_tact]
      refine ⟨?_, ?_⟩
      · simp [hx, putSlot, modCfg]
      · simp [hx, putSlot, modCfg, slot63]
  · set x := putSlot 63 none (modCfg (fun x => { x with armed := none }) (taken 0x0203 t rq s)) with hx
    refine finishes_own (n := 3) (holds := [.config]) (parts := [.cfg, .tact]) (u := x)
      (v := settle 0x0203 rq (accepted 3 [.config] [] x)) h hidle rfl (lenIs_between 1) ?_ (by decide) ?_
      (castScope_here _ _ _ hhere) rfl (by decide) ?_
    · unfold ownCfgCancelCommit
      simp only []
      rw [guarded_pass]
      refine pass_cons ?_ (by simp)
      simp only [Bool.or_eq_false_iff]
      exact ⟨by simpa using hq, by simp [harmed, hgen, hcatch, gen, q]⟩
    · simp [hx]
    · rw [endRq_cfg, endRq_tact, settle_cfg, settle_tact]
      refine ⟨?_, ?_⟩
      · simp [hx, putSlot, modCfg]
      · simp [hx, putSlot, modCfg, slot63]
  · have hown : ownCfgReport collected rq (taken 0x0204 t rq s) = okay (snap now :: reportWords (ringNodes (taken 0x0204 t rq s))
        (fun _ => ringHere s) (ringHere s) (fld q 2 10)) (taken 0x0204 t rq s) := by
      have hscope' : fld (qword rq 1) 0 2 = 0 := hscope
      unfold ownCfgReport
      simp only [hscope']
      rw [guarded_pass (by simpa using hq), ringHere_taken, snap_taken]
    apply completes_read h (command_of_finishing h (lenIs_between 1) rfl ?_ ?_) (lenIs_between 1) hown
    · rw [hown]
      rfl
    · rw [hown]
      exact taken_running ..
  · refine finishes_own (n := 1) (holds := [.report]) (parts := [.cfg]) (u := taken 0x0204 t rq s)
      (v := modCfg (fun c => { c with report := some l }) (settle 0x0204 rq (accepted 1 [.report] [] (taken 0x0204 t rq s))))
      h hidle rfl (lenIs_between 1) ?_ (by decide) rfl rfl (by simp) (by decide) ?_
    · have hscope' : fld (qword rq 1) 0 2 = 1 := hscope
      unfold ownCfgReport
      simp only [hscope']
      rw [guarded_pass (by simpa using hq)]
    · rw [endRq_cfg]
      simp [modCfg]
  · apply completes_own (n := 0) h rfl (lenIs_between 1)
    · unfold ownCfgConfig
      exact guarded_pass (by simpa using hq)
    · generalize taken 0x0205 t rq s = x
      simp
    · simp
    · refine ⟨?_, ?_⟩
      · simp [q]
      · simp [q]

end Sys2Proof.Machine
end

section
/-! The commands of the line, the fabric and the ETHM ports (chapter 16). -/

set_option maxRecDepth 4000

namespace Sys2Proof.Machine

/-! ### Lanes -/

/-- A change of one entry is known by what it makes of that entry. -/
theorem modify_congr_getElem {α : Type} {f g : α → α} (l : List α) (i : Nat) (h : ∀ x, l[i]? = some x → f x = g x) :
    l.modify i f = l.modify i g := by
  apply List.ext_getElem?
  intro j
  rw [List.getElem?_modify, List.getElem?_modify]
  by_cases hij : i = j
  · subst hij
    cases hx : l[i]? with
    | none => rfl
    | some x => simp [h x hx]
  · simp [hij]

theorem modLane_congr {p l : Nat} {f g : Lane → Lane} {s : State} (h : f (laneOf s p l) = g (laneOf s p l)) :
    modLane p l f s = modLane p l g s := by
  have hlanes : s.line.lanes.modify p (fun ls => ls.modify l f) = s.line.lanes.modify p (fun ls => ls.modify l g) := by
    refine modify_congr_getElem _ _ fun ls hls => modify_congr_getElem _ _ fun x hx => ?_
    have hlane : laneOf s p l = x := by simp [laneOf, List.getD_eq_getElem?_getD, hls, hx]
    rw [hlane] at h
    exact h
  simp only [modLane, modLine, hlanes]

/-- What a lane's change of state makes of the line. -/
theorem toLane_line (p l : Nat) (new : LaneState) (s : State) : (toLane p l new s).line =
    if (laneOf s p l).state = new then s.line
    else (modLane p l (fun x => { x with
      state := new, since := s.now
      degraded := x.degraded && new == .up
      berHigh := if new == .up then x.berHigh else 0
      berLow := if new == .up then x.berLow else 0 }) s).line := by
  have hsame : ∀ a b : State, Rest (signalling ++ [.free, .host, .time, .clk, .fab, .frames]) false a =
      Rest (signalling ++ [.free, .host, .time, .clk, .fab, .frames]) false b → a.line = b.line :=
    fun a b h => (Unchanged.of_rest h) .line (by decide)
  unfold toLane
  simp only []
  split
  · rfl
  · split
    · exact hsame _ _ (by simp)
    · exact hsame _ _ (by simp)

/-- It depends on the line and the clock only. -/
theorem toLane_line_congr {a b : State} (p l : Nat) (new : LaneState) (hline : a.line = b.line) (hnow : a.now = b.now) :
    (toLane p l new a).line = (toLane p l new b).line := by
  rw [toLane_line, toLane_line]
  simp only [laneOf, modLane, modLine, hline, hnow]
  rfl

section
variable {op : Nat} {t : Time} {rq : Request} {s : State}

@[simp] theorem laneOf_taken (p l : Nat) : laneOf (taken op t rq s) p l = laneOf s p l :=
  taken_eq (laneOf · p l) (fun _ _ _ _ _ => rfl) ..
@[simp] theorem lanePresent_taken (l : Nat) : lanePresent (taken op t rq s) l = lanePresent s l :=
  taken_eq (lanePresent · l) (fun _ _ _ _ _ => rfl) ..
@[simp] theorem ethOf_taken (p : Nat) : ethOf (taken op t rq s) p = ethOf s p := taken_eq (ethOf · p) (fun _ _ _ _ _ => rfl) ..
@[simp] theorem ptpState_taken (p : Nat) : ptpState (taken op t rq s) p = ptpState s p :=
  taken_eq (ptpState · p) (fun _ _ _ _ _ => rfl) ..
@[simp] theorem routedTo_taken (a : BitVec 16) : routedTo a (taken op t rq s) = routedTo a s :=
  taken_eq (routedTo a) (fun _ _ _ _ _ => rfl) ..

end

theorem snap_congr {a b : State} (hnow : a.now = b.now) (htime : a.time = b.time) : snap a = snap b := by
  rw [snap, snap, tbNow, tbNow, tbAt, tbAt, hnow, htime]

/-! ### Ports of the ring's line and of Ethernet -/

theorem emitNow_eth (code argB arg : Nat) (extra : List Word) (s : State) : (emitNow code argB arg extra s).eth = s.eth :=
  (emitNow_same code argB arg extra s) .eth (by decide)

/-- A port that is switched off loses its link (R294). -/
theorem ethSet_eth (p : Nat) (enable slow : Bool) (s : State) : (ethSet p enable slow s).eth =
    { s.eth with ports := s.eth.ports.modify p (fun e => { e with
        enable := enable, slow := slow, link := enable && e.link }) } := by
  have hlast : ∀ l : List EthPort, l.modify p (fun e => { e with enable := false, slow := slow, link := false }) =
      (l.modify p (fun e => { e with enable := false, slow := slow })).modify p (fun e => { e with link := false }) := by
    intro l
    rw [List.modify_modify_eq]
    rfl
  unfold ethSet
  simp only []
  cases enable with
  | true =>
    rw [if_neg (by simp)]
    simp [modEth]
  | false =>
    by_cases hlink : (ethOf s p).link = true
    · rw [if_pos (by simp [hlink]), emitNow_eth]
      simp [modEth, hlast]
    · rw [if_neg (by simp [hlink])]
      simp only [modEth, Bool.false_and]
      refine congrArg (fun x => { s.eth with ports := x }) (modify_congr_getElem _ _ fun e he => ?_)
      have hport : ethOf s p = e := by simp [ethOf, List.getD_eq_getElem?_getD, he]
      rw [hport, Bool.not_eq_true] at hlink
      rw [← hlink]

/-- What LANE.CONFIG makes of the lane `y` with the accepted settings `new`, where `x` tells what was in force (R251). -/
def laneChange (new : LaneSet) (now : Time) (draw : Nat) (x y : Lane) : Lane :=
  { y with
    set := new, cur := laneCur x now, curAt := some (nextCycle x.half now)
    ffeAt := if new.ffeFreeze && !x.set.ffeFreeze then draw else y.ffeAt
    dfeAt := if new.dfeMode != 0 && x.set.dfeMode == 0 then draw else y.dfeAt
    retryAt := if new.enable then y.retryAt else none
    laneRx := if new.enable then y.laneRx else none }

/-- Settles O27. -/
theorem lineAndFabricCommandsComplete : Obligations.LineAndFabricCommandsComplete := by
  intro t rq s q now p l up new lanes circ dest e x set
  refine ⟨fun h hq hlane hswing hfir hctle hdfe hcap => ?_, fun h hq hlanes => ?_, fun h hq => ?_, fun h hq => ?_, fun h => ?_,
    fun rtt hops h hq hpos hrouted => ?_, ?_, fun h hq => ?_, fun h hq => ?_⟩
  · have hswing' : (up 2 && decide (fld q 6 8 < 64)) = false := by
      cases hu : up 2
      · rfl
      · exact decide_eq_false (Nat.not_lt.mpr (hswing hu))
    have hfir' : (up 4 && !new.firHost) = false := by
      cases hu : up 4
      · rfl
      · simpa using hfir hu
    have hctle' : (up 6 && !new.ctleHost && fld q 50 4 != 0) = false := by
      cases hu : up 6
      · rfl
      · cases hc : new.ctleHost
        · simpa using hctle hu hc
        · rfl
    have hdfe' : (up 8 && fld q 55 2 == 3) = false := by
      cases hu : up 8
      · rfl
      · simpa using hdfe hu
    have hcap' : (up 1 && !fbit q 5 && s.fuseShadow.laneCap) = false := by
      cases hu : up 1
      · rfl
      · cases hf : fbit q 5
        · simpa using hcap hu hf
        · rfl
    have hset : modLane p l (laneChange new now.now s.free (laneOf s p l)) s = modLane p l set s := modLane_congr rfl
    refine completes_own (n := 0) h rfl (lenIs_between 1) (u := if new.enable then
        modLane p l (laneChange new now.now s.free (laneOf s p l)) { taken 0x3001 t rq s with free := s.free + 7 }
      else toLane p l .down
        (modLane p l (laneChange new now.now s.free (laneOf s p l)) { taken 0x3001 t rq s with free := s.free + 7 }))
      ?_ ?_ ?_ ?_
    · unfold ownLaneConfig
      simp only [laneOf_taken, taken_now, taken_free, lanePresent_taken, taken_fuseShadow]
      refine guardedIn_pass (pass_cons ?_ (pass_cons hcap' (by simp)))
      simp only [Bool.or_eq_false_iff]
      exact ⟨⟨⟨⟨⟨by simpa using hq, by simpa using hlane⟩, hswing'⟩, hfir'⟩, hctle'⟩, hdfe'⟩
    · generalize taken 0x3001 t rq s = y
      split <;> simp
    · simp
    · have hline : ∀ f : Lane → Lane, (modLane p l f { taken 0x3001 t rq s with free := s.free + 7 }).line =
          (modLane p l f s).line := fun f => by simp [modLane, modLine]
      rw [settle_line, okaySteps_st]
      by_cases hon : new.enable = true
      · rw [if_pos hon, if_pos hon, hline, hset]
      · rw [if_neg hon, if_neg hon]
        refine toLane_line_congr p l .down ?_ rfl
        rw [hline, hset]
        simp [modLane, modLine]
  · apply completes_own (n := 0) h rfl (lenIs_between 1)
    · unfold ownLaneRetrain
      exact guarded_pass (by simpa [q, lanes] using ⟨hq, hlanes⟩)
    · refine foldl_rest _ _ _ fun a k => ?_
      simp only []
      repeat' split
      all_goals simp
    · simp
    · rw [settle_line, okaySteps_st]
      refine congrArg (fun f => (lanes.foldl f (taken 0x3002 t rq s)).line) ?_
      funext acc k
      cases hstate : (laneOf acc p k).state <;> simp [hstate, p, q]
  · have hws : (fun y : State => laneWords (adaptTaps p y) p) (taken 0x3003 t rq s) = laneWords (adaptTaps p now) p :=
      taken_eq_tick (fun y => laneWords (adaptTaps p y) p) (fun _ _ _ _ => rfl) ..
    have hline : (adaptTaps p (taken 0x3003 t rq s)).line = (adaptTaps p now).line :=
      taken_eq_tick (fun y => (adaptTaps p y).line) (fun _ _ _ _ => rfl) ..
    have hsnap : snap (adaptTaps p (taken 0x3003 t rq s)) = snap now :=
      taken_eq_tick (fun y => snap (adaptTaps p y)) (fun _ _ _ _ => rfl) ..
    have hcount : laneCount (adaptTaps p (taken 0x3003 t rq s)) = laneCount s :=
      taken_eq (fun y => laneCount (adaptTaps p y)) (fun _ _ _ _ _ => rfl) ..
    have hown : ownLaneStatus rq (taken 0x3003 t rq s) =
        okay (snap now :: (List.range (laneCount s)).flatMap (laneWords (adaptTaps p now) p))
          (if fbit q 1 then modLine (fun x => { x with lanes := x.lanes.modify p (fun ls => ls.map (fun y => { y with
            framingLosses := 0, slips := 0, justifications := 0, attempts := 0, trainFailures := 0, corrected := 0
            correctedBits := 0, uncorrectable := 0 })) })
            { adaptTaps p (taken 0x3003 t rq s) with free := (adaptTaps p (taken 0x3003 t rq s)).free + 128 }
          else { adaptTaps p (taken 0x3003 t rq s) with free := (adaptTaps p (taken 0x3003 t rq s)).free + 128 }) := by
      unfold ownLaneStatus
      rw [guarded_pass (by simpa using hq)]
      simp only []
      rw [hsnap, hcount, show laneWords (adaptTaps (fld (qword rq 1) 0 1) (taken 0x3003 t rq s)) (fld (qword rq 1) 0 1) = _ from hws]
    apply completes_own (n := 0) h rfl (lenIs_between 1) hown
    · generalize hy : adaptTaps p (taken 0x3003 t rq s) = y
      have hrest : Rest (ownParts [.free, .line]) false y = Rest (ownParts [.free, .line]) false (taken 0x3003 t rq s) := by
        rw [← hy]
        simp
      rw [← hrest]
      split <;> simp
    · simp
    · rw [settle_line, okaySteps_st]
      split
      · simp only [modLine, hline]
        rfl
      · exact hline
  · apply completes_read h rfl (lenIs_between 1)
    unfold ownSlotStatus
    rw [guarded_pass (by simpa using hq), snap_taken]
    refine congrArg (fun ws => okay ws (taken 0x3101 t rq s)) ?_
    exact taken_eq_tick (fun y => [snap now] ++
          (List.range 2).map (fun w => mkWord ((List.range 32).map (fun i =>
            (4 * i, 4, useCode (lineSlot y p (32 * w + i)).use)))) ++
          [mkWord [(0, 64, slotMask y p (·.mismatch)),
            (64, 64, slotMask y p (fun x => carrier x && (circuitOf y x.circuit).any (·.shed)))]] ++
          (List.range 4).map (fun w => mkWord ((List.range 16).map (fun i =>
            (8 * i, 8, (lineSlot y p (16 * w + i)).hopsIn)))) ++
          [mkWord [(0, 64, slotMask y p (fun x => carrier x && (circuitOf y x.circuit).any (fun c => !c.aligned))),
            (64, 64, slotMask y p (fun x => carrier x && (circuitOf y x.circuit).any (·.onProtecting)))]])
      (fun _ _ _ _ => rfl) ..
  · apply completes_read h rfl (lenIs_between 0)
    exact congrArg (fun ws => okay ws (taken 0x3201 t rq s))
      (taken_eq_tick (fun y => (ownFabStatus rq y).words) (fun _ _ _ _ => rfl) ..)
  · have hrouted' : routedTo dest s = true := hrouted
    have hprobe : ∀ w, w = frameFor 3 2 dest s.cfg.activeGen [] →
        ownFabProbe (some (rtt, hops)) rq (taken 0x3202 t rq s) =
          okay [snap (originate w (taken 0x3202 t rq s)), mkWord [(0, 64, rtt), (64, 10, hops)]]
            (originate w (taken 0x3202 t rq s)) := by
      rintro w rfl
      unfold ownFabProbe
      rw [guarded_pass (pass_cons (by simpa using ⟨hq, hpos⟩) (pass_cons (by simpa using hrouted') (by simp)))]
      simp only [taken_cfg, dest, q]
    generalize frameFor 3 2 dest s.cfg.activeGen [] = w at hprobe
    have hsame := originate_same w (taken 0x3202 t rq s)
    have hsnap : snap (originate w (taken 0x3202 t rq s)) = snap now :=
      (snap_congr (hsame .now (by decide)) (hsame .time (by decide))).trans snap_taken
    have hown := hprobe w rfl
    rw [hsnap] at hown
    exact completes_own (n := 0) h rfl (lenIs_between 1) hown (by simp) (by simp) trivial
  · intro h hq on
    apply completes_own (n := 0) h rfl (lenIs_between 1)
    · unfold ownEthmConfig
      exact guarded_pass (by simpa using hq)
    · simp
    · simp
    · rw [settle_eth, okaySteps_st, ethSet_eth]
      simp [on, e, p, q]
  · apply completes_own (n := 0) h rfl (lenIs_between 1)
    · unfold ownEthmPtpConfig
      exact guarded_pass (by simpa using hq)
    · simp
    · simp
    · rw [settle_eth, settle_time, okaySteps_st]
      exact ⟨taken_eq (fun y => (setPtp q y).eth) (fun _ _ _ _ _ => rfl) .., taken_eq (fun y => (setPtp q y).time) (fun _ _ _ _ _ => rfl) ..⟩
  · apply completes_own (n := 0) h rfl (lenIs_between 1) 
      (u := { taken 0x3303 t rq s with free := (taken 0x3303 t rq s).free + 1 })
    · unfold ownEthmStatus
      rw [guarded_pass (by simpa using hq)]
      refine congrArg₂ okay ?_ rfl
      simp only [snap_taken, ethOf_taken, ptpState_taken, taken_time, taken_fuseShadow, taken_eth, e, x, p, q, now]
    · generalize taken 0x3303 t rq s = y
      simp
    · simp
    · trivial

end Sys2Proof.Machine
end

section
/-! The commands of the basin and of the operators (chapter 16). -/

set_option maxRecDepth 4000

namespace Sys2Proof.Machine

section
variable {op : Nat} {t : Time} {rq : Request} {s : State}

@[simp] theorem segOf_taken (g : Nat) : segOf (taken op t rq s) g = segOf s g := taken_eq (segOf · g) (fun _ _ _ _ _ => rfl) ..
@[simp] theorem segOff_taken (g : Nat) : segOff (taken op t rq s) g = segOff s g := by simp [segOff]
@[simp] theorem totalMib_taken (g size : Nat) : totalMib (taken op t rq s) g size = totalMib s g size := by simp [totalMib]
@[simp] theorem segStatus_taken (g : Nat) : segStatus (taken op t rq s) g = segStatus s g := by simp [segStatus]
@[simp] theorem operOf_taken (n : Nat) : operOf (taken op t rq s) n = operOf s n := taken_eq (operOf · n) (fun _ _ _ _ _ => rfl) ..
@[simp] theorem combineRateOk_taken (k : OpCfg) : combineRateOk (taken op t rq s) k = combineRateOk s k :=
  taken_eq (combineRateOk · k) (fun _ _ _ _ _ => rfl) ..

theorem inputRate_retake (n : Time) (mb : List Mailbox) (w q : List Waiting) (s : State) (fuel : Nat) (i : OpIn) :
    inputRate (retake n mb w q s) fuel i = inputRate s fuel i := by
  induction fuel generalizing i with
  | zero => rfl
  | succ fuel ih => simp only [inputRate, ih]; rfl

theorem opCost_retake (n : Time) (mb : List Mailbox) (w q : List Waiting) (s : State) (k : OpCfg) :
    opCost (retake n mb w q s) k = opCost s k := by
  have hrate : inputRate (retake n mb w q s) 33 = inputRate s 33 := funext fun i => inputRate_retake ..
  simp only [opCost, hrate]

@[simp] theorem opCost_taken (k : OpCfg) : opCost (taken op t rq s) k = opCost s k :=
  taken_eq (opCost · k) (fun _ _ _ _ _ => opCost_retake ..) ..
@[simp] theorem opBudget_taken : opBudget (taken op t rq s) = opBudget s := taken_eq opBudget (fun _ _ _ _ _ => rfl) ..
@[simp] theorem opUsed_taken : opUsed (taken op t rq s) = opUsed s := by simp [opUsed]

end

/-- Settings whose UPDATE bits agree are merged alike. -/
theorem segMerge_congr {q : Word} {up up' : Nat → Bool} (h : ∀ i < 8, up i = up' i) (x : Segment) :
    segMerge q up x = segMerge q up' x := by
  simp only [segMerge, h 0 (by decide), h 1 (by decide), h 2 (by decide), h 3 (by decide), h 4 (by decide),
    h 5 (by decide), h 6 (by decide), h 7 (by decide)]

/-- Settles O28. -/
theorem basinAndOperatorCommandsComplete : Obligations.BasinAndOperatorCommandsComplete := by
  intro t rq s q now g x up there seg job
  refine ⟨fun h hq hunused hpre hpost hmirror hclass hsize hbusy hheld => ?_, fun h hq ⟨hoff, hheld⟩ => ?_, fun h hq hat ⟨hoff, hheld⟩ => ?_,
    fun h hq hat hform hnear hlate ⟨hoff, hheld⟩ => ?_, fun h hq hn ⟨hoff, hheld⟩ => ?_, fun h hq hn ⟨hoff, hheld⟩ => ?_,
    fun r h hq ⟨hoff, hheld⟩ hdma hr => ?_, fun h hq => ?_, fun r h hq ⟨hoff, hheld⟩ hclass hr => ?_, fun h hq hlo hhi hend => ?_, ?_, fun h hq hcfg => ?_, fun h hq => ?_, ?_⟩
  · have hall : ∀ i < 8, (up i && (segActive x && segBusyField q x i)) = false := by
      intro i hi
      cases hu : up i
      · rfl
      · rcases hbusy i hi hu with h | h <;> simp [h]
    have hmerge : segMerge q (fun i => up i && !(segActive x && segBusyField q x i)) = segMerge q up := by
      funext y
      refine segMerge_congr (fun i hi => ?_) y
      have := hall i hi
      cases hu : up i
      · rfl
      · simp only [hu, Bool.true_and] at this ⊢
        simp [this]
    have hsize' : (up 0 && decide (16128 < totalMib s g (fld q 10 14))) = false := by
      cases hu : up 0
      · rfl
      · rw [Bool.true_and, decide_eq_false_iff_not, Nat.not_lt]
        exact hsize hu
    apply completes_own (n := 0) h rfl (lenIs_between 1) (u := modSeg g (segMerge q up) (taken 0x4001 t rq s))
    · unfold ownBasinConfigSegment
      simp only [segOf_taken, totalMib_taken, isHeld_taken]
      rw [guardedIn_pass]
      · exact congrArg (fun f => okay [] (modSeg g f (taken 0x4001 t rq s))) hmerge
      · refine pass_cons ?_ (pass_cons ?_ (by simp))
        · simp only [Bool.or_eq_false_iff]
          exact ⟨⟨⟨⟨⟨⟨by simpa using hq, by simpa using hunused⟩, decide_eq_false (Nat.not_lt.mpr hpre)⟩,
            decide_eq_false (Nat.not_lt.mpr hpost)⟩, by simpa using hmirror⟩, by simpa using hclass⟩, hsize'⟩
        · rw [Bool.or_eq_false_iff]
          refine ⟨List.any_eq_false.mpr fun i hi => ?_, hheld⟩
          rw [Bool.not_eq_true]
          exact hall i (List.mem_range.mp hi)
    · simp
    · simp
    · simp [modSeg, modBasin, seg]
  · apply completes_own (n := 0) h rfl (lenIs_between 1)
    · unfold ownBasinClear
      exact guarded_pass (pass_cons (by simpa using ⟨hq, hoff⟩) (pass_cons (by simpa using hheld) (by simp)))
    · simp
    · simp
    · simp [modSeg, modBasin, seg, g, q]
  · have hat' : fbit (qword rq 1) 10 = false := hat
    apply completes_own (n := 0) h rfl (by rw [if_neg (by simp [hat'])]; exact lenIs_between 1)
      (u := trigger g 0 (tbNow now) (taken 0x4003 t rq s))
    · unfold ownBasinFreeze
      simp only [hat', tbNow_taken]
      exact guarded_pass (pass_cons (by simpa using ⟨hq, hoff⟩) (pass_cons (by simpa using hheld) (by simp)))
    · simp
    · simp
    · simp
  · have hat' : fbit (qword rq 1) 10 = true := hat
    apply completes_own (n := 0) h rfl (by rw [if_pos hat']; exact lenIs_between 2)
      (u := trigger g 0 (ofT96 (qword rq 2)) (taken 0x4003 t rq s))
    · unfold ownBasinFreeze
      simp only [hat', tbNow_taken, t96Near_taken]
      refine guarded_pass (pass_cons ?_ (pass_cons (by simpa using hheld) (by simp)))
      simp only [Bool.or_eq_false_iff, Bool.true_and, if_true]
      exact ⟨⟨by simpa using hq, by simpa using hoff⟩, ⟨by simpa using hform, by simpa using hnear⟩,
        decide_eq_false (Nat.not_lt.mpr hlate)⟩
    · simp
    · simp
    · simp
  · apply completes_own (n := 0) h rfl (lenIs_between 1) (u := releaseSeg g (taken 0x4004 t rq s))
    · unfold ownBasinRelease
      rw [guarded_pass (pass_cons (by simpa using ⟨hq, hoff⟩) (pass_cons (by simpa using hheld) (by simp)))]
      exact congrArg (okay []) (if_pos hn)
    · simp
    · simp
    · simp
  · apply completes_own (n := 0) h rfl (lenIs_between 1) (u := freeWords g (fld q 32 32) (taken 0x4004 t rq s))
    · unfold ownBasinRelease
      rw [guarded_pass (pass_cons (by simpa using ⟨hq, hoff⟩) (pass_cons (by simpa using hheld) (by simp)))]
      exact congrArg (okay []) (if_neg hn)
    · simp
    · simp
    · simp [freeWords, modSeg, modBasin, seg]
  · apply begins_own (n := 1) h rfl (lenIs_between 1)
    · unfold ownBasinExtract
      simp only [segOf_taken]
      rw [show extractRange (segOf s (fld (qword rq 1) 0 10)) _ _ _ = some r from hr]
      exact guarded_pass (pass_cons (by simpa using ⟨hq, hoff⟩) (pass_cons (by simpa using ⟨hdma, hheld⟩) (by simp)))
    · simp
    · simp
    · simp [modBasin, job, g, q]
  · apply completes_own (n := 0) h rfl (lenIs_between 1)
    · unfold ownBasinSetWindow
      exact guarded_pass (by simpa using hq)
    · simp
    · simp
    · simp [modBasin, q]
  · apply begins_own (n := 1) h rfl (lenIs_between 1)
    · unfold ownBasinExport
      simp only [segOf_taken]
      rw [show extractRange (segOf s (fld (qword rq 1) 0 10)) _ _ _ = some r from hr]
      exact guarded_pass (pass_cons (by simpa using ⟨⟨hq, hoff⟩, hclass⟩) (pass_cons (by simpa using hheld) (by simp)))
    · simp
    · simp
    · simp [modBasin, job, g, q]
  · apply completes_read h rfl (lenIs_between 1)
    unfold ownBasinStatus
    rw [guarded_pass]
    · simp only [snap_taken, segStatus_taken, now, g, q]
    · refine pass_cons ?_ (by simp)
      simp only [Bool.or_eq_false_iff]
      exact ⟨⟨⟨by simpa using hq, by simpa using Nat.ne_of_gt hlo⟩, decide_eq_false (Nat.not_lt.mpr hhi)⟩,
        decide_eq_false (Nat.not_lt.mpr hend)⟩
  · intro kind h n kc k nIn opers hkind hwanted hlen hq hin1 hin8 hrange hhold hbase hout hextra hunused hq2 hq3 hq4 hrest hclass
      hoverlap hcycle hrate
    have hkind' : opKindOf rq (fld (qword rq 1) 5 3) = some kind := hkind
    apply completes_own (n := 0) h rfl (lenIn_between 4 81) (u := modOper n (fun o => { o with cfg := some k }) (taken 0x4101 t rq s))
    · unfold ownOperConfig
      simp only [hkind', operOf_taken, combineRateOk_taken]
      refine guardedIn_pass (pass_cons hwanted (pass_cons (decide_eq_false (Nat.not_lt.mpr hlen)) (pass_cons ?_ (by simp))))
      have hextra' : (rq.payload.drop (opWords rq kc)).all (fun w => w == 0) = true := by
        rw [List.all_eq_true]
        exact fun w hw => by simpa using hextra w hw
      have hunused' : ((List.range 8).all fun i => decide (i < nIn) || fld (qword rq (2 + i / 4)) (27 * (i % 4)) 27 == 0) =
          true := by
        rw [List.all_eq_true]
        intro i hi
        by_cases hin : i < nIn
        · simp [hin]
        · simpa [hin] using hunused i (List.mem_range.mp hi) (Nat.not_lt.mp hin)
      have hclass' : (fbit q 63 && !exportClass (fld q 80 3)) = false := by
        cases hb : fbit q 63
        · rfl
        · simpa using hclass hb
      have hslots : (modOper n (fun o => { o with cfg := some k }) (taken 0x4101 t rq s)).oper = opers := by
        simp [modOper, opers]
      simp only [Bool.or_eq_false_iff]
      exact ⟨⟨⟨⟨⟨⟨⟨⟨⟨⟨⟨⟨⟨⟨⟨⟨by simpa using hq, by simpa using Nat.ne_of_gt hin1⟩, decide_eq_false (Nat.not_lt.mpr hin8)⟩,
        by simpa using hrange⟩, decide_eq_false (Nat.not_lt.mpr hhold)⟩, decide_eq_false (Nat.not_lt.mpr hbase)⟩,
        decide_eq_false (Nat.not_lt.mpr hout)⟩, by simpa using hextra'⟩, by simpa using hunused'⟩, by simpa using hq2⟩,
        by simpa using hq3⟩, by simpa using hq4⟩, by simpa using hrest⟩, hclass'⟩,
        (congrArg (fun l => opOverlap l n k) hslots).trans hoverlap⟩,
        (congrArg (fun l => inCycle l n 32 (feeders l n)) hslots).trans hcycle⟩, by simpa using hrate⟩
    · simp
    · simp
    · simp [modOper, opers]
  · apply completes_own (n := 0) h rfl (lenIs_between 1)
    · unfold ownOperStart
      refine guarded_pass (pass_cons ?_ (by simp))
      simp only [operOf_taken, Bool.or_eq_false_iff]
      refine ⟨by simpa using hq, List.any_eq_false.mpr fun n hn => ?_⟩
      simpa [Option.isSome_iff_ne_none] using hcfg n hn
    · rw [opRefresh_rest (by simp)]
      refine foldl_rest _ _ _ fun a n => ?_
      split <;> simp
    · simp
    · simp [q]
  · apply completes_own (n := 0) h rfl (lenIs_between 1)
    · unfold ownOperStop
      exact guarded_pass (by simpa using hq)
    · rw [opRefresh_rest (by simp)]
      refine foldl_rest _ _ _ fun a n => ?_
      split <;> simp
    · simp
    · simp [q]
  · intro h hq o
    apply completes_read h rfl (lenIs_between 1)
    unfold ownOperStatus
    rw [guarded_pass (by simpa using hq)]
    refine congrArg₂ okay ?_ rfl
    simp only [snap_taken, operOf_taken, opCost_taken, opBudget_taken, opUsed_taken, now, o, q] <;> rfl

end Sys2Proof.Machine
end

section
/-! `PWR.SET_STATE` to QUIET gates the port islands, and a port's diagnostic loop ends with its island (R404, R470). -/

set_option maxRecDepth 4000

namespace Sys2Proof.Machine

/-- A running node whose line port 0 loops back. -/
def loopedNode : State :=
  { hostRuns with
    mgmt := { hostRuns.mgmt with run := true }
    diag := { hostRuns.diag with loopback := [1, 0, 0, 0, 0] } }

/-- The host asks for QUIET. -/
def quietRequest : Request := { bareRequest with len := 1, payload := [1] }

/-- The diagnostic loops after a row. -/
def loopsAfter : Outcome → List Nat
  | .next u => u.diag.loopback
  | _ => []

/-- Refutes O29: QUIET ends the diagnostic loop of a line port, and the parts that the statement lets it change do not hold the
diagnostic state. -/
theorem not_clockAndPowerCommandsComplete : ¬ Obligations.ClockAndPowerCommandsComplete := by
  intro h
  have hruns : runs 0x5103 1 1 2 quietRequest loopedNode = true := by decide +kernel
  have hends : loopsAfter (exec (.pwrSetState 2 quietRequest true) loopedNode) = [0, 0, 0, 0, 0] := by decide +kernel
  obtain ⟨-, -, -, -, -, -, -, -, hstate, -⟩ := h 2 quietRequest loopedNode
  obtain ⟨-, -, hquiet, -⟩ := hstate true hruns (by decide +kernel) (by decide +kernel) (by decide +kernel)
  obtain ⟨u, hu, -, hsame, -⟩ := hquiet (by decide +kernel) (by decide +kernel) rfl
  have hdiag : u.diag = loopedNode.diag := hsame .diag (by decide)
  rw [hu] at hends
  simp only [loopsAfter, hdiag] at hends
  exact absurd hends (by decide)

end Sys2Proof.Machine
end

section
/-! The commands of memories, NV store, fuses, log and diagnosis (chapter 16). -/

set_option maxRecDepth 4000

namespace Sys2Proof.Machine

section
variable {op : Nat} {t : Time} {rq : Request} {s : State}

@[simp] theorem taken_tagMismatch : (taken op t rq s).tagMismatch = s.tagMismatch := taken_eq (·.tagMismatch) (fun _ _ _ _ _ => rfl) ..
@[simp] theorem taken_softRepairs : (taken op t rq s).softRepairs = s.softRepairs := taken_eq (·.softRepairs) (fun _ _ _ _ _ => rfl) ..
@[simp] theorem memOf_taken (m : Nat) : memOf (taken op t rq s) m = memOf s m := taken_eq (memOf · m) (fun _ _ _ _ _ => rfl) ..
@[simp] theorem portCarries_taken (p : Nat) : portCarries (taken op t rq s) p = portCarries s p :=
  taken_eq (portCarries · p) (fun _ _ _ _ _ => rfl) ..
@[simp] theorem taken_sagWarn : (taken op t rq s).pwr.sagWarn = s.pwr.sagWarn := by simp
@[simp] theorem taken_dma : (taken op t rq s).host.dma = s.host.dma := taken_eq (·.host.dma) (fun _ _ _ _ _ => rfl) ..
@[simp] theorem settle_nv_repairTable (r : Reply) : (settle op rq r).nv.repairTable = r.st.nv.repairTable := by
  rw [settle_journal]
theorem settle_part {p : Part} (r : Reply) (h : p ∉ answering) : p.same r.st (settle op rq r) := settle_same op rq r p h
theorem settle_dma (r : Reply) : (settle op rq r).host.dma = r.st.host.dma :=
  congrArg (·.dma) (settle_part (p := .host) r (by decide))

end

/-! ### Free words of the log (R371) -/

theorem drawWords_length (n : Nat) (s : State) : (drawWords n s).1.length = n := by
  induction n generalizing s with
  | zero => rfl
  | succ n ih => simp [drawWords, ih]

theorem drawWords_host (n : Nat) (s : State) : (drawWords n s).2.host = s.host := by
  induction n generalizing s with
  | zero => rfl
  | succ n ih => exact (ih _).trans rfl

/-! ### Own parts that pass their checks (R436, R469 to R474) -/

section
variable {rq : Request} {y : State}

/-- The repair at place `i` of the queue goes to the fuses. -/
def repairBlown (i : Nat) (y : State) : State :=
  let e := y.repairQueue.getD i default
  { y with
    fuses := { y.fuses with repairs := y.fuses.repairs ++ [(e.mem, e.row, e.spare)] }
    repairQueue := y.repairQueue.filter (· != e)
    nv := { y.nv with repairTable := y.repairQueue.filter (· != e) } }

theorem ownMemCommitRepair_verified (hq : onlyBits (qword rq 1) [(0, 8)] = true)
    (hi : fld (qword rq 1) 0 8 < y.repairQueue.length) (hheld : isHeld y .fuses = false)
    (hroom : y.fuses.repairs.length < 64) (hsag : y.pwr.sagWarn = false) :
    ownMemCommitRepair true rq y = okaySteps 2 [] (repairBlown (fld (qword rq 1) 0 8) y) := by
  unfold ownMemCommitRepair
  rw [guarded_pass]
  · rfl
  · refine pass_cons ?_ (pass_cons hheld (pass_cons (decide_eq_false (Nat.not_le.mpr hroom)) (pass_cons hsag (by simp))))
    rw [Bool.or_eq_false_iff]
    exact ⟨by simpa using hq, decide_eq_false (Nat.not_le.mpr hi)⟩

theorem ownFuseProgram_pass (unblown : BitVec 384) (cut : Option (BitVec 384))
    (hq : onlyBits (qword rq 1) [(0, 8), (96, 32)] = true) (hconfirm : fld (qword rq 1) 96 32 = 0x5128C0DE)
    (hwidth : fieldWidth (fuseCode rq) ≠ 0) (hvalue : (fuseValue rq).toNat < 2 ^ fieldWidth (fuseCode rq))
    (hlocks : fuseCode rq = 1 → locksOut (blow 1 (fuseBits rq) y.fuses) = false)
    (hkeys : fuseCode rq = 7 → noKeyLeft (blow 7 (fuseBits rq) y.fuses) = false) (hheld : isHeld y .fuses = false)
    (hopen : y.fuses.sealed = false) (hsag : y.pwr.sagWarn = false) :
    ownFuseProgram unblown cut rq y = fuseBlow unblown cut (fuseCode rq) (fuseBits rq) y := by
  have hlocks' : (fuseCode rq == 1 && locksOut (blow (fuseCode rq) (fuseBits rq) y.fuses) && !y.fuses.sealed) = false := by
    by_cases hc : fuseCode rq = 1
    · rw [hc, hlocks hc]
      rfl
    · simp [hc]
  have hkeys' : (fuseCode rq == 7 && noKeyLeft (blow (fuseCode rq) (fuseBits rq) y.fuses)) = false := by
    by_cases hc : fuseCode rq = 7
    · rw [hc, hkeys hc]
      rfl
    · simp [hc]
  refine guarded_pass (pass_cons ?_ (pass_cons hheld (pass_cons hopen (pass_cons hsag (by simp)))))
  simp only [Bool.or_eq_false_iff]
  exact ⟨⟨⟨⟨⟨by simpa using hq, by simpa using hconfirm⟩, by simpa using hwidth⟩,
    decide_eq_false (Nat.not_le.mpr hvalue)⟩, hlocks'⟩, hkeys'⟩

/-- The bits `held` of a field go to the fuses; those that apply at once to the shadow too (R469, R471). -/
def fieldBlown (code : Nat) (held : BitVec 384) (y : State) : State :=
  { y with
    fuses := blow code held y.fuses
    fuseShadow := if code = 1 ∨ code = 7 then blow code held y.fuseShadow else y.fuseShadow }

theorem fuseBlow_verified {unblown val : BitVec 384} (code : Nat) (h : (val &&& unblown).toNat = 0) :
    fuseBlow unblown none code val y = okaySteps 2 [] (fieldBlown code (val &&& ~~~unblown) y) := by
  unfold fuseBlow fieldBlown
  simp only [Option.getD_none, BitVec.and_allOnes, Option.isSome_none, Bool.false_eq_true, if_false, h, if_true]
  split <;> rfl

theorem fuseBlow_cut (unblown val held : BitVec 384) (code : Nat) : fuseBlow unblown (some held) code val y =
    { okaySteps 2 [] { y with fuses := blow code (val &&& ~~~unblown &&& held) y.fuses } with
      status := stSupplyLimit, done := 1 } := rfl

/-- The log's words, and the state without the free values that they took (R371). -/
def logWords (first count : Nat) (y : State) : List Word × State :=
  drawWords (2 * min count (Config.freeNat y.free - first)) { y with free := y.free + 1 }

theorem ownLogRead_pass (hq : onlyBits (qword rq 1) [(0, 64)] = true) (hheld : isHeld y .log = false) :
    ownLogRead rq y = accepted 1 [.log] [] (modDma 13
      (fun d => { d with feed := d.feed ++ (logWords (fld (qword rq 1) 0 32) (fld (qword rq 1) 32 32) y).1 })
      (logWords (fld (qword rq 1) 0 32) (fld (qword rq 1) 32 32) y).2) := by
  unfold ownLogRead
  exact guarded_pass (pass_cons (by simpa using hq) (pass_cons hheld (by simp)))

end

/-- Settles O30. -/
theorem storeAndDiagnosisCommandsComplete : Obligations.StoreAndDiagnosisCommandsComplete := by
  intro t rq s q now p e rest
  refine ⟨fun h => ?_, fun h hq hi hheld hroom => ?_, fun h => ?_, fun h hq hmask hidle hheld => ?_, fun h hq hbank => ?_,
    fun unblown cut h hq hconfirm hwidth hvalue hlocks hkeys hheld hopen => ⟨fun hcut hall => ?_, fun held hcut => ?_⟩,
    fun h hq hconfirm hheld hopen => ?_, fun h hq => ?_, fun h hq hheld => ?_, fun h hq hp hmode hcarry => ?_,
    fun h hq htest hheld hidle => ?_, fun samples h hq hlane hlo hhi hheld => ?_⟩
  · apply completes_read h rfl (lenIs_between 0)
    unfold ownMemStatus
    refine congrArg₂ okay ?_ rfl
    simp only [snap_taken, memOf_taken, taken_repairQueue, taken_fuses, taken_tagMismatch, taken_softRepairs, now]
  · have hsag : (taken 0x5302 t rq s).pwr.sagWarn = false := taken_sagWarn.trans (sagWarn_of_runs h)
    apply completes_supply (n := 1) h rfl (lenIs_between 1)
      (ownMemCommitRepair_verified hq (by simpa using hi) (by simpa using hheld) (by simpa using hroom) hsag)
    · generalize taken 0x5302 t rq s = y
      simp [repairBlown]
    · simp
    · simp [repairBlown, rest, e, q]
  · apply completes_read h rfl (lenIs_between 0)
    unfold ownNvsStatus
    refine congrArg₂ okay ?_ rfl
    simp only [snap_taken, taken_nv, now]
  · have hsag : (taken 0x5402 t rq s).pwr.sagWarn = false := taken_sagWarn.trans (sagWarn_of_runs h)
    have hown : ownNvsRefresh rq (taken 0x5402 t rq s) =
        accepted (refreshMask rq).length ((refreshMask rq).map Resource.nvRegion) [] (taken 0x5402 t rq s) := by
      unfold ownNvsRefresh
      refine guarded_pass (pass_cons ?_ (pass_cons ?_ (pass_cons hsag (by simp))))
      · simpa using ⟨hq, hmask⟩
      · rw [List.any_eq_false]
        simpa using hheld
    have hserve := runs_commandSupply (own := ownNvsRefresh) h (lenIs_between 1)
    rw [commandSupply, hown] at hserve
    injection hserve with hserve
    refine finishes_of (t := t) (parts := [.nv]) rfl hidle (congrArg (fun x => Host.Outcome.next (finishing rq s x _)) hserve)
      (List.length_pos_iff.mpr hmask) rfl rfl ?_ rfl rfl rfl (by decide) ?_
    · exact .of_rest (refreshRegions_rest (by simp) _ _)
    · have hnv : ∀ x : State, (endRq rq stOk (refreshMask rq).length x).nv.refreshed = x.nv.refreshed :=
        fun x => congrArg (·.refreshed) (endRq_same (rq := rq) (s := x) .nv (by decide))
      rw [hnv, refreshRegions]
      simp only [tbNow_settle, accepted_st, tbNow_taken, settle_journal, taken_nv, now]
  · apply completes_read h rfl (lenIs_between 1)
    unfold ownFuseRead
    rw [guarded_pass (by simpa using ⟨hq, hbank⟩), snap_taken, taken_fuses]
  · have hsag : (taken 0x5502 t rq s).pwr.sagWarn = false := taken_sagWarn.trans (sagWarn_of_runs h)
    have hown := ownFuseProgram_pass (y := taken 0x5502 t rq s) unblown cut hq hconfirm hwidth hvalue (by simpa using hlocks)
      (by simpa using hkeys) (by simpa using hheld) (by simpa using hopen) hsag
    rw [hcut, fuseBlow_verified _ hall] at hown
    subst hcut
    apply completes_supply (n := 1) h rfl (lenIn_between 2 5) hown
    · generalize taken 0x5502 t rq s = y
      simp [fieldBlown]
    · simp
    · simp [fieldBlown]
  · have hsag : (taken 0x5502 t rq s).pwr.sagWarn = false := taken_sagWarn.trans (sagWarn_of_runs h)
    have hown := ownFuseProgram_pass (y := taken 0x5502 t rq s) unblown cut hq hconfirm hwidth hvalue (by simpa using hlocks)
      (by simpa using hkeys) (by simpa using hheld) (by simpa using hopen) hsag
    rw [hcut, fuseBlow_cut] at hown
    subst hcut
    have hexec : exec (.fuseProgram t rq unblown (some held)) s = _ := runs_commandSupply h (lenIn_between 2 5)
    rw [hown] at hexec
    exact ⟨_, hexec, settle_journalled _ _ _, by simp, by simp⟩
  · have hsag := sagWarn_of_runs h
    apply completes_supply (n := 0) h rfl (lenIs_between 1)
      (u := { taken 0x5503 t rq s with
        fuses := { (taken 0x5503 t rq s).fuses with sealed := true }
        fuseShadow := { (taken 0x5503 t rq s).fuseShadow with sealed := true } })
    · unfold ownFuseLock
      refine guarded_pass (pass_cons (by simpa using ⟨hq, hconfirm⟩) (pass_cons (by simpa using hheld) ?_))
      exact pass_cons (by simpa using hopen) (pass_cons (by simpa using hsag) (by simp))
    · generalize taken 0x5503 t rq s = y
      simp
    · simp
    · simp
  · apply completes_own (n := 0) h rfl (lenIs_between 1)
      (u := { taken 0x5601 t rq s with diag := { (taken 0x5601 t rq s).diag with level := fld q 0 2, stream := fbit q 2 } })
    · unfold ownLogConfig
      exact guarded_pass (by simpa using hq)
    · generalize taken 0x5601 t rq s = y
      simp
    · simp
    · simp
  · apply begins_own (n := 1) h rfl (lenIs_between 1) (ownLogRead_pass hq (by simpa using hheld))
    · unfold logWords
      generalize taken 0x5602 t rq s = y
      simp
    · simp
    · refine ⟨(logWords (fld q 0 32) (fld q 32 32) (taken 0x5602 t rq s)).1, ?_, ?_⟩
      · rw [logWords, drawWords_length, taken_free]
      · rw [settle_dma]
        simp [modDma, logWords, drawWords_host, q]
  · have hcarry' : (fld q 3 2 != 0 && portCarries s p && !fbit q 5) = false := by
      rcases hcarry with h | h | h <;> simp [h]
    have hdiag : (checkLinks { taken 0x5F01 t rq s with
        diag := { (taken 0x5F01 t rq s).diag with loopback := (taken 0x5F01 t rq s).diag.loopback.set p (fld q 3 2) } }).diag =
        { (taken 0x5F01 t rq s).diag with loopback := (taken 0x5F01 t rq s).diag.loopback.set p (fld q 3 2) } :=
      (Unchanged.of_rest (checkLinks_rest (ps := signalling ++ [.free, .fab, .frames]) (by simp) _)) .diag (by decide)
    apply completes_own (n := 0) h rfl (lenIs_between 1) (u := checkLinks { taken 0x5F01 t rq s with
        diag := { (taken 0x5F01 t rq s).diag with loopback := (taken 0x5F01 t rq s).diag.loopback.set p (fld q 3 2) } })
    · unfold ownDiagLoopback
      simp only [portCarries_taken]
      refine guarded_pass (pass_cons ?_ (pass_cons hcarry' (by simp)))
      simp only [Bool.or_eq_false_iff]
      exact ⟨⟨by simpa using hq, decide_eq_false (Nat.not_lt.mpr hp)⟩, by simpa using hmode⟩
    · generalize taken 0x5F01 t rq s = y
      simp
    · simp
    · rw [settle_diag, okaySteps_st, hdiag]
      simp
  · refine finishes_own (n := 1) (holds := [.selftest]) (parts := []) (u := taken 0x5F02 t rq s)
      (v := settle 0x5F02 rq (accepted 1 [.selftest] [] (taken 0x5F02 t rq s))) h hidle rfl (lenIs_between 1) ?_ (by decide)
      rfl (if_pos rfl) rfl (by decide) trivial
    unfold ownDiagSelftest
    refine guarded_pass (pass_cons ?_ (pass_cons (by simpa using hheld) (by simp)))
    rw [Bool.or_eq_false_iff]
    exact ⟨by simpa using hq, decide_eq_false (Nat.not_lt.mpr htest)⟩
  · apply begins_own (n := 1) h rfl (lenIs_between 1)
    · unfold ownDiagCapture
      refine guarded_pass (pass_cons ?_ (pass_cons (by simpa using hheld) (by simp)))
      simp only [Bool.or_eq_false_iff]
      exact ⟨⟨⟨by simpa using hq, by simpa using hlane⟩, decide_eq_false (Nat.not_lt.mpr hlo)⟩,
        decide_eq_false (Nat.not_lt.mpr hhi)⟩
    · simp
    · simp
    · rw [settle_dma]
      simp [modDma]

end Sys2Proof.Machine
end

section
/-! Blank sources and synchronisations (R48 to R60, R136 to R138). -/

set_option maxRecDepth 4000

namespace Sys2Proof.Machine

/-! ### An edge on SYNC_N for all groups -/

section
variable {s : State} {k g : Nat}

theorem groupOf_modGroup_ne (f : Group → Group) (h : k ≠ g) : groupOf (modGroup k f s) g = groupOf s g := by
  simp [groupOf, modGroup, List.getD_eq_getElem?_getD, h]

theorem groupOf_modGroup (f : Group → Group) (h : g < s.daq.groups.length) :
    groupOf (modGroup g f s) g = f (groupOf s g) := by
  simp [groupOf, modGroup, List.getD_eq_getElem?_getD, h]

/-- What an edge does to one group. -/
def syncNGroup (ts : Time) (acc : State) (g : Nat) : State := if (groupOf acc g).syncN then addSync g ts acc else acc

variable (ts : Time)

theorem syncNGroup_ne (h : k ≠ g) : groupOf (syncNGroup ts s k) g = groupOf s g := by
  unfold syncNGroup addSync
  split
  · split
    · exact groupOf_modGroup_ne _ h
    · rfl
  · rfl

theorem syncNGroup_islands : (syncNGroup ts s k).islands = s.islands := by
  unfold syncNGroup addSync
  repeat' split
  all_goals rfl

theorem syncNGroup_length : (syncNGroup ts s k).daq.groups.length = s.daq.groups.length := by
  unfold syncNGroup addSync
  repeat' split
  all_goals simp [modGroup]

theorem syncNGroup_syncs (h : g < s.daq.groups.length) : (groupOf (syncNGroup ts s g) g).syncs = (groupOf s g).syncs ++
    (if (groupOf s g).syncN && isUp s (daqIsland g) then [ts] else []) := by
  unfold syncNGroup addSync
  cases (groupOf s g).syncN with
  | false => simp
  | true =>
    cases isUp s (daqIsland g) with
    | false => simp
    | true => simp [groupOf_modGroup _ h]

theorem foldl_syncNGroup_ne (l : List Nat) (h : g ∉ l) : groupOf (l.foldl (syncNGroup ts) s) g = groupOf s g := by
  induction l generalizing s with
  | nil => rfl
  | cons k l ih =>
    rw [List.mem_cons, not_or] at h
    rw [List.foldl_cons, ih h.2, syncNGroup_ne ts (Ne.symm h.1)]

theorem foldl_syncNGroup_syncs (l : List Nat) (hl : l.Nodup) (hg : g ∈ l) (h : g < s.daq.groups.length) :
    (groupOf (l.foldl (syncNGroup ts) s) g).syncs = (groupOf s g).syncs ++
      (if (groupOf s g).syncN && isUp s (daqIsland g) then [ts] else []) := by
  induction l generalizing s with
  | nil => simp at hg
  | cons k l ih =>
    obtain ⟨hk, hl⟩ := List.nodup_cons.mp hl
    rw [List.foldl_cons]
    by_cases hgk : k = g
    · subst hgk
      rw [foldl_syncNGroup_ne ts l hk, syncNGroup_syncs ts h]
    · have hup : isUp (syncNGroup ts s k) (daqIsland g) = isUp s (daqIsland g) := by
        simp only [isUp, islandOf, syncNGroup_islands]
      rw [ih hl ((List.mem_cons.mp hg).resolve_left (Ne.symm hgk)) (by rwa [syncNGroup_length]), syncNGroup_ne ts hgk, hup]

theorem foldl_syncNGroup_lastSyncN (l : List Nat) :
    (l.foldl (syncNGroup ts) s).daq.lastSyncN = s.daq.lastSyncN := by
  induction l generalizing s with
  | nil => rfl
  | cons k l ih =>
    rw [List.foldl_cons, ih]
    unfold syncNGroup addSync
    repeat' split
    all_goals rfl

end

/-- Settles O32. -/
theorem blanksAndSyncs : Obligations.BlanksAndSyncs := by
  intro t s now src
  refine ⟨fun pin w hw => ?_, fun pin => ?_, fun i hassert hraised hdue => ?_, fun n e hend hdue => ?_, fun w hw hfar => ?_,
    fun g a rest hsyncs hdue hup hnew => ?_⟩
  · exact happens_next (if_neg (Nat.not_lt.mpr hw)) (by simp) rfl
  · exact happens_next rfl (by simp) rfl
  · refine happens_next (if_pos ?_) (by simp) rfl
    rw [Bool.and_eq_true, Bool.and_eq_true, Bool.not_eq_true']
    exact ⟨⟨hassert, hraised⟩, decide_eq_true hdue⟩
  · refine happens_next ?_ (by simp [now]) rfl
    have hexec : exec (.tblkWindowEnd t n) s = execTblkWindowEnd t n s := rfl
    rw [hexec, execTblkWindowEnd]
    simp only [tick_daq, show (s.daq.blank.getD (4 + n.val) default).windowEnd = some e from hend]
    exact if_neg (Nat.not_lt.mpr hdue)
  · have hexec : exec (.syncNEdge t w) s = .next ((List.range 8).foldl (syncNGroup ((now.now + 200 * nsU) / 256 * 256))
        (modDaq (fun d => { d with lastSyncN := some now.now }) now)) := by
      have hdone : exec (.syncNEdge t w) s = execSyncNEdge t w s := rfl
      rw [hdone, execSyncNEdge]
      refine if_neg ?_
      rw [Bool.or_eq_true, not_or, decide_eq_true_eq, Nat.not_lt]
      refine ⟨hw, ?_⟩
      rw [tick_daq]
      cases hlast : s.daq.lastSyncN with
      | none => simp
      | some a => exact fun h => absurd (hfar a hlast) (Nat.not_le.mpr (of_decide_eq_true h))
    refine happens_next hexec ?_ ⟨?_, fun g hg hlen => ?_⟩
    · rw [foldl_rest]
      · simp [now]
      · intro a k
        unfold syncNGroup addSync
        split <;> simp
    · rw [foldl_syncNGroup_lastSyncN]
      rfl
    · exact foldl_syncNGroup_syncs (s := modDaq (fun d => { d with lastSyncN := some now.now }) now) _ (List.range 8)
        List.nodup_range (List.mem_range.mpr hg) hlen
  · refine happens_next ?_ (by simp [now]) rfl
    have hexec : exec (.groupSync t g) s = execGroupSync t g s := rfl
    rw [hexec, execGroupSync]
    rw [show (groupOf (tick t s) g.val).syncs = a :: rest from hsyncs]
    refine (if_neg ?_).trans (if_neg (by rw [Bool.not_eq_true]; exact hnew))
    rw [Bool.or_eq_true, not_or, decide_eq_true_eq, Nat.not_lt]
    exact ⟨hdue, by simpa using hup⟩

end Sys2Proof.Machine
end

section
/-! Generators and references (R38, R64 to R68, R70, R76, R77, R82, R89). -/

set_option maxRecDepth 4000

namespace Sys2Proof.Machine

section
variable (t : Time) (s : State)

@[simp] theorem chanOf_tick (c : Nat) : chanOf (tick t s) c = chanOf s c := rfl

@[simp] theorem genOf_tick (n : Nat) : genOf (tick t s) n = genOf s n := rfl

@[simp] theorem groupOf_tick (g : Nat) : groupOf (tick t s) g = groupOf s g := rfl

@[simp] theorem tick_sizes : (tick t s).sizes = s.sizes := rfl

end

/-! ### What leaves the generators -/

section
variable (s : State)

@[simp] theorem gens_modChan (c : Nat) (f : Chan → Chan) : (modChan c f s).daq.gens = s.daq.gens := rfl

@[simp] theorem gens_modAddr (a : Nat) (f : AddrSt → AddrSt) : (modAddr a f s).daq.gens = s.daq.gens := rfl

@[simp] theorem gens_emit (code argB arg : Nat) (extra : List Word) (tb : Nat) :
    (emit code argB arg extra tb s).daq.gens = s.daq.gens :=
  congrArg DaqSt.gens ((emit_same code argB arg extra tb s) .daq (by decide))

@[simp] theorem gens_emitNow (code argB arg : Nat) (extra : List Word) :
    (emitNow code argB arg extra s).daq.gens = s.daq.gens := gens_emit s ..

theorem gens_foldl {α : Type} (l : List α) (f : State → α → State) (hf : ∀ y a, (f y a).daq.gens = y.daq.gens) :
    (l.foldl f s).daq.gens = s.daq.gens := by
  induction l generalizing s with
  | nil => rfl
  | cons a l ih => rw [List.foldl_cons, ih, hf]

theorem gens_forChans (cs : List Nat) (f : Nat → State → State) (hf : ∀ c y, (f c y).daq.gens = y.daq.gens) :
    (forChans cs f s).daq.gens = s.daq.gens := gens_foldl s cs _ fun y c => hf c y

theorem gens_excChange (n : Nat) (tc : Time) : (excChange n tc s).daq.gens = s.daq.gens := by
  refine gens_forChans s _ _ fun c y => ?_
  split <;> rfl

theorem gens_ratioEdge (n : Nat) (before : Bool) (t : Time) : (ratioEdge n before t s).daq.gens = s.daq.gens := by
  have hjudge : (forChans (fedBy n) (fun c => refJudge c t) s).daq.gens = s.daq.gens :=
    gens_forChans s _ _ fun _ _ => rfl
  simp only [ratioEdge]
  split
  · rfl
  · split
    · exact hjudge
    · rw [gens_emit, hjudge]

theorem gens_capRefresh (c : Nat) : (capRefresh c s).daq.gens = s.daq.gens := by
  simp only [capRefresh]
  repeat' split
  all_goals rfl

theorem gens_cutFade (c : Nat) (at_ : Time) : (cutFade c at_ s).daq.gens = s.daq.gens := by
  simp only [cutFade]
  split
  · rfl
  · rw [gens_emit, gens_capRefresh]
    rfl
  · rw [gens_emit, gens_capRefresh]
    rfl

end

/-- A generator of the device reads back what was made of it. -/
theorem genOf_modGen {n : Nat} {s : State} (f : Gen → Gen) (h : n < s.daq.gens.length) :
    genOf (modGen n f s) n = f (genOf s n) := by
  simp [genOf, modGen, modDaq, List.getD_eq_getElem?_getD, h]

theorem gens_length_of_sizes {s u : State} (h : u.sizes = s.sizes) : u.daq.gens.length = s.daq.gens.length := by
  have hdaq := congrArg (fun l => (l.getD 4 []).getD 1 0) h
  exact hdaq

theorem genOf_congr {s u : State} (h : u.daq.gens = s.daq.gens) (n : Nat) : genOf u n = genOf s n := by
  rw [genOf, h, genOf]

@[simp] theorem gens_endHolder (res : Resource) (status : BitVec 16) (n : Nat) (s : State) :
    (endHolder res status n s).daq.gens = s.daq.gens :=
  congrArg DaqSt.gens ((Unchanged.of_rest (endHolder_rest (ps := answering) (fun _ h => h) res status n s)) .daq (by decide))

/-- A change of an input's position leaves the generators' cycles only (R35). -/
theorem gens_muxChange (c pos : Nat) (t0 : Time) (s : State) : (muxChange c pos t0 s).daq.gens =
    s.daq.gens.modify (c / 4) (fun g => { g with acc := g.acc.filter (fun z => z.addr / 8 != c) }) := by
  have hforget : (forgetCycle c (cutFade c t0 s)).daq.gens = (cutFade c t0 s).daq.gens.modify (c / 4) (fun g =>
      { g with acc := g.acc.filter (fun z => z.addr / 8 != c) }) := rfl
  rw [← gens_cutFade s c t0, ← hforget]
  rfl

@[simp] theorem settingOf_acc (g : Gen) (l : List AcAccu) : settingOf { g with acc := l } = settingOf g := rfl

/-- Two changes of one generator are one. -/
theorem modGen_modGen (n : Nat) (f g : Gen → Gen) (s : State) :
    modGen n f (modGen n g s) = modGen n (fun x => f (g x)) s := by
  simp [modGen, modDaq, List.modify_modify_eq, Function.comp_def]

/-- Settles O33. -/
theorem generatorsAndReferences : Obligations.GeneratorsAndReferences := by
  intro t s now
  refine ⟨fun v hv => ?_, fun n v => ?_, fun n entry hentry => ?_, fun n pins htrip hlen => ?_, fun n ma below hma hover => ?_,
    fun n p m hrun htrip hmode hwin => ?_, fun n hac hrestart hdue => ?_, fun n hac hrestart => ?_,
    fun n e hend hdue => ?_, fun c mean rms k e hloop hdue hrun hholder hlen => ?_⟩
  · exact happens_next (if_neg (by simpa using hv)) (by simp) rfl
  · exact happens_next rfl (by simp) rfl
  · exact happens_next (if_neg (by simpa using hentry)) (by simp) rfl
  · have htrip' : ¬ (genOf (tick t s) n.val).tripped = true := by
      rw [Bool.not_eq_true]
      exact htrip
    refine happens_next (if_neg htrip') (by simp) ⟨?_, ?_, rfl⟩
    all_goals
      rw [genOf_congr (gens_ratioEdge _ _ _ _), genOf_congr (gens_emitNow _ _ _ _ _), genOf_congr (gens_excChange _ _ _)]
      rw [genOf_modGen _ (by rw [gens_length_of_sizes (s := s) (by simp)]; exact hlen)]
  · have hexec : exec (.excOverload t n ma below) s = execExcOverload t n ma below s := rfl
    refine happens_next ?_ (by simp [now]) rfl
    rw [hexec, execExcOverload]
    refine (if_neg (Nat.not_le.mpr hma)).trans (if_neg ?_)
    rw [Bool.and_eq_true, decide_eq_true_eq, not_and_or, Nat.not_lt, Bool.not_eq_true]
    exact hover
  · have hexec : exec (.leadDropMeasure t n p m) s = execLeadDropMeasure t n p m s := rfl
    refine happens_next (u := modGen n.val (fun g => { g with senseCount := 0 })
      (modGen n.val (fun g => { g with dropP := p, dropN := m }) now)) ?_ (by simp [now]) ?_
    · rw [hexec, execLeadDropMeasure]
      refine (if_neg ?_).trans ?_
      · simpa [hrun, htrip] using hmode
      · rw [show (genOf (tick t s) n.val).cfg.window = none from hwin]
        rfl
    · rw [modGen_modGen]
  · refine happens_next ?_ (by simp [now]) rfl
    have hexec : exec (.acPolaritySwap t n) s = execAcPolaritySwap t n s := rfl
    rw [hexec, execAcPolaritySwap]
    refine (if_neg ?_).trans ((if_neg ?_).trans (if_neg ?_))
    · simpa using hac
    · simpa using hrestart
    · exact Int.not_lt.mpr hdue
  · intro lead hbound hsync
    refine happens_next ?_ (by simp [now]) rfl
    have hexec : exec (.acPolaritySwap t n) s = execAcPolaritySwap t n s := rfl
    rw [hexec, execAcPolaritySwap]
    refine (if_neg ?_).trans ((if_pos ?_).trans (if_pos ?_))
    · simpa using hac
    · exact hrestart
    · rw [Bool.and_eq_true]
      exact ⟨hbound, decide_eq_true hsync⟩
  · refine happens_next ?_ (by simp [now]) rfl
    have hexec : exec (.acDeadTimeEnd t n) s = execAcDeadTimeEnd t n s := rfl
    rw [hexec, execAcDeadTimeEnd]
    rw [show (genOf (tick t s) n.val).acDeadEnd = some e from hend]
    exact if_neg (Nat.not_lt.mpr hdue)
  · obtain ⟨y, hy⟩ : ∃ y, y = muxChange c.val (chanOf now c.val).pos e (modChan c.val (fun x => { x with loopback := none }) now) :=
      ⟨_, rfl⟩
    have hexec : exec (.loopbackEnd t c mean rms k) s = .next (endHolder (.channel c.val) stOk 2
        (modGen (c.val / 4) (fun g => { g with
          loopRes := some (LoopRes.mk c.val mean rms k (loopDev (genOf y (c.val / 4)) mean y).1 (tbAt now e)) })
          (loopDev (genOf y (c.val / 4)) mean y).2)) := by
      have hdone : exec (.loopbackEnd t c mean rms k) s = execLoopbackEnd t c mean rms k s := rfl
      rw [hdone, execLoopbackEnd]
      rw [show (chanOf (tick t s) c.val).loopback = some e from hloop]
      refine (if_neg (Nat.not_lt.mpr hdue)).trans ((if_pos ?_).trans (by rw [hy]))
      rw [Bool.and_eq_true]
      exact ⟨hrun, hholder⟩
    refine happens_next hexec (by simp [now, hy]) ⟨(loopDev (genOf y (c.val / 4)) mean y).1, ?_, fun v hv => ?_⟩
    · have hres : (genOf (modGen (c.val / 4) (fun g => { g with
          loopRes := some (LoopRes.mk c.val mean rms k (loopDev (genOf y (c.val / 4)) mean y).1 (tbAt now e)) })
          (loopDev (genOf y (c.val / 4)) mean y).2) (c.val / 4)).loopRes =
            some (LoopRes.mk c.val mean rms k (loopDev (genOf y (c.val / 4)) mean y).1 (tbAt now e)) := by
        rw [genOf_modGen _ (by rw [gens_length_of_sizes (s := s) (by simp [hy, now])]; exact hlen)]
      rw [genOf_congr (gens_endHolder _ _ _ _), hres]
      rfl
    · have hset : settingOf (genOf y (c.val / 4)) = some v := by
        rw [← hv, hy, genOf, gens_muxChange, gens_modChan]
        simp [now, genOf, List.getD_eq_getElem?_getD, hlen]
      simp [loopDev, hset]

end Sys2Proof.Machine
end

section
/-! Calibration: overlaps without enough pairs, delays, and rechecks (R172, R173). -/

set_option maxRecDepth 4000

namespace Sys2Proof.Machine

section
variable {g : Fin 8} {s : State}

theorem calOverlapLimit_eq (t : Time)
    (hlimit : (groupOf s g.val).cal.overlapStart +
      max (10 * secU) (intervals64 (tick t s) (groupOf s g.val).cal.chan) ≤ (tick t s).now)
    (hpairs : (groupOf s g.val).cal.pairs < 32) (hrun : s.mgmt.run = true) :
    exec (.calOverlapLimit t g) s = match (groupOf s g.val).cal.phase with
      | .connect => .next (endSlot g.val (emitNow 0x1404 0 (groupOf s g.val).cal.chan [] (tick t s)))
      | .overlapOut => .next (startOverlap g.val .overlapOut (tick t s).now (tick t s))
      | _ => .next (tick t s) := by
  refine (if_pos ?_).trans rfl
  rw [Bool.and_eq_true, Bool.and_eq_true]
  exact ⟨⟨decide_eq_true hlimit, decide_eq_true hpairs⟩, hrun⟩

end

/-- Settles O37. -/
theorem calibrationTroubles : Obligations.CalibrationTroubles := by
  intro t g s now k ev
  refine ⟨fun hlimit hpairs hrun hphase => ?_, fun hlimit hpairs hrun hphase => ?_, fun hphase hlate hraised => ?_,
    fun hphase => ?_, fun hphase htry => ?_, fun hphase htry => ?_, fun hphase => ?_, fun r hphase hrun => ?_⟩
  · refine happens_next ((calOverlapLimit_eq t hlimit hpairs hrun).trans ?_) (by simp [now]) rfl
    rw [show (groupOf s g.val).cal.phase = .connect from hphase]
  · refine happens_next ((calOverlapLimit_eq t hlimit hpairs hrun).trans ?_) (by simp [now]) rfl
    rw [show (groupOf s g.val).cal.phase = .overlapOut from hphase]
  · refine happens_next (if_pos ?_) (by simp) rfl
    rw [Bool.and_eq_true, Bool.and_eq_true, Bool.not_eq_true']
    exact ⟨⟨beq_iff_eq.mpr hphase, decide_eq_true hlate⟩, hraised⟩
  all_goals have hrecheck : ∀ b, exec (.spareRecheckDone t g b) s = execSpareRecheckDone t g b s := fun _ => rfl
  · refine happens_next ?_ (by simp [now, ev]) rfl
    rw [hrecheck, execSpareRecheckDone]
    rw [show (groupOf (tick t s) g.val).cal.phase = .recheckIn from hphase]
    rfl
  · refine happens_next ?_ (by simp [now, ev]) rfl
    rw [hrecheck, execSpareRecheckDone]
    rw [show (groupOf (tick t s) g.val).cal.phase = .recheckIn from hphase]
    exact (if_neg Bool.false_ne_true).trans (if_neg (by rw [Bool.not_eq_true]; exact htry))
  · refine happens_next ?_ (by simp [now, ev]) rfl
    rw [hrecheck, execSpareRecheckDone]
    rw [show (groupOf (tick t s) g.val).cal.phase = .recheckIn from hphase]
    exact (if_neg Bool.false_ne_true).trans (if_pos htry)
  · refine happens_next ?_ (by simp [now, ev]) rfl
    rw [hrecheck, execSpareRecheckDone]
    rw [show (groupOf (tick t s) g.val).cal.phase = .recheckOut from hphase]
    rfl
  · refine happens_next (if_pos ?_) (by simp) rfl
    rw [Bool.and_eq_true]
    exact ⟨beq_iff_eq.mpr hphase, hrun⟩

end Sys2Proof.Machine
end

section
/-! The round trip of a lane (R207), and lanes that a variant does not have (R4). -/

set_option maxRecDepth 4000

namespace Sys2Proof.Machine

/-- Timestamps whose differences fit give the round trip without a modulus. -/
theorem roundTripOf_eq {t0 t1 t2 t3 : Nat} {rt : Int} (h12 : t1 ≤ t2) (h2 : t2 < 2 ^ 40) (h03 : t0 ≤ t3)
    (hrt : rt = (t3 : Int) - t0 - (t2 - t1)) (hlow : -(2 ^ 39) ≤ rt) (hhigh : rt < 2 ^ 39) :
    roundTripOf (t0, t1, t2, t3) = rt := by
  have hturn : (t2 + 2 ^ 40 - t1) % 2 ^ 40 = t2 - t1 := by omega
  simp only [roundTripOf, hturn]
  split <;> omega

section
variable {p : Fin 3} {lane : Fin 8} {s : State}

/-- The model's test for a lane that the device has not. -/
theorem lane_absent_iff : (isV s && decide (4 ≤ lane.val)) = false ↔ isV s = false ∨ lane.val < 4 := by
  rw [Bool.and_eq_false_iff, decide_eq_false_iff_not, Nat.not_le]

end

/-- Settles O41. -/
theorem linkDelaysAreWatched : Obligations.LinkDelaysAreWatched := by
  intro t p lane s now l keep
  refine ⟨fun hv hlane => ?_, fun hthere => ⟨fun t0 t1 t2 t3 rt hstamps h12 h03 h2 _ hrt hlow hhigh => ?_, ?_⟩⟩
  · have habsent : (isV (tick t s) && decide (4 ≤ lane.val)) = true := by
      rw [Bool.and_eq_true]
      exact ⟨hv, decide_eq_true hlane⟩
    exact ⟨if_pos habsent, if_pos habsent⟩
  · have hpresent : ¬ (isV (tick t s) && decide (4 ≤ lane.val)) = true := by
      rw [Bool.not_eq_true]
      exact lane_absent_iff.mpr hthere
    have hstamps' : ((s.time.links.getD p.val []).getD lane.val default).stamps = some (t0, t1, t2, t3) := hstamps
    have hupdate : exec (.linkDelayUpdate t p lane) s = execLinkDelayUpdate t p lane s := rfl
    have htrip : roundTripOf (t0, t1, t2, t3) = rt := roundTripOf_eq h12 h2 h03 hrt hlow hhigh
    refine ⟨fun hsmall => ?_, fun r hraw hbig hhold => ?_, fun r hraw hbig hhold hlargest => ?_⟩
    · refine happens_next ?_ (by simp [now, keep]) rfl
      rw [hupdate, execLinkDelayUpdate]
      refine (if_neg hpresent).trans ?_
      simp only [tick_time, hstamps', htrip]
      cases hraw : ((s.time.links.getD p.val []).getD lane.val default).raw with
      | none => rfl
      | some r => exact if_pos (hsmall r hraw)
    · have hraw' : ((s.time.links.getD p.val []).getD lane.val default).raw = some r := hraw
      have hhold' : ((s.time.links.getD p.val []).getD lane.val default).holdUntil = none := hhold
      refine happens_next ?_ (by simp [now, keep]) rfl
      rw [hupdate, execLinkDelayUpdate]
      refine (if_neg hpresent).trans ?_
      simp only [tick_time, hstamps', htrip, hraw', hhold']
      exact if_neg (Nat.not_le.mpr hbig)
    · have hraw' : ((s.time.links.getD p.val []).getD lane.val default).raw = some r := hraw
      obtain ⟨e, he⟩ := Option.isSome_iff_exists.mp hhold
      have hhold' : ((s.time.links.getD p.val []).getD lane.val default).holdUntil = some e := he
      refine happens_next ?_ (by simp [now, keep]) rfl
      rw [hupdate, execLinkDelayUpdate]
      refine (if_neg hpresent).trans ?_
      simp only [tick_time, hstamps', htrip, hraw', hhold']
      refine (if_neg (Nat.not_le.mpr hbig)).trans ?_
      cases hl : ((s.time.links.getD p.val []).getD lane.val default).largest with
      | none => rfl
      | some b => simp only [if_pos (hlargest b hl)]; rfl
  · intro e ch hhold hdue hlargest
    have hhold' : ((s.time.links.getD p.val []).getD lane.val default).holdUntil = some e := hhold
    have hlargest' : ((s.time.links.getD p.val []).getD lane.val default).largest = some ch := hlargest
    refine happens_next ?_ (by simp [now]) rfl
    have htimer : exec (.linkDelayEventTimer t p lane) s = execLinkDelayEventTimer t p lane s := rfl
    rw [htimer, execLinkDelayEventTimer]
    refine (if_neg ?_).trans ?_
    · rw [Bool.not_eq_true]
      exact lane_absent_iff.mpr hthere
    · simp only [tick_time, hhold', hlargest']
      exact if_neg (Nat.not_lt.mpr hdue)

end Sys2Proof.Machine
end

section
/-! Lanes that a variant does not have (R3), and lanes in training (R248 to R253). -/

set_option maxRecDepth 4000

namespace Sys2Proof.Machine

/-- Settles O47. -/
theorem absentLanesStop : Obligations.AbsentLanesStop := by
  intro t p lane s h
  have hnot : ¬ lanePresent (tick t s) lane.val = true := by
    rw [Bool.not_eq_true]
    exact h
  refine ⟨fun i hi => ?_, fun b => if_neg hnot, fun f => if_neg hnot, fun q cw m => if_neg hnot,
    fun a b => if_neg hnot, fun n => if_neg hnot, fun tap up g => if_neg hnot, fun n => if_neg hnot,
    fun j cw v => if_neg hnot, fun slot info hslot => if_neg (hslot ▸ hnot)⟩
  simp only [List.mem_cons, List.not_mem_nil, or_false] at hi
  rcases hi with rfl | rfl | rfl | rfl | rfl | rfl
  all_goals exact if_neg hnot

/-- Settles O45. -/
theorem lanesTrain : Obligations.LanesTrain := by
  intro t p lane s hpresent now l x
  have hlane : lanePresent now l = true := hpresent
  refine ⟨fun hruns hen hretry hstate => ?_, fun hstate => ?_, fun hstate => ⟨?_, ?_⟩,
    fun f hstate => ⟨fun hgood => ?_, fun hbad => ?_⟩, fun hstate hlate => ?_, fun r hretry hdue hen hruns hstate => ?_⟩
  · have hnow : (match x.retryAt with | some r => decide (now.now < r) | none => false) = false := by
      cases hr : x.retryAt with
      | none => rfl
      | some r => exact decide_eq_false (Nat.not_lt.mpr (hretry r hr))
    refine happens_next ((if_pos hlane).trans (congrArg _ (if_pos ?_))) (by simp) rfl
    refine Bool.and_eq_true_iff.mpr ⟨Bool.and_eq_true_iff.mpr ⟨Bool.and_eq_true_iff.mpr ⟨hruns, hen⟩, ?_⟩, ?_⟩
    · exact (congrArg (!·) hnow).trans rfl
    · rw [Bool.or_eq_true, Bool.and_eq_true, beq_iff_eq, beq_iff_eq, decide_eq_true_eq]
      exact hstate
  · exact happens_next ((if_pos hlane).trans (congrArg _ (if_pos hstate))) (by simp) rfl
  · exact happens_next ((if_pos hlane).trans (congrArg _ ((if_neg (not_not.mpr hstate)).trans (if_pos rfl)))) (by simp) rfl
  · exact happens_next ((if_pos hlane).trans (congrArg _ ((if_neg (not_not.mpr hstate)).trans
      (if_neg Bool.false_ne_true)))) (by simp) rfl
  · have hin : ¬ laneOrderBad s p.val l f.val = true := by
      rw [Bool.not_eq_true]
      exact hgood
    refine happens_next ((if_pos hlane).trans (congrArg _ ((if_neg (not_not.mpr hstate)).trans (if_neg hin)))) (by simp) ?_
    simp only [Bool.and_eq_true, decide_eq_true_eq]
    rfl
  · exact happens_next ((if_pos hlane).trans (congrArg _ ((if_neg (not_not.mpr hstate)).trans (if_pos hbad)))) (by simp) rfl
  · intro s1
    refine happens_next ((if_pos hlane).trans (congrArg _ (if_pos ?_))) (by split <;> simp) ?_
    · rw [Bool.and_eq_true, Bool.or_eq_true, Bool.or_eq_true, beq_iff_eq, beq_iff_eq, beq_iff_eq, or_assoc]
      exact ⟨hstate, decide_eq_true hlate⟩
    · have hthird : x.failRun + 1 = 3 ↔ x.failRun = 2 := by omega
      have hown : modLane p.val l (fun y => { y with
          failRun := y.failRun + 1, trainFailures := satAdd 64 y.trainFailures 1, retryAt := some (now.now + 100 * msU)
          laneRx := none }) now = modLane p.val l (fun y => { y with
          failRun := x.failRun + 1, trainFailures := satAdd 64 x.trainFailures 1, retryAt := some (now.now + 100 * msU)
          laneRx := none }) now := modLane_congr rfl
      have hs1 := congrArg (toLane p.val l .down) hown
      exact if_congr hthird (congrArg (emitNow 0x3002 (laneCode p.val l) 3 []) hs1) hs1
  · have hwait : (laneOf (tick t s) p.val lane.val).retryAt = some r := hretry
    have hexec : exec (.laneRetryTimer t p lane) s = execLaneRetryTimer t p lane s := rfl
    refine happens_next (u := startTraining p.val l now) ?_ (by simp [now]) rfl
    rw [hexec, execLaneRetryTimer]
    refine (if_pos hlane).trans (congrArg _ ?_)
    simp only [hwait]
    refine if_pos ?_
    rw [Bool.and_eq_true, Bool.and_eq_true, Bool.and_eq_true, Bool.or_eq_true, beq_iff_eq, beq_iff_eq]
    exact ⟨⟨⟨decide_eq_true hdue, hen⟩, hruns⟩, hstate⟩

end Sys2Proof.Machine
end

section
/-! Clocks (R386 to R397, R463) and the voltage of VCTL (R398 to R404). -/

set_option maxRecDepth 4000

namespace Sys2Proof.Machine

section
variable (s : State)

theorem clk_raiseNmi (k : Nat) : (raiseNmi k s).clk = s.clk :=
  (Unchanged.of_rest (raiseNmi_rest (ps := [.host, .interrupts, .out]) (by simp) k s)) .clk (by decide)

theorem clk_opRefresh : (opRefresh s).clk = s.clk :=
  (Unchanged.of_rest (opRefresh_rest (ps := signalling ++ [.daq, .oper]) (fun _ h => h) s)) .clk (by decide)

theorem clk_endHolder (res : Resource) (status : BitVec 16) (n : Nat) : (endHolder res status n s).clk = s.clk :=
  (Unchanged.of_rest (endHolder_rest (ps := answering) (fun _ h => h) res status n s)) .clk (by decide)

theorem pwr_followTable : (followTable s).pwr = s.pwr :=
  (Unchanged.of_rest (followTable_rest (ps := [.time]) (by simp) s)) .pwr (by decide)

theorem clk_setY (y : Int) : (setY y s).clk = s.clk :=
  (Unchanged.of_rest (setY_rest (ps := [.time]) (by simp) y s)) .clk (by decide)

/-- A switch to an entry of the priority list that has a source leaves the entry in use (R388). -/
theorem switchTb_tbRef {entry : Nat} (h : entry ≠ 3) : (switchTb entry s).clk.tbRef = entry := by
  rw [switchTb, if_neg h]
  simp only [clk_setY, drawInt]
  split <;> rfl

end

/-- Settles O42. -/
theorem clocksFailAndReturn : Obligations.ClocksFailAndReturn := by
  intro t s now
  refine ⟨fun n stopped hmon hfail => ?_, fun n => ?_, fun b hq hup hrefail => ?_, fun hup hactive hpll hhold hlate => ?_,
    fun b hactive hsince htb => ?_, fun n hn hpll => ?_, fun a hhold hdue hexp => ?_, fun c count => ?_⟩
  · refine happens_next (if_neg ?_) (by simp) rfl
    rw [Bool.or_eq_true, Bool.not_eq_true', not_or, Bool.not_eq_false, Bool.not_eq_true]
    exact ⟨hmon, hfail⟩
  · exact happens_next rfl (by simp) rfl
  · refine happens_next (if_neg ?_) (by simp) rfl
    rw [Bool.or_eq_true, Bool.or_eq_true, Bool.and_eq_true, decide_eq_true_eq, Bool.not_eq_true', not_or, not_or, not_and,
      Nat.not_lt]
    refine ⟨⟨?_, ?_⟩, hrefail⟩
    · rw [Bool.not_eq_true]
      exact hq
    · rw [Bool.not_eq_false]
      exact hup
  · refine happens_next (if_neg ?_) (by simp) ?_
    · rw [Bool.or_eq_true, Bool.or_eq_true, Bool.or_eq_true, Bool.or_eq_true, decide_eq_true_eq, not_or, not_or, not_or, not_or,
        Nat.not_lt]
      have hactive' : activeRef (tick t s) = none := hactive
      have hpll' : pllOf (tick t s) 4 = .unlocked := hpll
      refine ⟨⟨⟨⟨?_, ?_⟩, ?_⟩, ?_⟩, hlate⟩
      · simp [hup]
      · simp [hactive']
      · simp [hpll']
      · simp [hhold]
    · rw [clk_opRefresh]
      simp only [modClk, clk_raiseNmi]
      refine ⟨trivial, trivial, ?_⟩
      rw [setPll, lockAll]
      refine congrArg (List.set · 0 PllState.hold) (List.ext_getElem? fun i => ?_)
      rw [List.getElem?_map]
      exact List.getElem?_mapIdx
  · have hactive' : activeRef (tick t s) = some b := hactive
    have hexec : exec (.tbRefSwitchUp t 0) s = execTbRefSwitchUp t 0 s := rfl
    refine happens_next (u := switchTb 0 now) ?_ (by simp [now]) ⟨rfl, switchTb_tbRef _ (by decide)⟩
    rw [hexec, execTbRefSwitchUp]
    have hlong : ((activeRef (tick t s)).map (fun b => (refInOf (tick t s) b).qualSince)).any
        (fun a => decide (a + 10 * secU ≤ (tick t s).now)) = true := by
      rw [hactive', Option.map_some, Option.any_some]
      exact decide_eq_true hsince
    refine if_pos ?_
    rw [Bool.and_eq_true]
    exact ⟨hlong, decide_eq_true htb⟩
  · have hexec : exec (.pllLocked t n) s = execPllLocked t n s := rfl
    refine happens_next ?_ (by simp [now]) rfl
    rw [hexec, execPllLocked]
    refine (if_neg (by omega)).trans ((if_neg ?_).trans ?_)
    · have hpll' : pllOf (tick t s) n.val ≠ .locked := hpll
      have h4 : n.val ≠ 4 := by omega
      simp [hpll', h4]
    · rcases hn with h | h | h <;> rw [h] <;> rfl
  · have hexec : exec (.pllHoldExpiry t) s = execPllHoldExpiry t s := rfl
    refine happens_next ?_ (by simp [now]) rfl
    rw [hexec, execPllHoldExpiry]
    simp only [tick_clk, hhold]
    refine if_neg ?_
    rw [hexp, Bool.or_false, decide_eq_true_eq, Nat.not_lt]
    exact hdue
  · intro k n expect hrun hfr hfm hex
    have hexec : exec (.counterGateClose t c count) s = execCounterGateClose t c count s := rfl
    refine happens_next (u := endHolder (.counter c.val) stOk 1 (modClk (fun x => { x with counters := x.counters.set c.val { k with
          running := false, measCount := count, refCount := n, ppm := ppmOf expect count } }) now)) ?_ (by simp [now]) ?_
    · rw [hexec, execCounterGateClose]
      refine (if_neg ?_).trans ?_
      · rw [Bool.not_eq_true', Bool.not_eq_false]
        exact hrun
      · have hfr' : ¬ nominal (tick t s) k.ref k.lane = 0 := hfr
        have hfm' : ¬ nominal (tick t s) k.meas k.lane = 0 := hfm
        have hex' : ¬ refEdges (nominal (tick t s) k.ref k.lane) k.gateMs % 2 ^ 64 * nominal (tick t s) k.meas k.lane /
          nominal (tick t s) k.ref k.lane = 0 := hex
        rw [show (tick t s).clk.counters.getD c.val default = k from rfl]
        simp only [hfr', hfm', hex', if_false, or_self]
        rfl
    · rw [clk_endHolder]
      rfl

/-- Settles O43. -/
theorem voltageStepsEnd : Obligations.VoltageStepsEnd := by
  intro t s now
  refine ⟨fun c mv => ?_, fun c hchange hlate htries => ?_, fun c hchange hlate htries => ?_, fun cs osc hrun => ?_⟩
  · intro s1 hchange hpass
    have hexec : exec (.vctlVerify t mv) s = execVctlVerify t mv s := rfl
    have hgo : ¬ (!vctlPasses c.toMv mv) = true := by simp [hpass]
    by_cases htries : c.tries = 0
    · refine happens_next (u := opNext (endHolder .op stOk 2 (emitNow 0x5102 c.target c.fromOp [] (setOp c.target s1)))) ?_
        (by simp [now, s1]) ⟨fun _ => rfl, fun h => absurd htries h⟩
      rw [hexec, execVctlVerify]
      simp only [tick_pwr, hchange]
      exact (if_neg hgo).trans (if_pos htries)
    · refine happens_next (u := opNext (endHolder .op stSupplyLimit (doneBefore c) s1)) ?_ (by simp [now, s1])
        ⟨fun h => absurd h htries, fun _ => rfl⟩
      rw [hexec, execVctlVerify]
      simp only [tick_pwr, hchange]
      exact (if_neg hgo).trans (if_neg htries)
  · have hexec : exec (.avsTimeout t) s = execAvsTimeout t s := rfl
    refine happens_next (u := writeBack c now) ?_ (by simp [now]) rfl
    rw [hexec, execAvsTimeout]
    simp only [tick_pwr, hchange]
    exact (if_neg (Nat.not_lt.mpr hlate)).trans (if_pos htries)
  · have hexec : exec (.avsTimeout t) s = execAvsTimeout t s := rfl
    refine happens_next ?_ (by simp [now]) rfl
    rw [hexec, execAvsTimeout]
    simp only [tick_pwr, hchange]
    exact (if_neg (Nat.not_lt.mpr hlate)).trans (if_neg htries)
  · refine happens_next (if_neg (by simp [hrun])) (by simp) ?_
    rw [pwr_followTable]
    simp only [modPwr]
    refine congrArg (fun l => { s.pwr with currents := l, oscTemp := osc }) (List.map_congr_left fun r _ => ?_)
    cases cs.getD r none <;> rfl

end Sys2Proof.Machine
end

section
/-! The Ethernet ports (R208, R295, R296), the basin and the operators at work (R307 to R322). -/

set_option maxRecDepth 4000

namespace Sys2Proof.Machine

/-- Settles O52. -/
theorem ethernetPortsBridge : Obligations.EthernetPortsBridge := by
  intro t p s now e s1 serves role
  have hserved : serves → ¬ (!isUp now .ethm || !e.enable || !e.link || !loopFree now (3 + p.val)) = true := by
    rintro ⟨hup, hen, hlink, hfree, -⟩
    have hfree' : loopFree now (3 + p.val) = true := hfree
    simp [now, hup, hen, hlink, hfree']
  have hbridge : serves → ¬ (!e.bridge) = true := fun ⟨_, _, _, _, hb⟩ => by simp [hb]
  have hform : ∀ {n}, 64 ≤ n → n ≤ 8144 → ¬ (!true || decide (n < 64) || decide (8144 < n)) = true := by
    intro n h1 h2
    simp only [Bool.not_true, Bool.false_or, Bool.or_eq_true, decide_eq_true_eq]
    omega
  refine ⟨fun n ptp ws fabric hs h1 h2 hrole hgroup => ?_, fun n ws hs h1 h2 hrole => ?_, fun n ok pause ptp ws hs hbad => ?_,
    fun n ptp ws hs h1 h2 => ?_, fun up hup hen hlink => ?_, fun g mac => ?_⟩
  · have hexec : exec (.ethmFrameRx t p n true false ptp ws) s = execEthmFrameRx t p n true false ptp ws s := rfl
    have hother : ¬ (ptp && (role == 1 || role == 2)) = true := by
      rcases hrole with h | ⟨hr1, hr2⟩
      · simp [h]
      · simp [hr1, hr2]
    refine happens_next (u := bridgeFrame p.val n (ptp && role == 3) ws fabric s1) ?_ (by simp [s1, now]) rfl
    rw [hexec, execEthmFrameRx]
    refine (if_neg (hserved hs)).trans ((if_neg (hbridge hs)).trans ((if_neg (hform h1 h2)).trans
      ((if_neg Bool.false_ne_true).trans ((if_neg hother).trans ?_))))
    rw [show (tick t s).eth.groups.getD (ethOf (tick t s) p.val).group none = some fabric from hgroup]
    rfl
  · have hrole' : (true && (role == 1 || role == 2)) = true := by simpa using hrole
    exact happens_next ((if_neg (hserved hs)).trans ((if_neg (hbridge hs)).trans ((if_neg (hform h1 h2)).trans
      ((if_neg Bool.false_ne_true).trans (if_pos hrole'))))) (by simp) rfl
  · have hbad' : (!ok || decide (n < 64) || decide (8144 < n)) = true := by
      simpa [or_assoc] using hbad
    exact happens_next ((if_neg (hserved hs)).trans ((if_neg (hbridge hs)).trans (if_pos hbad'))) (by simp) rfl
  · exact happens_next ((if_neg (hserved hs)).trans ((if_neg (hbridge hs)).trans ((if_neg (hform h1 h2)).trans
      (if_pos rfl)))) (by simp) rfl
  · refine happens_next (if_neg ?_) (by simp) rfl
    have hlink' : ¬ (ethOf (tick t s) p.val).link = up := hlink
    have hen' : up = true → (ethOf (tick t s) p.val).enable = true := hen
    cases up with
    | true => simp [hup, hlink', hen' rfl]
    | false => simpa [hup] using hlink'
  · refine happens_next rfl (by simp) fun x => ?_
    refine List.mem_filter.trans (and_congr_right fun _ => ?_)
    rw [Bool.not_eq_true', ← Bool.not_eq_true, Bool.and_eq_true, Bool.and_eq_true, beq_iff_eq, beq_iff_eq,
      decide_eq_true_eq, and_assoc]

/-- Settles O53. -/
theorem basinAndOperatorsWork : Obligations.BasinAndOperatorsWork := by
  intro t s now
  refine ⟨fun g q r hup hready hnext => ?_, fun g hstate hend hidle => ?_, fun g l htarget hstate hlast hdue => ?_,
    fun n i r rest hup hrun hinq => ?_, fun n k a b r => ?_⟩
  · have hexec : exec (.basinRecordWrite t g) s = execBasinRecordWrite t g s := rfl
    refine happens_next (u := arrive g.val r (putQueue { q with recs := q.recs.drop 1 } now)) ?_ (by simp [now]) rfl
    rw [hexec, execBasinRecordWrite]
    refine (if_neg ?_).trans ?_
    · simp [hup, hready]
    · rw [show nextFor (tick t s) (.basin g.val) = some (q, r) from hnext]
  · refine happens_next (if_pos ?_) (by simp) rfl
    rw [Bool.and_eq_true, Bool.and_eq_true]
    exact ⟨⟨beq_iff_eq.mpr hstate, decide_eq_true hend⟩, decide_eq_true hidle⟩
  · have hexec : exec (.mirrorOriginLost t g) s = execMirrorOriginLost t g s := rfl
    refine happens_next ?_ (by simp [now]) rfl
    rw [hexec, execMirrorOriginLost]
    rw [show (segOf (tick t s) g.val).lastMirror = some l from hlast]
    refine if_pos ?_
    rw [Bool.and_eq_true, Bool.and_eq_true, Bool.or_eq_true, beq_iff_eq, beq_iff_eq]
    exact ⟨⟨htarget, hstate⟩, decide_eq_true hdue⟩
  · have hexec : exec (.operatorInput t n) s = execOperatorInput t n s := rfl
    refine happens_next (u := opTake n.val i r (modOper n.val (fun o => { o with inq := rest }) now)) ?_ (by simp [now]) rfl
    rw [hexec, execOperatorInput]
    rw [show (operOf (tick t s) n.val).run = .running from hrun, show (operOf (tick t s) n.val).inq = (i, r) :: rest from hinq]
    exact if_pos hup
  · intro o there hcfg hkind hearly
    have hexec : exec (.operatorHoldExpiry t n) s = execOperatorHoldExpiry t n s := rfl
    refine happens_next ?_ (by simp [now]) rfl
    rw [hexec, execOperatorHoldExpiry]
    simp only [show (operOf (tick t s) n.val).cfg = some k from hcfg, hkind]
    rw [show earliest ((operOf (tick t s) n.val).buf.filter
      (fun r => decide (r.arrived + k.holdUs * usU ≤ (tick t s).now))) = some r from hearly]
    rfl

end Sys2Proof.Machine
end

section
/-! The memories and the NV store in time (R427 to R434, R443, R444, R471). -/

set_option maxRecDepth 4000

namespace Sys2Proof.Machine

/-- After a fold of settings each set place holds the value. -/
theorem getD_foldl_set {α : Type} (v d : α) (rs : List Nat) (l : List α) {i : Nat} (h : i < l.length) :
    (rs.foldl (fun l i => l.set i v) l).getD i d = if i ∈ rs then v else l.getD i d := by
  induction rs generalizing l with
  | nil => simp
  | cons k rs ih =>
    rw [List.foldl_cons, ih _ (by simpa using h)]
    by_cases hi : i ∈ rs
    · simp [hi]
    · by_cases hk : k = i
      · simp [hk, h]
      · simp [hi, hk, Ne.symm hk, List.getD_eq_getElem?_getD]

theorem length_foldl_set {α : Type} (v : α) (rs : List Nat) (l : List α) :
    (rs.foldl (fun l i => l.set i v) l).length = l.length := by
  induction rs generalizing l with
  | nil => rfl
  | cons k rs ih => rw [List.foldl_cons, ih, List.length_set]

section
variable (s : State)

theorem nvWritable_of (hrun : s.mgmt.run = true) (hsag : s.pwr.sagWarn = false) : nvWritable s = true := by
  rw [nvWritable, hrun, hsag]
  rfl

/-- The queue for the fuses is stored as it stands (R434). -/
theorem storeQueue_repairTable (h : nvWritable s = true) :
    (storeQueue s).nv.repairTable = (storeQueue s).repairQueue := by
  have hfold : ∀ (l : List QueueEntry) (y : State),
      Unchanged signalling y (l.foldl (fun acc e => emitNow 0x5301 4 e.mem [BitVec.ofNat 128 e.row] acc) y) := by
    intro l y
    exact .of_rest (foldl_rest _ _ _ fun a e => emitNow_rest (fun _ h => h) ..)
  rw [storeQueue, if_pos h]
  refine Eq.trans ?_ (hfold _ _ .repairQueue (by decide)).symm
  exact congrArg NvSt.repairTable (hfold _ _ .nv (by decide))

theorem storeQueue_same : Unchanged (signalling ++ [.nv]) s (storeQueue s) :=
  .of_rest (storeQueue_rest (fun _ h => h) s)

theorem memEvent_same (what m a : Nat) : Unchanged signalling s (memEvent what m a s) := emitNow_same 0x5301 what m _ s

end

/-- Settles O54. -/
theorem memoriesAndStoreAge : Obligations.MemoriesAndStoreAge := by
  intro t m s now n s1
  have hwrite : s.mgmt.run = true → s.pwr.sagWarn = false → nvWritable now = true := fun h1 h2 => nvWritable_of now h1 h2
  have hscrub : ∀ bits, exec (.scrubWord t m bits true) s = execScrubWord t m bits true s := fun _ => rfl
  have htag : ¬ (decide (m.val = 1) && !true) = true := by simp
  refine ⟨?_, fun hm => ?_, ?_, fun bits hm => ?_, fun row r hfind => ?_, fun hrun hsag hdue => ?_,
    fun hrun hsag hever hdue => ?_, fun hrun hstand hsag hdue hsv => ?_⟩
  · refine happens_next ?_ (by simp [s1, now]) rfl
    rw [hscrub, execScrubWord]
    exact if_neg htag
  · refine happens_next ?_ (by simp [s1, now]) rfl
    rw [hscrub, execScrubWord]
    refine (if_neg htag).trans ((if_neg ?_).trans rfl)
    simp [hm]
  · refine happens_next ?_ (by simp [s1, now]) rfl
    rw [hscrub, execScrubWord]
    exact if_neg htag
  · obtain rfl : m = 1 := Fin.ext hm
    have hexec : exec (.scrubWord t 1 bits false) s = .next (badWord 1 n (memEvent 5 1 n
      { s1 with tagMismatch := satAdd 64 s.tagMismatch 1 })) := rfl
    exact happens_next hexec (by simp [s1, now]) rfl
  · have hexec : exec (.softRepairComplete t m row) s = execSoftRepairComplete t m row s := rfl
    obtain ⟨s2, hs2⟩ : ∃ s2 : State, s2 = { modMem m.val (fun x => { x with
        copying := x.copying.filter (fun y => y.row != row), repairs := upsert x.repairs (fun y => y.row == row) r }) now with
      softRepairs := satAdd 32 s.softRepairs 1
      repairQueue := upsert s.repairQueue (fun y => y.mem == m.val && y.row == row)
        { mem := m.val, row := row, spare := r.spare, firstSeen := r.seen } } := ⟨_, rfl⟩
    have hsame : Unchanged (signalling ++ [.nv]) s2 (storeQueue (memEvent 3 m.val row s2)) :=
      ((memEvent_same s2 3 m.val row).mono (by simp)).trans (storeQueue_same _)
    have hstep : exec (.softRepairComplete t m row) s = .next (storeQueue (memEvent 3 m.val row s2)) := by
      rw [hexec, execSoftRepairComplete, hs2]
      simp only [show (memOf (tick t s) m.val).copying.find? (fun r => r.row == row) = some r from hfind]
      rfl
    refine happens_next hstep (by simp [hs2, now]) ⟨?_, ?_, ?_, fun hrun hsag => ?_⟩
    · rw [hsame .softRepairs (by decide), hs2]
    · rw [hsame .repairQueue (by decide), hs2]
    · rw [hsame .mems (by decide), hs2]
      rfl
    · refine storeQueue_repairTable _ (nvWritable_of _ ?_ ?_)
      · refine (congrArg MgmtSt.run (memEvent_same s2 3 m.val row .mgmt (by decide))).trans ?_
        rw [hs2]
        exact hrun
      · rw [memEvent_same s2 3 m.val row .pwr (by decide), hs2]
        exact hsag
  · refine happens_next (if_neg ?_) (by simp) ⟨rfl, rfl, rfl⟩
    rw [hwrite hrun hsag, Bool.not_true, Bool.false_or, decide_eq_true_eq, Nat.not_lt]
    exact hdue
  · refine happens_next (if_neg ?_) (by simp) ⟨rfl, length_foldl_set _ _ _, fun i hi hlen => ?_⟩
    · have hlate : s.nv.lastRefreshCheck.all (fun a => decide (a + 86400 * secU ≤ now.now)) = true := by
        cases hlast : s.nv.lastRefreshCheck with
        | none => rfl
        | some a =>
          rw [Option.all_some]
          exact decide_eq_true (hdue a hlast)
      rw [hwrite hrun hsag, tick_nv, hlate, tick_time, hever]
      decide
    · refine (getD_foldl_set _ _ _ _ hlen).trans (if_congr ?_ rfl rfl)
      rw [List.mem_filter, List.mem_range, decide_eq_true_eq]
      exact and_iff_right hi
  · refine happens_next (if_neg ?_) (by simp) rfl
    rw [Bool.or_eq_true, Bool.or_eq_true, Bool.or_eq_true, Bool.or_eq_true, decide_eq_true_eq, decide_eq_true_eq]
    rw [tick_mgmt, hrun, tick_pwr, hsag, show standbyUp (tick t s) = true from hstand]
    simp only [Bool.not_true, Bool.false_eq_true, false_or, not_or, Nat.not_lt, Nat.not_le]
    exact ⟨hdue, hsv⟩

end Sys2Proof.Machine
end

section
/-! Islands: the phase after a reset or a change of a gate (R15, R395, R396, R454). -/

set_option maxRecDepth 4000

namespace Sys2Proof.Machine

section
variable {s u : State} {i : Island}

theorem length_islands_of_sizes (h : u.sizes = s.sizes) : u.islands.length = s.islands.length := by
  have hlen := congrArg (fun l => (l.getD 0 []).getD 0 0) h
  exact hlen

/-- What leaves the islands leaves their phases. -/
theorem phase_of_unchanged {but : List Part} (h : Unchanged but s u) (hi : Part.islands ∉ but) (i : Island) :
    (islandOf u i).phase = (islandOf s i).phase := by
  have hget := congrArg (fun l : List IslandSt => (l.getD (islandIx i) { (default : IslandSt) with discards := 0 }).phase)
    (h .islands hi)
  unfold islandOf
  simpa only [List.getD_map] using hget

theorem islandIx_lt (i : Island) : islandIx i < 21 := by
  cases i with
  | daq g => exact Nat.lt_of_lt_of_le (Nat.add_lt_add_left g.isLt 5) (by decide)
  | _ => decide

theorem phase_modIsland (f : IslandSt → IslandSt) (h : s.islands.length = 21) :
    islandOf (modIsland s i f) i = f (islandOf s i) := by
  have hi : islandIx i < s.islands.length := h ▸ islandIx_lt i
  simp [islandOf, modIsland, List.getD_eq_getElem?_getD, hi]

theorem phase_setPhase (p : IslandPhase) (h : s.islands.length = 21) : (islandOf (setPhase s i p) i).phase = p := by
  rw [setPhase, phase_modIsland _ h]

/-- What an island does as it runs again leaves its phase. -/
theorem phase_islandUp (h : s.islands.length = 21) : (islandOf (islandUp i s) i).phase = .run := by
  rw [← phase_setPhase (s := s) (i := i) .run h]
  unfold islandUp
  simp only []
  split
  · exact phase_of_unchanged (.of_rest (daqUp_rest (ps := signalling ++ [.daq]) (fun _ h => h) _ _)) (by decide) _
  · exact phase_of_unchanged (.of_rest (xbarUp_rest (ps := [.fab]) (by simp) _)) (by decide) _
  · exact phase_of_unchanged (.of_rest (basinUp_rest (ps := [.basin]) (by simp) _)) (by decide) _
  · rfl

theorem phase_islandDown (keep : Bool) (p : IslandPhase) (h : s.islands.length = 21) :
    (islandOf (islandDown keep i p s) i).phase = p := by
  have hnew : (islandOf (modIsland s i (fun x =>
      if keep then { x with phase := p } else { phase := p, discards := 0, aborts := 0 })) i).phase = p := by
    rw [phase_modIsland _ h]
    split <;> rfl
  refine Eq.trans ?_ hnew
  have hparts : ∀ (ps : List Part) (y : State), Part.islands ∉ ps → Rest ps false y = Rest ps false (modIsland s i (fun x =>
      if keep then { x with phase := p } else { phase := p, discards := 0, aborts := 0 })) →
      (islandOf y i).phase = (islandOf (modIsland s i (fun x =>
        if keep then { x with phase := p } else { phase := p, discards := 0, aborts := 0 })) i).phase :=
    fun ps y hps hy => phase_of_unchanged (.of_rest hy) hps i
  refine hparts (answering ++ [.free, .host, .time, .daq, .clk, .line, .fab, .eth, .basin, .diag]) _ (by decide) ?_
  unfold islandDown
  simp only []
  split <;> simp

theorem phase_endWith (a : Agent) (src : BitVec 16) (seq : BitVec 32) (st : BitVec 16) (n : Nat) (ws : List Word)
    (s : State) (i : Island) : (islandOf (endWith a src seq st n ws s) i).phase = (islandOf s i).phase :=
  phase_of_unchanged (.of_rest (endWith_rest (ps := answering) (fun _ h => h) ..)) (by decide) i

theorem isUp_of_phase (h : (islandOf s i).phase = .run) : isUp s i = true := by rw [isUp, h]

theorem gateIsland_ne_ethm {n : Nat} (h10 : n ≠ 10) (h11 : n ≠ 11) : ¬ (n = 10 ∨ n = 11) := not_or.mpr ⟨h10, h11⟩

theorem phase_gateClosed {n : Nat} (h10 : n ≠ 10) (h11 : n ≠ 11) (h : s.islands.length = 21) :
    (islandOf (gateClosed n s) (gateIsland n)).phase = .gated := by
  rw [gateClosed, if_neg (gateIsland_ne_ethm h10 h11)]
  exact phase_islandDown _ _ h

theorem isUp_gateOpened {n : Nat} (h : s.islands.length = 21) : isUp (gateOpened n s) (gateIsland n) = true := by
  unfold gateOpened
  simp only []
  split
  · assumption
  · exact isUp_of_phase (phase_islandUp h)

end

/-- Settles O55. -/
theorem islandsReturn : Obligations.IslandsReturn := by
  intro t s hlen now names code
  have hlen' : now.islands.length = 21 := hlen
  refine ⟨fun n k r hrun => ?_, fun r hrun => ⟨?_, ?_⟩, fun r hrun => ?_⟩
  · have hexec : exec (.islandResetDrainEnd t k) s = execIslandResetDrainEnd t k s := rfl
    refine happens_next (u := endLong r.agent r.srcNode r.seq stOk 1 (islandUp (resetIsland (n - 32))
          (islandDown false (resetIsland (n - 32)) .inReset (k.foldl abortShake now)))) ?_ ?_ ⟨rfl, ?_⟩
    · rw [hexec, execIslandResetDrainEnd]
      simp only [show runningIsland (tick t s) 0x0104 = some (r, n) from hrun]
      rfl
    · simp [now]
    · refine (phase_endWith ..).trans (phase_islandUp ?_)
      have hsizes : (islandDown false (resetIsland (n - 32)) .inReset (k.foldl abortShake now)).sizes = s.sizes := by
        simp [now]
      exact (length_islands_of_sizes hsizes).trans hlen
  · have hexec : exec (.gateCloseDrainEnd t true) s = .next (endWith r.agent r.srcNode r.seq stOk 1 [0, 0]
        (gateClosed (code r) now)) := by
      have hdone : exec (.gateCloseDrainEnd t true) s = execGateCloseDrainEnd t true s := rfl
      rw [hdone, execGateCloseDrainEnd]
      split
      next hnone => cases hrun.symm.trans hnone
      next r' hsome =>
        obtain rfl : r = r' := Option.some.inj (hrun.symm.trans hsome)
        rfl
    refine happens_next hexec (by simp [now]) ⟨rfl, fun h10 h11 => ?_⟩
    exact (phase_endWith ..).trans (phase_gateClosed h10 h11 hlen')
  · have hexec : exec (.gateCloseDrainEnd t false) s = .next (endWith r.agent r.srcNode r.seq stBusy 0 [0, 1]
        (if code r = 10 ∨ code r = 11 then now else setPhase now (gateIsland (code r)) .run)) := by
      have hdone : exec (.gateCloseDrainEnd t false) s = execGateCloseDrainEnd t false s := rfl
      rw [hdone, execGateCloseDrainEnd]
      split
      next hnone => cases hrun.symm.trans hnone
      next r' hsome =>
        obtain rfl : r = r' := Option.some.inj (hrun.symm.trans hsome)
        rfl
    refine happens_next hexec ?_ ⟨rfl, fun h10 h11 => ?_⟩
    · split <;> simp [now]
    · refine (phase_endWith ..).trans ?_
      rw [if_neg (gateIsland_ne_ethm h10 h11)]
      exact phase_setPhase _ hlen'
  · have hexec : exec (.gateOpenDone t) s = .next (endWith r.agent r.srcNode r.seq stOk 1 [0, 0]
        (gateOpened (code r - 16) now)) := by
      have hdone : exec (.gateOpenDone t) s = execGateOpenDone t s := rfl
      rw [hdone, execGateOpenDone]
      split
      next hnone => cases hrun.symm.trans hnone
      next r' hsome =>
        obtain rfl : r = r' := Option.some.inj (hrun.symm.trans hsome)
        rfl
    refine happens_next hexec (by simp [now]) ⟨rfl, ?_⟩
    rw [isUp, phase_endWith]
    exact isUp_gateOpened hlen'

end Sys2Proof.Machine
end

section
/-! What the timebase does in time (R197, R216 to R222, R449). -/

set_option maxRecDepth 4000

namespace Sys2Proof.Machine

/-- A step decides no other while no slot is armed. -/
theorem stepBy_stepDue {s : State} (h : unarmed s) (delta : Int) (cause : StepCause) (origin : Option Nat) :
    (stepBy delta cause origin s).time.stepDue = s.time.stepDue := by
  unfold stepBy
  rw [fireThrough_unarmed (s := advance s) h]
  extract_lets x before s1 e s2 s3 s4
  have h4 : Rest (ownParts [.daq, .basin, .time]) false s4 = Rest (ownParts [.daq, .basin, .time]) false s := by
    simp only [s4]
    split <;> simp [s3, s2, s1, x]
  have hcut : Rest (ownParts [.daq, .basin, .time]) false (cutMeta s4) = Rest (ownParts [.daq, .basin, .time]) false s := by
    simp [h4]
  rw [stepSlots_unarmed (unarmed_of_rest hcut (by simp) h)]
  have htime : s4.time = s2.time := by
    simp only [s4]
    split <;> simp [s3]
  have hcutdue : (cutMeta s4).time.stepDue = s2.time.stepDue := congrArg TimeSt.stepDue htime
  exact hcutdue

theorem noteBin_same (s : State) : (noteBin s).now = s.now ∧ (noteBin s).time.table = s.time.table ∧
    (noteBin s).time.mode = s.time.mode ∧ (noteBin s).time.active = s.time.active ∧
    (noteBin s).time.activeSince = s.time.activeSince ∧ ∀ d, domOf (noteBin s) d = domOf s d := by
  unfold noteBin
  simp only []
  split <;> exact ⟨rfl, rfl, rfl, rfl, rfl, fun _ => rfl⟩

/-- Settles O39. -/
theorem timebaseRuns : Obligations.TimebaseRuns := by
  intro t s now
  refine ⟨fun d hdue harmed hnow hafter => ?_, ?_, fun p hp hrev hmode hactive hstate hlate => ?_, fun d w hstate hin hlate => ?_,
    ?_, fun hrun hsag hdirty => ?_, fun hmode hlate => ?_, fun hleap htime hdue => ?_, fun htb hup => ?_⟩
  · obtain ⟨y, hy⟩ : ∃ y, y = modTime (fun x => { x with stepDue := none }) now := ⟨_, rfl⟩
    have hyarmed : unarmed y := by rw [hy]; exact harmed
    obtain ⟨hstepped, -⟩ := stepBy_unarmed hyarmed d.delta d.cause d.origin
    have hexec : exec (.timebaseStep t) s = .next (stepBy d.delta d.cause d.origin y) := by
      have hdone : exec (.timebaseStep t) s = .next (stepPending (tick t s)) := rfl
      rw [hdone, stepPending, tick_time, hdue, hy]
    have hkept := stepBy_kept d.delta d.cause d.origin y
    have hdue' := stepBy_stepDue hyarmed d.delta d.cause d.origin
    refine happens_next hexec (by simp [hy, now]) ?_
    generalize stepBy d.delta d.cause d.origin y = x at hstepped hkept hdue' ⊢
    simp only [stepped, Prod.mk.injEq] at hstepped
    obtain ⟨hsum, hepoch, hlog⟩ := hstepped
    have hnow' : x.now = max s.now t := (now_of_kept hkept).trans (by rw [hy]; rfl)
    have hsum' : x.time.stepSum = s.time.stepSum + d.delta := hsum.trans (by rw [hy]; rfl)
    refine ⟨?_, ?_, ?_, ?_⟩
    · rw [tbNow_of hnow' hsum', tbNow_cast hnow, tick_now, tick_time]
      omega
    · exact hepoch.trans (by rw [hy]; rfl)
    · rw [hlog]
      rfl
    · exact hdue'.trans (by rw [hy]; rfl)
  · exact happens_next rfl (by simp) rfl
  · subst hp
    refine happens_next (if_pos ?_) (by simp) rfl
    simp only [Bool.and_eq_true, beq_iff_eq, bne_iff_ne]
    exact ⟨⟨⟨⟨hrev, hmode⟩, hactive⟩, hstate⟩, decide_eq_true hlate⟩
  · have hexec : exec (.faultRecovery t d) s = execFaultRecovery t d s := rfl
    refine happens_next ?_ (by simp [now]) rfl
    rw [hexec, execFaultRecovery]
    simp only [show (domOf (tick t s) d.val).withinSince = some w from hin]
    refine if_pos ?_
    rw [Bool.and_eq_true]
    exact ⟨beq_iff_eq.mpr hstate, decide_eq_true hlate⟩
  · intro n c y hmode hstate hlow hhigh hlate
    obtain ⟨hnow, htable, hmode', hact, hsince, hdom⟩ := noteBin_same now
    have hexec : exec (.holdoverLearn t) s = .next (modTime (fun x => { x with
        table := upsert x.table (fun e => e.1 == c) (c, match holdBin n.time.table c with
          | some old => old + roundDiv (y - old) 16
          | none => y), tableDirty := true, binLearned := n.now }) n) := by
      refine if_neg ?_
      simp only [Bool.or_eq_true, bne_iff_ne, decide_eq_true_eq, not_or, not_not, Nat.not_lt, Int.not_lt]
      rw [show noteBin (tick t s) = n from rfl, hmode', hact, hdom, hsince, hnow]
      exact ⟨⟨⟨⟨hmode, hstate⟩, hlow⟩, hhigh⟩, hlate⟩
    refine happens_next hexec (by simp [n, now]) ⟨rfl, hnow, fun hbin => ?_, fun v hbin => ?_⟩
    · have hbin' : holdBin n.time.table c = none := by rw [htable]; exact hbin
      rw [hbin']
      exact congrArg (upsert · _ _) htable
    · have hbin' : holdBin n.time.table c = some v := by rw [htable]; exact hbin
      rw [hbin']
      exact congrArg (upsert · _ _) htable
  · refine happens_next (if_pos ?_) (by simp) ⟨rfl, rfl⟩
    rw [Bool.and_eq_true]
    exact ⟨nvWritable_of now hrun hsag, hdirty⟩
  · refine happens_next (if_pos ?_) (by simp) rfl
    rw [Bool.and_eq_true]
    exact ⟨beq_iff_eq.mpr hmode, decide_eq_true hlate⟩
  · refine happens_next (if_pos ?_) (by simp) rfl
    rw [Bool.and_eq_true, Bool.and_eq_true, Bool.or_eq_true]
    exact ⟨⟨hleap, bne_iff_ne.mpr htime⟩, decide_eq_true hdue⟩
  · exact happens_next (if_pos ⟨htb, hup⟩) (by simp) rfl

end Sys2Proof.Machine
end

section
/-! Outputs of the time service and of the timed actions, and captures (R203, R212, R231 to R233, R244 to R247). -/

set_option maxRecDepth 4000

namespace Sys2Proof.Machine

/-- At a whole second, moved by the offset, PPS_OUT takes that second (R231). -/
theorem ppsSecond_of {s : State} {sec : Nat}
    (h : (tbNow s : Int) = (sec * secU : Nat) + s.tact.pps.offset * 256) : ppsSecond s = some sec := by
  have hwhole : (tbNow s : Int) - s.tact.pps.offset * 256 = ((sec * secU : Nat) : Int) := by
    rw [h, Int.add_sub_cancel]
  have hmod : ((sec * secU : Nat) : Int) % (secU : Int) = 0 := by
    rw [Int.natCast_mul, Int.mul_emod_left]
  unfold ppsSecond
  rw [hwhole]
  refine (if_pos ⟨Int.natCast_nonneg _, hmod⟩).trans ?_
  rw [Int.toNat_natCast, Nat.mul_div_cancel _ (by decide)]

/-- Which edges an input captures (R246). -/
theorem wanted_iff {fall : Bool} {e : Nat} :
    (if fall then e == 2 || e == 3 else e == 1 || e == 3) = true ↔ e = 3 ∨ e = (if fall then 2 else 1) := by
  cases fall <;> simp [or_comm]

/-- Settles O40. -/
theorem timedOutputsAndCaptures : Obligations.TimedOutputsAndCaptures := by
  intro t s now pps
  refine ⟨fun hadv hup => ?_, fun sec hup hsec hlast hsquelch hpulse htev => ?_, fun e hpulse hdue => ?_,
    fun due ring root hdue hnow hen hmode hsrc => ?_, fun i a hup hslot hdue => ?_, fun n q hpulse hdue => ?_,
    fun i fall wide hwide => ?_⟩
  · refine happens_next (if_neg ?_) (by simp) rfl
    have hadv' : advertises (tick t s) = true := hadv
    simp [hadv', hup]
  · have hexec : exec (.ppsOutPulse t) s = execPpsOutPulse t s := rfl
    have hsecond : ppsSecond (tick t s) = some sec := ppsSecond_of hsec
    have hpulse' : s.tact.pps.pulseEnd = none := hpulse
    obtain ⟨u, hu⟩ : ∃ u, u = modTod (fun x => { x with txDue := some (now.now + 200 * msU) })
        (modTact (fun x => { x with pps := { x.pps with
          pulseEnd := some (now.now + pps.width * 256), last := some (sec, s.time.epoch) } })
          (emitOut (.pps (now.now : Int) true) now)) := ⟨_, rfl⟩
    have hstep : exec (.ppsOutPulse t) s = .next u := by
      rw [hexec, execPpsOutPulse]
      simp only [hsecond, tick_tact, hpulse']
      refine (if_neg ?_).trans (congrArg _ ((if_neg htev).trans hu.symm))
      rw [Bool.or_eq_true, Bool.or_eq_true, Bool.and_eq_true, beq_iff_eq, not_or, not_or, not_and, Bool.not_eq_true,
        Bool.not_eq_true]
      refine ⟨⟨by simp [hup], hlast⟩, fun hq => hsquelch.resolve_left ?_⟩
      rw [Bool.not_eq_false]
      exact hq
    refine happens_next hstep (by simp [hu, now]) ?_
    rw [hu]
    exact ⟨rfl, rfl, rfl⟩
  · have hexec : exec (.ppsPulseEnd t) s = execPpsPulseEnd t s := rfl
    have hpulse' : s.tact.pps.pulseEnd = some e := hpulse
    refine happens_next (u := emitOut (.pps (e : Int) false) (modTact (fun x =>
      { x with pps := { x.pps with pulseEnd := none } }) now)) ?_ (by simp [now]) ⟨rfl, rfl⟩
    rw [hexec, execPpsPulseEnd]
    simp only [tick_tact, hpulse']
    exact if_neg (Nat.not_lt.mpr hdue)
  · have hexec : exec (.todTxMessage t) s = execTodTxMessage t s := rfl
    obtain ⟨u, hu⟩ : ∃ u, u = emitOut (.tod (todMessage (tbAt now due / secU + 1) s.time.utc
          (if tbState now = 0 then 0 else 2) (min (((domOf s s.time.active).hops + 3) / 4) 65535)))
        (modTod (fun x => { x with txDue := none }) now) := ⟨_, rfl⟩
    have hstep : exec (.todTxMessage t) s = .next u := by
      rw [hexec, execTodTxMessage]
      have hsrc' : (domOf (tick t s) s.time.active).source = .fabric ring root := hsrc
      simp only [tick_time, hdue, hmode, hsrc']
      refine (if_neg ?_).trans (congrArg _ hu.symm)
      rw [Bool.or_eq_true, Bool.not_eq_true', not_or, Bool.not_eq_false, decide_eq_true_eq, Nat.not_lt]
      exact ⟨hnow, hen⟩
    refine happens_next hstep (by simp [hu, now]) ?_
    rw [hu]
    exact ⟨rfl, rfl⟩
  · have hexec : exec (.actionFire t i) s = execActionFire t i s := rfl
    have hslot' : slotAt (tick t s) i.val = some a := hslot
    refine happens_next (u := fireThrough 256 (some i.val) now) ?_ (by simp [now]) rfl
    rw [hexec, execActionFire]
    simp only [hslot']
    exact (if_neg (by simp [hup])).trans (if_pos hdue)
  · have hexec : exec (.tevPulseEnd t n) s = execTevPulseEnd t n s := rfl
    have hpulse' : (tevAt (tick t s) n.val).pulse = some q := hpulse
    refine happens_next ?_ ?_ rfl
    · rw [hexec, execTevPulseEnd]
      simp only [hpulse']
      refine (if_neg (Nat.not_lt.mpr hdue)).trans (congrArg _ ?_)
      simp only [Bool.and_eq_true, beq_iff_eq]
      split
      next h => exact (if_pos h).symm ▸ rfl
      next h => exact (if_neg h).symm ▸ rfl
    · split <;> simp [now]
  · intro x wanted tb
    have hexec : exec (.tcapEdge t i fall wide) s = execTcapEdge t i fall wide s := rfl
    have hopen : isUp s .time = true → wanted → ¬ (!isUp now .time ||
        !(if fall then x.edge == 2 || x.edge == 3 else x.edge == 1 || x.edge == 3) || decide (wide < 2 * nsU)) = true := by
      intro hup hw
      rw [wanted_iff.mpr hw, Bool.or_eq_true, Bool.or_eq_true, decide_eq_true_eq, not_or, not_or, Nat.not_lt]
      exact ⟨⟨by simp [now, hup], by simp⟩, hwide⟩
    refine ⟨fun hup hw hlast hroom hev => ?_, fun l hup hw hlast hsoon => ?_⟩
    · have hev' : (tcapAt (tick t s) i.val).event = false := hev
      have hfull : decide (64 ≤ (tcapAt (tick t s) i.val).queue.length) = false := decide_eq_false (Nat.not_le.mpr hroom)
      have hfar : ¬ (tcapAt (tick t s) i.val).lastCapture.any (fun l => decide ((tick t s).now < l + 20 * nsU)) = true := by
        have hlast' : ∀ l, (tcapAt (tick t s) i.val).lastCapture = some l → l + 20 * nsU ≤ (tick t s).now := hlast
        cases h : (tcapAt (tick t s) i.val).lastCapture with
        | none => exact Bool.false_ne_true
        | some l =>
          rw [Option.any_some, decide_eq_true_eq, Nat.not_lt]
          exact hlast' l h
      refine happens_next ?_ ?_ rfl
      · refine (if_neg (hopen hup hw)).trans ((if_neg hfar).trans ?_)
        simp only [hev', hfull]
        rfl
      · simp [now]
    · refine happens_next ((if_neg (hopen hup hw)).trans (if_pos ?_)) (by simp) rfl
      have hlast' : (tcapAt (tick t s) i.val).lastCapture = some l := hlast
      rw [hlast', Option.any_some]
      exact decide_eq_true hsoon

end Sys2Proof.Machine
end

section
/-! The thermal trip of AON (R421): a power cut ends the loading of AON's seconds (R449). -/

set_option maxRecDepth 4000

namespace Sys2Proof.Machine

/-- The device at reset, while AON loads its seconds. -/
def loadingNode : State := { State.reset with aon := { State.reset.aon with loading := true } }

theorem loadingNode_whole : Whole loadingNode := resetIsWhole

/-- Whether AON loads its seconds after a row. -/
def loadsAfter : Outcome → Bool
  | .next u => u.aon.loading
  | _ => false

/-- Refutes O44: AON's trip cuts the power, which ends the loading of AON's seconds; the statement keeps it. -/
theorem not_temperaturesAreJudged : ¬ Obligations.TemperaturesAreJudged := by
  intro h
  obtain ⟨-, -, -, -, -, htrip, -⟩ := h 0 loadingNode loadingNode_whole
  obtain ⟨u, hu, haon, -⟩ := htrip (by decide +kernel)
  have hends : loadsAfter (exec (.aonThermalTrip 0) loadingNode) = false := by decide +kernel
  rw [hu] at hends
  have hloads : u.aon.loading = true := by
    rw [haon]
    rfl
  exact Bool.false_ne_true (hends.symm.trans hloads)

end Sys2Proof.Machine
end

section
/-! A lane that is UP (R207, R248 to R268). -/

set_option maxRecDepth 4000

namespace Sys2Proof.Machine

/-- Nothing has happened, or it happened long enough ago. -/
theorem match_due {o : Option Time} {f : Time → Bool} :
    (∀ c, o = some c → f c = true) → (match o with | some c => f c | none => true) = true := by
  intro h
  cases o with
  | none => rfl
  | some c => exact h c rfl

/-- Nothing has happened lately. -/
theorem match_near {o : Option Time} {f : Time → Bool} :
    (∀ c, o = some c → f c = false) → (match o with | some c => f c | none => false) = false := by
  intro h
  cases o with
  | none => rfl
  | some c => exact h c rfl

/-- Settles O46. -/
theorem lanesRun : Obligations.LanesRun := by
  intro t p lane s hpresent now l x hstate
  have hlane : lanePresent now l = true := hpresent
  have hup : ¬ (laneOf now p.val l).state ≠ .up := not_not.mpr hstate
  refine ⟨?_, fun cw m => ?_, ?_, fun high hfar => ?_, fun better hhost hdue hctle => ?_, fun tap up gain hdue hgain => ?_,
    fun ber => ?_, fun a hshed hat hdue => ?_⟩
  · refine happens_next ((if_pos hlane).trans (congrArg _ (if_neg hup))) (by simp) ⟨Config.freeBool s.free, ?_⟩
    refine congrArg (toLane p.val l .failed) (modLane_congr ?_)
    rfl
  · intro f s1 i s2
    have hport : ¬ p.castSucc.val = 2 := by
      have hp := p.isLt
      rw [Fin.val_castSucc]
      omega
    have hrx : ¬ ((laneOf now p.castSucc.val l).state ≠ .up && (laneOf now p.castSucc.val l).state ≠ .align : Bool) = true := by
      rw [show (laneOf now p.castSucc.val l).state = .up from hstate]
      decide
    refine ⟨fun hgood => ?_, fun hbad => ?_⟩
    · have hin : ¬ laneOrderBad now p.val l f = true := by
        rw [Bool.not_eq_true]
        exact hgood
      refine happens_next ((if_pos hlane).trans (congrArg _ ((if_neg hport).trans ((if_neg hrx).trans (if_neg hin))))) ?_ rfl
      simp only [List.cons_append, List.nil_append]
      split <;> simp
    · exact happens_next ((if_pos hlane).trans (congrArg _ ((if_neg hport).trans ((if_neg hrx).trans (if_pos hbad)))))
        (by simp) rfl
  · refine happens_next ((if_pos hlane).trans (congrArg _ ((if_neg hup).trans (if_pos rfl)))) (by simp) ?_
    exact congrArg (emitNow 0x3006 (laneCode p.val l) (min (x.slips + 1) (2 ^ 32 - 1)) []) (modLane_congr rfl)
  · have hnear := match_near (o := x.lastJust) (f := fun j => decide (10 * now.now < 10 * j + 32 * cycle10 x.half))
      fun j hj => decide_eq_false (Nat.not_lt.mpr (hfar j hj))
    exact happens_next ((if_pos hlane).trans (congrArg _ ((if_neg hup).trans ((if_neg Bool.false_ne_true).trans
      (if_neg fun h => Bool.false_ne_true (hnear.symm.trans h)))))) (by simp) rfl
  · have hlast := match_due (o := x.lastCtle) (f := fun c => decide (c + 10 * msU ≤ now.now))
      fun c hc => decide_eq_true (hdue c hc)
    refine happens_next ((if_pos hlane).trans (congrArg _ (if_neg fun h => ?_))) (by simp) (modLane_congr rfl)
    rcases Bool.or_eq_true_iff.mp h with h | h
    · rcases Bool.or_eq_true_iff.mp h with h | h
      · exact hup (of_decide_eq_true h)
      · exact Bool.false_ne_true (hhost.symm.trans h)
    · exact Bool.false_ne_true ((congrArg (!·) hlast).symm.trans h)
  · have hlast := match_due (o := x.lastFir) (f := fun c => decide (c + secU ≤ now.now))
      fun c hc => decide_eq_true (hdue c hc)
    refine happens_next ((if_pos hlane).trans (congrArg _ (if_neg fun h => ?_))) (by simp) rfl
    rcases Bool.or_eq_true_iff.mp h with h | h
    · rcases Bool.or_eq_true_iff.mp h with h | h
      · exact hup (of_decide_eq_true h)
      · exact Bool.false_ne_true ((congrArg (!·) hlast).symm.trans h)
    · exact Nat.not_lt.mpr hgain (of_decide_eq_true h)
  · intro s1
    have hexec : exec (.laneDegradedChange t p lane ber) s = execLaneDegradedChange t p lane ber s := rfl
    refine ⟨fun hber hdeg hhigh => ?_, fun hber hdeg hlow => ?_⟩
    · refine happens_next ?_ (by simp [s1, now]) rfl
      rw [hexec, execLaneDegradedChange]
      refine (if_pos hlane).trans (congrArg _ ((if_neg hup).trans ?_))
      simp only [if_pos hber, show (laneOf (tick t s) p.val lane.val).degraded = false from hdeg,
        show (laneOf (tick t s) p.val lane.val).berHigh = 2 from hhigh]
      rfl
    · refine happens_next ?_ (by simp [s1, now]) rfl
      rw [hexec, execLaneDegradedChange]
      refine (if_pos hlane).trans (congrArg _ ((if_neg hup).trans ?_))
      simp only [if_neg (Nat.not_lt.mpr hber), show (laneOf (tick t s) p.val lane.val).degraded = true from hdeg,
        show (laneOf (tick t s) p.val lane.val).berLow = 9 from hlow]
      rfl
  · refine happens_next ((if_pos hlane).trans (congrArg _ (if_pos ?_))) (by simp) rfl
    have hdue' : shedDue x now.now = true := by
      rw [shedDue, hat]
      exact decide_eq_true hdue
    exact Bool.and_eq_true_iff.mpr ⟨Bool.and_eq_true_iff.mpr ⟨beq_iff_eq.mpr hstate, hshed⟩, hdue'⟩

end Sys2Proof.Machine
end

section
/-! Circuits: express transit, regeneration, adding and dropping (R254 to R266). -/

set_option maxRecDepth 4000

namespace Sys2Proof.Machine

section
variable {s : State} {p i : Nat}

/-- A slot that is not lost in a slip and does not settle carries its codeword. -/
theorem sendSlot_settled (h : Nat) (info : BitVec 120) (hout : slotOut s p i = true)
    (hslip : (laneOf s p (i / 8)).slipUntil ≤ s.now) (hwas : (slotSet s p i).was = none) :
    sendSlot p i h info s = emitOut (.codeword p i h (innerCode info)) s := by
  have hsettled : slotSettles s p i = false := by
    unfold slotSettles
    rw [hwas]
  unfold sendSlot
  rw [hout, hsettled, decide_eq_false (Nat.not_lt.mpr hslip)]
  rfl

/-- What a change of a circuit makes of it. -/
theorem circuitOf_modCircuit {id : BitVec 16} {f : Circuit → Circuit} {c : Circuit} (h : circuitOf (modCircuit id f s) id = some c) : ∃ x, c = f x := by
  have hmem : c ∈ s.line.circuits.map (fun c => if c.id == id then f c else c) := List.mem_of_find?_eq_some h
  have hid : c.id = id := by simpa using List.find?_some h
  obtain ⟨x, -, hx⟩ := List.mem_map.mp hmem
  by_cases hxid : x.id = id
  · exact ⟨x, by simpa [hxid] using hx.symm⟩
  · rw [if_neg (by simpa using hxid)] at hx
    exact absurd (hx ▸ hid) hxid

end

/-- Settles O48. -/
theorem circuitsRun : Obligations.CircuitsRun := by
  intro t s now
  refine ⟨fun p lane j cw v f => ?_, fun p i info => ?_, fun p i h info hout hslip hwas => ⟨?_, fun huse hshed hhops hlow => ?_⟩,
    fun id c hc hserves hshed => ?_⟩
  · intro y i x got hlane hup hrx hin huse
    have hexec : exec (.expressCodeword t p lane j cw v) s = execExpressCodeword t p lane j cw v s := rfl
    refine happens_next ?_ ?_ rfl
    · rw [hexec, execExpressCodeword]
      refine (if_pos (show lanePresent now lane.val = true from hlane)).trans (congrArg _ ?_)
      simp only [show (laneOf (tick t s) p.val lane.val).laneRx = some f from hrx]
      refine if_neg fun h => ?_
      rcases Bool.or_eq_true_iff.mp h with h | h
      · rcases Bool.or_eq_true_iff.mp h with h | h
        · exact of_decide_eq_true h hup
        · exact of_decide_eq_true h huse
      · exact Bool.false_ne_true ((congrArg (!·) hin).symm.trans h)
    · split <;> simp [got, now]
  · intro x hlane hin huse
    have hexec : exec (.circuitRegen t p i info) s = execCircuitRegen t p i info s := rfl
    refine happens_next ((if_pos (show lanePresent now (i.val / 8) = true from hlane)).trans (congrArg _ (if_neg fun h => ?_))) ?_ rfl
    · rcases Bool.or_eq_true_iff.mp h with h | h
      · exact of_decide_eq_true h huse
      · exact Bool.false_ne_true ((congrArg (!·) hin).symm.trans h)
    · split <;> simp
  · exact sendSlot_settled h info hout hslip hwas
  · have hpresent : slotPresent now p i = true := by
      unfold slotOut at hout
      simp only [Bool.and_eq_true] at hout
      exact hout.1.2
    have hshed' : (now.line.circuits.find? (fun c => c.id == (lineSlot now p i).circuit)).any (·.shed) = false := hshed
    unfold hopsOut
    simp only [hpresent, huse, hhops, hshed']
    refine (if_neg (by decide)).trans (if_neg ?_)
    rw [Bool.false_or, beq_iff_eq]
    omega
  · intro w
    have hserves' : ¬ (!dropServes now) = true := by
      have hserves'' : dropServes now = true := hserves
      simp [hserves'']
    have hc' : circuitOf (tick t s) id = some c := hc
    have hkept : ¬ c.shed = true := by simp [hshed]
    refine ⟨fun ws => ?_, fun ws skew hprot hdeg hcopy hskew => ?_, fun ws skew dd hprot hdeg hdd hcopy hskew => ?_,
      fun hprot hal hdeg => ?_⟩
    · have hexec : exec (.circuitAdd t id ws) s = execCircuitAdd t id ws s := rfl
      refine happens_next ?_ ?_ rfl
      · rw [hexec, execCircuitAdd]
        simp only [hc']
        refine if_neg fun h => ?_
        exact (Bool.or_eq_true_iff.mp h).elim hserves' hkept
      · split <;> simp [now]
    · have hexec : exec (.circuitDrop t id (some ws) none skew 0) s = execCircuitDrop t id (some ws) none skew 0 s := rfl
      refine happens_next ?_ (by simp [now]) rfl
      rw [hexec, execCircuitDrop]
      simp only [hc']
      refine (if_neg hserves').trans ((if_neg hkept).trans ?_)
      have hnear : decide (4096 < skew) = false := decide_eq_false (Nat.not_lt.mpr hskew)
      simp only [hnear, hprot, hdeg, show copyUp (tick t s) (b2n c.workWest) id = true from hcopy]
      rfl
    · have hexec : exec (.circuitDrop t id none (some ws) skew dd) s = execCircuitDrop t id none (some ws) skew dd s := rfl
      refine happens_next ?_ (by simp [now]) rfl
      rw [hexec, execCircuitDrop]
      simp only [hc']
      refine (if_neg hserves').trans ((if_neg hkept).trans ?_)
      have hnear : decide (4096 < skew) = false := decide_eq_false (Nat.not_lt.mpr hskew)
      have hclose : decide (c.declaredUs < dd) = false := decide_eq_false (Nat.not_lt.mpr hdd)
      simp only [hnear, hprot, hdeg, hclose, ite_self, show copyUp (tick t s) (1 - b2n c.workWest) id = true from hcopy]
      rfl
    · have hexec : exec (.circuitDrop t id none none 4097 0) s = execCircuitDrop t id none none 4097 0 s := rfl
      have hstep : exec (.circuitDrop t id none none 4097 0) s = .next (emitOut (.drop id [] true)
          (modCircuit id (fun c => { c with
            aligned := false, degraded := false, measuredUs := if c.prot then 0 else c.measuredUs, onProtecting := false })
            (emitNow 0x3103 0 id.toNat [] now))) := by
        rw [hexec, execCircuitDrop]
        simp only [hc']
        refine (if_neg hserves').trans ((if_neg hkept).trans ?_)
        simp only [hprot, hdeg, hal, ite_self]
        rfl
      refine happens_next hstep (by simp [now]) ⟨rfl, fun c' hfound => ?_⟩
      obtain ⟨x, rfl⟩ := circuitOf_modCircuit hfound
      rfl

end Sys2Proof.Machine
end

section
/-! Beacons arrive over XBAR (R14, R299): while it is down they are discarded. -/

set_option maxRecDepth 4000

namespace Sys2Proof.Machine

/-- The beacon of the node at position 7. -/
def otherBeacon : Beacon := { (default : Beacon) with node := 7 }

/-- How many nodes' beacons are held after a row. -/
def beaconsAfter : Outcome → Nat
  | .next u => u.cfg.beacons.length
  | _ => 0

/-- Refutes O49: at reset XBAR is down and the beacon is discarded; the statement has it kept. -/
theorem not_neighboursAreFound : ¬ Obligations.NeighboursAreFound := by
  intro h
  obtain ⟨-, -, -, -, -, -, -, hbeacon⟩ := h 0 State.reset
  obtain ⟨u, hu, hcfg, -⟩ := hbeacon otherBeacon (by decide +kernel)
  have hnone : beaconsAfter (exec (.beaconRx 0 otherBeacon) State.reset) = 0 := by decide +kernel
  rw [hu] at hnone
  have hone : u.cfg.beacons.length = 1 := by
    rw [hcfg]
    rfl
  exact absurd (hnone.symm.trans hone) (by decide)

end Sys2Proof.Machine
end

section
/-! Frames: what waits at the limiter, second copies, and the frames' ways (R271 to R284, R298). -/

set_option maxRecDepth 4000

namespace Sys2Proof.Machine

/-! ### Frames that wait -/

section
variable (s : State)

theorem waiting_toPort (p c len : Nat) (up : Bool) (leave : Nat → Out) :
    (toPort p c len up leave s).fab.waiting = s.fab.waiting := by
  simp only [toPort]
  repeat' split
  all_goals rfl

theorem waiting_sendDual (h : Hdr) (ws : List Word) : (sendDual h ws s).fab.waiting = s.fab.waiting := by
  have hfold : ∀ (l : List Nat) (go : State → Nat → State) (y : State),
      (∀ a p, (go a p).fab.waiting = a.fab.waiting) → (l.foldl go y).fab.waiting = y.fab.waiting := by
    intro l go y hgo
    induction l generalizing y with
    | nil => rfl
    | cons p l ih => rw [List.foldl_cons, ih, hgo]
  simp only [sendDual]
  exact hfold _ _ _ fun a p => waiting_toPort a ..

theorem waiting_admitFrame (w : WaitFrame) : (admitFrame w s).fab.waiting = s.fab.waiting := by
  simp only [admitFrame]
  rw [waiting_sendDual]
  split <;> rfl

end

theorem nextWaiting_mem {s : State} {w : WaitFrame} (h : nextWaiting s = some w) : w ∈ s.fab.waiting := by
  unfold nextWaiting at h
  split at h
  next x hx => exact Option.some.inj h ▸ List.mem_of_find?_eq_some hx
  next =>
    split at h
    next x hx => exact Option.some.inj h ▸ List.mem_of_find?_eq_some hx
    next => exact List.mem_of_find?_eq_some h

/-- Only frames of the classes 1 to 3 are taken from the queue. -/
theorem nextWaiting_none {s : State} (h : nextWaiting s = none) : ∀ w ∈ s.fab.waiting, w.cls = 0 ∨ 3 < w.cls := by
  intro w hw
  have h1 : s.fab.waiting.find? (fun w => w.cls == 1) = none := by
    cases hf : s.fab.waiting.find? (fun w => w.cls == 1) with
    | none => rfl
    | some x => simp [nextWaiting, hf] at h
  have h2 : s.fab.waiting.find? (fun w => w.cls == 2) = none := by
    cases hf : s.fab.waiting.find? (fun w => w.cls == 2) with
    | none => rfl
    | some x => simp [nextWaiting, h1, hf] at h
  have h3 : s.fab.waiting.find? (fun w => w.cls == 3) = none := by simpa [nextWaiting, h1, h2] using h
  rw [List.find?_eq_none] at h1 h2 h3
  have c1 := h1 w hw
  have c2 := h2 w hw
  have c3 := h3 w hw
  simp only [beq_iff_eq] at c1 c2 c3
  omega

/-- The limiter lets frames go until the node may not originate, or none of the classes 1 to 3 waits (R282, R283). -/
theorem releaseWaiting_drains (n : Nat) (s : State) (hn : s.fab.waiting.length ≤ n) :
    mayOriginate (releaseWaiting n s) = false ∨ ∀ w ∈ (releaseWaiting n s).fab.waiting, w.cls = 0 ∨ 3 < w.cls := by
  induction n generalizing s with
  | zero =>
    rw [Nat.le_zero, List.length_eq_zero_iff] at hn
    refine .inr fun w hw => ?_
    rw [releaseWaiting, hn] at hw
    cases hw
  | succ n ih =>
    cases hmay : mayOriginate s with
    | false =>
      rw [releaseWaiting, hmay]
      exact .inl hmay
    | true =>
      rw [releaseWaiting, hmay]
      cases hw : nextWaiting s with
      | none => exact .inr (nextWaiting_none hw)
      | some w =>
        refine ih _ ?_
        rw [waiting_admitFrame]
        have hlen : (s.fab.waiting.erase w).length = s.fab.waiting.length - 1 :=
          List.length_erase_of_mem (nextWaiting_mem hw)
        exact hlen.le.trans (by omega)

/-! ### Second copies -/

theorem duplicates_noteSecond (src : BitVec 16) (q : Nat) (s : State) :
    (noteSecond src q s).fab.duplicates = s.fab.duplicates := by
  unfold noteSecond
  repeat' split
  all_goals rfl

/-- The copy of a frame that was the last of its source is discarded and counted (R278). -/
theorem acceptDual_duplicate {h : Hdr} {w : DupWin} {s : State} (f : Frame) (hwin : winOf s false h.src = some w)
    (hseq : w.h = h.seq) : acceptDual h f s = noteSecond h.src h.seq (modFab (fun x => { x with duplicates := x.duplicates + 1 })
      (putWin { w with last := s.now } s)) := by
  have hkeep : keepCopy false h.src h.seq s = (false, modFab (fun x => { x with duplicates := x.duplicates + 1 })
      (putWin { w with last := s.now } s)) := by
    unfold keepCopy
    simp only [hwin]
    refine if_pos ?_
    rw [hseq]
    omega
  unfold acceptDual
  simp only [hkeep]
  rfl

/-- A frame for a reserved position is discarded and counted (R273). -/
theorem routeFrame_reserved {f : Frame} {h : Hdr} {s : State} (res : Nat) (hsound : ¬ (trailerBad f || payloadBad f) = true)
    (hlow : 1000 ≤ addrPos h.dest) (hhigh : addrPos h.dest < 1023) : routeFrame f h res s = countDiscardClass h.tc s := by
  have hreserved : (decide (1000 ≤ addrPos h.dest) && decide (addrPos h.dest < 1023)) = true := by simp [hlow, hhigh]
  rw [Bool.not_eq_true] at hsound
  simp only [routeFrame, hsound, Bool.false_and]
  exact if_pos hreserved

/-! ### Frames held for their order -/

/-- A frame is held until its hold time is over (R279). -/
theorem expireHeld_early {src : BitVec 16} {o : SrcOrder} {s : State} (n : Nat) (ho : orderOf s src = some o)
    (hearly : ∀ x ∈ o.held, s.now < x.arrived + holdTime o s.now) : expireHeld src n s = s := by
  have hdue : o.held.any (fun x => decide (x.arrived + holdTime o s.now ≤ s.now)) = false := by
    rw [List.any_eq_false]
    intro x hx
    rw [decide_eq_true_eq, Nat.not_le]
    exact hearly x hx
  cases n with
  | zero => rfl
  | succ n =>
    rw [expireHeld, ho]
    simp only [hdue]
    split <;> rfl

/-- Settles O50. -/
theorem framesAreCarried : Obligations.FramesAreCarried := by
  intro t s now drains
  have hdrains : drains (releaseWaiting s.fab.waiting.length now) := ⟨rfl, releaseWaiting_drains _ now le_rfl⟩
  refine ⟨fun f res hup => ?_, fun src o horder => ?_, fun src => ?_, fun hhold => ?_, ?_, fun g => ?_, fun hlow => ?_⟩
  · intro h ws comes goes whole
    have hup' : isUp now .xbar = true := hup
    have hcarries : ¬ (!isUp now .xbar) = true := by rw [hup']; decide
    have hcomes : comes → ¬ f.port = 3 ∧
        ¬ (decide (2 < f.port) || !fabricLink now f.port || (portOf now f.port).looped || (portOf now f.port).refused) = true := by
      rintro ⟨hport, hlink, hloop, hrefused⟩
      have hloop' : (portOf now f.port).looped = false := hloop
      have hrefused' : (portOf now f.port).refused = false := hrefused
      refine ⟨by omega, ?_⟩
      rw [hlink, hloop', hrefused']
      simpa using hport
    have hgoes : goes → ¬ headerBad f h = true ∧ ¬ (h.link || (h.tc == 4 && h.kind != 5)) = true := by
      rintro ⟨hgood, hlink, hclass⟩
      refine ⟨by rw [hgood]; decide, ?_⟩
      rw [hlink, Bool.false_or, Bool.and_eq_true, beq_iff_eq, bne_iff_ne]
      omega
    have hgood : ∀ k, headerBad f h = false → h.kind = k → ¬ (headerBad f h || h.kind != k) = true := by
      intro k hb hk
      simp [hb, hk]
    have hsound : whole → ¬ (trailerBad f || payloadBad f) = true := by
      rintro ⟨-, h1, h2⟩
      simp [h1, h2]
    refine ⟨fun hport htc => ?_, fun hport htc => ?_, fun hc hbad => ?_, fun hc hg hno htc => ?_,
      fun hc hg hw haddr htc hlow hhigh => ?_, fun hc hg haddr => ?_, fun mark hw hkind hlink htc => ?_,
      fun mark hw hkind hlink htc => ?_, fun g mark hw hkind hlink htarget => ?_,
      fun mark w hw hkind hlink htc hwin hseq => ?_, fun mark hb hkind hbad => ?_, fun hw hkind htc => ?_,
      fun w hw hkind htc hwin hseq => ?_⟩
    · exact happens_next ((if_neg hcarries).trans ((if_pos hport).trans (if_neg (Nat.not_lt.mpr htc)))) (by simp) rfl
    · exact happens_next ((if_neg hcarries).trans ((if_pos hport).trans (if_pos htc))) (by simp) rfl
    · obtain ⟨hin, hopen⟩ := hcomes hc
      exact happens_next ((if_neg hcarries).trans ((if_neg hin).trans ((if_neg hopen).trans (if_pos hbad)))) (by simp) rfl
    · obtain ⟨hin, hopen⟩ := hcomes hc
      obtain ⟨hform, hway⟩ := hgoes hg
      have hnone : (now.fab.noAddress && h.tc != 4) = true := by
        rw [show now.fab.noAddress = true from hno, Bool.true_and, bne_iff_ne]
        exact Nat.ne_of_lt htc
      refine happens_next ((if_neg hcarries).trans ((if_neg hin).trans ((if_neg hopen).trans ((if_neg hform).trans
        ((if_neg hway).trans (if_pos hnone)))))) (by simp) ?_
      rw [countDiscardClass, show min (hdrOf (f.flits.getD 0 0)).tc 7 = h.tc from Nat.min_eq_left (htc.le.trans (by decide))]
      rfl
    · obtain ⟨hin, hopen⟩ := hcomes hc
      obtain ⟨hform, hway⟩ := hgoes hg
      have hnone : ¬ (now.fab.noAddress && h.tc != 4) = true := by
        rw [show now.fab.noAddress = false from haddr, Bool.false_and]
        exact Bool.false_ne_true
      have hdiscard : routeFrame f h res now = countDiscardClass h.tc now :=
        routeFrame_reserved res (hsound hw) hlow hhigh
      refine happens_next ((if_neg hcarries).trans ((if_neg hin).trans ((if_neg hopen).trans ((if_neg hform).trans
        ((if_neg hway).trans ((if_neg hnone).trans (congrArg _ hdiscard))))))) (by simp [now]) ?_
      rw [countDiscardClass, Nat.min_eq_left htc]
      rfl
    · obtain ⟨hin, hopen⟩ := hcomes hc
      obtain ⟨hform, hway⟩ := hgoes hg
      have hroute : ¬ (now.fab.noAddress && h.tc != 4) = true := by
        rcases haddr with haddr | haddr
        · rw [show now.fab.noAddress = false from haddr, Bool.false_and]
          exact Bool.false_ne_true
        · simp [haddr]
      exact happens_next ((if_neg hcarries).trans ((if_neg hin).trans ((if_neg hopen).trans ((if_neg hform).trans
        ((if_neg hway).trans (if_neg hroute)))))) (by simp) rfl
    · exact happens_next ((if_pos hup').trans ((if_neg (hgood 1 hw.1 hkind)).trans ((if_neg (hsound hw)).trans
        ((if_neg (by rw [hlink]; decide)).trans (if_pos htc))))) (by simp) rfl
    · exact happens_next ((if_pos hup').trans ((if_neg (hgood 1 hw.1 hkind)).trans ((if_neg (hsound hw)).trans
        ((if_neg (by rw [hlink]; decide)).trans (if_neg htc))))) (by simp) rfl
    · have hexec : exec (.recordsFrameRx t f mark) s = execRecordsFrameRx t f mark s := rfl
      refine happens_next (u := takeMark g mark (takeMirror g h.gen h.src ws now)) ?_ (by simp [now]) rfl
      rw [hexec, execRecordsFrameRx]
      refine (if_pos hup').trans ((if_neg (hgood 1 hw.1 hkind)).trans ((if_neg (hsound hw)).trans
        ((if_pos hlink).trans ?_)))
      rw [show mirrorTarget (tick t s) (hdrOf (f.flits.getD 0 0)).tc = some g from htarget]
    · refine happens_next ((if_pos hup').trans ((if_neg (hgood 1 hw.1 hkind)).trans ((if_neg (hsound hw)).trans
        ((if_neg (by rw [hlink]; decide)).trans ((if_pos htc).trans (congrArg _ (acceptDual_duplicate f hwin hseq)))))))
        (by simp [putWin]) ?_
      rw [duplicates_noteSecond]
      rfl
    · have hbad' : (trailerBad f || payloadBad f) = true := Bool.or_eq_true_iff.mpr hbad
      exact happens_next ((if_pos hup').trans ((if_neg (hgood 1 hb hkind)).trans (if_pos hbad'))) (by simp) rfl
    · exact happens_next ((if_pos hup').trans ((if_neg (hgood 0 hw.1 hkind)).trans ((if_neg (hsound hw)).trans
        (if_pos htc)))) (by simp) rfl
    · refine happens_next ((if_pos hup').trans ((if_neg (hgood 0 hw.1 hkind)).trans ((if_neg (hsound hw)).trans
        ((if_pos htc).trans (congrArg _ (acceptDual_duplicate f hwin hseq)))))) (by simp [putWin]) ?_
      rw [duplicates_noteSecond]
      rfl
  · have hexec : exec (.reorderHoldExpiry t src) s = execReorderHoldExpiry t src s := rfl
    have horder' : orderOf now src = some o := horder
    refine happens_next (u := expireHeld src o.held.length now) ?_ (by simp [now]) ⟨rfl, fun hearly => ?_⟩
    · rw [hexec, execReorderHoldExpiry]
      simp only [show orderOf (tick t s) src = some o from horder]
      rfl
    · rw [expireHeld_early _ horder' hearly]
      rfl
  · refine happens_next rfl (by simp) fun w => ?_
    refine List.mem_filter.trans (and_congr_right fun _ => ?_)
    rw [Bool.not_eq_true', ← Bool.not_eq_true, Bool.and_eq_true, beq_iff_eq, decide_eq_true_eq]
  · have hexec : exec (.originationHoldEnd t) s = .next (releaseWaiting s.fab.waiting.length now) :=
      congrArg Host.Outcome.next (if_pos hhold)
    exact happens_next hexec (by simp [now]) hdrains
  · have hexec : exec (.originationLimitRelease t) s = .next (releaseWaiting s.fab.waiting.length now) := rfl
    exact happens_next hexec (by simp [now]) hdrains
  · exact happens_next rfl (by simp) rfl
  · have hpeak : ∀ a b : Nat, a ≤ a - b + b := fun a b => by omega
    refine happens_next (if_pos ?_) (by simp) rfl
    rw [List.all_eq_true]
    intro a ha
    refine decide_eq_true (hlow a ?_)
    rw [List.mem_cons, List.mem_cons, List.mem_filter, decide_eq_true_eq] at ha
    rcases ha with ha | ha | ha
    · rw [ha]
      exact hpeak now.now msU
    · rw [ha]
      exact Nat.le_add_right _ _
    · exact ha.2.le

end Sys2Proof.Machine
end

section
/-! Images of the ring (R298, R303): whether a part's image is the ring's is judged when it arrives. -/

set_option maxRecDepth 4000

namespace Sys2Proof.Machine

/-- An anchor whose generation differs from the ring's since the instant 0, and that may catch up after 1 s. -/
def divergedAnchor : State :=
  { hostRuns with
    mgmt := { hostRuns.mgmt with run := true }
    nv := { hostRuns.nv with catchup := true }
    fab := { hostRuns.fab with anchorActive := true, ringGen := some (5, 0) }
    cfg := { hostRuns.cfg with divergedSince := some 0 } }

/-- How many events the host has still to take after a row. -/
def eventsAfter : Outcome → Nat
  | .next u => u.host.evq.held.length
  | _ => 0

/-- Refutes O51: an image that is not the ring's before the row is the ring's at the row's instant, 1 s later, and the row raises
event 0x0202; the statement raises none. -/
theorem not_nodesServeEachOther : ¬ Obligations.NodesServeEachOther := by
  intro h
  obtain ⟨hconfig, -⟩ := h secU divergedAnchor
  obtain ⟨u, hu, hstated, -⟩ := hconfig 5 0 [] false 0 rfl (by decide +kernel) (by decide +kernel) (.inr (by decide +kernel))
  have hraised : eventsAfter (exec (.configFrameRx secU 5 0 [] false 0) divergedAnchor) = 1 := by decide +kernel
  have hquiet : eventsAfter (.next (takePart 5 0 0 [] (tick secU divergedAnchor))) = 0 := by decide +kernel
  rw [hu, show u = takePart 5 0 0 [] (tick secU divergedAnchor) from hstated] at hraised
  exact absurd (hquiet.symm.trans hraised) (by decide)

end Sys2Proof.Machine
end

section
/-! Resets and starts (R421, R445 to R448, R450, R458, R459). -/

set_option maxRecDepth 4000

namespace Sys2Proof.Machine

/-! ### Which islands run -/

section
variable {s : State} {i j : Island}

theorem islandOf_setPhase_ne (p : IslandPhase) (h : islandIx j ≠ islandIx i) : islandOf (setPhase s j p) i = islandOf s i := by
  simp [islandOf, setPhase, modIsland, List.getD_eq_getElem?_getD, h]

theorem islands_length_setPhase (p : IslandPhase) : (setPhase s j p).islands.length = s.islands.length := by
  simp [setPhase, modIsland]

/-- Islands that are set to run do. -/
theorem phase_foldl_run (l : List Island) (hlen : s.islands.length = 21) (h : i ∈ l ∨ (islandOf s i).phase = .run) :
    (islandOf (l.foldl (fun acc i => setPhase acc i .run) s) i).phase = .run := by
  induction l generalizing s with
  | nil => exact h.resolve_left List.not_mem_nil
  | cons j l ih =>
    refine ih ((islands_length_setPhase _).trans hlen) ?_
    by_cases hij : islandIx j = islandIx i
    · refine .inr ?_
      have hset := phase_setPhase (s := s) (i := j) .run hlen
      rwa [islandOf, hij] at hset
    · rw [islandOf_setPhase_ne _ hij]
      refine h.imp_left fun hi => ?_
      exact (List.mem_cons.mp hi).resolve_left fun he => hij (he ▸ rfl)

theorem islandOf_foldl_run_ne (l : List Island) (h : ∀ j ∈ l, islandIx j ≠ islandIx i) :
    islandOf (l.foldl (fun acc i => setPhase acc i .run) s) i = islandOf s i := by
  induction l generalizing s with
  | nil => rfl
  | cons j l ih =>
    rw [List.forall_mem_cons] at h
    rw [List.foldl_cons, ih h.2, islandOf_setPhase_ne _ h.1]

theorem phase_runIslands (l : List Island) (hlen : s.islands.length = 21) (h : i ∈ l) :
    (islandOf (runIslands l s) i).phase = .run :=
  (phase_of_unchanged (.of_rest (xbarUp_rest (ps := [.fab]) (by simp) _)) (by decide) i).trans
    (phase_foldl_run l hlen (.inl h))

theorem phase_runIslands_ne (l : List Island) (h : ∀ j ∈ l, islandIx j ≠ islandIx i) :
    (islandOf (runIslands l s) i).phase = (islandOf s i).phase :=
  (phase_of_unchanged (.of_rest (xbarUp_rest (ps := [.fab]) (by simp) _)) (by decide) i).trans
    (congrArg IslandSt.phase (islandOf_foldl_run_ne l h))

theorem isUp_congr {u : State} (h : (islandOf u i).phase = (islandOf s i).phase) : isUp u i = isUp s i := by
  rw [isUp, isUp, h]

theorem isUp_of_islands {u : State} (h : u.islands = s.islands) (i : Island) : isUp u i = isUp s i := by
  rw [isUp, islandOf, h, isUp, islandOf]

end

/-- At reset no island but AON runs. -/
theorem isUp_reset {i : Island} (h : i ≠ .aon) : isUp State.reset i = false := by
  cases i with
  | aon => exact absurd rfl h
  | daq g =>
    revert g
    decide
  | _ => rfl

/-- The state after RESET_N has been low long enough (R445). -/
def resetLow (x : State) : State :=
  modAon (fun a => { a with
    resetCause := if x.pwr.state == .hibernate then 5 else 2, thermalOff := false, startDue := true })
    (modPwr (fun p => { p with resetNLow := true, supplyHold := x.pwr.supplyHold }) (powerCut x))

theorem resetLow_down {x : State} {i : Island} (h : i ≠ .aon) : isUp (resetLow x) i = false :=
  (isUp_of_islands (s := State.reset) rfl i).trans (isUp_reset h)

/-- The state in HIBERNATE (R421). -/
def hibernated (x : State) : State :=
  modAon (fun a => { a with startDue := false }) (modPwr (fun p => { p with state := .hibernate, supplyHold := false })
    { powerCut x with
      islands := (powerCut x).islands.mapIdx (fun i y => if i = 0 then y else { y with phase := .gated }) })

theorem isUp_hibernated {i : Island} (h : i ≠ .aon) : isUp (hibernated State.reset) i = false := by
  cases i with
  | aon => exact absurd rfl h
  | daq g =>
    revert g
    decide
  | _ => rfl

/-- What a reset of the host leaves of HOSTIF, and of the commands that `mine` names (R454). -/
def hostAborted (mine : Running → Bool) (x : State) : State :=
  modBasin (fun b => { b with window := 0 }) { x with
    host := { Reset.host with
      dma := x.host.dma.map dmaAborted, mbox := x.host.mbox.mapIdx (fun i m => if i = 15 then m else Reset.mailbox)
      spiAddrErr := x.host.spiAddrErr, spiMiso := x.host.spiMiso, linkUp := x.host.linkUp }
    mgmt := { x.mgmt with running := x.mgmt.running.map (fun r => if mine r then { r with mute := true } else r) } }

/-- The time that a start takes over from the AON island (R448). -/
def startTime (x : State) : State :=
  let s1 : State := { x with fuseShadow := x.fuses, line := Reset.line x.fuses.laneCap }
  let c := coarseNow s1
  modAon (fun a => { a with startDue := false, fromPor := false, coarse := c.1, coarseAt := s1.now, loading := false })
    (modTime (fun x => { x with stepSum := (c.1 * secU : Nat) - (s1.now : Int), epoch := 0, stepLog := [] }) c.2)

/-- The state after a cold start (R448, R458). -/
def coldStarted (env : StartEnv) (x : State) : State :=
  strapRole env.straps (confirmVctl env.vctlOk (startPlls (qualifyRefs env (repairMaps (runIslands startIslands
    (startTime x))))))

section
variable {x : State} (env : StartEnv)

theorem coldStarted_from : Unchanged (signalling ++ [.fab, .pwr, .clk, .mems, .repairQueue, .islands]) (startTime x)
    (coldStarted env x) :=
  .of_rest (by simp [coldStarted])

theorem coldStarted_islands : Unchanged (signalling ++ [.fab, .pwr, .clk, .mems, .repairQueue])
    (runIslands startIslands (startTime x)) (coldStarted env x) :=
  .of_rest (by simp [coldStarted])

theorem pwr_confirmVctl (ok : Bool) : (confirmVctl ok x).pwr.vctlConfirmed = ok ∧ (confirmVctl ok x).pwr.op = if ok then 0 else 3 := by
  cases ok <;> exact ⟨rfl, rfl⟩

theorem coldStarted_pwr : (coldStarted env x).pwr.vctlConfirmed = env.vctlOk ∧
    (coldStarted env x).pwr.op = if env.vctlOk then 0 else 3 := by
  have hpwr : (coldStarted env x).pwr = _ := (Unchanged.of_rest (strapRole_rest (ps := signalling ++ [.fab]) (fun _ h => h) _ _))
    .pwr (by decide)
  rw [hpwr]
  exact pwr_confirmVctl env.vctlOk

end

theorem islands_startTime (x : State) : (startTime x).islands = x.islands := by
  have h : ∀ y, (coarseNow y).2.islands = y.islands := by
    intro y
    unfold coarseNow
    simp only []
    split_ifs <;> rfl
  exact h _

/-- The state after a warm reset (R450, R458). -/
def warmStarted (env : StartEnv) (x : State) : State :=
  strapRole env.straps (confirmVctl env.vctlOk (basinUp (runIslands (startIslands.filter (· != .time)) (warmCut x))))

/-- What the cut of a warm reset works on. -/
def warmBefore (x : State) : State := basinDown (dropStaged x)

/-- What the cut of a warm reset makes of the state without staged image and extraction (R450). -/
def warmCutOf (s : State) : State :=
  let host := s.host
  { State.reset with
    pending := s.pending, now := s.now, free := s.free, out := s.out, nv := s.nv, fuses := s.fuses
    fuseShadow := s.fuseShadow, islands := s.islands.mapIdx (fun i x => if i = 0 ∨ i = 4 then x else
      { phase := .inReset, discards := 0, aborts := 0 })
    host := { Reset.host with
      dma := host.dma.map dmaAborted, linkUp := host.linkUp, msixFnMask := host.msixFnMask, msixMask := host.msixMask
      msixPending := host.msixPending }
    time := { s.time with ptp := Reset.time.ptp, links := Reset.time.links }
    tact := { s.tact with slots := s.tact.slots.set 63 none }
    pwr := { Reset.pwr with
      currents := s.pwr.currents, oscTemp := s.pwr.oscTemp, sagNow := s.pwr.sagNow, sagSince := s.pwr.sagSince
      sagWarn := s.pwr.sagWarn, supplyHold := false }
    clk := { s.clk with gated := 0, counters := Reset.clk.counters }
    cfg := { Reset.cfg with lostCommit := s.cfg.lostCommit }
    line := Reset.line s.fuseShadow.laneCap
    basin := { s.basin with window := 0 }
    mems := s.mems.map (fun m => { m with corrected := 0, uncorrectable := 0 })
    softRepairs := s.softRepairs, repairQueue := s.repairQueue
    aon := { s.aon with resetCause := 3 } }

section
variable {x : State} (env : StartEnv)

theorem warmCut_eq : warmCut x = warmCutOf (warmBefore x) := by
  unfold warmCut warmBefore
  generalize basinDown (dropStaged x) = y
  rfl

theorem warmBefore_rest : Rest (answering ++ [.tact, .daq, .cfg, .basin]) false (warmBefore x) =
    Rest (answering ++ [.tact, .daq, .cfg, .basin]) false x := by
  simp [warmBefore]

theorem warmBefore_same : Unchanged (answering ++ [.tact, .daq, .cfg, .basin]) x (warmBefore x) := .of_rest warmBefore_rest

/-- What a warm reset cuts keeps, of a part that it takes from the state before. -/
theorem warmCut_part {α : Sort _} (f g : State → α) (hcut : ∀ y, f (warmCutOf y) = g y) (hsame : g (warmBefore x) = g x) :
    f (warmCut x) = g x :=
  (congrArg f warmCut_eq).trans ((hcut _).trans hsame)

theorem warmCut_time : (warmCut x).time = { x.time with ptp := Reset.time.ptp, links := Reset.time.links } :=
  warmCut_part State.time (fun y => { y.time with ptp := Reset.time.ptp, links := Reset.time.links }) (fun _ => rfl)
    (congrArg (fun y : TimeSt => { y with ptp := Reset.time.ptp, links := Reset.time.links })
      (warmBefore_same .time (by decide)))

theorem warmCut_aon : (warmCut x).aon = { x.aon with resetCause := 3 } :=
  warmCut_part State.aon (fun y => { y.aon with resetCause := 3 }) (fun _ => rfl)
    (congrArg (fun y : AonSt => { y with resetCause := 3 }) (warmBefore_same .aon (by decide)))

theorem warmCut_softRepairs : (warmCut x).softRepairs = x.softRepairs :=
  warmCut_part State.softRepairs State.softRepairs (fun _ => rfl) (warmBefore_same .softRepairs (by decide))

theorem warmCut_repairQueue : (warmCut x).repairQueue = x.repairQueue :=
  warmCut_part State.repairQueue State.repairQueue (fun _ => rfl) (warmBefore_same .repairQueue (by decide))

theorem warmCut_daq : (warmCut x).daq = Reset.daq := congrArg State.daq warmCut_eq

theorem warmCut_line : (warmCut x).line = Reset.line x.fuseShadow.laneCap :=
  warmCut_part State.line (fun y => Reset.line y.fuseShadow.laneCap) (fun _ => rfl)
    (congrArg (fun y => Reset.line (FuseBank.laneCap y)) (warmBefore_same .fuseShadow (by decide)))

theorem warmBefore_length : (warmBefore x).islands.length = x.islands.length := by
  have hlen := congrArg List.length (warmBefore_same (x := x) .islands (by decide))
  simpa only [List.length_map] using hlen

theorem phase_warmCut (i : Island) (hi : islandIx i = 4) :
    (islandOf (warmCut x) i).phase = (islandOf (warmBefore x) i).phase := by
  have hcut : ∀ y, (islandOf (warmCutOf y) i).phase = (islandOf y i).phase := by
    intro y
    have hislands : (warmCutOf y).islands = y.islands.mapIdx (fun i x => if i = 0 ∨ i = 4 then x else
        { phase := .inReset, discards := 0, aborts := 0 }) := rfl
    rw [islandOf, islandOf, hislands, hi, List.getD_eq_getElem?_getD, List.getD_eq_getElem?_getD, List.getElem?_mapIdx]
    cases y.islands[4]? <;> rfl
  exact (congrArg (fun y => (islandOf y i).phase) warmCut_eq).trans (hcut _)

theorem length_islands_warmCut : (warmCut x).islands.length = (warmBefore x).islands.length := by
  have hcut : ∀ y, (warmCutOf y).islands.length = y.islands.length := fun y => List.length_mapIdx
  exact (congrArg (fun y => y.islands.length) warmCut_eq).trans (hcut _)

theorem warmStarted_from : Unchanged (signalling ++ [.fab, .pwr, .basin, .islands]) (warmCut x) (warmStarted env x) :=
  .of_rest (by simp [warmStarted])

theorem warmStarted_islands : Unchanged (signalling ++ [.fab, .pwr, .basin])
    (runIslands (startIslands.filter (· != .time)) (warmCut x)) (warmStarted env x) :=
  .of_rest (by simp [warmStarted])

end

/-- What a power-on reset sets to its reset value (R421). -/
theorem powerOn_same (x : State) (a : AonSt) : Unchanged [.pending, .now, .free, .nv, .journal, .fuses, .fuseShadow, .aon, .out]
    State.reset { State.reset with
      pending := x.pending, now := x.now, free := x.free, nv := x.nv, fuses := x.fuses, fuseShadow := x.fuseShadow
      aon := a, out := x.out } := by
  intro p hp
  cases p with
  | pending | now | free | nv | journal | fuses | fuseShadow | aon | out => exact absurd (by decide) hp
  | interrupts => exact ⟨rfl, rfl⟩
  | commands => exact ⟨rfl, rfl, rfl⟩
  | frames => exact ⟨rfl, rfl, rfl, rfl, rfl, rfl⟩
  | _ => rfl

/-- Settles O58. -/
theorem resetsAndStarts : Obligations.ResetsAndStarts := by
  intro t s hwhole now
  have hlen : now.islands.length = 21 := length_islands_of_sizes (s := State.reset) (hwhole.trans reset_sizes.symm)
  have hcause : (if now.pwr.state == .hibernate then 5 else 2) = if s.pwr.state = .hibernate then 5 else 2 := by
    simp [now]
  refine ⟨?_, fun ns hns => ?_, fun ns hns => ?_, fun ns hlow hhigh => ?_, fun ok hrst => ?_, ?_, fun env hdue hcool hrst hhold => ?_,
    fun env d hdue hnow => ?_, fun d hdue hnow => ?_, fun hup hready => ?_, fun hup => ?_⟩
  · have hexec : exec (.powerOnReset t) s = .next { State.reset with
        pending := now.pending, now := now.now, free := now.free, nv := now.nv, fuses := now.fuses
        fuseShadow := now.fuseShadow, aon := { Reset.aon with coarseAt := now.now }, out := now.out } := rfl
    refine happens_next hexec (by simp [volatile, now]) ⟨fun p hp h1 h2 h3 => powerOn_same now _ p ?_, rfl⟩
    revert p
    decide
  · have hexec : exec (.resetNAssert t ns) s = .next (resetLow now) := by
      have hdone : exec (.resetNAssert t ns) s = execResetNAssert t ns s := rfl
      have hpair : (if 100 ≤ ns ∧ ns < 1000 then drawBool (tick t s) else (decide (1000 ≤ ns), tick t s)) = (true, now) := by
        rw [if_neg (by omega), decide_eq_true hns]
      rw [hdone, execResetNAssert]
      simp only [hpair]
      rfl
    exact happens_next hexec (by simp [now, resetLow]) ⟨fun _ hi => resetLow_down hi, rfl, rfl, rfl, rfl, hcause⟩
  · have hexec : exec (.resetNAssert t ns) s = .next now := by
      have hdone : exec (.resetNAssert t ns) s = execResetNAssert t ns s := rfl
      have hpair : (if 100 ≤ ns ∧ ns < 1000 then drawBool (tick t s) else (decide (1000 ≤ ns), tick t s)) = (false, now) := by
        rw [if_neg (by omega), decide_eq_false (by omega)]
      rw [hdone, execResetNAssert]
      simp only [hpair]
      rfl
    exact happens_next hexec (by simp [now]) trivial
  · have hdone : exec (.resetNAssert t ns) s = execResetNAssert t ns s := rfl
    have hpair : (if 100 ≤ ns ∧ ns < 1000 then drawBool (tick t s) else (decide (1000 ≤ ns), tick t s)) =
        (Config.freeBool s.free, { now with free := now.free + 1 }) := by
      rw [if_pos ⟨hlow, hhigh⟩]
      rfl
    rw [execResetNAssert] at hdone
    simp only [hpair] at hdone
    cases hfree : Config.freeBool s.free with
    | true =>
      rw [hfree] at hdone
      refine happens_next (u := resetLow { now with free := now.free + 1 }) hdone (by simp [now, resetLow])
        ⟨fun _ => ⟨rfl, rfl⟩, fun h => absurd h (by simp)⟩
    | false =>
      rw [hfree] at hdone
      refine happens_next (u := { now with free := now.free + 1 }) hdone (by simp [now])
        ⟨fun h => absurd h (by simp), fun _ => .of_rest (by simp [now])⟩
  · exact happens_next (if_pos hrst) (by simp) rfl
  · exact happens_next rfl (by simp) rfl
  · have hexec : exec (.coldStartRelease t env) s = .next (coldStarted env now) := by
      refine if_neg ?_
      simp [hdue, hcool, hrst, hhold]
    have hshadow : (startTime now).fuseShadow = s.fuses := (Unchanged.of_rest (coarseNow_rest (ps := [.free]) (by simp) _)) .fuseShadow (by decide)
    have hall := coldStarted_from (x := now) env
    have hislands := coldStarted_islands (x := now) env
    have hpwr := coldStarted_pwr (x := now) env
    refine happens_next hexec (by simp [now, coldStarted, startTime]) ⟨(hall .fuseShadow (by decide)).trans hshadow,
      fun i hi => ?_, congrArg TimeSt.epoch (hall .time (by decide)),
      congrArg TimeSt.stepLog (hall .time (by decide)), congrArg AonSt.startDue (hall .aon (by decide)),
      congrArg AonSt.fromPor (hall .aon (by decide)), hpwr.1, hpwr.2⟩
    have hsize : (startTime now).islands.length = 21 :=
      (congrArg List.length (islands_startTime now)).trans hlen
    exact isUp_of_phase ((phase_of_unchanged hislands (by decide) i).trans (phase_runIslands _ hsize hi))
  · have hexec : exec (.warmReset t env) s = .next (warmStarted env now) := by
      refine if_neg ?_
      have hany : (tick t s).mgmt.warmDue.any (fun d => decide (d ≤ (tick t s).now)) = true := by
        rw [tick_mgmt, hdue]
        exact decide_eq_true hnow
      rw [hany]
      decide
    have hall := warmStarted_from (x := now) env
    refine happens_next hexec (by simp [now, warmStarted]) ⟨(hall .time (by decide)).trans warmCut_time,
      (hall .aon (by decide)).trans warmCut_aon, (hall .softRepairs (by decide)).trans warmCut_softRepairs,
      (hall .repairQueue (by decide)).trans warmCut_repairQueue, (hall .daq (by decide)).trans warmCut_daq,
      (hall .line (by decide)).trans warmCut_line, fun i hi => ?_⟩
    have hsize : (warmCut now).islands.length = 21 := length_islands_warmCut.trans (warmBefore_length.trans hlen)
    rw [isUp_congr (phase_of_unchanged (warmStarted_islands env) (by decide) i)]
    by_cases htime : i = .time
    · subst htime
      have hphase := (phase_runIslands_ne (s := warmCut now) (i := .time) (startIslands.filter (· != .time)) (by decide)).trans
        ((phase_warmCut .time rfl).trans (phase_of_unchanged warmBefore_same (by decide) .time))
      exact (isUp_congr hphase).trans (isUp_of_islands (by simp [now]) .time)
    · have hmem : i ∈ startIslands.filter (· != .time) := List.mem_filter.mpr ⟨hi, by simpa using htime⟩
      rw [isUp_of_phase (phase_runIslands _ hsize hmem)]
      simp [htime]
  · have hexec : exec (.hibernateEntry t) s = .next (hibernated now) := by
      have hdone : exec (.hibernateEntry t) s = execHibernateEntry t s := rfl
      rw [hdone, execHibernateEntry]
      simp only [tick_mgmt, hdue]
      exact if_neg (Nat.not_lt.mpr hnow)
    refine happens_next hexec (by simp [now, hibernated]) ⟨rfl, rfl, fun i hi => ?_⟩
    exact (isUp_of_islands (s := hibernated State.reset) rfl i).trans (isUp_hibernated hi)
  · refine happens_next (if_neg ?_) (by simp) rfl
    simp [hready, hup]
  · intro mine clean
    have hmine : (fun r : Running => match r.ask with
        | some rq => rq.agent == .host && rq.mailbox.val != 15
        | none => false) = mine := by
      funext r
      cases h : r.ask <;> simp [mine, h]
    have hexec : exec (.hostReset t) s = .next (checkLinks (loopsOff [0, 1, 2, 3, 4] (hostAborted mine now))) :=
      (if_neg (by simp [hup])).trans
        (congrArg (fun m => Host.Outcome.next (checkLinks (loopsOff [0, 1, 2, 3, 4] (hostAborted m now)))) hmine)
    exact happens_next hexec (by simp [hostAborted, now]) rfl

end Sys2Proof.Machine
end

section
/-! The management complex: failover, restart and boot (R331, R373, R374, R420, R448, R450, R452 to R454, R470). -/

set_option maxRecDepth 4000

namespace Sys2Proof.Machine

section
variable {s u : State}

/-- What leaves the management complex and the commands leaves both whole. -/
theorem mgmt_of_unchanged {but : List Part} (h : Unchanged but s u) (hm : Part.mgmt ∉ but) (hc : Part.commands ∉ but) :
    u.mgmt = s.mgmt := by
  have hmgmt := h .mgmt hm
  obtain ⟨hrunning, hwaiting, hqueue⟩ := h .commands hc
  rw [Part.same, ← hrunning, ← hwaiting, ← hqueue] at hmgmt
  exact hmgmt

theorem dropStaged_same : Unchanged [.tact, .daq, .cfg] s (dropStaged s) := .of_rest (dropStaged_rest (by simp) _)

@[simp] theorem dropStaged_mgmt : (dropStaged s).mgmt = s.mgmt :=
  mgmt_of_unchanged dropStaged_same (by decide) (by decide)

@[simp] theorem dropStaged_now : (dropStaged s).now = s.now := dropStaged_same .now (by decide)

@[simp] theorem pairOf_dropStaged (n : Nat) : pairOf (dropStaged s) n = pairOf s n := by
  rw [pairOf, pairOf, dropStaged_mgmt]

@[simp] theorem pairOf_tick (t : Time) (n : Nat) : pairOf (tick t s) n = pairOf s n := rfl

/-- The staged image and an armed commit are lost with a management restart (R234, R298). -/
theorem dropStaged_cfg : (dropStaged s).cfg.staged = none ∧ (dropStaged s).cfg.armed = none := by
  unfold dropStaged
  simp only []
  split
  · next hnone => exact ⟨rfl, hnone⟩
  · exact ⟨rfl, rfl⟩

/-- A fault of the standby alone (R452). -/
theorem pairFails_standby (cause : Nat) (h : (pairOf s (1 - s.mgmt.active)).state = .standby) :
    pairFails true cause s = modMgmt (fun m => { m with since := s.now }) (modPair (1 - s.mgmt.active) (fun p => { p with
      state := .reloading, attempts := 0 }) (dropStaged s)) := by
  refine if_pos ?_
  rw [h]
  rfl

/-- A fault of the active pair while the other is the standby (R452). -/
theorem pairFails_active (cause : Nat) (ha : (pairOf s s.mgmt.active).state = .active)
    (hb : (pairOf s (1 - s.mgmt.active)).state = .standby) :
    pairFails false cause s = emitNow 0x0101 (1 - s.mgmt.active) cause [] (raiseNmi 2 (modMgmt (fun x => { x with
      active := 1 - s.mgmt.active, run := false, takeoverDue := true, since := s.now })
      (modPair s.mgmt.active (fun p => { p with state := .reloading, attempts := 0 })
        (modPair (1 - s.mgmt.active) (fun p => { p with state := .active, attempts := 0 }) (dropStaged s))))) := by
  refine (if_pos (by rw [ha]; rfl)).trans ?_
  unfold activeFails
  simp only [dropStaged_mgmt, pairOf_dropStaged, dropStaged_now]
  refine if_pos ?_
  rw [hb]
  rfl

/-- What follows the loss of both pairs leaves the configuration and the management complex (R453). -/
theorem lossTold_same : Unchanged (signalling ++ [.host, .time, .daq]) s
    (chooseDom (calRefreshAll (ptpLost 1 (ptpLost 0 (raiseNmi 3 s))))) :=
  .of_rest (by simp)

/-- A fault of the active pair without a standby loses both (R453). -/
theorem pairFails_lost (cause : Nat) (ha : (pairOf s s.mgmt.active).state = .active)
    (hb : (pairOf s (1 - s.mgmt.active)).state ≠ .standby) :
    ∃ x, Unchanged (signalling ++ [.host, .time, .daq]) x (pairFails false cause s) ∧ Unchanged [.tact, .daq, .cfg, .mgmt] s x ∧
      x.cfg = (dropStaged s).cfg ∧ x.mgmt.run = false ∧ x.mgmt.lost = true ∧ x.mgmt.takeoverDue = false := by
  have hfails : pairFails false cause s = activeFails cause s := if_pos (by rw [ha]; rfl)
  rw [hfails]
  unfold activeFails
  simp only [dropStaged_mgmt, pairOf_dropStaged, dropStaged_now]
  rw [if_neg (by simpa using hb)]
  exact ⟨_, lossTold_same, .of_rest (by simp), rfl, rfl, rfl, rfl⟩

end

theorem storeFirmware_same {s : State} {img : FwImage} : Unchanged [.nv, .journal] s (storeFirmware img s) := by
  refine .of_rest ?_
  unfold storeFirmware
  simp

/-- Settles O60. -/
theorem managementRestarts : Obligations.ManagementRestarts := by
  intro t s now m
  refine ⟨fun i hi hstandby => ?_, fun i hi hactive hstandby => ?_, fun hactive hother => ?_, fun os hdue => ?_, fun b hload hrun => ⟨?_, ?_⟩,
    fun b hlost htries hlast => ?_, fun a b hrun hrec hlost hdue hup hA hB => ?_,
    fun a b hrun hrec hlost hdue hup hpref hA hvctl => ?_, fun rq h hq hkey => ?_,
    fun rq img h hidle hq hn hmax hbit hfetch htrust => ?_⟩
  · have hexec : exec i.1 s = .next (pairFails true i.2 now) := by
      simp only [List.mem_cons, List.not_mem_nil, or_false] at hi
      rcases hi with hi | hi | hi <;> rw [hi] <;> rfl
    refine happens_next (hexec.trans (congrArg _ (pairFails_standby i.2 hstandby))) ?_ rfl
    simp [now]
  · have hexec : exec i.1 s = .next (pairFails false i.2 now) := by
      simp only [List.mem_cons, List.not_mem_nil, or_false] at hi
      rcases hi with hi | hi | hi <;> rw [hi] <;> rfl
    refine happens_next (hexec.trans (congrArg _ (pairFails_active i.2 hactive hstandby))) ?_ rfl
    simp [now]
  · have hexec : exec (.watchdogExpiry t false) s = .next (pairFails false 2 now) := rfl
    obtain ⟨x, hx, hbefore, hcfg, hrun, hlost, hdue⟩ := pairFails_lost (s := now) 2 hactive hother
    have hcfg' : (pairFails false 2 now).cfg = (dropStaged now).cfg := (hx .cfg (by decide)).trans hcfg
    have hmgmt : (pairFails false 2 now).mgmt = x.mgmt := mgmt_of_unchanged hx (by decide) (by decide)
    refine happens_next hexec (by simp [now]) ?_
    rw [hcfg', hmgmt]
    exact ⟨dropStaged_cfg.1, dropStaged_cfg.2, hrun, hlost, hdue⟩
  · refine happens_next (if_neg ?_) ?_ rfl
    · simp [show s.mgmt.takeoverDue = true from hdue]
    · simp
  · have hready : ¬((pairOf (tick t s) (b2n b)).state != .reloading ||
        !((tick t s).mgmt.run || (tick t s).mgmt.takeoverDue || (tick t s).mgmt.lost)) = true := by
      simp [hload, show s.mgmt.run = true from hrun]
    by_cases hlost : m.lost
    · exact happens_next ((if_neg hready).trans ((if_neg (by decide)).trans (if_pos hlost))) (by simp) (if_pos hlost).symm
    · exact happens_next ((if_neg hready).trans ((if_neg (by decide)).trans (if_neg hlost))) (by simp) (if_neg hlost).symm
  · refine happens_next ((if_neg ?_).trans (if_pos rfl)) (by simp) rfl
    simp [hload, show s.mgmt.run = true from hrun]
  · refine happens_next (if_neg ?_) (by simp) rfl
    have htries' : decide (3 ≤ (pairOf (tick t s) (b2n b)).attempts) = false := decide_eq_false (Nat.not_le.mpr htries)
    have hlast' : decide ((tick t s).now < (pairOf (tick t s) (b2n b)).lastAttempt + secU) = false :=
      decide_eq_false (Nat.not_lt.mpr hlast)
    rw [htries', hlast', show (tick t s).mgmt.lost = true from hlost]
    decide
  · refine happens_next ((if_neg ?_).trans (if_pos ?_)) (by simp) rfl
    · simp only [tick_mgmt, show s.mgmt.run = false from hrun, show s.mgmt.recovery = false from hrec,
        show s.mgmt.lost = false from hlost, show s.mgmt.takeoverDue = false from hdue]
      simp [hup]
    · have hA' : bootable (tick t s) (tick t s).nv.fwA a = false := hA
      have hB' : bootable (tick t s) (tick t s).nv.fwB b = false := hB
      rw [hA', hB']
      cases (tick t s).nv.preferred == 1 <;> rfl
  · have hexec : exec (.bootImageVerify t a b) s = .next
        (if m.starting then startPlane (resolveJournal (runImage 0 s.nv.fwA now))
          else checkLevel (resolveJournal (runImage 0 s.nv.fwA now))) := by
      have hboot : bootable (tick t s) (tick t s).nv.fwA a = true := hA
      have hprefer : ((tick t s).nv.preferred == 1) = false := by simpa using hpref
      refine (if_neg ?_).trans ?_
      · simp only [tick_mgmt, show s.mgmt.run = false from hrun, show s.mgmt.recovery = false from hrec,
          show s.mgmt.lost = false from hlost, show s.mgmt.takeoverDue = false from hdue]
        simp [hup]
      · rw [hboot, hprefer, show (tick t s).pwr.vctlConfirmed = true from hvctl]
        rfl
    have hrest := execBootImageVerify_rest (cells := false) (ps := [.free, .islands, .host, .mgmt, .time, .daq, .pwr, .clk, .therm,
      .cfg, .line, .fab, .eth, .basin, .oper, .nv, .journal, .frames] ++ signalling) (by simp) t a b s
    rw [show execBootImageVerify t a b s = _ from hexec] at hrest
    exact happens_next hexec hrest rfl
  · apply completes_supply (n := 0) h rfl (lenIs_between 1)
      (u := { taken 0x0103 t rq s with mgmt := { (taken 0x0103 t rq s).mgmt with
        warmDue := some ((taken 0x0103 t rq s).now + msU) } })
    · unfold ownSysReset
      refine guarded_pass (pass_cons (by simpa using ⟨hq, hkey⟩) (pass_cons ?_ (by simp)))
      exact taken_sagWarn.trans (sagWarn_of_runs h)
    · generalize taken 0x0103 t rq s = y
      simp
    · simp
    · have hdue : (taken 0x0103 t rq s).now + msU = max s.now t + msU := by simp
      rw [← hdue]
      exact congrArg MgmtSt.warmDue (settle_part (p := .mgmt) (op := 0x0103) (rq := rq) (okaySteps 1 []
        { taken 0x0103 t rq s with mgmt := { (taken 0x0103 t rq s).mgmt with
          warmDue := some ((taken 0x0103 t rq s).now + msU) } }) (by decide))
  · have hsag : (taken 0x0105 t rq s).pwr.sagWarn = false := taken_sagWarn.trans (sagWarn_of_runs h)
    have hown : ownSysLoadFirmware rq (taken 0x0105 t rq s) = accepted 3 [.firmware] [] (taken 0x0105 t rq s) := by
      unfold ownSysLoadFirmware
      refine guarded_pass (pass_cons ?_ (pass_cons hsag (by simp)))
      simp only [Bool.or_eq_false_iff]
      exact ⟨⟨by simpa using hq, by simpa using hn⟩, decide_eq_false (Nat.not_lt.mpr hmax)⟩
    have hserve := runs_commandSupply (own := ownSysLoadFirmware) h (lenIs_between 1)
    rw [commandSupply, hown] at hserve
    injection hserve with hserve
    refine finishes_of (t := t) (parts := [.nv]) rfl hidle (congrArg (fun x => Host.Outcome.next (finishing rq s x _)) hserve)
      (n := 3) (by decide) rfl (v := storeFirmware img (settle 0x0105 rq (accepted 3 [.firmware] [] (taken 0x0105 t rq s)))) ?_ ?_ rfl rfl rfl (by decide) ?_
    · have htrust' : ∀ x : State, x.fuses = s.fuses → x.fuseShadow = s.fuseShadow →
          imageTrusted x img.keyHash img.signatureOk img.sv = true := by
        intro x hfuses hshadow
        rw [imageTrusted, trusted, rollbackCount, hfuses, hshadow]
        exact htrust
      unfold firmwareFetched
      rw [htrust' _ (by simp) (by simp), hfetch, hbit]
      rfl
    · exact storeFirmware_same.mono (by simp)
    · have hnv : ∀ x : State, (endRq rq stOk 3 x).nv.fwA = x.nv.fwA ∧ (endRq rq stOk 3 x).nv.fwB = x.nv.fwB ∧
          (endRq rq stOk 3 x).nv.preferred = x.nv.preferred := by
        intro x
        have hend := endRq_same (rq := rq) (st := stOk) (n := 3) (s := x) .nv (by decide)
        exact ⟨congrArg (·.fwA) hend, congrArg (·.fwB) hend, congrArg (·.preferred) hend⟩
      set y := settle 0x0105 rq (accepted 3 [.firmware] [] (taken 0x0105 t rq s)) with hy
      have hsettled : Unchanged answering (taken 0x0105 t rq s) y := settle_same _ _ _
      have hA : y.nv.fwA = s.nv.fwA := (congrArg NvSt.fwA (hsettled .nv (by decide))).trans (congrArg NvSt.fwA (taken_nv ..))
      have hB : y.nv.fwB = s.nv.fwB := (congrArg NvSt.fwB (hsettled .nv (by decide))).trans (congrArg NvSt.fwB (taken_nv ..))
      have hpref : y.nv.preferred = s.nv.preferred :=
        (congrArg NvSt.preferred (hsettled .nv (by decide))).trans (congrArg NvSt.preferred (taken_nv ..))
      have hrec : y.mgmt.recovery = s.mgmt.recovery :=
        (congrArg MgmtSt.recovery (hsettled .mgmt (by decide))).trans taken_recovery
      have himage : y.mgmt.image = s.mgmt.image :=
        (congrArg MgmtSt.image (hsettled .mgmt (by decide))).trans (taken_eq (·.mgmt.image) (fun _ _ _ _ _ => rfl) ..)
      have hslot : inactiveImage y = inactiveImage s := by
        rw [inactiveImage, inactiveImage, hrec, himage, hpref]
      obtain ⟨hendA, hendB, hendP⟩ := hnv (storeFirmware img y)
      rw [hendA, hendB, hendP]
      simp only [storeFirmware, hslot, hA, hB]
      split_ifs <;> simp

end Sys2Proof.Machine
end

section
/-! Filter outputs and records (R85 to R100, R115, R130, R143). -/

set_option maxRecDepth 4000

namespace Sys2Proof.Machine

section
variable {s u : State} {c : Nat}

theorem chanOf_modChan (f : Chan → Chan) (h : c < s.daq.chans.length) : chanOf (modChan c f s) c = f (chanOf s c) := by
  simp [chanOf, modChan, modDaq, List.getD_eq_getElem?_getD, h]

/-- What the merger gives rests on the channel's temperature only (R165, R176). -/
theorem mergeOut_of_temp (h : (chanOf u c).temp = (chanOf s c).temp) : mergeOut u c = mergeOut s c := by
  have hHg : hgNum u c = hgNum s c := by
    funext k ref raw den
    simp only [hgNum, gHg, gRef, dTemp, h]
  have hLg : lgNum u c = lgNum s c := by
    funext k ref raw den
    simp only [lgNum, gHg, gRef, dTemp, h]
  funext code k ref path bad m p
  simp only [mergeOut, hHg, hLg]

/-- The flags of an output do not rest on the filter instances, the count of disagreements, or a changeover. -/
theorem commonFlags_congr (pri : FiltInst) (dis : Nat) (co : Option Time) (pos : Nat) (ot : OutTime) (raw : Int) (bl : Bool)
    (hchan : chanOf u c = { chanOf s c with primary := pri, disagree := dis, changeover := co })
    (hgen : u.daq.gens = s.daq.gens) : commonFlags u c pos ot raw bl = commonFlags s c pos ot raw bl := by
  have hg : genOf u (c / 4) = genOf s (c / 4) := by
    rw [genOf, genOf, hgen]
  simp only [commonFlags, openFlag, settlingFor, hchan, hg]
  rfl

theorem fillNow_full {x : Chan} {k : Int} {ot : OutTime} {raw : Int} (h : fillOf x.primary x.markMode k ot = .full) :
    fillNow x k ot raw false = .full := by
  rw [fillNow, h]
  exact if_pos (.inr rfl)

theorem evalOpen_off (pos : Nat) (inBand : Bool) (out : Int) (h : (chanOf s c).cfg.openDet = false) :
    evalOpen c pos inBand out s = s := by
  refine if_pos ?_
  rw [h]
  rfl

/-- Gathering flags keeps those gathered before. -/
theorem flags_foldl_or (l : List (Nat × Bool)) (acc b : BitVec 12) (h : acc ||| b = acc) :
    l.foldl (fun acc b => if b.2 then acc ||| (1#12 <<< b.1) else acc) acc ||| b =
      l.foldl (fun acc b => if b.2 then acc ||| (1#12 <<< b.1) else acc) acc := by
  induction l generalizing acc with
  | nil => exact h
  | cons x l ih =>
    refine ih _ ?_
    beta_reduce
    split
    · rw [BitVec.or_assoc, BitVec.or_comm (1#12 <<< x.1), ← BitVec.or_assoc, h]
    · exact h

/-- `SETTLING` of an output before the instant 0 is among the flags that the settling time gives. -/
theorem settling_flag (pos : Nat) (ot : OutTime) (raw : Int) (bl a b : Bool) :
    commonFlags s c pos ot raw bl ||| flagsOf [(fPath, a), (fOverrange, b), (fSettling, decide (raw < 0))] =
      commonFlags s c pos ot raw bl ||| flagsOf [(fPath, a), (fOverrange, b), (fSettling, false)] := by
  by_cases h : raw < 0
  · have hset : raw < (settlingFor (chanOf s c) ot.out : Int) := by omega
    have hbit : commonFlags s c pos ot raw bl ||| 1#12 <<< fSettling = commonFlags s c pos ot raw bl := by
      rw [commonFlags, decide_eq_true hset]
      exact flags_foldl_or _ (0 ||| 1#12 <<< fSettling) _ (by decide)
    have hsplit : flagsOf [(fPath, a), (fOverrange, b), (fSettling, true)] =
        1#12 <<< fSettling ||| flagsOf [(fPath, a), (fOverrange, b), (fSettling, false)] := by
      revert a b
      decide
    rw [decide_eq_true h, hsplit, ← BitVec.or_assoc, hbit]
  · rw [decide_eq_false h]

/-- What the merger's output `m` leaves of its channel, outside changeovers (R52, R130). -/
def mergedAt (c : Nat) (m : Merged) (raw : Int) (s : State) : State :=
  modChan c (fun y => { y with
    primary := { y.primary with merger := m.merger }, disagree := disagreeNext y.disagree m
    changeover := if decide (raw < 0) then y.changeover else none }) s

/-- The primary's half of an output outside blank intervals and changeovers. -/
theorem primaryHalf_plain (o : Sample) (ot : OutTime) (m : Merged) (raw : Int) (blanked : Bool)
    (hbl : inBlank (chanOf s c).blanks ot.out = false) (hco : (chanOf s c).changeover = none) (hother : o.other = none)
    (hm : instMerge s c (chanOf s c).primary ot raw o.xs = m) :
    primaryHalf c o ot raw blanked false s = (mergedAt c m raw s, {
      k := o.k, ts := ot.ts, out := ot.out, value := m.value, inBl := false, flags :=
        commonFlags (mergedAt c m raw s) c (chanOf s c).pos ot raw blanked |||
          flagsOf [(fPath, m.path), (fOverrange, m.ovr), (fSettling, decide (raw < 0))] }) := by
  unfold primaryHalf
  simp only [hbl, heldBy, hco, hother, hm]
  rfl

theorem cycleEnd_plain (ot : OutTime) (h : combining s c = false) : cycleEnd c ot s = s := by
  refine if_neg ?_
  rw [h]
  exact Bool.false_ne_true

/-- A half outside blank intervals and combined cycles becomes a record. -/
theorem emitHalf_plain (h : HalfOut) (hbl : h.inBl = false) (hcomb : combining s c = false) :
    emitHalf c h s = formRecord c (chanOf s c).pos h.value h.ts h.out h.out h.flags s := by
  refine (if_neg ?_).trans (if_neg ?_)
  · rw [hbl]
    exact Bool.false_ne_true
  · rw [hcomb]
    exact Bool.false_ne_true

theorem combining_of_gens (h : u.daq.gens = s.daq.gens) : combining u c = combining s c := by
  rw [combining, combining, genOf, genOf, h]

theorem gens_formRecord (pos : Nat) (value ts out lim : Int) (flags : BitVec 12) :
    (formRecord c pos value ts out lim flags s).daq.gens = s.daq.gens := rfl

/-- The state once the primary's output of a grid has been formed, before it becomes a record. -/
def outputTaken (c : Nat) (ot : OutTime) (m : Merged) (raw : Int) (s : State) : State :=
  mergedAt c m raw (modChan c (fun y => { y with primary := { y.primary with lastOut := some ot.out } }) s)

theorem chanOf_outputTaken (ot : OutTime) (m : Merged) (raw : Int) (hc : c < s.daq.chans.length)
    (hco : (chanOf s c).changeover = none) : chanOf (outputTaken c ot m raw s) c = { chanOf s c with
      primary := { (chanOf s c).primary with merger := m.merger, lastOut := some ot.out }
      disagree := disagreeNext (chanOf s c).disagree m, changeover := none } := by
  have hlen : c < (modChan c (fun y => { y with primary := { y.primary with lastOut := some ot.out } }) s).daq.chans.length := by
    simpa [modChan, modDaq] using hc
  rw [outputTaken, mergedAt, chanOf_modChan _ hlen, chanOf_modChan _ hc]
  simp [hco]

/-- A full output of the primary outside blank intervals, fades, changeovers and combined cycles becomes a record (R85, R91). -/
theorem gridOutput_record (o : Sample) (ot : OutTime) (m : Merged) (hc : c < s.daq.chans.length)
    (hot : ot = instOut s c (chanOf s c).primary o.k)
    (hm : m = mergeOut s c (chanOf s c).cfg.gain (coefFor s (convOfChan s c) (chanOf s c).cfg.gain) (chanOf s c).cfg.ref
      (chanOf s c).cfg.path (refBad (chanOf s c) (rawStart (chanOf s c).blanks ot).1 ot.out) (chanOf s c).primary.merger
      (filterOf (chanOf s c).primary.mode (bankSel (chanOf s c).primary) ot.phi (chanOf s c).blanks
        (chanOf s c).primary.start ot.out o.xs))
    (hrun : running (chanOf s c).primary = true) (hlate : ∀ l, (chanOf s c).primary.lastOut = some l → l < ot.out)
    (hnow : ot.out ≤ (s.now : Int)) (hfill : fillOf (chanOf s c).primary (chanOf s c).markMode o.k ot = .full)
    (hblank : (rawStart (chanOf s c).blanks ot).2 = false) (hbl : inBlank (chanOf s c).blanks ot.out = false)
    (hfade : (chanOf s c).fade = .normal) (hco : (chanOf s c).changeover = none) (hopen : (chanOf s c).cfg.openDet = false)
    (hcomb : combining s c = false) (hother : o.other = none) :
    gridOutput c o s = formRecord c (chanOf s c).pos m.value ot.ts ot.out ot.out
      (commonFlags s c (chanOf s c).pos ot (rawStart (chanOf s c).blanks ot).1 false |||
        flagsOf [(fPath, m.path), (fOverrange, m.ovr), (fSettling, false)])
      (outputTaken c ot m (rawStart (chanOf s c).blanks ot).1 s) := by
  obtain ⟨raw, hraw⟩ : ∃ raw, rawStart (chanOf s c).blanks ot = (raw, false) := ⟨_, Prod.ext rfl hblank⟩
  set s1 := modChan c (fun y => { y with primary := { y.primary with lastOut := some ot.out } }) s with hs1
  have hx1 : chanOf s1 c = { chanOf s c with primary := { (chanOf s c).primary with lastOut := some ot.out } } :=
    chanOf_modChan _ hc
  have hmerge : instMerge s1 c (chanOf s1 c).primary ot raw o.xs = m := by
    have hconv : convOfChan s1 c = convOfChan s c := by
      rw [convOfChan, convOfChan, hx1]
    have hmo : mergeOut s1 c = mergeOut s c := mergeOut_of_temp (by rw [hx1])
    have hfrom : filledFrom (chanOf s1 c) (chanOf s1 c).primary.start = (chanOf s c).primary.start := by
      rw [filledFrom, hx1]
      simp [hco]
    have hcoef : ∀ conv code, coefFor s1 conv code = coefFor s conv code := fun _ _ => rfl
    rw [hm, hraw, instMerge, hfrom, hconv, hmo, hcoef, hx1]
    rfl
  unfold gridOutput
  simp only [← hot, hraw]
  refine (if_neg ?_).trans ?_
  · rw [hrun, decide_eq_false (Int.not_lt.mpr hnow)]
    cases hlast : (chanOf s c).primary.lastOut with
    | none => simp
    | some l => simp [hlate l hlast]
  · rw [← hs1, evalOpen_off _ _ _ (by rw [hx1]; exact hopen), fillNow_full hfill]
    have hpart : (Fill.full != Fill.full) = false := by decide
    have hforms : (Fill.full != Fill.none) = true := by decide
    have hout : outputTaken c ot m raw s = mergedAt c m raw s1 := rfl
    have hy := chanOf_outputTaken (s := s) ot m raw hc hco
    have hpos : (chanOf (outputTaken c ot m raw s) c).pos = (chanOf s c).pos := by rw [hy]
    have hflags : commonFlags (outputTaken c ot m raw s) c (chanOf s c).pos ot raw false =
        commonFlags s c (chanOf s c).pos ot raw false := commonFlags_congr _ _ _ _ _ _ _ hy rfl
    have hcombining : combining (outputTaken c ot m raw s) c = false := (combining_of_gens rfl).trans hcomb
    have hpos1 : (chanOf s1 c).pos = (chanOf s c).pos := by rw [hx1]
    simp only [hpart, hforms, primaryHalf_plain (s := s1) o ot m raw false (by rw [hx1]; exact hbl) (by rw [hx1]; exact hco)
      hother hmerge, hfade]
    rw [← hout, hpos1, hflags, settling_flag]
    refine (congrArg (cycleEnd c ot) ((if_neg (by decide)).trans (if_pos rfl))).trans ?_
    rw [emitHalf_plain _ rfl hcombining, hpos]
    exact cycleEnd_plain ot ((combining_of_gens (gens_formRecord ..)).trans hcombining)

theorem chanOf_formRecord (pos : Nat) (value ts out lim : Int) (flags : BitVec 12) (h : c < s.daq.chans.length) :
    chanOf (formRecord c pos value ts out lim flags s) c = { chanOf s c with
      formed := (chanOf s c).formed ++ [{
        word := recordWord value (ts + s.time.stepSum).toNat (8 * c + pos) s.time.epoch (flags ||| timeFlags s)
        gen := s.cfg.activeGen, out := out
        gap := (addrOf s (8 * c + pos)).gapNext.any (fun m => decide ((m : Int) < lim)) }]
      last := some { value := value, flags := flags &&& valueFlags }
      blankedRecs := (chanOf s c).blankedRecs + b2n (flags.getLsbD fBlanked) } :=
  chanOf_modChan _ h

end

/-! ### Records on their way -/

theorem find_upsert {α : Type} (l : List α) (same : α → Bool) (new : α) (h : same new = true) :
    (upsert l same new).find? same = some new := by
  unfold upsert
  split
  · next hany =>
    obtain ⟨y, hy, hsame⟩ := List.any_eq_true.mp hany
    induction l with
    | nil => cases hy
    | cons z l ih =>
      rw [List.map_cons]
      by_cases hz : same z = true
      · rw [if_pos hz, List.find?_cons_of_pos h]
      · rw [if_neg hz, List.find?_cons_of_neg hz]
        have hmem : y ∈ l := (List.mem_cons.mp hy).resolve_left fun he => hz (he ▸ hsame)
        exact ih (List.any_eq_true.mpr ⟨y, hmem, hsame⟩) hmem
  · next hany =>
    have hnone : l.find? same = none := by
      rw [List.find?_eq_none]
      intro y hy hsame
      exact hany (List.any_eq_true.mpr ⟨y, hy, hsame⟩)
    rw [List.find?_append, hnone]
    simp [h]

section
variable {s : State} {g a : Nat} {d : Dest}

theorem queueOf_key : (queueOf s g d).group = g ∧ (queueOf s g d).dest = d := by
  unfold queueOf
  cases h : s.daq.queues.find? (fun q => q.group == g && q.dest == d) with
  | none => exact ⟨rfl, rfl⟩
  | some q => simpa using List.find?_some h

theorem queueOf_putQueue (q : DestQueue) : queueOf (putQueue q s) q.group q.dest = q := by
  have hfind : (upsert s.daq.queues (fun x => x.group == q.group && x.dest == q.dest) q).find?
      (fun x => x.group == q.group && x.dest == q.dest) = some q := find_upsert _ _ _ (by simp)
  exact congrArg (fun o => Option.getD o _) hfind

/-- What a destination that takes a record leaves (R186, R190). -/
def delivered (g a : Nat) (r : FormedRec) (d : Dest) (s : State) : State :=
  let gap := r.gap || (addrOf s a).gapDue.contains d
  modAddr a (fun x => { x with
    delivered := x.delivered + 1
    gaps := if gap then x.gaps + 1 else x.gaps
    gapDue := x.gapDue.filter (fun y => y != d) })
    (putQueue { queueOf s g d with recs := (queueOf s g d).recs ++
      [{ word := withGap gap r.word, gen := r.gen, readable := true, node := none, at_ := s.now }] } s)

theorem deliver_room {r : FormedRec} (h : (queueOf s g d).recs.length < 256) : deliver g a r d true s = delivered g a r d s :=
  if_neg (by simpa using h)

theorem queueOf_delivered {r : FormedRec} : queueOf (delivered g a r d s) g d = { queueOf s g d with
    recs := (queueOf s g d).recs ++ [{ word := withGap (r.gap || (addrOf s a).gapDue.contains d) r.word, gen := r.gen
                                       readable := true, node := none, at_ := s.now }] } := by
  have hput := queueOf_putQueue (s := s) { queueOf s g d with
    recs := (queueOf s g d).recs ++ [{ word := withGap (r.gap || (addrOf s a).gapDue.contains d) r.word, gen := r.gen
                                       readable := true, node := none, at_ := s.now }] }
  simp only [delivered, queueOf_key] at hput ⊢
  exact hput

/-- Operators that take no record of an address leave the state (R310). -/
theorem opDeliverAll_none (node : Option (BitVec 16)) (r : QRec) (gap : Bool)
    (h : ∀ n < 32, inputsOf (s.oper.getD n default) node a = []) : opDeliverAll node a r gap s = s := by
  have hkeep : ∀ l : List Nat, (∀ n ∈ l, n < 32) → l.foldl (fun acc n =>
      opDeliver n (inputsOf (acc.oper.getD n default) node a) node a r gap acc) s = s := by
    intro l hl
    induction l with
    | nil => rfl
    | cons n l ih =>
      rw [List.forall_mem_cons] at hl
      rw [List.foldl_cons, h n hl.1]
      exact ih hl.2
  exact hkeep _ fun n hn => List.mem_range.mp hn

end

/-- The state once a record has left its channel for a destination that takes it (R186, R190). -/
def dispatched (c a : Nat) (r : FormedRec) (rest : List FormedRec) (d : Dest) (s : State) : State :=
  delivered (c / 8) a r d (modChan c (fun x => { x with formed := rest, sent := some r.word }) s)

theorem chans_length_of_sizes {s u : State} (h : u.sizes = s.sizes) : u.daq.chans.length = s.daq.chans.length := by
  have hlen := congrArg (fun l => (l.getD 4 []).getD 0 0) h
  exact hlen

/-- Settles O31. -/
theorem outputsBecomeRecords : Obligations.OutputsBecomeRecords := by
  intro t ch s hwhole c now x
  have hlen : s.daq.chans.length = 64 := (chans_length_of_sizes (s := State.reset) (hwhole.trans reset_sizes.symm)).trans rfl
  have hc : c < now.daq.chans.length := lt_of_lt_of_eq ch.isLt hlen.symm
  refine ⟨?_, fun r rest d => ?_, fun hb => ?_, fun e he hnow => ?_⟩
  · intro o ot raw code v m fl hshadow hemits hweave htail hen hsub hloop hsettle hrun hlate hnow hfill hblank hbl hfade hco hopen
      hcomb hother
    have hgrid := gridOutput_record (s := now) (c := c) o ot m hc rfl rfl hrun hlate hnow hfill hblank hbl hfade hco hopen hcomb
      hother
    have hweave' : (x.weave.state == .running) = false := by simpa using hweave
    have hexec : exec (.filterOutput t ch o) s = .next (gridOutput c o now) := by
      refine (if_neg ?_).trans ((if_neg ?_).trans ((if_neg ?_).trans ?_))
      · simp [show groupEmits (tick t s) (ch.val / 8) = true from hemits]
      · rw [show ((chanOf (tick t s) ch.val).weave.state == .running) = false from hweave',
          show (chanOf (tick t s) ch.val).weave.tail = none from htail]
        decide
      · rw [show (chanOf (tick t s) ch.val).cfg.enable = true from hen,
          show (chanOf (tick t s) ch.val).unsubstituted = false from hsub,
          show (chanOf (tick t s) ch.val).loopback = none from hloop,
          show (chanOf (tick t s) ch.val).settleEnd = none from hsettle]
        decide
      · rw [hshadow]
        rfl
    rw [hgrid] at hexec
    have hrecorded := chanOf_formRecord (s := outputTaken c ot m raw now) (c := c) x.pos m.value ot.ts ot.out ot.out
      (commonFlags now c x.pos ot raw false ||| flagsOf [(fPath, m.path), (fOverrange, m.ovr), (fSettling, false)])
      (by simpa [outputTaken, mergedAt, modChan, modDaq] using hc)
    have hrest := execFilterOutput_rest (cells := false) (ps := [.daq] ++ signalling) (by simp) t ch o s
    rw [show execFilterOutput t ch o s = _ from hexec] at hrest
    refine happens_next hexec hrest ?_
    rw [chanOf_outputTaken ot m raw hc hco] at hrecorded
    exact ⟨congrArg (fun y : Chan => y.primary.merger) hrecorded, congrArg Chan.formed hrecorded⟩
  · intro a q hformed hfirst hjudged hdest hup hroom hoper
    have hearlier : ((chansOf (ch.val / 8)).any fun k => match (chanOf now k).formed with
        | [] => false
        | y :: _ => leavesBefore y r) = false := by
      rw [List.any_eq_false]
      intro k hk
      have hall := hfirst k hk
      cases hk' : (chanOf s k).formed with
      | nil => simp [now, hk']
      | cons y l => simpa [now, hk'] using hall
    have hexec : exec (.recordDispatch t ch) s = .next (dispatched c a r rest d now) := by
      have hdone : exec (.recordDispatch t ch) s = execRecordDispatch t ch s := rfl
      rw [hdone, execRecordDispatch]
      simp only [show (chanOf (tick t s) ch.val).formed = r :: rest from hformed]
      refine (if_neg ?_).trans ?_
      · rw [Bool.or_eq_true, not_or]
        refine ⟨?_, ?_⟩
        · rw [Bool.not_eq_true]
          exact hearlier
        · rw [decide_eq_true_eq]
          exact Int.not_lt.mpr hjudged
      · have hsub : subDests (subFor (addrOf (modChan ch.val (fun x => { x with formed := rest, sent := some r.word })
            (tick t s)) (recAddr r.word)) r.out) = [d] := hdest
        rw [hsub]
        have hto : deliver (c / 8) a r d (destUp (modChan c (fun x => { x with formed := rest, sent := some r.word }) now) d)
            (modChan c (fun x => { x with formed := rest, sent := some r.word }) now) = dispatched c a r rest d now := by
          have hup' : destUp (modChan c (fun x => { x with formed := rest, sent := some r.word }) now) d = true := by
            cases d <;> exact hup
          rw [hup']
          exact deliver_room hroom
        rw [List.foldl_cons, List.foldl_nil]
        refine congrArg Host.Outcome.next ((congrArg (opDeliverAll none a _ r.gap) hto).trans ?_)
        exact opDeliverAll_none _ _ _ hoper
    refine happens_next hexec ?_ ⟨?_, ?_⟩
    · unfold dispatched delivered
      simp [now]
    · exact congrArg Chan.formed (chanOf_modChan _ hc)
    · exact congrArg DestQueue.recs queueOf_delivered
  · exact happens_next (if_pos hb) (by simp) rfl
  · have hdone : exec (.settlingDelayEnd t ch) s = execSettlingDelayEnd t ch s := rfl
    refine happens_next ?_ (by simp [now]) rfl
    rw [hdone, execSettlingDelayEnd]
    simp only [chanOf_tick, show (chanOf s ch.val).settleEnd = some e from he]
    exact if_neg (Nat.not_lt.mpr hnow)

end Sys2Proof.Machine
end

section
/-! The weaves: what a stroke, a round and an end leave of the channel (R115, R148 to R155). -/

set_option maxRecDepth 4000

namespace Sys2Proof.Machine

/-! ### What leaves the weaves, the waiting positions and the shadows

`plans` is what a boundary keeps of every channel unless a waiting position or loop-back takes effect; `steers` adds whether
the shadow runs, which a cross-fade that is cut short changes. -/

/-- The weave of a channel and what waits for its boundary. -/
def Chan.plan (x : Chan) : WeaveSt × Option Nat × Option Nat := (x.weave, x.pendingPos, x.pendingLoop)

/-- The plan with the state of the shadow. -/
def Chan.steer (x : Chan) : (WeaveSt × Option Nat × Option Nat) × RunState := (x.plan, x.shadow.run)

def State.plans (s : State) : List (WeaveSt × Option Nat × Option Nat) := s.daq.chans.map Chan.plan
def State.steers (s : State) : List ((WeaveSt × Option Nat × Option Nat) × RunState) := s.daq.chans.map Chan.steer

section
variable {s u : State} {c n : Nat}

theorem plans_of_steers (h : u.steers = s.steers) : u.plans = s.plans := by
  have hmap : ∀ x : State, x.plans = x.steers.map Prod.fst := fun x => by
    rw [State.plans, State.steers, List.map_map]
    rfl
  rw [hmap, hmap, h]

theorem plan_of_plans (h : u.plans = s.plans) (c : Nat) : (chanOf u c).plan = (chanOf s c).plan := by
  have hget := congrArg (fun l => List.getD l c (Chan.plan default)) h
  simp only [State.plans, List.getD_map] at hget
  exact hget

theorem steer_of_steers (h : u.steers = s.steers) (c : Nat) : (chanOf u c).steer = (chanOf s c).steer := by
  have hget := congrArg (fun l => List.getD l c (Chan.steer default)) h
  simp only [State.steers, List.getD_map] at hget
  exact hget

theorem shadow_of_steers (h : u.steers = s.steers) (c : Nat) : (chanOf u c).shadow.run = (chanOf s c).shadow.run :=
  congrArg Prod.snd (steer_of_steers h c)

theorem map_modify_same {α β : Type} (p : α → β) (f : α → α) (h : ∀ x, p (f x) = p x) (l : List α) (i : Nat) :
    (l.modify i f).map p = l.map p := by
  apply List.ext_getElem?
  intro k
  simp only [List.getElem?_map, List.getElem?_modify]
  cases l[k]? with
  | none => rfl
  | some x => by_cases hk : i = k <;> simp [hk, h]

theorem steers_modChan (f : Chan → Chan) (h : ∀ x, (f x).steer = x.steer) : (modChan c f s).steers = s.steers :=
  map_modify_same _ f h _ _

theorem plans_modChan (f : Chan → Chan) (h : ∀ x, (f x).plan = x.plan) : (modChan c f s).plans = s.plans :=
  map_modify_same _ f h _ _

theorem steers_foldl {α : Type} (l : List α) (f : State → α → State) (h : ∀ y a, (f y a).steers = y.steers) :
    (l.foldl f s).steers = s.steers := by
  induction l generalizing s with
  | nil => rfl
  | cons a l ih => exact ih.trans (h s a)

end

section
variable (s : State) (c : Nat)

theorem steers_of_daq {s u : State} (h : u.daq = s.daq) : u.steers = s.steers := congrArg (fun d : DaqSt => d.chans.map Chan.steer) h

@[simp] theorem steers_emit (code argB arg : Nat) (extra : List Word) (tb : Nat) :
    (emit code argB arg extra tb s).steers = s.steers := steers_of_daq ((emit_same code argB arg extra tb s) .daq (by decide))

@[simp] theorem steers_emitNow (code argB arg : Nat) (extra : List Word) :
    (emitNow code argB arg extra s).steers = s.steers := steers_emit s ..

@[simp] theorem steers_modGroup (g : Nat) (f : Group → Group) : (modGroup g f s).steers = s.steers := rfl
@[simp] theorem steers_modCal (g : Nat) (f : CalSt → CalSt) : (modCal g f s).steers = s.steers := rfl
@[simp] theorem steers_modGen (n : Nat) (f : Gen → Gen) : (modGen n f s).steers = s.steers := rfl
@[simp] theorem steers_modAddr (a : Nat) (f : AddrSt → AddrSt) : (modAddr a f s).steers = s.steers := rfl
@[simp] theorem steers_gapAllAt (a : Nat) (t : Time) : (gapAllAt a t s).steers = s.steers := rfl
@[simp] theorem steers_gapAt (a : Nat) (l : List Dest) : (gapAt a l s).steers = s.steers := rfl
@[simp] theorem steers_applyCoefs (k : Nat) : (applyCoefs k s).steers = s.steers := rfl
@[simp] theorem steers_forgetCycle : (forgetCycle c s).steers = s.steers := rfl
@[simp] theorem steers_notePol (n : Nat) (t : Time) : (notePol n t s).steers = s.steers := rfl
@[simp] theorem steers_restartOther : (restartOther c s).steers = s.steers := rfl
@[simp] theorem steers_startOverlap (g : Nat) (p : CalPhase) (b : Time) : (startOverlap g p b s).steers = s.steers := rfl

@[simp] theorem steers_gapChanAllAt (t : Time) : (gapChanAllAt c t s).steers = s.steers :=
  steers_foldl _ _ fun _ _ => rfl

@[simp] theorem steers_settleTo (a u : Time) : (settleTo c a u s).steers = s.steers := steers_modChan _ fun _ => rfl
@[simp] theorem steers_refJudge (t : Time) : (refJudge c t s).steers = s.steers := steers_modChan _ fun _ => rfl
@[simp] theorem steers_restartChan (t : Time) (b : Bool) : (restartChan c t b s).steers = s.steers :=
  steers_modChan _ fun _ => rfl

theorem steers_forChans (cs : List Nat) (f : Nat → State → State) (h : ∀ k y, (f k y).steers = y.steers) :
    (forChans cs f s).steers = s.steers := steers_foldl _ _ fun _ _ => h _ _

@[simp] theorem steers_dropCycles (n : Nat) (t : Time) : (dropCycles n t s).steers = s.steers := by
  unfold dropCycles
  simp only [steers_modGen]
  rw [steers_forChans _ _ _ (by simp), steers_foldl _ _ (by simp)]

@[simp] theorem steers_excChange (n : Nat) (t : Time) : (excChange n t s).steers = s.steers := by
  refine steers_forChans _ _ _ fun k y => ?_
  split <;> simp

@[simp] theorem steers_acBegin (n : Nat) (t : Time) (dead : Nat) (neg : Bool) : (acBegin n t dead neg s).steers = s.steers := by
  unfold acBegin
  simp only []
  rw [steers_forChans _ _ _ (by simp), steers_modGen, steers_foldl _ _ (by simp), steers_notePol]

@[simp] theorem steers_ratioEdge (n : Nat) (b : Bool) (t : Time) : (ratioEdge n b t s).steers = s.steers := by
  have hall : (forChans (fedBy n) (fun c => refJudge c t) s).steers = s.steers := steers_forChans _ _ _ (by simp)
  unfold ratioEdge
  simp only []
  split_ifs <;> simp [hall]

@[simp] theorem steers_applyGen (n : Nat) (new : ExcCfg) (t : Time) : (applyGen n new t s).steers = s.steers := by
  unfold applyGen
  simp only [steers_ratioEdge]
  split_ifs <;> simp

@[simp] theorem steers_applyGenPending (n : Nat) (t : Time) : (applyGenPending n t s).steers = s.steers := by
  unfold applyGenPending
  split <;> simp

@[simp] theorem steers_strokeExc (k : Stroke) (b : Time) : (strokeExc c k b s).steers = s.steers := by
  unfold strokeExc
  simp only []
  split_ifs <;> simp

@[simp] theorem steers_calRefresh (g : Nat) : (calRefresh g s).steers = s.steers := by
  unfold calRefresh
  simp only []
  split
  · rfl
  · split <;> simp

@[simp] theorem steers_endSlotOff : (endSlotOff c s).steers = s.steers := by
  unfold endSlotOff
  simp only []
  split
  · rw [steers_calRefresh]
    split
    · exact steers_modChan _ fun _ => rfl
    · rfl
  · rfl

@[simp] theorem steers_applySub (a : Nat) (b : Time) : (applySub a b s).steers = s.steers := by
  unfold applySub
  split <;> simp

@[simp] theorem steers_applyOverlap (b : Time) : (applyOverlap c b s).steers = s.steers := by
  unfold applyOverlap
  simp only []
  split
  · rfl
  · split <;> simp

@[simp] theorem steers_applyCfg (new : ChanCfg) (b : Time) : (applyCfg c new b s).steers = s.steers := by
  unfold applyCfg
  extract_lets x old weaving s1 s2 s3
  have h1 : s1.steers = s.steers := steers_modChan _ fun _ => rfl
  have h2 : s2.steers = s1.steers := by
    unfold s2
    split
    · rw [steers_restartOther, steers_modChan, steers_settleTo]
      exact fun _ => rfl
    · rfl
  have h3 : s3.steers = s.steers := by
    unfold s3
    rw [steers_refJudge, ← h1, ← h2]
    split
    · exact steers_settleTo ..
    · rfl
  split
  · rw [steers_gapAllAt, steers_restartChan, h3]
  · split
    · have h4 : (forgetCycle c (endSlotOff c s3)).steers = s.steers := by
        rw [steers_forgetCycle, steers_endSlotOff, h3]
      split
      · exact (steers_applyGenPending ..).trans h4
      · exact h4
    · exact h3

/-! ### Cross-fades that are cut short -/

@[simp] theorem plans_emit (code argB arg : Nat) (extra : List Word) (tb : Nat) :
    (emit code argB arg extra tb s).plans = s.plans := plans_of_steers (steers_emit s ..)

@[simp] theorem plans_drawWord : (drawWord s).2.plans = s.plans := rfl

@[simp] theorem plans_exchangeRoles : (exchangeRoles c s).plans = s.plans := plans_modChan _ fun _ => rfl

@[simp] theorem plans_capSwitch (m : Nat) : (capSwitch c m s).plans = s.plans := plans_modChan _ fun _ => rfl

@[simp] theorem plans_capRefresh : (capRefresh c s).plans = s.plans := by
  have hcap : ∀ (f : Chan → Option Nat) (y : State), (modChan c (fun x => { x with capped := f x }) y).plans = y.plans :=
    fun f y => plans_modChan _ fun _ => rfl
  unfold capRefresh
  extract_lets x
  split
  · rfl
  · split
    · split
      · exact (plans_capSwitch ..).trans (hcap ..)
      · rfl
    · split
      · rfl
      · split
        · exact (plans_capSwitch ..).trans (hcap ..)
        · exact hcap ..

@[simp] theorem plans_cutFade (t : Time) : (cutFade c t s).plans = s.plans := by
  unfold cutFade
  simp only []
  split
  · rfl
  · simp
  · simp

@[simp] theorem plans_muxChange (p : Nat) (t : Time) : (muxChange c p t s).plans = s.plans := by
  unfold muxChange
  simp only []
  rw [plans_of_steers (steers_gapAllAt ..), plans_modChan, plans_of_steers (steers_forgetCycle ..), plans_cutFade]
  exact fun _ => rfl

/-! ### An output boundary (R115) -/

theorem length_of_steers {s u : State} (h : u.steers = s.steers) : u.daq.chans.length = s.daq.chans.length := by
  simpa [State.steers] using congrArg List.length h

theorem length_of_plans {s u : State} (h : u.plans = s.plans) : u.daq.chans.length = s.daq.chans.length := by
  simpa [State.plans] using congrArg List.length h

theorem chans_length_modChan (f : Chan → Chan) : (modChan c f s).daq.chans.length = s.daq.chans.length := by
  simp [modChan, modDaq]

/-- A position that waits takes effect (R115). -/
theorem muxChange_at (p : Nat) (b : Time) (hc : c < s.daq.chans.length) :
    (chanOf (muxChange c p b (modChan c (fun x => { x with pendingPos := none }) s)) c).plan =
      ((chanOf s c).weave, none, (chanOf s c).pendingLoop) := by
  rw [plan_of_plans (plans_muxChange ..), chanOf_modChan _ hc]
  rfl

/-- A loop-back that waits takes effect (R115). -/
theorem loopback_at (v : Option Time) (b : Time) (hc : c < s.daq.chans.length) :
    (chanOf (modChan c (fun x => { x with pendingLoop := none, loopback := v, last := none, sent := none })
      (forgetCycle c (cutFade c b s))) c).plan = ((chanOf s c).weave, (chanOf s c).pendingPos, none) := by
  have hplans : (forgetCycle c (cutFade c b s)).plans = s.plans :=
    (plans_of_steers (steers_forgetCycle ..)).trans (plans_cutFade ..)
  have hplan := plan_of_plans hplans c
  rw [chanOf_modChan _ (lt_of_lt_of_eq hc (length_of_plans hplans).symm)]
  exact Prod.ext (congrArg (fun x => x.1) hplan) (Prod.ext (congrArg (fun x => x.2.1) hplan) rfl)

/-- What a boundary leaves of its channel: the weave, nothing that waits, and a shadow that has stopped (R115). -/
structure AtBoundary (s u : State) (c : Nat) : Prop where
  weave : (chanOf u c).weave = (chanOf s c).weave
  pos : (chanOf u c).pendingPos = none
  loop : (chanOf u c).pendingLoop = none
  len : u.daq.chans.length = s.daq.chans.length
  stopped : (chanOf s c).pendingPos = none → (chanOf s c).pendingLoop = none → (chanOf s c).shadow.run = .stopped →
    (chanOf u c).shadow.run = .stopped

theorem applyBoundary_at (b : Time) (hc : c < s.daq.chans.length) : AtBoundary s (applyBoundary c b s) c := by
  unfold applyBoundary
  extract_lets n s1 s2 s3 s4 starts floor s5 s6 s7 s8
  have h1 : s1.steers = s.steers := by
    unfold s1
    split
    · exact steers_applyGenPending ..
    · rfl
  have h3 : s3.steers = s.steers := (steers_modChan _ (by exact fun _ => rfl)).trans h1
  have h4 : s4.steers = s.steers := by
    unfold s4
    split
    · exact h3
    · exact (steers_applyCfg ..).trans h3
  have hlen4 : c < s4.daq.chans.length := lt_of_lt_of_eq hc (length_of_steers h4).symm
  have hchan5 : chanOf s5 c = _ := chanOf_modChan _ hlen4
  have h7 : s7.steers = s5.steers := by
    refine (steers_foldl _ _ fun _ _ => steers_applySub ..).trans ((steers_applyOverlap ..).trans ?_)
    split <;> rfl
  clear_value s4 starts floor
  have hplan7 : s7.plans = s.plans := (plans_of_steers h7).trans ((plans_modChan _ (by exact fun _ => rfl)).trans (plans_of_steers h4))
  have hplan := plan_of_plans hplan7 c
  have hlen7 : s7.daq.chans.length = s.daq.chans.length := length_of_plans hplan7
  have hstopped : (chanOf s c).shadow.run = .stopped → (chanOf s7 c).shadow.run = .stopped := by
    intro hrun
    have hrun4 : (chanOf s4 c).shadow.run = .stopped := (shadow_of_steers h4 c).trans hrun
    have hrun5 : (chanOf s5 c).shadow.run = .stopped := by
      rw [hchan5]
      simp only [applyRun, hrun4]
    exact (shadow_of_steers h7 c).trans hrun5
  clear_value s7
  have h8 : (chanOf s8 c).plan = ((chanOf s c).weave, none, (chanOf s c).pendingLoop) ∧ s8.daq.chans.length = s.daq.chans.length ∧
      ((chanOf s c).pendingPos = none → s8 = s7) := by
    have hpos : (chanOf s7 c).pendingPos = (chanOf s c).pendingPos := congrArg (fun x => x.2.1) hplan
    unfold s8
    split
    · next hnone =>
      refine ⟨?_, hlen7, fun _ => rfl⟩
      rw [hplan, Chan.plan, ← hpos, hnone]
    · next p hsome =>
      refine ⟨?_, ?_, fun hnone => ?_⟩
      · rw [muxChange_at _ _ p b (lt_of_lt_of_eq hc hlen7.symm)]
        exact Prod.ext (congrArg (fun x => x.1) hplan) (Prod.ext rfl (congrArg (fun x => x.2.2) hplan))
      · exact (length_of_plans (plans_muxChange ..)).trans ((chans_length_modChan ..).trans hlen7)
      · cases hsome.symm.trans (hpos.trans hnone)
  obtain ⟨hplan8, hlen8, hsame8⟩ := h8
  clear_value s8
  have hloop : (chanOf s8 c).pendingLoop = (chanOf s c).pendingLoop := congrArg (fun x => x.2.2) hplan8
  split
  · next hnone =>
    refine ⟨congrArg (fun x => x.1) hplan8, congrArg (fun x => x.2.1) hplan8, hnone, hlen8, fun hpos _ hrun => ?_⟩
    rw [hsame8 hpos]
    exact hstopped hrun
  · next ms hsome =>
    have hplan9 := loopback_at _ _ (some (b + ms * msU)) b (lt_of_lt_of_eq hc hlen8.symm)
    refine ⟨(congrArg (fun x => x.1) hplan9).trans (congrArg (fun x => x.1) hplan8),
      (congrArg (fun x => x.2.1) hplan9).trans (congrArg (fun x => x.2.1) hplan8), congrArg (fun x => x.2.2) hplan9, ?_, fun _ hnone _ => ?_⟩
    · refine (chans_length_modChan ..).trans (Eq.trans ?_ hlen8)
      exact length_of_plans ((plans_of_steers (steers_forgetCycle ..)).trans (plans_cutFade ..))
    · cases hsome.symm.trans (hloop.trans hnone)

end

/-! ### Strokes, rounds and ends (R148 to R155) -/

section
variable {s : State} {c : Nat} {img : WeaveImg}

/-- Stroke `i` of an image as it begins at `b`. -/
def Begins (img : WeaveImg) (i : Nat) (b : Time) (r : StrokeRun) : Prop :=
  r.index = i ∧ r.begin_ = b ∧ r.formed = 0 ∧ r.stroke = img.strokes.getD i default

/-- The stroke that begins (R148). -/
def strokeRun (c i : Nat) (b : Time) (img : WeaveImg) (s : State) : StrokeRun :=
  let k := img.strokes.getD i default
  { index := i, stroke := k, begin_ := b, formed := 0, counted := 0, notBefore := 0, merger := mergerStart
    burn := strokeBurn img k (chanOf s c).cfg.burnout
    openWork := (chanOf s c).open_.getD k.pos default, openEvs := [] }

/-- What a stroke sets of its channel as it begins (R148). -/
def strokeSet (k : Stroke) (run : StrokeRun) (x : Chan) : Chan :=
  { x with
    pos := k.pos, last := none, sent := none, settleEnd := none, disagree := 0
    cfg := { x.cfg with gain := k.gain, settleUs := k.settleUs }
    primary := { x.primary with mode := k.mode, merger := mergerStart }
    weave := { x.weave with cur := some run } }

theorem strokeSet_weave (k : Stroke) (run : StrokeRun) (x : Chan) :
    (strokeSet k run x).weave = { x.weave with cur := some run } := rfl

theorem strokeSet_shadow (k : Stroke) (run : StrokeRun) (x : Chan) : (strokeSet k run x).shadow = x.shadow := rfl

theorem beginStroke_eq (i : Nat) (b : Time) (h : (chanOf (applyBoundary c b s) c).weave.image = some img) :
    beginStroke c i b s = strokeExc c (img.strokes.getD i default) b (restartOther c (modChan c
      (strokeSet (img.strokes.getD i default) (strokeRun c i b img (applyBoundary c b s))) (applyBoundary c b s))) := by
  unfold beginStroke
  simp only [h]
  rfl

theorem weave_of_plans {u : State} (h : u.plans = s.plans) (c : Nat) : (chanOf u c).weave = (chanOf s c).weave :=
  congrArg Prod.fst (plan_of_plans h c)

theorem beginStroke_at (i : Nat) (b : Time) (hc : c < s.daq.chans.length) (himg : (chanOf s c).weave.image = some img) :
    ∃ r, (chanOf (beginStroke c i b s) c).weave = { (chanOf s c).weave with cur := some r } ∧ Begins img i b r ∧
      ((chanOf s c).pendingPos = none → (chanOf s c).pendingLoop = none → (chanOf s c).shadow.run = .stopped →
        (chanOf (beginStroke c i b s) c).shadow.run = .stopped) := by
  have hat := applyBoundary_at s c b hc
  rw [beginStroke_eq i b ((congrArg WeaveSt.image hat.weave).trans himg)]
  generalize applyBoundary c b s = z at hat
  set run := strokeRun c i b img z with hrun
  set y := modChan c (strokeSet (img.strokes.getD i default) run) z with hy
  have hset : chanOf y c = strokeSet (img.strokes.getD i default) run (chanOf z c) :=
    chanOf_modChan _ (lt_of_lt_of_eq hc hat.len.symm)
  have hsteers : ∀ k, (strokeExc c k b (restartOther c y)).steers = y.steers := fun k => by simp
  refine ⟨run, ?_, ⟨rfl, rfl, rfl, rfl⟩, fun hpos hloop hstop => ?_⟩
  · rw [weave_of_plans (plans_of_steers (hsteers _)) c, hset, strokeSet_weave, hat.weave]
  · rw [shadow_of_steers (hsteers _) c, hset, strokeSet_shadow]
    exact hat.stopped hpos hloop hstop

/-- A round begins (R150). -/
theorem beginRound_at (b : Time) (hc : c < s.daq.chans.length) (himg : (chanOf s c).weave.image = some img) :
    ∃ r, (chanOf (beginRound c b s) c).weave = { (chanOf s c).weave with roundStart := b, cur := some r } ∧ Begins img 0 b r ∧
      ((chanOf s c).pendingPos = none → (chanOf s c).pendingLoop = none → (chanOf s c).shadow.run = .stopped →
        (chanOf (beginRound c b s) c).shadow.run = .stopped) := by
  have hset : chanOf (modWeave c (fun w => { w with roundStart := b }) s) c =
      { chanOf s c with weave := { (chanOf s c).weave with roundStart := b } } := chanOf_modChan _ hc
  have hlen : c < (modWeave c (fun w => { w with roundStart := b }) s).daq.chans.length :=
    lt_of_lt_of_eq hc (chans_length_modChan ..).symm
  unfold beginRound
  generalize modWeave c (fun w => { w with roundStart := b }) s = y at hset hlen
  obtain ⟨r, hweave, hbegins, hstopped⟩ := beginStroke_at (img := img) 0 b hlen (by rw [hset]; exact himg)
  rw [hset] at hweave hstopped
  exact ⟨r, hweave, hbegins, hstopped⟩

/-- What a weave sets of its channel as it starts (R152, R153). -/
def weaveBegun (t0 : Time) (x y : Chan) : Chan :=
  { y with
    shadow := { y.shadow with run := .stopped }
    weave := { y.weave with
      state := .running, armedAt := none, armedSync := false, armedSlot := false, tStart := t0, round := 0
      roundStart := t0, cur := none, lastStroke := 0, stop := none
      saved := some { pos := x.pos, gain := x.cfg.gain, settleUs := x.cfg.settleUs, burnout := x.cfg.burnout
                      mode := x.primary.mode } } }

theorem beginWeave_eq (a : Time) (z : State) (hz : applyBoundary c a (cutFade c a s) = z) :
    beginWeave c a s = beginRound c a (gapChanAllAt c a (modChan c (weaveBegun a (chanOf z c)) z)) := by
  subst hz
  rfl

/-- The weave starts (R152, R153). -/
theorem beginWeave_at (a : Time) (hc : c < s.daq.chans.length) (himg : (chanOf s c).weave.image = some img) :
    ∃ r x, (chanOf (beginWeave c a s) c).weave = { (weaveBegun a x x).weave with roundStart := a, cur := some r } ∧
      Begins img 0 a r ∧ (chanOf (beginWeave c a s) c).shadow.run = .stopped := by
  have hcut : (cutFade c a s).plans = s.plans := plans_cutFade ..
  have hat := applyBoundary_at (cutFade c a s) c a (lt_of_lt_of_eq hc (length_of_plans hcut).symm)
  have hweave : (chanOf (applyBoundary c a (cutFade c a s)) c).weave = (chanOf s c).weave :=
    hat.weave.trans (weave_of_plans hcut c)
  have hlen : c < (applyBoundary c a (cutFade c a s)).daq.chans.length :=
    lt_of_lt_of_eq hc (hat.len.trans (length_of_plans hcut)).symm
  generalize hz : applyBoundary c a (cutFade c a s) = z at hat hweave hlen
  rw [beginWeave_eq a z hz]
  have hset : chanOf (modChan c (weaveBegun a (chanOf z c)) z) c = weaveBegun a (chanOf z c) (chanOf z c) := chanOf_modChan _ hlen
  have hgap : (gapChanAllAt c a (modChan c (weaveBegun a (chanOf z c)) z)).steers =
      (modChan c (weaveBegun a (chanOf z c)) z).steers := steers_gapChanAllAt ..
  have hlen' : c < (gapChanAllAt c a (modChan c (weaveBegun a (chanOf z c)) z)).daq.chans.length :=
    lt_of_lt_of_eq hlen ((length_of_steers hgap).trans (chans_length_modChan ..)).symm
  have hsteer := steer_of_steers hgap c
  rw [hset] at hsteer
  generalize gapChanAllAt c a (modChan c (weaveBegun a (chanOf z c)) z) = y at hlen' hsteer
  obtain ⟨-, hpos, hloop, -, -⟩ := hat
  generalize chanOf z c = x at hpos hloop hweave hsteer
  have hplan : (chanOf y c).plan = (weaveBegun a x x).plan := congrArg Prod.fst hsteer
  have hweaveY : (chanOf y c).weave = (weaveBegun a x x).weave := congrArg Prod.fst hplan
  have hposY : (chanOf y c).pendingPos = none := (congrArg (fun p => p.2.1) hplan).trans hpos
  have hloopY : (chanOf y c).pendingLoop = none := (congrArg (fun p => p.2.2) hplan).trans hloop
  have hshadowY : (chanOf y c).shadow.run = .stopped := congrArg Prod.snd hsteer
  have himgY : (chanOf y c).weave.image = some img := by
    rw [hweaveY]
    exact (congrArg WeaveSt.image hweave).trans himg
  obtain ⟨r, hround, hbegins, hstopped⟩ := beginRound_at (img := img) a hlen' himgY
  rw [hweaveY] at hround
  exact ⟨r, x, hround, hbegins, hstopped hposY hloopY hshadowY⟩

/-- What follows the end of a weave leaves the weaves (R154, R155). -/
theorem plans_endWeave (e : Time) (himg : (chanOf s c).weave.image = some img) :
    (endWeave c e s).plans = (modWeave c (fun w => { w with state := .idle, cur := none, stop := none }) s).plans := by
  unfold endWeave
  simp only [himg]
  rw [plans_capRefresh, plans_emit]
  have hgap : ∀ y, (gapChanAllAt c e y).plans = y.plans := fun y => plans_of_steers (steers_gapChanAllAt ..)
  split
  · exact (plans_muxChange ..).trans ((plans_modChan _ (by exact fun _ => rfl)).trans (hgap _))
  · exact (plans_of_steers (steers_restartChan ..)).trans ((plans_modChan _ (by exact fun _ => rfl)).trans (hgap _))
  · exact (plans_of_steers (steers_applyCfg ..)).trans (hgap _)

/-- The weave ends (R154, R155). -/
theorem endWeave_at (e : Time) (hc : c < s.daq.chans.length) (himg : (chanOf s c).weave.image = some img) :
    (chanOf (endWeave c e s) c).weave = { (chanOf s c).weave with state := .idle, cur := none, stop := none } := by
  rw [weave_of_plans (plans_endWeave e himg) c, modWeave, chanOf_modChan _ hc]

/-- The weave of a channel after a change of it. -/
theorem weave_modWeave (f : WeaveSt → WeaveSt) (hc : c < s.daq.chans.length) :
    (chanOf (modWeave c f s) c).weave = f (chanOf s c).weave :=
  congrArg Chan.weave (chanOf_modChan _ hc)

/-- What follows the last stroke of a round (R150, R154). -/
theorem afterRound_at (e : Time) (hc : c < s.daq.chans.length) (himg : (chanOf s c).weave.image = some img) :
    (chanOf (afterRound c img e s) c).weave.tail = (chanOf s c).weave.tail ∧
    (chanOf (afterRound c img e s) c).weave.round = (chanOf s c).weave.round + 1 ∧
    ((chanOf s c).weave.stop.isSome ∨ (img.rounds ≠ 0 ∧ img.rounds ≤ (chanOf s c).weave.round + 1) →
      (chanOf (afterRound c img e s) c).weave.state = .idle ∧ (chanOf (afterRound c img e s) c).weave.cur = none) ∧
    ((chanOf s c).weave.stop = none → img.rounds = 0 ∨ (chanOf s c).weave.round + 1 < img.rounds →
      img.periodUs = 0 ∨ (chanOf s c).weave.roundStart + img.periodUs * usU ≤ e →
        (chanOf (afterRound c img e s) c).weave.state = (chanOf s c).weave.state ∧
          ∃ r, (chanOf (afterRound c img e s) c).weave.cur = some r ∧ Begins img 0 e r) := by
  have hset := weave_modWeave (s := s) (fun w => { w with round := w.round + 1, cur := none }) hc
  have hlen : c < (modWeave c (fun w => { w with round := w.round + 1, cur := none }) s).daq.chans.length :=
    lt_of_lt_of_eq hc (chans_length_modChan ..).symm
  unfold afterRound
  generalize modWeave c (fun w => { w with round := w.round + 1, cur := none }) s = y at hset hlen
  have himgY : (chanOf y c).weave.image = some img := by rw [hset]; exact himg
  simp only [hset]
  generalize chanOf s c = x at hset himg
  by_cases hover : x.weave.stop.isSome ∨ (img.rounds ≠ 0 ∧ img.rounds ≤ x.weave.round + 1)
  · have hdec : (x.weave.stop.isSome || (img.rounds != 0 && decide (img.rounds ≤ x.weave.round + 1))) = true := by
      simpa using hover
    have hend := endWeave_at (img := img) e hlen himgY
    rw [hset] at hend
    rw [if_pos hdec, hend]
    refine ⟨rfl, rfl, fun _ => ⟨rfl, rfl⟩, fun hstop hrounds _ => ?_⟩
    rcases hover with h | ⟨hset0, hle⟩
    · rw [hstop] at h
      cases h
    · omega
  · have hdec : ¬(x.weave.stop.isSome || (img.rounds != 0 && decide (img.rounds ≤ x.weave.round + 1))) = true := by
      simpa using hover
    rw [if_neg hdec]
    by_cases hperiod : img.periodUs = 0 ∨ x.weave.roundStart + img.periodUs * usU ≤ e
    · obtain ⟨r, hround, hbegins, -⟩ := beginRound_at (img := img) e hlen himgY
      rw [hset] at hround
      rw [if_pos hperiod, hround]
      exact ⟨rfl, rfl, fun h => absurd h hover, fun _ _ _ => ⟨rfl, r, rfl, hbegins⟩⟩
    · rw [if_neg hperiod, hset]
      exact ⟨rfl, rfl, fun h => absurd h hover, fun _ _ h => absurd h hperiod⟩

end

/-- Settles O34. -/
theorem weavesRun : Obligations.WeavesRun := by
  intro t ch s hwhole c now w runsFrom
  have hlen : s.daq.chans.length = 64 := (chans_length_of_sizes (s := State.reset) (hwhole.trans reset_sizes.symm)).trans rfl
  have hc : c < now.daq.chans.length := lt_of_lt_of_eq ch.isLt hlen.symm
  refine ⟨fun a img hstate harmed himg ha => ?_, fun r img hstate hcur himg hend => ?_, fun img hstate hcur himg hdue => ?_⟩
  · obtain ⟨r, x, hweave, hbegins, hstopped⟩ := beginWeave_at (img := img) a hc himg
    have hexec : exec (.weaveArmedStart t ch) s = .next (beginWeave c a now) := by
      have hdone : exec (.weaveArmedStart t ch) s = execWeaveArmedStart t ch s := rfl
      rw [hdone, execWeaveArmedStart]
      simp only [chanOf_tick, show (chanOf s ch.val).weave.state = _ from hstate,
        show (chanOf s ch.val).weave.armedAt = _ from harmed]
      exact if_neg (Nat.not_lt.mpr ha)
    have hrest := execWeaveArmedStart_rest (cells := false) (ps := [.free, .daq] ++ signalling) (by simp) t ch s
    rw [show execWeaveArmedStart t ch s = _ from hexec] at hrest
    refine happens_next hexec hrest ⟨rfl, ⟨congrArg WeaveSt.state hweave, r, congrArg WeaveSt.cur hweave, hbegins⟩,
      congrArg WeaveSt.tStart hweave, congrArg WeaveSt.roundStart hweave, congrArg WeaveSt.round hweave,
      congrArg WeaveSt.armedAt hweave, hstopped⟩
  · intro s1
    have hset : (chanOf s1 c).weave = { w with tail := tailOf r, lastStroke := r.index } := weave_modWeave _ hc
    have hlen1 : c < s1.daq.chans.length := lt_of_lt_of_eq hc (chans_length_modChan ..).symm
    have himg1 : (chanOf s1 c).weave.image = some img := by rw [hset]; exact himg
    have hrest := execStrokeBoundary_rest (cells := false) (ps := [.free, .daq] ++ signalling) (by simp) t ch s
    have hexec : exec (.strokeBoundary t ch) s =
        if w.stop == some .strokeEnd && decide (r.index + 1 < img.strokes.length) then
          .next (endWeave c (strokeEnd r) (modWeave c (fun w => { w with cur := none }) s1))
        else if r.index + 1 < img.strokes.length then .next (beginStroke c (r.index + 1) (strokeEnd r) s1)
        else .next (afterRound c img (strokeEnd r) s1) := by
      have hdone : exec (.strokeBoundary t ch) s = execStrokeBoundary t ch s := rfl
      rw [hdone, execStrokeBoundary]
      simp only [chanOf_tick, show (chanOf s ch.val).weave.state = _ from hstate,
        show (chanOf s ch.val).weave.cur = _ from hcur, show (chanOf s ch.val).weave.image = _ from himg]
      exact if_neg (Nat.not_lt.mpr hend)
    rw [show execStrokeBoundary t ch s = _ from hexec] at hrest
    by_cases hmore : r.index + 1 < img.strokes.length
    · by_cases hstop : w.stop = some .strokeEnd
      · have hcond : (w.stop == some .strokeEnd && decide (r.index + 1 < img.strokes.length)) = true := by simp [hstop, hmore]
        rw [if_pos hcond] at hexec hrest
        have hclear := weave_modWeave (s := s1) (fun w => { w with cur := none }) hlen1
        have hlen2 : c < (modWeave c (fun w => { w with cur := none }) s1).daq.chans.length :=
          lt_of_lt_of_eq hlen1 (chans_length_modChan ..).symm
        have hended := endWeave_at (img := img) (strokeEnd r) hlen2 ((congrArg WeaveSt.image hclear).trans himg1)
        rw [hclear, hset] at hended
        refine happens_next hexec hrest ⟨congrArg WeaveSt.tail hended, fun _ h => absurd hstop h, fun _ _ => ⟨rfl,
          congrArg WeaveSt.state hended, congrArg WeaveSt.cur hended⟩, fun h => absurd hmore (Nat.not_lt.mpr h)⟩
      · have hcond : ¬(w.stop == some .strokeEnd && decide (r.index + 1 < img.strokes.length)) = true := by simp [hstop]
        rw [if_neg hcond, if_pos hmore] at hexec hrest
        obtain ⟨r', hnew, hbegins, -⟩ := beginStroke_at (img := img) (r.index + 1) (strokeEnd r) hlen1 himg1
        rw [hset] at hnew
        refine happens_next hexec hrest ⟨congrArg WeaveSt.tail hnew, fun _ _ => ⟨rfl, (congrArg WeaveSt.state hnew).trans hstate,
          r', congrArg WeaveSt.cur hnew, hbegins⟩, fun _ h => absurd h hstop, fun h => absurd hmore (Nat.not_lt.mpr h)⟩
    · have hcond : ¬(w.stop == some .strokeEnd && decide (r.index + 1 < img.strokes.length)) = true := by simp [hmore]
      rw [if_neg hcond, if_neg hmore] at hexec hrest
      obtain ⟨htail, hround, hover, hgoes⟩ := afterRound_at (img := img) (strokeEnd r) hlen1 himg1
      rw [hset] at htail hround hover hgoes
      refine happens_next hexec hrest ⟨htail, fun h => absurd h hmore, fun h => absurd h hmore, fun _ => ⟨rfl, hround, hover,
        fun hstop hrounds hperiod => ?_⟩⟩
      obtain ⟨hrun, r', hcur', hbegins⟩ := hgoes hstop hrounds hperiod
      exact ⟨hrun.trans hstate, r', hcur', hbegins⟩
  · intro b
    obtain ⟨r, hweave, hbegins, -⟩ := beginRound_at (img := img) b hc himg
    have hexec : exec (.roundStart t ch) s = .next (beginRound c b now) := by
      have hdone : exec (.roundStart t ch) s = execRoundStart t ch s := rfl
      rw [hdone, execRoundStart]
      simp only [chanOf_tick, show (chanOf s ch.val).weave.state = _ from hstate,
        show (chanOf s ch.val).weave.cur = _ from hcur, show (chanOf s ch.val).weave.image = _ from himg]
      exact if_neg (Nat.not_lt.mpr hdue)
    have hrest := execRoundStart_rest (cells := false) (ps := [.free, .daq] ++ signalling) (by simp) t ch s
    rw [show execRoundStart t ch s = _ from hexec] at hrest
    refine happens_next hexec hrest ⟨rfl, ⟨(congrArg WeaveSt.state hweave).trans hstate, r,
      congrArg WeaveSt.cur hweave, hbegins⟩, congrArg WeaveSt.roundStart hweave, ?_⟩
    exact (congrArg WeaveSt.round hweave).trans rfl

end Sys2Proof.Machine
end

section
/-! Failures and spares (R99, R104 to R111, R175, R176). -/

set_option maxRecDepth 4000

namespace Sys2Proof.Machine

section
variable {s u : State} {g c : Nat}

theorem tbAt_of_time (h : u.time = s.time) (t : Time) : tbAt u t = tbAt s t := by
  rw [tbAt, h, tbAt]

/-- A group whose calibration is idle has none to abandon (R109). -/
theorem abandonForFailure_idle (h : (groupOf s g).cal.phase = .idle) : abandonForFailure g s = s := by
  refine if_pos ?_
  rw [h]
  rfl

theorem endSlotOff_idle (h : (groupOf s (c / 8)).cal.phase = .idle) : endSlotOff c s = s := by
  refine if_neg ?_
  simp [h]

/-- Changes of a group that agree on it are the same. -/
theorem modGroup_congr {f h : Group → Group} (heq : ∀ x, x = groupOf s g → f x = h x) : modGroup g f s = modGroup g h s := by
  refine congrArg (fun l => { s with daq := { s.daq with groups := l } }) (modify_congr_getElem _ _ fun x hx => heq x ?_)
  rw [groupOf, List.getD_eq_getElem?_getD, hx]
  rfl

theorem recordFailures_same : Unchanged [.nv, .journal] s (recordFailures s) := .of_rest (recordFailures_rest (by simp) _)

end

/-- The spare takes a failed channel over, or it stays without one (R104, R106, R108). -/
def spareTaken (g c : Nat) (d : Fin 5) (b : Time) (faded : Bool) (s s2 : State) : Outcome :=
  match (groupOf s2 g).spare with
  | .free =>
    let s3 := if d.val < 3 then withholdBad c true b s2 else s2
    let u := calRefresh g (substitute g c s.now s3)
    .next (emit 0x1005 d.val (c + b2n false * 64 + b2n faded * 128) [] (tbAt u b) u)
  | _ =>
    let s3 := if d.val < 3 then withholdBad c false b s2 else s2
    let u := calRefresh g (unsubstitute c s3)
    .next (emit 0x1005 d.val (c + b2n true * 64 + b2n faded * 128) [] (tbAt u b) u)

/-- Settles O35. -/
theorem failuresAndSpares : Obligations.FailuresAndSpares := by
  intro t g s now q k
  refine ⟨fun i d b => ?_, fun c d b hspare hapart => ?_, fun c a hspare ha => ?_, fun c a hspare ha => ?_, fun hphase hrun => ⟨?_, ?_⟩,
    fun ch hg lg hbad hrun => ?_, fun ch hg lg hgood => ?_, fun v a hrun htemp happlied => ?_, fun hrun htemp hfrozen => ?_⟩
  · intro c x s1 hfailed hup hphase hsubst hapart
    have hidle : (groupOf s1 g.val).cal.phase = .idle := by
      have hdaq : s1.daq = (modChan c (fun y => { y with failed := true, failedBy := d.val }) now).daq :=
        recordFailures_same .daq (by decide)
      rw [groupOf, hdaq]
      exact hphase
    have hs2 : (if (groupOf s g.val).cal.chan = c then endSlotOff c (abandonForFailure g.val s1)
        else abandonForFailure g.val s1) = s1 := by
      have hg : c / 8 = g.val := by
        have := i.isLt
        omega
      rw [abandonForFailure_idle hidle]
      split
      · exact endSlotOff_idle (hg.symm ▸ hidle)
      · rfl
    have hspare : (groupOf s1 g.val).spare = q.spare := by
      have hdaq : s1.daq = (modChan c (fun y => { y with failed := true, failedBy := d.val }) now).daq :=
        recordFailures_same .daq (by decide)
      rw [groupOf, hdaq]
      rfl
    have hsub : (x.subst == .calibration) = false ∧ (x.subst == .softFault) = false := by
      rw [hsubst]
      decide
    have hjudged : (x.failed || !isUp now (daqIsland g.val) ||
        (x.subst == .none && !(d.val != 4 || decide (4 ≤ x.disagree)))) = false := by
      rw [hfailed, isUp_tick, hup]
      by_cases hd : d.val = 4 <;> simp [hd, hapart]
    have hdone : exec (.channelFailureDetect t g (some i) d b) s = execChannelFailureDetect t g (some i) d b s := rfl
    have hexec : exec (.channelFailureDetect t g (some i) d b) s = spareTaken g.val c d b (x.fade != .normal) now s1 := by
      refine (hdone.trans ((if_neg (ne_true_of_eq_false hjudged)).trans ((if_neg (ne_true_of_eq_false hsub.1)).trans
        ((if_neg (ne_true_of_eq_false hsub.2)).trans ?_))))
      exact congrArg (spareTaken g.val c d b (x.fade != .normal) now) hs2
    have htb : ∀ y, y.time = s1.time → tbAt y b = tbAt now b := fun y hy =>
      tbAt_of_time (hy.trans (recordFailures_same .time (by decide))) b
    rw [spareTaken] at hexec
    simp only [hspare] at hexec
    refine ⟨fun hfree => ?_, fun hout => ?_⟩
    · simp only [hfree] at hexec
      have hrest : ∀ y, Rest ([.daq, .nv, .journal] ++ signalling) false (calRefresh g.val (substitute g.val c now.now
          (if d.val < 3 then withholdBad c true b y else y))) = Rest ([.daq, .nv, .journal] ++ signalling) false y := by
        intro y
        split <;> simp
      rw [htb _ ((Unchanged.of_rest (hrest s1)) .time (by decide))] at hexec
      refine happens_next hexec ?_ ?_
      · rw [emit_rest (by simp), hrest]
        simp [s1, now]
      · simp [b2n]
    · simp only [hout] at hexec
      have hrest : ∀ y, Rest ([.daq, .nv, .journal] ++ signalling) false (calRefresh g.val (unsubstitute c
          (if d.val < 3 then withholdBad c false b y else y))) = Rest ([.daq, .nv, .journal] ++ signalling) false y := by
        intro y
        split <;> simp
      rw [htb _ ((Unchanged.of_rest (hrest s1)) .time (by decide))] at hexec
      refine happens_next hexec ?_ ?_
      · rw [emit_rest (by simp), hrest]
        simp [s1, now]
      · simp [b2n]
  · have hdone : exec (.channelFailureDetect t g none d b) s = execChannelFailureDetect t g none d b s := rfl
    refine happens_next ?_ ?_ rfl
    · rw [hdone, execChannelFailureDetect]
      simp only [groupOf_tick, show (groupOf s g.val).spare = _ from hspare]
      refine congrArg Host.Outcome.next (if_pos ?_)
      simp only [Bool.or_eq_true, bne_iff_ne, chanOf_tick]
      exact or_iff_not_imp_left.mpr fun h => decide_eq_true (hapart (not_not.mp h))
    · split <;> simp [now]
  · have hdone : exec (.spareConnect t g) s = execSpareConnect t g s := rfl
    refine happens_next ?_ (by simp [now]) rfl
    rw [hdone, execSpareConnect]
    simp only [groupOf_tick, show (groupOf s g.val).spare = _ from hspare]
    exact if_neg (Nat.not_lt.mpr ha)
  · have hdone : exec (.spareSettleEnd t g) s = execSpareSettleEnd t g s := rfl
    refine happens_next ?_ (by simp [now]) rfl
    rw [hdone, execSpareSettleEnd]
    simp only [groupOf_tick, show (groupOf s g.val).spare = _ from hspare]
    exact if_neg (Nat.not_lt.mpr ha)
  · refine happens_next ((if_neg ?_).trans (if_pos rfl)) (by simp) rfl
    simp [show (groupOf s g.val).cal.phase = _ from hphase, hrun]
  · refine happens_next ((if_neg ?_).trans (if_neg (by decide))) (by simp) rfl
    simp [show (groupOf s g.val).cal.phase = _ from hphase, hrun]
  · have hdone : exec (.pathMismatchCheck t ch hg lg) s = execPathMismatchCheck t ch hg lg s := rfl
    have hfar : ¬(!decide (67108864 * 256 < (hg - lg).natAbs * 100000)) = true := by simpa using hbad
    by_cases hfew : (chanOf s ch.val).mismatchCount < 2
    · exact happens_next ((if_neg hfar).trans (if_pos (Nat.succ_lt_succ hfew))) (by simp) (if_pos hfew).symm
    · refine happens_next ((if_neg hfar).trans ((if_neg (fun h => hfew (Nat.lt_of_succ_lt_succ h))).trans
        (congrArg _ (if_pos hrun)))) (by simp) (if_neg hfew).symm
  · refine happens_next (if_pos ?_) (by simp) rfl
    simpa using hgood
  · have hdone : exec (.tempCompUpdate t g) s = execTempCompUpdate t g s := rfl
    refine happens_next ?_ (by simp [now]) rfl
    rw [hdone, execTempCompUpdate]
    refine (if_neg (by simp [hrun])).trans ?_
    simp only [show groupTemp (tick t s) g.val = some v from htemp, groupOf_tick,
      show (groupOf s g.val).tApplied = some a from happlied]
    refine congrArg Host.Outcome.next (modGroup_congr fun x hx => ?_)
    have hx' : x.tApplied = some a := hx ▸ happlied
    simp only [hx', decide_eq_true_eq]
  · have hdone : exec (.tempCompUpdate t g) s = execTempCompUpdate t g s := rfl
    refine happens_next ?_ (by simp [now]) rfl
    rw [hdone, execTempCompUpdate]
    refine (if_neg (by simp [hrun])).trans ?_
    simp only [show groupTemp (tick t s) g.val = none from htemp]
    exact if_neg (by simp [show (groupOf s g.val).compFrozen = false from hfrozen])

end Sys2Proof.Machine
end

section
/-! Calibration slots (R163, R167 to R170). -/

set_option maxRecDepth 4000

namespace Sys2Proof.Machine

section
variable {s : State} {g : Nat}

theorem modCal_modCal (f h : CalSt → CalSt) : modCal g f (modCal g h s) = modCal g (fun k => f (h k)) s := by
  simp [modCal, modGroup, modDaq, List.modify_modify_eq, Function.comp_def]

end

/-- What closes an overlap with the calibration's figures `k`, by its phase (R169, R170). -/
def closeBy (k : CalSt) (g : Nat) (u : State) : Outcome :=
  match k.phase with
  | .connect =>
    if meanOk k.sumNew k.pairs then .next (modCal g (fun k => { k with due := some .toSpare }) u)
    else .next (modCal g (fun k => { k with phase := .recheckIn }) u)
  | .overlapOut =>
    if !k.newSets.isEmpty && meanOk k.sumNew k.pairs then .next (modCal g (fun k => { k with due := some .backNew }) u)
    else if meanOk k.sumOld k.pairs then
      let s1 := modCal g (fun k => { k with due := some .backOld }) u
      .next (if k.newSets.isEmpty then s1 else emitNow 0x1403 0 k.chan [pairWord k.sumNew k.pairs] s1)
    else if !k.secondCal then
      .next (modCal g (fun k => { k with phase := .calibrating, secondCal := true, newSets := [] }) u)
    else .next (modCal g (fun k => { k with phase := .recheckOut }) u)
  | _ => .next u

section
variable {t : Time} {g : Fin 8} {s : State} {c : Nat} {b : Time}

/-- An overlap that has enough pairs closes (R169). -/
theorem calOverlapClose_eq {a : Time} (hfirst : (groupOf s g.val).cal.firstPair = some a) (hlong : a + secU ≤ (tick t s).now)
    (hpairs : 32 ≤ (groupOf s g.val).cal.pairs) (hdue : (groupOf s g.val).cal.due = none) (hrun : s.mgmt.run = true) :
    exec (.calOverlapClose t g) s =
      closeBy (groupOf s g.val).cal g.val (modCal g.val (fun k => { k with closeAt := (tick t s).now }) (tick t s)) := by
  have hdone : exec (.calOverlapClose t g) s = execCalOverlapClose t g s := rfl
  have hpairs' : decide (32 ≤ (groupOf (tick t s) g.val).cal.pairs) = true := decide_eq_true hpairs
  rw [hdone, execCalOverlapClose]
  refine (if_neg ?_).trans rfl
  rw [hpairs', show (groupOf (tick t s) g.val).cal.firstPair = _ from hfirst,
    show (groupOf (tick t s) g.val).cal.due = none from hdue, show (tick t s).mgmt.run = true from hrun]
  simp only [decide_eq_true hlong]
  decide

theorem applyOverlap_guard (hg : c / 8 = g.val) (hchan : (groupOf s g.val).cal.chan = c) (hrun : s.mgmt.run = true) :
    ((groupOf s (c / 8)).cal.chan != c || !s.mgmt.run) = false := by
  simp [hg, hchan, hrun]

/-- At an output boundary the spare connects beside its channel (R168). -/
theorem applyOverlap_connect (hg : c / 8 = g.val) (hchan : (groupOf s g.val).cal.chan = c) (hrun : s.mgmt.run = true)
    (hdue : (groupOf s g.val).cal.due = some .connect) : applyOverlap c b s = startOverlap g.val .connect b s := by
  refine (if_neg (ne_true_of_eq_false (applyOverlap_guard hg hchan hrun))).trans ?_
  rw [hg, hdue]

/-- At an output boundary the channel reconnects beside the spare (R170). -/
theorem applyOverlap_reconnect (hg : c / 8 = g.val) (hchan : (groupOf s g.val).cal.chan = c) (hrun : s.mgmt.run = true)
    (hdue : (groupOf s g.val).cal.due = some .reconnect) :
    applyOverlap c b s = modCal g.val (fun k => { k with outSince := b }) (startOverlap g.val .overlapOut b s) := by
  refine (if_neg (ne_true_of_eq_false (applyOverlap_guard hg hchan hrun))).trans ?_
  rw [hg, hdue]

end

/-- What a handover that is due does at an output boundary, by what is due (R168 to R170). -/
def handover (k : CalSt) (g : Nat) (s : State) : Outcome :=
  match k.due with
  | some .connect => .next (applyOverlap k.chan s.now s)
  | some .reconnect => .next (applyOverlap k.chan s.now s)
  | some .toSpare =>
    .next (modCal g (fun k => { k with phase := .calibrating, due := none, outSince := s.now })
      (switchTo k.chan .calibration k.otherMerger s))
  | some .backNew => .next (handBack g k.chan true s)
  | some .backOld => .next (handBack g k.chan false s)
  | none => .next s

/-- Settles O36. -/
theorem calibrationSlots : Obligations.CalibrationSlots := by
  intro t g s now k ready full boundary
  have hidle : ready → ¬(!isUp now (daqIsland g.val) || !(groupOf now g.val).cal.running ||
      (groupOf now g.val).cal.phase != .idle || (calBlock now g.val).isSome) = true := by
    rintro ⟨hup, hruns, hphase, hblock⟩
    rw [isUp_tick, hup, groupOf_tick, show (groupOf s g.val).cal.running = true from hruns,
      show (groupOf s g.val).cal.phase = .idle from hphase, show calBlock now g.val = none from hblock]
    decide
  have hwaits : (∀ a, k.retryAt = some a → a ≤ now.now) →
      ¬(match (groupOf now g.val).cal.retryAt with | some a => decide (now.now < a) | none => false) = true := by
    intro hretry
    cases h : (groupOf now g.val).cal.retryAt with
    | none => exact Bool.false_ne_true
    | some a => simpa using hretry a h
  have hswitch : boundary → exec (.calHandoverSwitch t g) s = handover k g.val now := by
    rintro ⟨hb, hrun⟩
    refine (if_neg ?_).trans rfl
    rw [show isBoundary (tick t s) (groupOf (tick t s) g.val).cal.chan (tick t s).now = true from hb,
      show (tick t s).mgmt.run = true from hrun]
    decide
  have hempty : k.newSets ≠ [] → (groupOf s g.val).cal.newSets.isEmpty = false := fun h => by
    simpa using h
  refine ⟨fun c rest dT hready hturn hretry htemp => ?_, fun a c dT hready hturn hdue ha hnext htemp => ?_,
    fun c rest dT hready hturn hretry htemp => ?_, fun hphase hrun => ?_, fun hb hg hdue => ?_, fun hfull hphase => ?_,
    fun hfull hphase hsets hmean => ?_, fun hfull hphase hsets hmean hold => ?_, fun hb hdue => ?_, fun hb hdue => ?_,
    fun r fits hphase hdue hrun hsub => ?_, fun hb hg hdue => ?_⟩
  · have hdone : exec (.calSlotStart t g dT) s = execCalSlotStart t g dT s := rfl
    refine happens_next ?_ (by simp [now]) rfl
    rw [hdone, execCalSlotStart]
    refine (if_neg (hidle hready)).trans ?_
    rw [show (groupOf (tick t s) g.val).cal.outOfTurn = c :: rest from hturn]
    exact (if_neg (hwaits hretry)).trans (if_neg (Nat.not_lt.mpr htemp))
  · have hdone : exec (.calSlotStart t g dT) s = execCalSlotStart t g dT s := rfl
    refine happens_next ?_ (by simp [now]) rfl
    rw [hdone, execCalSlotStart]
    refine (if_neg (hidle hready)).trans ?_
    rw [show (groupOf (tick t s) g.val).cal.outOfTurn = [] from hturn]
    refine (if_neg ?_).trans ((if_neg (Nat.not_lt.mpr htemp)).trans ?_)
    · rw [show slotDue (tick t s) g.val = some a from hdue]
      simp only [show decide (a ≤ (tick t s).now) = true from decide_eq_true ha]
      decide
    · rw [show nextIncluded (tick t s) g.val = some c from hnext]
  · have hdone : exec (.calSlotStart t g dT) s = execCalSlotStart t g dT s := rfl
    refine happens_next ?_ (by simp [now]) rfl
    rw [hdone, execCalSlotStart]
    refine (if_neg (hidle hready)).trans ?_
    rw [show (groupOf (tick t s) g.val).cal.outOfTurn = c :: rest from hturn]
    exact (if_neg (hwaits hretry)).trans (if_pos htemp)
  · refine happens_next (if_pos ?_) (by simp) rfl
    rw [Bool.and_eq_true]
    exact ⟨beq_iff_eq.mpr hphase, hrun⟩
  · refine happens_next ((hswitch hb).trans ?_) (by simp [now]) rfl
    rw [handover, show k.due = some .connect from hdue]
    exact congrArg _ (applyOverlap_connect (s := now) hg rfl hb.2 hdue)
  · obtain ⟨⟨a, hfirst, hlong⟩, hpairs, hdue, hrun⟩ := hfull
    have hexec := calOverlapClose_eq hfirst hlong hpairs hdue hrun
    rw [closeBy, show (groupOf s g.val).cal.phase = .connect from hphase] at hexec
    by_cases hmean : meanOk k.sumNew k.pairs = true
    · refine happens_next (hexec.trans (if_pos hmean)) (by simp) ((modCal_modCal ..).trans ?_)
      exact congrArg (fun f => modCal g.val f now) (funext fun _ => (if_pos hmean).symm)
    · refine happens_next (hexec.trans (if_neg hmean)) (by simp) ((modCal_modCal ..).trans ?_)
      exact congrArg (fun f => modCal g.val f now) (funext fun _ => (if_neg hmean).symm)
  · obtain ⟨⟨a, hfirst, hlong⟩, hpairs, hdue, hrun⟩ := hfull
    have hexec := calOverlapClose_eq hfirst hlong hpairs hdue hrun
    rw [closeBy, show (groupOf s g.val).cal.phase = .overlapOut from hphase] at hexec
    refine happens_next (hexec.trans (if_pos ?_)) (by simp) (modCal_modCal ..)
    rw [hempty hsets, hmean]
    decide
  · obtain ⟨⟨a, hfirst, hlong⟩, hpairs, hdue, hrun⟩ := hfull
    have hexec := calOverlapClose_eq hfirst hlong hpairs hdue hrun
    rw [closeBy, show (groupOf s g.val).cal.phase = .overlapOut from hphase] at hexec
    refine happens_next (hexec.trans ((if_neg ?_).trans ((if_pos hold).trans (congrArg _ (if_neg ?_))))) (by simp) ?_
    · rw [hmean, Bool.and_false]
      exact Bool.false_ne_true
    · rw [hempty hsets]
      exact Bool.false_ne_true
    · rw [modCal_modCal]
  · refine happens_next ((hswitch hb).trans ?_) (by simp [now]) rfl
    rw [handover, show k.due = some .toSpare from hdue]
  · refine happens_next ((hswitch hb).trans ?_) (by simp [now]) rfl
    rw [handover, show k.due = some .backNew from hdue]
  · have hguard : ((groupOf (tick t s) g.val).cal.phase != .calibrating || (groupOf (tick t s) g.val).cal.due.isSome ||
        !(tick t s).mgmt.run) = false := by
      rw [groupOf_tick, show (groupOf s g.val).cal.phase = .calibrating from hphase,
        show (groupOf s g.val).cal.due = none from hdue, show (tick t s).mgmt.run = true from hrun]
      decide
    have hserved : ∀ y : State, y.daq.chans = s.daq.chans → ¬((chanOf y k.chan).subst == .none) = true := by
      intro y hy
      rw [show chanOf y k.chan = chanOf s k.chan from congrArg (fun l => List.getD l k.chan default) hy]
      simpa using hsub
    refine happens_next ((if_neg (ne_true_of_eq_false hguard)).trans (if_neg ?_)) ?_ ?_
    · exact hserved _ (by cases fits <;> rfl)
    · cases fits <;> simp
    · cases fits <;> rfl
  · refine happens_next ((hswitch hb).trans ?_) (by simp [now]) rfl
    rw [handover, show k.due = some .reconnect from hdue]
    exact congrArg _ (applyOverlap_reconnect (s := now) hg rfl hb.2 hdue)

end Sys2Proof.Machine
end
